-- ==== Sys2Proof/Word.lean ====
section
/-! DEFINITION. The plain word types of the model (R4: every register is 32 bits wide; R2: memory is bytes). -/

namespace Sys2Proof

/-- One byte of memory (R2). -/
abbrev Byte := BitVec 8

/-- One register or descriptor word (R4). -/
abbrev Word := BitVec 32

/-- One 64-bit lane, record or signature word. -/
abbrev DWord := BitVec 64

end Sys2Proof
end

