-- ==== Sys2Proof/Machine/Sparse.lean ====
section
/-! DEFINITION. Sparse storage: a list of (key, value) pairs with keys strictly rising and no pair that repeats what an
unlisted key reads as, so that equal contents are equal data.
The function `d` says what an unlisted key reads as. -/

namespace Sys2Proof.Machine

/-- What key `a` reads as in `m`, where an unlisted key reads as `d` says. -/
def sparseGet {α : Type} (d : Nat → α) (a : Nat) : List (Nat × α) → α
  | [] => d a
  | (b, w) :: t => if a < b then d a else if a = b then w else sparseGet d a t

/-- `m` with key `a` holding `v`, in canonical form. -/
def sparsePut {α : Type} [DecidableEq α] (d : Nat → α) (a : Nat) (v : α) : List (Nat × α) → List (Nat × α)
  | [] => if v = d a then [] else [(a, v)]
  | (b, w) :: t =>
    if a < b then (if v = d a then (b, w) :: t else (a, v) :: (b, w) :: t)
    else if a = b then
      (if v = d a then t.dropWhile (fun p => decide (p.1 ≤ a)) else (a, v) :: t)
    else (b, w) :: sparsePut d a v t

/-- The canonical form, checked from a key that every listed key must exceed (none: no bound). -/
def sparseWfFrom {α : Type} [DecidableEq α] (d : Nat → α) : Option Nat → List (Nat × α) → Bool
  | _, [] => true
  | lo, (b, w) :: t =>
    (match lo with | none => true | some k => decide (k < b)) && decide (w ≠ d b) && sparseWfFrom d (some b) t

/-- Keys strictly rising, and no pair equal to what an unlisted key reads as. -/
def sparseWf {α : Type} [DecidableEq α] (d : Nat → α) (m : List (Nat × α)) : Bool := sparseWfFrom d none m

/-- The pairs put one after another, the last one winning. -/
def sparsePutAll {α : Type} [DecidableEq α] (d : Nat → α) (m : List (Nat × α)) : List (Nat × α) → List (Nat × α)
  | [] => m
  | (a, v) :: t => sparsePutAll d (sparsePut d a v m) t

end Sys2Proof.Machine
end

