-- ==== Sys2Proof/Machine/RegFile.lean ====
section
/-! DEFINITION. How the model describes the registers of BAR0: access codes (R9), effect classes (R12), fields and
register descriptions. -/

namespace Sys2Proof.Machine

/-- The access codes of R9. -/
inductive Access where
  | rw | ro | wo | w1c | w1s | rc | rwc | lck
deriving DecidableEq, Repr

/-- The effect classes of R12; `n` where a register table gives none. -/
inductive Effect where
  | i | s | c | b | n
deriving DecidableEq, Repr

/-- One field of a register: its lowest bit, width, access code, effect class, reset value and the bounds within
which a written value is stored. -/
structure FieldDesc where
  lo : Nat
  width : Nat
  acc : Access
  eff : Effect
  rst : Nat
  least : Nat
  most : Nat
deriving DecidableEq, Repr

/-- One register of R451: its name, the address of its first copy, the stride and count of each index it carries,
and its fields that are not reserved. -/
structure RegDesc where
  name : String
  addr : Nat
  dims : List (Nat × Nat)
  fields : List FieldDesc
deriving DecidableEq, Repr

/-- A field at one address: the register's address, the field's lowest bit and its width. -/
structure Fld where
  addr : Nat
  lo : Nat
  width : Nat
deriving DecidableEq, Repr

/-- The value a field holds in a register word (R1). -/
def fieldOf (lo width : Nat) (w : Word) : Nat := (w.toNat / 2 ^ lo) % 2 ^ width

/-- A register word with one field set (R1); a value too wide is cut to the field. -/
def withField (lo width v : Nat) (w : Word) : Word :=
  BitVec.ofNat 32 (w.toNat % 2 ^ lo + (v % 2 ^ width) * 2 ^ lo + (w.toNat / 2 ^ (lo + width)) * 2 ^ (lo + width))

/-- An unsigned field value read as two's complement (R3). -/
def signedOf (width v : Nat) : Int := if v < 2 ^ (width - 1) then (v : Int) else (v : Int) - (2 ^ width : Nat)

/-- A signed value as the two's complement field that holds it (R3). -/
def unsignedOf (width : Nat) (v : Int) : Nat := (v % (2 ^ width : Nat)).toNat

/-- Whether an offset is one of the copies that the strides and counts give (R451). -/
def dimsMatch : List (Nat × Nat) → Nat → Bool
  | [], off => off == 0
  | [(st, n)], off => off % st == 0 && decide (off / st < n)
  | (st, n) :: rest, off => decide (off / st < n) && dimsMatch rest (off % st)

/-- Whether the register has a copy at the address. -/
def descAt (d : RegDesc) (a : Nat) : Bool := decide (d.addr ≤ a) && dimsMatch d.dims (a - d.addr)

end Sys2Proof.Machine
end

