-- ==== Sys2Proof/Machine/Bits.lean ====
section
/-! DEFINITION. Byte order (R2), bit slices (R1) and the check codes the chapters share: CRC-32C (R172), the CRC-64 of R296
and the CRC-8 of R205. -/

namespace Sys2Proof.Machine

/-- Bits `[lo + w - 1 : lo]` of a number (R1). -/
def bits (lo w n : Nat) : Nat := (n / 2 ^ lo) % 2 ^ w

/-- Bit `i` of a number (R1). -/
def bitAt (i n : Nat) : Bool := (n / 2 ^ i) % 2 == 1

/-- A Bool as a field value. -/
def bitOf (b : Bool) : Nat := if b then 1 else 0

/-- The number that a list of bytes spells, lowest address first (R2). -/
def leNat : List Byte → Nat
  | [] => 0
  | b :: t => b.toNat + 256 * leNat t

/-- A number as `n` bytes, lowest address first (R2). -/
def leBytes : Nat → Nat → List Byte
  | 0, _ => []
  | n + 1, v => BitVec.ofNat 8 v :: leBytes n (v / 256)

/-- Unsigned little-endian field of `n` bytes at byte `off` of a record. -/
def leAt (off n : Nat) (bs : List Byte) : Nat := leNat ((bs.drop off).take n)

/-- Signed little-endian field of `n` bytes at byte `off` of a record (R3). -/
def leAtS (off n : Nat) (bs : List Byte) : Int := signedOf (8 * n) (leAt off n bs)

/-- A word of 2n bits on two data pairs: bit 2i on D0 and bit 2i + 1 on D1 in UI i, with FRM high (R229, R255). -/
def portUis (n v : Nat) : List (Bool × Bool × Bool) := (List.range n).map (fun i => (bitAt (2 * i) v, bitAt (2 * i + 1) v, true))

/-- `n` rounded up to a multiple of `m`. -/
def roundUp (m n : Nat) : Nat := ((n + m - 1) / m) * m

/-- The quotient rounded up. -/
def ceilDiv (a b : Nat) : Nat := (a + b - 1) / b

/-- Rounding to nearest with halves to even of `n / d` (R89). -/
def roundHalfEven (n d : Int) : Int :=
  let q := n / d
  let r := n % d
  if 2 * r < d then q else if 2 * r > d then q + 1 else if q % 2 = 0 then q else q + 1

/-- A signed value held within two bounds. -/
def clampInt (lo hi v : Int) : Int := if v < lo then lo else if hi < v then hi else v

/-- A count that stops at its field's largest value. -/
def satAdd (width v n : Nat) : Nat := min (v + n) (2 ^ width - 1)

/-- One bit step of the reflected CRC-32C (R172). -/
def crc32cBit (c : BitVec 32) : BitVec 32 :=
  if c.getLsbD 0 then (c >>> 1) ^^^ 0x82F63B78#32 else c >>> 1

/-- One byte into the reflected CRC-32C register (R172). -/
def crc32cByte (c : BitVec 32) (b : Byte) : BitVec 32 :=
  crc32cBit (crc32cBit (crc32cBit (crc32cBit (crc32cBit (crc32cBit (crc32cBit (crc32cBit (c ^^^ b.setWidth 32))))))))

/-- CRC-32C with initial value all ones and final complement (R172). -/
def crc32c (bs : List Byte) : BitVec 32 := ~~~ (bs.foldl crc32cByte 0xFFFFFFFF#32)

/-- One bit step of the CRC-8 with polynomial 0x07, most significant bit first (R205). -/
def crc8Bit (c : BitVec 8) : BitVec 8 := if c.getLsbD 7 then (c <<< 1) ^^^ 0x07#8 else c <<< 1

/-- One byte into the CRC-8 register (R205). -/
def crc8Byte (c b : BitVec 8) : BitVec 8 :=
  crc8Bit (crc8Bit (crc8Bit (crc8Bit (crc8Bit (crc8Bit (crc8Bit (crc8Bit (c ^^^ b))))))))

/-- CRC-8, initial value 0, no reflection, no final complement (R205). -/
def crc8 (bs : List Byte) : BitVec 8 := bs.foldl crc8Byte 0#8

/-- One bit step of the ECMA-182 CRC-64, not reflected (R296). -/
def crc64Bit (c : BitVec 64) : BitVec 64 :=
  if c.getLsbD 63 then (c <<< 1) ^^^ 0x42F0E1EBA9EA3693#64 else c <<< 1

/-- One byte into the CRC-64 register, most significant bit first (R296). -/
def crc64Byte (c : BitVec 64) (b : Byte) : BitVec 64 :=
  crc64Bit (crc64Bit (crc64Bit (crc64Bit (crc64Bit (crc64Bit (crc64Bit (crc64Bit (c ^^^ (b.setWidth 64 <<< 56)))))))))

/-- The CRC-64 register of R296 carried on over further bytes, without the final complement. -/
def crc64Fold (c : BitVec 64) (bs : List Byte) : BitVec 64 := bs.foldl crc64Byte c

/-- CRC-64 with initial value all ones and final complement (R296). -/
def crc64 (bs : List Byte) : BitVec 64 := ~~~ (crc64Fold 0xFFFFFFFFFFFFFFFF#64 bs)

end Sys2Proof.Machine
end

