-- ==== Sys2Proof/Machine/Shape.lean ====
section
/-! DEFINITION. The shape record of the configuration (R424) and what derives from it (R22 to R26, R425). -/

namespace Sys2Proof.Machine

/-- The structural parameters of the shape record (R424). -/
structure Shape where
  pitch : Nat
  cols : Nat
  rows : Nat
  stagger : Nat
  rowPitch : Nat
  tile : Nat
  leadLimit : Nat
  passesMax : Nat
  depthMax : Nat
  gateMin : Nat
  gateMax : Nat
  tminFloor : Nat
  regattaMax : Nat
  roles : List Nat
  stageOrder : List Nat
deriving DecidableEq, Repr

/-- The defaults of R424: islets 0 to 119 RASTER (0), 120 to 123 RESERVE (1), 124 to 127 ADMIT (2). -/
def shapeDefault : Shape where
  pitch := 10240
  cols := 1024
  rows := 1024
  stagger := 8
  rowPitch := 4
  tile := 512
  leadLimit := 2048
  passesMax := 8
  depthMax := 16
  gateMin := 96
  gateMax := 1280
  tminFloor := 12800
  regattaMax := 4096
  roles := List.replicate 120 0 ++ List.replicate 4 1 ++ List.replicate 4 2
  stageOrder := [1, 2, 3, 4, 5, 6, 7, 8]

/-- Tracks W of the course (R425). -/
def Shape.tracks (c : Shape) : Nat := c.stagger * c.cols

/-- Tiles per band, T of R32. -/
def Shape.tilesPerBand (c : Shape) : Nat := c.tracks / c.tile

/-- Seats per crew in use (R425). -/
def Shape.seats (c : Shape) : Nat := c.rows / c.stagger

/-- The crew span (R25, R425). -/
def Shape.crewSpan (c : Shape) : Nat := c.rowPitch * (c.rows - 1)

/-- The offset `o(t, s)` of seat s of track t (R136, R425). -/
def Shape.offset (c : Shape) (t s : Nat) : Nat := c.rowPitch * (t % c.stagger + c.stagger * s)

/-- Beam lanes that carry frames (R425). -/
def Shape.beamLanes (c : Shape) : Nat := c.tracks / 64

/-- Wake slots: 6,144 rows in bands of one tile edge (R157, R425). -/
def Shape.wakeSlots (c : Shape) : Nat := 6144 / c.tile

/-- Bands of a course of L pixel rows (R41). -/
def Shape.bands (c : Shape) (lengthPx : Nat) : Nat := ceilDiv lengthPx c.tile

/-- The last stroke of a course (R138): its last pixel row at the last beamlet row. -/
def Shape.lastStroke (c : Shape) (lengthPx : Nat) : Nat := lengthPx - 1 + c.crewSpan

end Sys2Proof.Machine
end

