-- ==== Sys2Proof/Machine/Slz.lean ====
section
/-! DEFINITION. The SLZ codec as functions of bytes: the token grammar (R66 to R68), the decoder and its errors (R69 to
R71), and the encoder of the job engine (R79, R80). -/

namespace Sys2Proof.Machine

/-- The decode error names of R70. -/
inductive SlzName where
  | none | illegalCode | distance | lengthOverrun
deriving DecidableEq, Repr

/-- The code of a name (R70). -/
def slzNameCode : SlzName → Nat
  | .none => 0
  | .illegalCode => 1
  | .distance => 2
  | .lengthOverrun => 3

/-- What a decoder leaves: the bytes produced, and the error name with the input offset of the failing token (R70).
OUT_COUNT is the number of bytes produced. -/
structure SlzOut where
  bytes : List Byte
  name : SlzName
  inOffset : Nat
deriving DecidableEq, Repr

/-- A token's effect: literal bytes, a copy of length n at distance d, or the end (R66). -/
inductive SlzToken where
  | lit (bs : List Byte)
  | copy (n d : Nat)
  | fin
deriving DecidableEq, Repr

/-- The token that starts with `tag` and goes on in `rest`, with its size in bytes; none is ILLEGAL_CODE (R66, R68). -/
def slzToken (tag : Byte) (rest : List Byte) : Option (SlzToken × Nat) :=
  let t := tag.toNat
  if t < 0x80 then
    if t + 1 ≤ rest.length then some (.lit (rest.take (t + 1)), t + 2) else none
  else if t < 0xC0 then
    if 1 ≤ rest.length then some (.copy (bits 3 3 t + 3) (bits 0 3 t * 256 + leAt 0 1 rest + 1), 2) else none
  else if t < 0xE0 then
    if 3 ≤ rest.length then
      let v := leAt 0 3 rest
      some (.copy (bits 20 4 v * 32 + bits 0 5 t + 3) (bits 0 20 v + 1), 4)
    else none
  else if t = 0xF0 then
    let n := leAt 0 2 rest + 1
    if 2 ≤ rest.length ∧ n + 2 ≤ rest.length then some (.lit ((rest.drop 2).take n), n + 3) else none
  else if t = 0xF1 then
    let w := leAt 2 3 rest
    if 5 ≤ rest.length ∧ bits 20 4 w = 0 then some (.copy (leAt 0 2 rest + 3) (bits 0 20 w + 1), 6) else none
  else if t = 0xFF then some (.fin, 1)
  else none

/-- A copy, byte by byte, on the output held last byte first (R67). -/
def slzCopy : Nat → Nat → List Byte → List Byte
  | 0, _, out => out
  | n + 1, d, out => slzCopy n d (out.getD (d - 1) 0 :: out)

/-- The decode loop of R69, one token a round; `pos` counts input bytes, `cnt` output bytes, `out` holds the output
last byte first. -/
def slzLoop : Nat → List Byte → Nat → Nat → List Byte → Nat → SlzOut
  | 0, _, pos, _, out, _ => { bytes := out.reverse, name := .illegalCode, inOffset := pos }
  | _ + 1, [], pos, _, out, _ => { bytes := out.reverse, name := .illegalCode, inOffset := pos }
  | fuel + 1, tag :: rest, pos, cnt, out, limit =>
    match slzToken tag rest with
    | none => { bytes := out.reverse, name := .illegalCode, inOffset := pos }
    | some (.fin, _) =>
      if rest.isEmpty then { bytes := out.reverse, name := .none, inOffset := 0 }
      else { bytes := out.reverse, name := .illegalCode, inOffset := pos }
    | some (.lit bs, size) =>
      if limit < cnt + bs.length then { bytes := out.reverse, name := .lengthOverrun, inOffset := pos }
      else slzLoop fuel (rest.drop (size - 1)) (pos + size) (cnt + bs.length) (bs.reverse ++ out) limit
    | some (.copy n d, size) =>
      if cnt < d then { bytes := out.reverse, name := .distance, inOffset := pos }
      else if limit < cnt + n then { bytes := out.reverse, name := .lengthOverrun, inOffset := pos }
      else slzLoop fuel (rest.drop (size - 1)) (pos + size) (cnt + n) (slzCopy n d out) limit

/-- Decode one stream under an output limit (R69, R71: the history starts empty). -/
def slzDecode (input : List Byte) (limit : Nat) : SlzOut := slzLoop (input.length + 1) input 0 0 [] limit

/-- The level table of R80: DEPTH, NICE, LAZY. -/
def slzLevel (level : Nat) : Nat × Nat × Bool :=
  match level with
  | 0 => (1, 32, false)
  | 1 => (16, 258, false)
  | 2 => (128, 1024, true)
  | _ => (4096, 65538, true)

/-- Whether position i has a key (R80). -/
def slzHasKey (s : Array Byte) (i : Nat) : Bool := decide (i + 4 ≤ s.size)

/-- The hash h(i) of R80. -/
def slzHash (s : Array Byte) (i : Nat) : Nat :=
  let k := (s.getD i 0).toNat + 256 * (s.getD (i + 1) 0).toNat + 65536 * (s.getD (i + 2) 0).toNat
    + 16777216 * (s.getD (i + 3) 0).toNat
  ((k * 0x9E3779B1) % 2 ^ 32) / 2 ^ 17

/-- The positions below i that the chain of h(i) links, nearest first (R80).
At each search every keyed position below i has been inserted, so the chain is these. -/
def slzChain (s : Array Byte) (i : Nat) : List Nat :=
  (List.range i).reverse.filter (fun j => slzHasKey s j && slzHash s j == slzHash s i)

/-- The length of the match of position j at position i, at most `fuel` (R80). -/
def slzMatchLen (s : Array Byte) (j i : Nat) : Nat → Nat → Nat
  | 0, n => n
  | fuel + 1, n =>
    if i + n < s.size ∧ n < 65538 ∧ s.getD (j + n) 0 = s.getD (i + n) 0 then slzMatchLen s j i fuel (n + 1) else n

/-- The candidates tried in turn: the longest match wins, ties keep the nearer, NICE ends the search (R80). -/
def slzTry (s : Array Byte) (i nice : Nat) : List Nat → Nat → Nat → Nat → Nat × Nat
  | [], _, best, bd => (best, bd)
  | j :: js, tried, best, bd =>
    if tried = 0 ∨ 1048576 < i - j then (best, bd)
    else
      let n := slzMatchLen s j i 65538 0
      let better := decide (best < n)
      let best' := if better then n else best
      let bd' := if better then i - j else bd
      if nice ≤ best' then (best', bd') else slzTry s i nice js (tried - 1) best' bd'

/-- search(i) of R80: length and distance, (0, 0) for no match of 4 bytes. -/
def slzSearch (s : Array Byte) (level i : Nat) : Nat × Nat :=
  if slzHasKey s i then
    let (depth, nice, _) := slzLevel level
    let r := slzTry s i nice (slzChain s i) depth 0 0
    if 4 ≤ r.1 then r else (0, 0)
  else (0, 0)

/-- A literal run as LIT tokens of at most 128 bytes (R80). -/
def slzEmitLit : Nat → List Byte → List Byte
  | 0, _ => []
  | fuel + 1, run =>
    if run.isEmpty then []
    else if 128 < run.length then
      (127 : Byte) :: run.take 128 ++ slzEmitLit fuel (run.drop 128)
    else BitVec.ofNat 8 (run.length - 1) :: run

/-- A match as SHORT, LONG or XMATCH (R80). -/
def slzEmitMatch (n d : Nat) : List Byte :=
  if n ≤ 10 ∧ d ≤ 2048 then
    [BitVec.ofNat 8 (0x80 + 8 * (n - 3) + (d - 1) / 256), BitVec.ofNat 8 ((d - 1) % 256)]
  else if n ≤ 514 then
    BitVec.ofNat 8 (0xC0 + (n - 3) % 32) :: leBytes 3 (2 ^ 20 * ((n - 3) / 32) + (d - 1))
  else (0xF1 : Byte) :: (leBytes 2 (n - 3) ++ leBytes 3 (d - 1))

/-- The parse of R80 from position i, with the literal run so far held last byte first. -/
def slzParse (s : Array Byte) (level : Nat) : Nat → Nat → List Byte → List Byte
  | 0, _, _ => []
  | fuel + 1, i, lit =>
    if i < s.size then
      let (_, nice, lazyOn) := slzLevel level
      let (n, d) := slzSearch s level i
      let (n2, _) := if lazyOn && decide (0 < n ∧ n < nice) then slzSearch s level (i + 1) else (0, 0)
      if n = 0 ∨ n < n2 then slzParse s level fuel (i + 1) (s.getD i 0 :: lit)
      else slzEmitLit (lit.length + 1) lit.reverse ++ slzEmitMatch n d ++ slzParse s level fuel (i + n) []
    else slzEmitLit (lit.length + 1) lit.reverse ++ [(0xFF : Byte)]

/-- The stream the job engine makes of a source at a level (R79, R80). -/
def slzEncode (src : List Byte) (level : Nat) : List Byte :=
  slzParse src.toArray level (src.length + 1) 0 []

end Sys2Proof.Machine
end

