-- ==== Sys2Proof/Machine/Layout.lean ====
section
/-! DEFINITION. The layout stream as functions of bytes: records, shapes and repeat arrays of a tile segment (R34 to R35, R46
to R52), the header section and the tile index (R32, R36 to R44), and the layout errors with the places they are
reported at (R53, R72). -/

namespace Sys2Proof.Machine

/-- The layout errors of R53. -/
inductive LayoutError where
  | magic | version | geometry | badRecord | badOrder | badLength | pass | cls | range | badHull | nestedRepeat
  | rep | index | tileCrc | tileLength | codec | descriptor
deriving DecidableEq, Repr

/-- The code of a layout error (R53). -/
def layoutCode : LayoutError → Nat
  | .magic => 1
  | .version => 2
  | .geometry => 3
  | .badRecord => 4
  | .badOrder => 5
  | .badLength => 6
  | .pass => 7
  | .cls => 8
  | .range => 9
  | .badHull => 10
  | .nestedRepeat => 11
  | .rep => 12
  | .index => 13
  | .tileCrc => 14
  | .tileLength => 15
  | .codec => 16
  | .descriptor => 17

/-- A shape in course coordinates, 1/64 px (R46, R47). -/
inductive Geom where
  | trap (x0 x1 yl0 yu0 yl1 yu1 : Int)
  | hull (vs : List (Int × Int))
deriving DecidableEq, Repr

/-- A shape as drawn, with its dose class. -/
structure Drawn where
  cls : Nat
  geom : Geom
deriving DecidableEq, Repr

/-- The fields of a record header (R34). -/
structure RecHead where
  typ : Nat
  cls : Nat
  param : Nat
  len : Nat
deriving DecidableEq, Repr

/-- The record header at byte `off` (R34). -/
def recHead (off : Nat) (bs : List Byte) : RecHead where
  typ := leAt off 1 bs
  cls := leAt (off + 1) 1 bs
  param := leAt (off + 2) 2 bs
  len := leAt (off + 4) 4 bs

/-- Whether a TYPE is listed in R35. -/
def typeListed (t : Nat) : Bool := [0x01, 0x02, 0x03, 0x04, 0x10, 0x11, 0x12, 0x7F].contains t

/-- The LENGTH that the table of R35 gives for a record of a tile segment. -/
def segLength (t param : Nat) : Nat :=
  if t = 0x10 then 32 else if t = 0x11 then 8 + 8 * param else if t = 0x12 then 24 else 8

/-- The header checks of R35, in their order, for a record of a tile segment or repeat body that may run to `limit`. -/
def segHeadError (h : RecHead) (off limit : Nat) : Option LayoutError :=
  if !typeListed h.typ then some .badRecord
  else if h.typ < 0x10 then some .badOrder
  else if h.typ = 0x11 ∧ (h.param < 3 ∨ 8 < h.param) then some .badHull
  else if h.typ ≠ 0x11 ∧ h.param ≠ 0 then some .badRecord
  else if h.len ≠ segLength h.typ h.param ∨ limit < off + h.len then some .badLength
  else if h.typ ≠ 0x10 ∧ h.typ ≠ 0x11 ∧ h.cls ≠ 0 then some .badRecord
  else none

/-- Whether a coordinate lies in the range of R30. -/
def inRange30 (v : Int) : Bool := decide (-1073741824 ≤ v ∧ v ≤ 1073741824)

/-- The vertices of a hull record (R47). -/
def hullVertices : Nat → Nat → List Byte → List (Int × Int)
  | 0, _, _ => []
  | v + 1, off, bs => (leAtS off 4 bs, leAtS (off + 4) 4 bs) :: hullVertices v (off + 8) bs

/-- Consecutive differences of a closed outline, edge i from vertex i to vertex i + 1. -/
def outlineEdges (vs : List (Int × Int)) : List (Int × Int) :=
  List.zipWith (fun p q => (q.1 - p.1, q.2 - p.2)) vs (vs.drop 1 ++ vs.take 1)

/-- The half-plane class UP of an edge direction (R47). -/
def edgeUp (e : Int × Int) : Bool := decide (0 < e.2 ∨ (e.2 = 0 ∧ 0 < e.1))

/-- The conditions of R47: every turn positive, and the class of the edges changes exactly twice round the outline. -/
def hullConvex (vs : List (Int × Int)) : Bool :=
  let es := outlineEdges vs
  let pairs := List.zip es (es.drop 1 ++ es.take 1)
  pairs.all (fun p => decide (0 < p.1.1 * p.2.2 - p.1.2 * p.2.1)) &&
    ((pairs.filter (fun p => edgeUp p.1 != edgeUp p.2)).length == 2)

/-- The shape of a trapezoid or hull record at `off` (R46, R47). -/
def geomAt (h : RecHead) (off : Nat) (bs : List Byte) : Geom :=
  if h.typ = 0x10 then
    .trap (leAtS (off + 8) 4 bs) (leAtS (off + 12) 4 bs) (leAtS (off + 16) 4 bs) (leAtS (off + 20) 4 bs)
      (leAtS (off + 24) 4 bs) (leAtS (off + 28) 4 bs)
  else .hull (hullVertices h.param (off + 8) bs)

/-- The x and the y coordinates of a shape. -/
def geomXs : Geom → List Int
  | .trap x0 x1 _ _ _ _ => [x0, x1]
  | .hull vs => vs.map Prod.fst

/-- The y coordinates of a shape. -/
def geomYs : Geom → List Int
  | .trap _ _ yl0 yu0 yl1 yu1 => [yl0, yu0, yl1, yu1]
  | .hull vs => vs.map Prod.snd

/-- A shape translated (R48). -/
def geomShift (dx dy : Int) : Geom → Geom
  | .trap x0 x1 yl0 yu0 yl1 yu1 => .trap (x0 + dx) (x1 + dx) (yl0 + dy) (yu0 + dy) (yl1 + dy) (yu1 + dy)
  | .hull vs => .hull (vs.map (fun p => (p.1 + dx, p.2 + dy)))

/-- Whether every coordinate of a shape lies in the range of R30 once it is translated. -/
def geomInRange (g : Geom) (dx dy : Int) : Bool :=
  (geomXs g).all (fun x => inRange30 (x + dx)) && (geomYs g).all (fun y => inRange30 (y + dy))

/-- The checks of a shape record's own fields: CLASS (R39), then the range of its coordinates (R30), the rule of the shape (R46, R47) and the
range in the other instances of an array (R49, log entry 42). `ex` and `ey` are the largest translations. -/
def shapeError (ncls : Nat) (h : RecHead) (g : Geom) (ex ey : Int) : Option LayoutError :=
  if ncls ≤ h.cls then some .cls
  else if !geomInRange g 0 0 then some .range
  else match g with
    | .trap x0 x1 yl0 yu0 yl1 yu1 =>
      if x0 < x1 ∧ yl0 ≤ yu0 ∧ yl1 ≤ yu1 ∧ geomInRange g ex ey then none else some .range
    | .hull vs => if !hullConvex vs then some .badHull else if geomInRange g ex ey then none else some .range

/-- A finding at a record: the error, the offset it is reported at, and where the record ends. -/
structure SegFail where
  err : LayoutError
  off : Nat
  ends : Nat
deriving DecidableEq, Repr

/-- What reading a segment's records gives: the shapes, an error, the bytes ending within the record at `off`, or no end
record found by `off`. -/
inductive SegResult where
  | ok (items : List Drawn)
  | fail (f : SegFail)
  | stopped (off : Nat)
  | noEnd (off : Nat)
deriving DecidableEq, Repr

/-- The records of a repeat body from `off` to `stop`, as far as their bytes have appeared (R49, R72): where they stand and the record
within which the bytes end, or REPEAT or NESTED_REPEAT with the bytes that show it. `nested` is such a place of a nested array. A body
record whose LENGTH is below 8, no multiple of 8 or past the body is REPEAT at the array (DESIGN CHOICE, log entry 41). -/
def bodyScan (bs : List Byte) (stop : Nat) : Nat → Nat → List Nat → Option Nat → Except (LayoutError × Nat) (List Nat × Option Nat)
  | 0, off, _, _ => .error (.rep, off)
  | fuel + 1, off, starts, nested =>
    let finish := fun (n : Option Nat) (at' : Option Nat) =>
      match n with
      | some e => Except.error (LayoutError.nestedRepeat, e)
      | none => Except.ok (starts.reverse, at')
    if stop ≤ off then finish nested none
    else if bs.length < off + 8 then finish nested (some off)
    else
      let h := recHead off bs
      let n := if h.typ = 0x12 then some (nested.getD (off + 8)) else nested
      if h.len < 8 ∨ h.len % 8 ≠ 0 ∨ stop < off + h.len ∨ h.typ = 0x7F then .error (.rep, off + 8)
      else if bs.length < off + h.len then finish n (some off)
      else bodyScan bs stop fuel (off + h.len) (off :: starts) n

/-- The shapes of a repeat body's records, or the first that fails (R49). -/
def bodyShapes (bs : List Byte) (ncls stop : Nat) (ex ey : Int) : List Nat → List Drawn → Except SegFail (List Drawn)
  | [], acc => .ok acc.reverse
  | off :: rest, acc =>
    let h := recHead off bs
    match segHeadError h off stop with
    | some e => .error { err := e, off := off, ends := off + h.len }
    | none =>
      let g := geomAt h off bs
      match shapeError ncls h g ex ey with
      | some e => .error { err := e, off := off, ends := off + h.len }
      | none => bodyShapes bs ncls stop ex ey rest ({ cls := h.cls, geom := g } :: acc)

/-- The instances of a repeat array, j outer, i inner (R48, R49). -/
def repeatShapes (nx ny : Nat) (dx dy : Int) (body : List Drawn) : List Drawn :=
  (List.range ny).flatMap (fun j => (List.range nx).flatMap (fun i =>
    body.map (fun d => { d with geom := geomShift ((i : Int) * dx) ((j : Int) * dy) d.geom })))

/-- The records of a segment of `n` decoded bytes, of which `bs` have been produced, from `off` on (R35, R46 to R50). -/
def segRecords (bs : List Byte) (n ncls : Nat) : Nat → Nat → List Drawn → SegResult
  | 0, off, _ => .noEnd off
  | fuel + 1, off, acc =>
    if n ≤ off then .noEnd off
    else if bs.length < off + 8 then .stopped off
    else
      let h := recHead off bs
      match segHeadError h off n with
      | some e => .fail { err := e, off := off, ends := off + max 8 h.len }
      | none =>
        if bs.length < off + h.len then .stopped off
        else if h.typ = 0x7F then
          if off + 8 = n then .ok acc else .fail { err := .tileLength, off := off + 8, ends := off + 8 }
        else if h.typ = 0x12 then
          let nx := leAt (off + 8) 2 bs
          let ny := leAt (off + 10) 2 bs
          let body := leAt (off + 12) 4 bs
          let dx := leAtS (off + 16) 4 bs
          let dy := leAtS (off + 20) 4 bs
          let first := off + 24
          if nx = 0 ∨ ny = 0 ∨ 1048576 < nx * ny ∨ body = 0 ∨ body % 8 ≠ 0 ∨ n < first + body + 8 then
            .fail { err := .rep, off := off, ends := off + 24 }
          else match bodyScan bs (first + body) (body + 1) first [] none with
            | .error (e, ends) => .fail { err := e, off := off, ends := ends }
            | .ok (starts, ended) =>
              match bodyShapes bs ncls (first + body) (((nx : Int) - 1) * dx) (((ny : Int) - 1) * dy) starts [] with
              | .error f => .fail f
              | .ok shapes =>
                match ended with
                | some q => .stopped q
                | none => segRecords bs n ncls fuel (first + body) (acc ++ repeatShapes nx ny dx dy shapes)
        else
          let g := geomAt h off bs
          match shapeError ncls h g 0 0 with
          | some e => .fail { err := e, off := off, ends := off + h.len }
          | none => segRecords bs n ncls fuel (off + h.len) (acc ++ [{ cls := h.cls, geom := g }])

/-- A tile index entry (R42). -/
structure TileEntry where
  segOffset : Nat
  segStored : Nat
  segRaw : Nat
  stored : Bool
  empty : Bool
  dclass : Nat
  rsvd : Nat
  segCrc : Nat
deriving DecidableEq, Repr

/-- The 16 bytes of a tile index entry (R42). -/
def tileEntry (bs : List Byte) : TileEntry :=
  let w0 := leAt 0 8 bs
  let w1 := leAt 8 8 bs
  { segOffset := bits 0 40 w0, segStored := bits 40 24 w0, segRaw := bits 0 24 w1, stored := bitAt 24 w1,
    empty := bitAt 25 w1, dclass := bits 26 2 w1, rsvd := bits 28 4 w1, segCrc := bits 32 32 w1 }

/-- Whether an entry meets R43 for a stream of `len` bytes whose header section ends at `hdrEnd`. -/
def tileEntryOk (e : TileEntry) (hdrEnd len : Nat) : Bool :=
  if e.empty then
    decide (e.segOffset = 0 ∧ e.segStored = 0 ∧ e.segRaw = 0 ∧ e.dclass = 0 ∧ e.rsvd = 0 ∧ e.segCrc = 0) && !e.stored
  else
    decide (hdrEnd ≤ e.segOffset ∧ e.segOffset + e.segStored ≤ len ∧ e.segOffset % 8 = 0 ∧ 8 ≤ e.segRaw
      ∧ e.segRaw % 8 = 0 ∧ e.rsvd = 0) && (!e.stored || e.segStored == e.segRaw)

/-- How a tile's decode ends: the shapes, or the layout error with its offset and the codec's report (R72). -/
structure TileDecode where
  items : List Drawn
  err : Option LayoutError
  off : Nat
  name : SlzName
  inOffset : Nat
  outCount : Nat
deriving DecidableEq, Repr

/-- A tile decode that ends in a layout error. -/
def tileFail (e : LayoutError) (off : Nat) (z : SlzOut) : TileDecode :=
  { items := [], err := some e, off := off, name := z.name, inOffset := z.inOffset, outCount := z.bytes.length }

/-- Decode a tile's stored segment (R44, R50, R53, R72): the codec, the records, then SEG_CRC as the last check. -/
def decodeTile (e : TileEntry) (ncls : Nat) (seg : List Byte) : TileDecode :=
  if e.empty then { items := [], err := none, off := 0, name := .none, inOffset := 0, outCount := 0 }
  else
    let z : SlzOut := if e.stored then { bytes := seg, name := .none, inOffset := 0 } else slzDecode seg e.segRaw
    let out := z.bytes.length
    let r := segRecords z.bytes e.segRaw ncls (out + 1) 0 []
    let whole := decide (z.name = .none ∧ out = e.segRaw)
    let ended : LayoutError := if z.name = .illegalCode ∨ z.name = .distance then .codec else .tileLength
    match r with
    | .fail f => if whole || decide (f.ends ≤ out) then tileFail f.err f.off z else tileFail ended f.off z
    | .stopped off => tileFail ended off z
    | .noEnd off => if whole then tileFail .tileLength (e.segRaw - 8) z else tileFail ended off z
    | .ok items =>
      if !whole then tileFail ended out z
      else if (crc32c z.bytes).toNat ≠ e.segCrc then tileFail .tileCrc 0 z
      else { items := items, err := none, off := 0, name := .none, inOffset := 0, outCount := out }

/-- Whether a stored segment decodes to SEG_RAW bytes that carry SEG_CRC (R44). -/
def segmentWhole (e : TileEntry) (seg : List Byte) : Bool :=
  let z : SlzOut := if e.stored then { bytes := seg, name := .none, inOffset := 0 } else slzDecode seg e.segRaw
  decide (z.name = .none ∧ z.bytes.length = e.segRaw ∧ (crc32c z.bytes).toNat = e.segCrc)

/-- One dose class: CLASS_DOSE in 1/16 du, and BSE (R38). -/
structure DoseClass where
  dose : Nat
  bse : Bool
deriving DecidableEq, Repr

/-- One pass block: grid offsets in 1/64 px and the dose scale in 1/32,768 (R40). -/
structure PassBlock where
  offX : Int
  offY : Int
  scale : Nat
deriving DecidableEq, Repr

/-- The header section of a stream that passed its checks (R32, R36 to R43). -/
structure StreamHead where
  lengthPx : Nat
  plateId : Nat
  courseNo : Nat
  passes : Nat
  poly : List Int
  classes : List DoseClass
  blocks : List PassBlock
  indexAt : Nat
  headEnd : Nat
  spills : Bool
deriving DecidableEq, Repr

/-- The bytes of a stream: `rd off n` gives n bytes from byte off of the stream base. -/
abbrev StreamRead := Nat → Nat → List Byte

/-- The course header's checks, in their order (R35, R36, R425). -/
def courseHeadError (c : Shape) (bs : List Byte) (len : Nat) : Option LayoutError :=
  let h := recHead 0 bs
  let l := leAt 16 4 bs
  if len < 8 then some .badLength
  else if !typeListed h.typ then some .badRecord
  else if h.typ ≠ 0x01 then some .badOrder
  else if h.param ≠ 0 then some .badRecord
  else if h.len ≠ 120 ∨ len < 120 then some .badLength
  else if h.cls ≠ 0 then some .badRecord
  else if leAt 8 4 bs ≠ 0x534C5331 then some .magic
  else if leAt 12 2 bs ≠ 1 then some .version
  else if leAt 14 2 bs ≠ c.tracks ∨ l = 0 ∨ 16777216 < l ∨ leAt 20 4 bs ≠ c.pitch ∨ leAt 32 1 bs = 0
      ∨ c.passesMax < leAt 32 1 bs then some .geometry
  else if leAt 33 7 bs ≠ 0 then some .badRecord
  else none

/-- The header checks of R35 for a record of the header section that must be of TYPE `want` with LENGTH `lenOk`. -/
def hdrHeadError (h : RecHead) (want : Nat) (paramOk : Bool) (lenOk off len : Nat) : Option LayoutError :=
  if !typeListed h.typ then some .badRecord
  else if h.typ ≠ want then some .badOrder
  else if !paramOk then some .badRecord
  else if h.len ≠ lenOk ∨ len < off + h.len then some .badLength
  else if h.cls ≠ 0 then some .badRecord
  else none

/-- The dose class table at byte 120: its entries and its end, or its error (R35, R38). -/
def classTable (rd : StreamRead) (len : Nat) : Except (LayoutError × Nat) (List DoseClass × Nat) :=
  let h := recHead 0 (rd 120 8)
  let n := h.param
  let size := roundUp 8 (8 + 4 * n)
  if len < 128 then .error (.badLength, 120)
  else match hdrHeadError h 0x02 (decide (1 ≤ n ∧ n ≤ 256)) size 120 len with
    | some e => .error (e, 120)
    | none =>
      let bs := rd 128 (size - 8)
      let ents := (List.range n).map (fun i => leAt (4 * i) 4 bs)
      if ents.any (fun w => bits 17 15 w != 0) || leAt (4 * n) (size - 8 - 4 * n) bs != 0 then .error (.badRecord, 120)
      else .ok (ents.map (fun w => { dose := bits 0 16 w, bse := bitAt 16 w }), 120 + size)

/-- The length of the tile index record (R35). -/
def indexSize (c : Shape) (lengthPx : Nat) : Nat := 16 + 16 * (c.tilesPerBand * c.bands lengthPx)

/-- A pass block's own checks before the one of its place: its offsets and its reserved bytes (R40). -/
def blockError (bs : List Byte) : Option LayoutError :=
  if leAtS 8 2 bs < -63 ∨ 63 < leAtS 8 2 bs ∨ leAtS 10 2 bs < -63 ∨ 63 < leAtS 10 2 bs then some .geometry
  else if leAt 14 2 bs ≠ 0 then some .badRecord
  else none

/-- The pass blocks from index p on, at byte `off` (R35, R40): a tile index that stands where one is due is PASS once its own header
checks pass, and any other record there is BAD_ORDER (log entry 41). -/
def passBlocks (rd : StreamRead) (len passes idx : Nat) :
    Nat → Nat → Nat → List PassBlock → Except (LayoutError × Nat) (List PassBlock × Nat)
  | 0, _, off, acc => .ok (acc.reverse, off)
  | fuel + 1, p, off, acc =>
    if passes ≤ p then .ok (acc.reverse, off)
    else if len < off + 8 then .error (.badLength, off)
    else
      let h := recHead 0 (rd off 8)
      if h.typ = 0x04 then .error ((hdrHeadError h 0x04 (decide (h.param = 0)) idx off len).getD .pass, off)
      else match hdrHeadError h 0x03 (decide (h.param ≤ 7)) 16 off len with
        | some e => .error (e, off)
        | none =>
          let bs := rd off 16
          match blockError bs with
          | some e => .error (e, off)
          | none =>
          if h.param ≠ p then .error (.pass, off)
          else passBlocks rd len passes idx fuel (p + 1) (off + 16)
            ({ offX := leAtS 8 2 bs, offY := leAtS 10 2 bs, scale := leAt 12 2 bs } :: acc)

/-- The bytes a segment may hold without the spill area (R85). -/
def decodeWindow : Nat := 49152

/-- The tile index and the end record at byte `off` (R35, R41, R43, R86): the error, or the end of the header section and the
note of R86. -/
def tileIndexEnd (rd : StreamRead) (c : Shape) (len lengthPx off : Nat) (spillEn : Bool) :
    Except (LayoutError × Nat) (Nat × Bool) :=
  let bands := c.bands lengthPx
  let n := c.tilesPerBand * bands
  let size := indexSize c lengthPx
  let last := off + size
  let h := recHead 0 (rd off 8)
  if len < off + 8 then .error (.badLength, off)
  else if h.typ = 0x03 then
    .error (((hdrHeadError h 0x03 (decide (h.param ≤ 7)) 16 off len).or (blockError (rd off 16))).getD .pass, off)
  else match hdrHeadError h 0x04 (decide (h.param = 0)) size off len with
    | some e => .error (e, off)
    | none =>
      if leAt 0 4 (rd (off + 12) 4) ≠ 0 then .error (.badRecord, off)
      else if leAt 0 4 (rd (off + 8) 4) ≠ bands then .error (.index, off)
      else if !((List.range n).all (fun i => tileEntryOk (tileEntry (rd (off + 16 + 16 * i) 16)) (last + 8) len)) then
        .error (.index, off)
      else
        let spills := (List.range n).any (fun i => decodeWindow < (tileEntry (rd (off + 16 + 16 * i) 16)).segRaw)
        if spills && !spillEn then .error (.index, off)
        else
        let t := recHead 0 (rd last 8)
        if len < last + 8 then .error (.badLength, last)
        else match hdrHeadError t 0x7F (decide (t.param = 0)) 8 last len with
          | some e => .error (e, last)
          | none => .ok (last + 8, spills)

/-- Where the entries of the tile index stand and how many there are, once every check before them has passed (R61). -/
def indexPlace (rd : StreamRead) (c : Shape) (len : Nat) : Option (Nat × Nat) :=
  let ch := rd 0 120
  let l := leAt 16 4 ch
  match classTable rd len with
  | .error _ => none
  | .ok (_, o1) =>
    match passBlocks rd len (leAt 32 1 ch) (indexSize c l) (leAt 32 1 ch + 1) 0 o1 [] with
    | .error _ => none
    | .ok (_, o2) =>
      let h := recHead 0 (rd o2 8)
      if len < o2 + 8 ∨ h.typ = 0x03 ∨ (hdrHeadError h 0x04 (decide (h.param = 0)) (indexSize c l) o2 len).isSome
        ∨ leAt 0 4 (rd (o2 + 12) 4) ≠ 0 ∨ leAt 0 4 (rd (o2 + 8) 4) ≠ c.bands l then none
      else some (o2 + 16, c.tilesPerBand * c.bands l)

/-- The first tile whose index entry a reader cannot read, where no entry before it fails its checks (R43, R289): its number in band-major
order and the entry's offset. -/
def lostIndexEntry (rd : StreamRead) (bad : Nat → Nat → Bool) (c : Shape) (len : Nat) : Option (Nat × Nat) :=
  match indexPlace rd c len with
  | none => none
  | some (at0, n) =>
    ((List.range n).findSome? (fun i =>
      if bad (at0 + 16 * i) 16 then some (some (i, at0 + 16 * i))
      else if tileEntryOk (tileEntry (rd (at0 + 16 * i) 16)) (at0 + 16 * n + 8) len then none
      else some none)).join

/-- The rest of the header section after a course header that passed (R61 item 5). PLATE_ID and COURSE_NO are kept and copied into no
record: no record layout of the spec has a field for them (DESIGN CHOICE, log entry 96). -/
def restOfHead (rd : StreamRead) (c : Shape) (len : Nat) (spillEn : Bool) : Except (LayoutError × Nat) StreamHead :=
  let ch := rd 0 120
  let l := leAt 16 4 ch
  let passes := leAt 32 1 ch
  match classTable rd len with
  | .error e => .error e
  | .ok (classes, o1) =>
    match passBlocks rd len passes (indexSize c l) (passes + 1) 0 o1 [] with
    | .error e => .error e
    | .ok (blocks, o2) =>
      match tileIndexEnd rd c len l o2 spillEn with
      | .error e => .error e
      | .ok (e, spills) => .ok {
          lengthPx := l, plateId := leAt 24 4 ch, courseNo := leAt 28 4 ch, passes := passes,
          poly := (List.range 20).map (fun i => leAtS (40 + 4 * i) 4 ch), classes := classes, blocks := blocks,
          indexAt := o2, headEnd := e, spills := spills }

/-- The tile index entry of tile (b, k) (R41). -/
def tileEntryAt (rd : StreamRead) (c : Shape) (h : StreamHead) (b k : Nat) : TileEntry :=
  tileEntry (rd (h.indexAt + 16 + 16 * (c.tilesPerBand * b + k)) 16)

/-- The decode of tile (b, k) from its stream (R44, R72). -/
def decodeTileAt (rd : StreamRead) (c : Shape) (h : StreamHead) (b k : Nat) : TileDecode :=
  let e := tileEntryAt rd c h b k
  decodeTile e h.classes.length (rd e.segOffset e.segStored)

end Sys2Proof.Machine
end

