-- ==== Sys2Proof/Machine/Place.lean ====
section
/-! DEFINITION. From records to placed outlines (R87, R88), the placement polynomial and the affine map of a tile (R89 to R93). -/

namespace Sys2Proof.Machine

/-- The outline of a shape, counter-clockwise (R87). -/
def outlineOf : Geom → List (Int × Int)
  | .trap x0 x1 yl0 yu0 yl1 yu1 => [(x0, yl0), (x1, yl1), (x1, yu1), (x0, yu0)]
  | .hull vs => vs

/-- The exponents of u and v in the term order of R37. -/
def polyTerms : List (Nat × Nat) :=
  [(0, 0), (1, 0), (0, 1), (2, 0), (1, 1), (0, 2), (3, 0), (2, 1), (1, 2), (0, 3)]

/-- One group of the polynomial at (x, y), as a numerator over 2^90 (R90: u = x / 2^19, v = y / 2^30). -/
def polyValue (cs : List Int) (x y : Int) : Int :=
  (List.zipWith (fun c t => c * x ^ t.1 * y ^ t.2 * 2 ^ (90 - 19 * t.1 - 30 * t.2)) cs polyTerms).sum

/-- The derivative along u of one group, as a numerator over 2^90 (R91). -/
def polyDu (cs : List Int) (x y : Int) : Int :=
  (List.zipWith (fun c t =>
    if t.1 = 0 then 0 else c * t.1 * x ^ (t.1 - 1) * y ^ t.2 * 2 ^ (90 - 19 * (t.1 - 1) - 30 * t.2)) cs polyTerms).sum

/-- The derivative along v of one group, as a numerator over 2^90 (R91). -/
def polyDv (cs : List Int) (x y : Int) : Int :=
  (List.zipWith (fun c t =>
    if t.2 = 0 then 0 else c * t.2 * x ^ t.1 * y ^ (t.2 - 1) * 2 ^ (90 - 19 * t.1 - 30 * (t.2 - 1))) cs polyTerms).sum

/-- The six coefficients of a tile's placement, in units of 2^-40, and its centre (R91). -/
structure Placement where
  a0 : Int
  a1 : Int
  a2 : Int
  b0 : Int
  b1 : Int
  b2 : Int
  xc : Int
  yc : Int
deriving DecidableEq, Repr

/-- The placement of tile (b, k) of edge `n` px under the 20 coefficients of POLY (R91). -/
def tilePlacement (poly : List Int) (n b k : Nat) : Placement :=
  let xc : Int := 64 * (n * k + n / 2)
  let yc : Int := 64 * (n * b + n / 2)
  let px := poly.take 10
  let py := poly.drop 10
  { a0 := roundHalfEven (2 ^ 24 * polyValue px xc yc) (2 ^ 90)
    a1 := roundHalfEven (2 ^ 5 * polyDu px xc yc) (2 ^ 90)
    a2 := roundHalfEven (polyDv px xc yc) (2 ^ 96)
    b0 := roundHalfEven (2 ^ 24 * polyValue py xc yc) (2 ^ 90)
    b1 := roundHalfEven (2 ^ 5 * polyDu py xc yc) (2 ^ 90)
    b2 := roundHalfEven (polyDv py xc yc) (2 ^ 96)
    xc := xc, yc := yc }

/-- A vertex placed (R91). -/
def placeVertex (p : Placement) (v : Int × Int) : Int × Int :=
  (v.1 + roundHalfEven (p.a0 + p.a1 * (v.1 - p.xc) + p.a2 * (v.2 - p.yc)) (2 ^ 40),
   v.2 + roundHalfEven (p.b0 + p.b1 * (v.1 - p.xc) + p.b2 * (v.2 - p.yc)) (2 ^ 40))

/-- The outline of a shape in tile-local coordinates: pass offset (R88), placement (R91), tile origin (R94). -/
def placedOutline (p : Placement) (blk : PassBlock) (n b k : Nat) (g : Geom) : List (Int × Int) :=
  (outlineOf g).map (fun v =>
    let q := placeVertex p (v.1 + blk.offX, v.2 + blk.offY)
    (q.1 - 64 * (n * k : Nat), q.2 - 64 * (n * b : Nat)))

/-- The bound of R92 on one group: the sum of |C_m| times the exponent of u. -/
def polyBoundOk (poly : List Int) : Bool :=
  let s := fun (cs : List Int) => (List.zipWith (fun c t => c.natAbs * t.1) cs polyTerms).sum
  decide (s (poly.take 10) ≤ 67108863) && decide (s (poly.drop 10) ≤ 67108863)

end Sys2Proof.Machine
end

