-- ==== Sys2Proof/Machine/Cover.lean ====
section
/-! DEFINITION. Exact-area coverage (R94 to R98), incidences and the measured density class (R99, R100). -/

namespace Sys2Proof.Machine

/-- An edge of an outline that is not parallel to the scan, ordered by x, with the sign of its contribution (R95). -/
structure CoverEdge where
  neg : Bool
  x0 : Int
  y0 : Int
  x1 : Int
  y1 : Int
deriving DecidableEq, Repr

/-- The edges of a closed outline that contribute (R95). -/
def coverEdges (vs : List (Int × Int)) : List CoverEdge :=
  (List.zip vs (vs.drop 1 ++ vs.take 1)).filterMap (fun (s, e) =>
    if s.1 = e.1 then none
    else if s.1 < e.1 then some { neg := true, x0 := s.1, y0 := s.2, x1 := e.1, y1 := e.2 }
    else some { neg := false, x0 := e.1, y0 := e.2, x1 := s.1, y1 := s.2 })

/-- Q of R95: the clamped integral of an edge above a pixel bottom, in 2^-24 px². -/
def edgeQ (x0 y0 d dy xa xb yb : Int) : Int :=
  if dy = 0 then 4096 * clampInt 0 64 (y0 - yb) * (xb - xa)
  else
    let na := (y0 - yb) * d + (xa - x0) * dy
    let nb := (y0 - yb) * d + (xb - x0) * dy
    let nlo := min na nb
    let nhi := max na nb
    let m := 64 * d
    let clo := clampInt 0 m nlo
    let chi := clampInt 0 m nhi
    let e := max (nhi - m) 0 - max (nlo - m) 0
    roundHalfEven (2048 * (chi * chi - clo * clo + 128 * d * e)) (d * dy.natAbs)

/-- The span of an edge within pixel column i, if any (R95). -/
def edgeSpan (e : CoverEdge) (i : Nat) : Option (Int × Int) :=
  let xa := max e.x0 (64 * (i : Int))
  let xb := min e.x1 (64 * (i : Int) + 64)
  if xb ≤ xa then none else some (xa, xb)

/-- The unsigned contribution of an edge to pixel (i, j), with the span (R95). -/
def edgePixel (e : CoverEdge) (i j : Nat) : Option (Int × Int) :=
  (edgeSpan e i).map (fun (xa, xb) => (edgeQ e.x0 e.y0 (e.x1 - e.x0) (e.y1 - e.y0) xa xb (64 * (j : Int)), xb - xa))

/-- S of a shape at pixel (i, j), in 2^-24 px² (R95). -/
def pixelS (es : List CoverEdge) (i j : Nat) : Int :=
  (es.map (fun e => match edgePixel e i j with
    | none => 0
    | some (q, _) => if e.neg then -q else q)).sum

/-- The coverage of a pixel by a shape, in 1/4096 px² (R96). -/
def coverage (s : Int) : Nat := (clampInt 0 4096 (roundHalfEven s 4096)).toNat

/-- A shape of a tile after placement: its class and its edges. -/
structure PlacedShape where
  cls : Nat
  outline : List (Int × Int)
  edges : List CoverEdge
deriving DecidableEq, Repr

/-- The placed shapes of a tile (R88 to R95). -/
def placedShapes (p : Placement) (blk : PassBlock) (n b k : Nat) (items : List Drawn) : List PlacedShape :=
  items.map (fun d =>
    let vs := placedOutline p blk n b k d.geom
    { cls := d.cls, outline := vs, edges := coverEdges vs })

/-- The incidences of one shape at one pixel (R99). -/
def pixelIncidences (es : List CoverEdge) (i j : Nat) : Nat :=
  (es.filter (fun e => match edgePixel e i j with
    | none => false
    | some (q, w) => decide (0 < q ∧ q < 4096 * 64 * w))).length

/-- The incidence count E of a tile of edge n px (R99). -/
def tileIncidences (n : Nat) (shapes : List PlacedShape) : Nat :=
  ((List.range n).map (fun j => ((List.range n).map (fun i =>
    (shapes.map (fun s => pixelIncidences s.edges i j)).sum)).sum)).sum

/-- The measured density class (R100). -/
def densityClass (e : Nat) : Nat :=
  if e ≤ 32768 then 0 else if e ≤ 131072 then 1 else if e ≤ 524288 then 2 else 3

end Sys2Proof.Machine
end

