-- ==== Sys2Proof/Machine/Dose.lean ====
section
/-! DEFINITION. From coverage to pixel dose (R111 to R113, R115, R116), the backscatter look-ahead (R117 to R124, R127) and the
interpolation of the factor (R128). -/

namespace Sys2Proof.Machine

/-- The dose of a class, 0 for a class beyond the table (R111). -/
def classDose (cs : List DoseClass) (c : Nat) : Nat := ((cs[c]?).map DoseClass.dose).getD 0

/-- The accumulated dose A of pixel (i, j), 40 bits, saturating (R98, R111). -/
def pixelA (cs : List DoseClass) (shapes : List PlacedShape) (i j : Nat) : Nat :=
  min ((shapes.map (fun s => coverage (pixelS s.edges i j) * classDose cs s.cls)).sum) (2 ^ 40 - 1)

/-- The pixel dose P in du and its saturation flag (R112, R113). -/
def pixelDose (a f g scale pixMax : Nat) : Nat × Bool :=
  let b := roundHalfEven (a * f) (2 ^ 14)
  let c := roundHalfEven (b * g) (2 ^ 15)
  let d := roundHalfEven (c * scale) (2 ^ 15)
  let p := (roundHalfEven d (2 ^ 16)).toNat
  if pixMax < p ∨ a = 2 ^ 40 - 1 then (pixMax, true) else (p, false)

/-- F of pixel (x, y) from the cell factors (R128). -/
def interpolate (fc : Int → Int → Nat) (x y : Nat) : Nat :=
  let xx : Int := 2 * x + 1 - 64
  let yy : Int := 2 * y + 1 - 64
  let i0 := xx / 128
  let fx := xx - 128 * i0
  let j0 := yy / 128
  let fy := yy - 128 * j0
  (roundHalfEven ((128 - fx) * (128 - fy) * fc i0 j0 + fx * (128 - fy) * fc (i0 + 1) j0
    + (128 - fx) * fy * fc i0 (j0 + 1) + fx * fy * fc (i0 + 1) (j0 + 1)) 16384).toNat

/-- Density rows of a course: N of R117. -/
def densityRows (lengthPx : Nat) : Nat := ceilDiv lengthPx 64

/-- The work area's size in bytes (R127). -/
def workAreaSize (lengthPx : Nat) : Nat := roundUp 4096 (1536 * (densityRows lengthPx + 302))

/-- The integral of an edge's height above `ya`, held to 0 .. ht, over x from xa to xb, exact (R119). -/
def edgeArea (e : CoverEdge) (xa xb ya ht : Int) : Rat :=
  let d := e.x1 - e.x0
  let dy := e.y1 - e.y0
  if dy = 0 then ((clampInt 0 ht (e.y0 - ya) * (xb - xa) : Int) : Rat)
  else
    let na := (e.y0 - ya) * d + (xa - e.x0) * dy
    let nb := (e.y0 - ya) * d + (xb - e.x0) * dy
    let nlo := min na nb
    let nhi := max na nb
    let m := ht * d
    let clo := clampInt 0 m nlo
    let chi := clampInt 0 m nhi
    let ex := max (nhi - m) 0 - max (nlo - m) 0
    ((chi * chi - clo * clo + 2 * m * ex : Int) : Rat) / ((2 * d * dy.natAbs : Int) : Rat)

/-- The exact area of an outline within a rectangle, in (1/64 px)² (R119). -/
def areaInRect (es : List CoverEdge) (xa xb ya yb : Int) : Rat :=
  if xb ≤ xa ∨ yb ≤ ya then 0
  else (es.map (fun e =>
    let l := max e.x0 xa
    let r := min e.x1 xb
    if r ≤ l then 0
    else
      let q := edgeArea e l r ya (yb - ya)
      if e.neg then -q else q)).sum

/-- A cell's rectangle cut to a tile's counted region, in 1/64 px: xa, xb, ya, yb (R117, R118). -/
def countedCell (n tiles bands b k : Nat) (x y : Int) : Int × Int × Int × Int :=
  let xa := if k = 0 then 4096 * x else max (4096 * x) (64 * (n * k : Nat))
  let xb := if k + 1 = tiles then 4096 * x + 4096 else min (4096 * x + 4096) (64 * (n * k + n : Nat))
  let ya := if b = 0 then 4096 * y else max (4096 * y) (64 * (n * b : Nat))
  let yb := if b + 1 = bands then 4096 * y + 4096 else min (4096 * y + 4096) (64 * (n * b + n : Nat))
  (xa, xb, ya, yb)

/-- The cells of one axis that a tile's counted region can reach: from `lo` to `hi` inclusive. -/
def countedCells (n last i cells : Nat) : Int × Int :=
  (if i = 0 then -151 else ((n * i / 64 : Nat) : Int),
   if i = last then (cells : Int) + 150 else ((n * (i + 1) / 64 : Nat) : Int) - 1)

/-- An integer interval as a list. -/
def intRange (lo hi : Int) : List Int := (List.range (hi + 1 - lo).toNat).map (fun (i : Nat) => lo + (i : Int))

/-- The key under which cell (x, y) of the density grid is held: 1,024 cells a row, from x = -151, y = -151. -/
def cellKey (x y : Int) : Nat := ((y + 151) * 1024 + (x + 151)).toNat

/-- The dose-weighted contributions of a tile's shapes to the density cells (R119, R120). -/
def tileDensity (c : Shape) (cs : List DoseClass) (lengthPx b k : Nat) (items : List Drawn) : List (Nat × Nat) :=
  let bands := c.bands lengthPx
  let (xl, xh) := countedCells c.tile (c.tilesPerBand - 1) k (c.tracks / 64)
  let (yl, yh) := countedCells c.tile (bands - 1) b (densityRows lengthPx)
  let parts := (items.filter (fun d => ((cs[d.cls]?).map DoseClass.bse).getD false)).map
    (fun d => (classDose cs d.cls, coverEdges (outlineOf d.geom)))
  (intRange yl yh).flatMap (fun y => (intRange (max xl (-150)) (min xh ((c.tracks / 64 : Nat) + 149))).filterMap (fun x =>
    let (xa, xb, ya, yb) := countedCell c.tile c.tilesPerBand bands b k x y
    let w := (parts.map (fun (dose, es) =>
      let q := areaInRect es xa xb ya yb
      (roundHalfEven q.num q.den).toNat * dose)).sum
    if w = 0 then none else some (cellKey x y, w)))

/-- The density of a cell from its weighted sum (R120). -/
def densityOf (sum ref : Nat) : Nat :=
  min 65535 (roundHalfEven (2 ^ 14 * (min sum (2 ^ 48 - 1) : Nat)) (2 ^ 24 * ref)).toNat

/-- A kernel bank's contents (R121). -/
structure Kernel where
  radius : Nat
  eta : List Nat
  taps : List (List Nat)
deriving DecidableEq, Repr

/-- Tap m of a term, symmetric and 0 beyond RADIUS (R121). -/
def kernelTap (k : Kernel) (g : Nat) (m : Int) : Nat :=
  if k.radius < m.natAbs then 0 else (k.taps.getD g []).getD m.natAbs 0

/-- The convolution across the scan (R122). -/
def convH (k : Kernel) (g : Nat) (d : Int → Int → Nat) (x y : Int) : Nat :=
  (roundHalfEven ((intRange (-k.radius) k.radius).map (fun m => ((kernelTap k g m * d (x + m) y : Nat) : Int))).sum
    (2 ^ 16)).toNat

/-- The convolution along the scan (R122); h outside the grid is 0. -/
def convRho (k : Kernel) (g : Nat) (d : Int → Int → Nat) (lo hi : Int) (x y : Int) : Nat :=
  (roundHalfEven ((intRange (-k.radius) k.radius).map (fun m =>
    if y + m < lo ∨ hi < y + m then 0 else ((kernelTap k g m * convH k g d x (y + m) : Nat) : Int))).sum (2 ^ 16)).toNat

/-- The factor F of a cell (R123). `lo` and `hi` bound the rows of the grid. -/
def cellFactor (k : Kernel) (d : Int → Int → Nat) (lo hi : Int) (x y : Int) : Nat :=
  let used := (List.range 3).filter (fun g => k.eta.getD g 0 != 0)
  let num := 8192 + (used.map (fun g => k.eta.getD g 0)).sum
  let den := 8192 + roundHalfEven ((used.map (fun g => ((k.eta.getD g 0 * convRho k g d lo hi x y : Nat) : Int))).sum) (2 ^ 14)
  min 65535 (roundHalfEven (num * 2 ^ 14) den).toNat

/-- The kernel bank's validity rule (R133). -/
def kernelValid (pitch : Nat) (k : Kernel) : Bool :=
  decide (1 ≤ k.radius ∧ k.radius ≤ 150 ∧ k.radius * 64 * pitch ≤ 49152000) &&
    (List.range 3).all (fun g => k.eta.getD g 0 == 0 ||
      kernelTap k g 0 + 2 * (((List.range k.radius).map (fun (m : Nat) => kernelTap k g (m + 1))).sum) == 65536)

end Sys2Proof.Machine
end

