-- ==== Sys2Proof/Machine/Split.lean ====
section
/-! DEFINITION. Seats, crews and the dose split (R136 to R151), the beam map's entries and derived fields (R139 to R142), and the
wake cell (R152, R153, R155). -/

namespace Sys2Proof.Machine

/-- The host's fields of a beam map entry (R140): STATE, ON_DOSE, the reserved bits and NOTE, as stored. -/
def entryState (e : Nat) : Nat := bits 0 2 e

/-- ON_DOSE of an entry (R140). -/
def entryOnDose (e : Nat) : Nat := bits 4 4 e

/-- The bits of an entry that the host writes; the device computes the others (R140, R141). -/
def entryHostBits (e : Nat) : Nat := bits 0 8 e + bits 35 29 e * 2 ^ 35

/-- The validity of a shadow entry (R142). -/
def entryValid (e : Nat) : Bool :=
  (if entryState e = 2 then decide (1 ≤ entryOnDose e) else entryOnDose e == 0) && bits 2 2 e == 0 && bits 35 13 e == 0

/-- What the split needs of a crew: its LIVE seats and its stuck-on dose (R141). -/
structure Crew where
  live : Nat
  onDose : Nat
deriving DecidableEq, Repr

/-- Whether seat s of track t belongs to a crew (R141, R425). -/
def inCrew (c : Shape) (t s : Nat) : Bool := decide (s < c.seats ∧ t < c.tracks)

/-- The crew of track t under the bank's entries (R141). -/
def crewOf (c : Shape) (entry : Nat → Nat) (t : Nat) : Crew :=
  if t < c.tracks then
    let es := (List.range c.seats).map (fun s => entry (128 * t + s))
    { live := (es.filter (fun e => entryState e == 0)).length
      onDose := ((es.filter (fun e => entryState e == 2)).map entryOnDose).sum }
  else { live := 0, onDose := 0 }

/-- Q of seat s of track t: its index among the LIVE seats of its crew (R140, R141). -/
def seatQ (c : Shape) (entry : Nat → Nat) (t s : Nat) : Nat :=
  if inCrew c t s && entryState (entry (128 * t + s)) == 0 then
    ((List.range s).filter (fun i => entryState (entry (128 * t + i)) == 0)).length
  else 0

/-- An entry as the bank in service holds it: the host's fields with the device's Q, L and CREW_ON (R140, R141). -/
def derivedEntry (c : Shape) (entry : Nat → Nat) (i : Nat) : Nat :=
  let t := i / 128
  let s := i % 128
  let w := crewOf c entry t
  entryHostBits (entry i) + seatQ c entry t s * 2 ^ 8 + w.live * 2 ^ 16 + w.onDose * 2 ^ 24

/-- The rotation OFF of R148. -/
def splitOff (perm : Bool) (t y l : Nat) : Nat :=
  if !perm then 0
  else
    let h := (40503 * y + 23209 * t) % 65536
    (h ^^^ (h / 2 ^ 7)) % l

/-- The code of a LIVE seat from P on (R147): `l` is the crew's LIVE seats. -/
def splitCode (perm : Bool) (t y p q l on : Nat) : Nat :=
  let pe := p - on
  if 15 ≤ pe / l then 15
  else if (q + splitOff perm t y l) % l < pe % l then pe / l + 1 else pe / l

/-- The code of seat s of track t for dose p of row y (R147, from the entry's STATE onward); a seat outside every crew
carries code 0 (R141, R425). -/
def seatCode (c : Shape) (entry : Nat → Nat) (perm : Bool) (t s y p : Nat) : Nat :=
  if inCrew c t s && entryState (entry (128 * t + s)) == 0 then
    let w := crewOf c entry t
    splitCode perm t y p (seatQ c entry t s) w.live w.onDose
  else 0

/-- How a pixel is unwritable (R150). -/
inductive Unwritable where
  | no
  | under (deficit : Nat)
  | over (excess : Nat)
deriving DecidableEq, Repr

/-- The test of R150. -/
def unwritable (p : Nat) (w : Crew) : Unwritable :=
  if p < w.onDose then .over (w.onDose - p)
  else if 15 * w.live < p - w.onDose then .under (p - w.onDose - 15 * w.live)
  else .no

/-- A wake cell from dose, saturation, recomputation and epoch (R152). -/
def wakeCell (dose : Nat) (sat recomp : Bool) (epoch : Nat) : Nat :=
  dose % 2048 + bitOf sat * 2 ^ 11 + bitOf recomp * 2 ^ 12 + (epoch % 2) * 2 ^ 13

/-- EPOCH of pixel row y in a course of parity K (R155). -/
def epochOf (y k : Nat) : Nat := (y / 6144 + k) % 2

/-- The index of the cell of track t in pixel row y (R153). -/
def cellIndex (c : Shape) (t y : Nat) : Nat := c.tracks * (y % 6144) + t

/-- Even parity of the low `w` bits of a number: 1 when the count of ones is odd (R316). -/
def parityOf (w n : Nat) : Nat := ((List.range w).map (fun i => (n / 2 ^ i) % 2)).sum % 2

end Sys2Proof.Machine
end

