-- ==== Sys2Proof/Machine/Frame.lean ====
section
/-! DEFINITION. The words of the lanes: scrambler (R166), control words (R168), the stroke frame (R169 to R172), ack blocks,
status messages and side frames (R176 to R184), and training words (R187). -/

namespace Sys2Proof.Machine

/-- The bytes of a list of 64-bit words, byte 0 first (R165). -/
def wordBytes (ws : List DWord) : List Byte := ws.flatMap (fun w => leBytes 8 w.toNat)

/-- The scrambler's seed on a transmit lane (0 to 135), or on echo lane k as 0xF0 + k (R166). -/
def scramblerSeed (lane : Nat) : BitVec 58 := BitVec.ofNat 58 (0x3FFFFFFFFFFFF00 + lane)

/-- One bit through the scrambler: the line bit and the next state (R166). -/
def scrambleBit (s : BitVec 58) (d : Bool) : Bool × BitVec 58 :=
  let k := s.getLsbD 57 ^^ s.getLsbD 38
  (d ^^ k, (s <<< 1) ||| (if k then 1#58 else 0#58))

/-- The bits of a group scrambled from a state (R166). -/
def scrambleBits : BitVec 58 → List Bool → List Bool
  | _, [] => []
  | s, d :: t => (scrambleBit s d).1 :: scrambleBits (scrambleBit s d).2 t

/-- The filler word (R167). -/
def fillerWord : DWord := 0x0F0F0F0F0F0F0F0F#64

/-- A stroke or side frame as a lane sends it: with the 4 filler words that follow (R173). -/
def spaced (ws : List DWord) : List DWord := ws ++ List.replicate 4 fillerWord

/-- The KIND of a unit, from its first word (R167). -/
def kindOf (ws : List DWord) : Nat := bits 0 8 (ws.headD 0#64).toNat

/-- The operations of a control word (R168). -/
inductive ControlOp where
  | flush (stroke gen : Nat)
  | courseBegin
  | courseEnd
deriving DecidableEq, Repr

/-- A control word (R168). -/
def controlWord (op : ControlOp) (courseSeq : Nat) : DWord :=
  let hd := match op with
    | .flush stroke gen => 1 * 2 ^ 8 + (stroke % 2 ^ 25) * 2 ^ 16 + (gen % 4) * 2 ^ 41
    | .courseBegin => 2 * 2 ^ 8
    | .courseEnd => 3 * 2 ^ 8
  BitVec.ofNat 64 (0x69 + hd + (courseSeq % 2 ^ 16) * 2 ^ 48)

/-- The fields of a stroke frame's header (R170). -/
structure FrameHead where
  beamLane : Nat
  phys : Nat
  deviceId : Nat
  courseSeq : Nat
  stroke : Nat
  gen : Nat
  replay : Bool
  last : Bool
  wtBank : Nat
  trimBank : Nat
  tag : Nat
  recatches : Nat
  pass : Nat
  fseq : Nat
deriving DecidableEq, Repr

/-- Header word H0 (R170). -/
def frameH0 (h : FrameHead) : DWord :=
  BitVec.ofNat 64 (0x5A + 1 * 2 ^ 8 + (h.beamLane % 128) * 2 ^ 16 + (h.phys % 256) * 2 ^ 24
    + (h.deviceId % 4096) * 2 ^ 32 + (h.courseSeq % 65536) * 2 ^ 48)

/-- Header word H1 (R170). -/
def frameH1 (h : FrameHead) : DWord :=
  BitVec.ofNat 64 (h.stroke % 2 ^ 25 + (h.gen % 4) * 2 ^ 25 + bitOf h.replay * 2 ^ 27 + bitOf h.last * 2 ^ 28
    + (h.wtBank % 2) * 2 ^ 29 + (h.trimBank % 2) * 2 ^ 30 + (h.tag % 2 ^ 32) * 2 ^ 32)

/-- Header word H2 (R170). -/
def frameH2 (h : FrameHead) : DWord :=
  BitVec.ofNat 64 (min h.recatches 0xFFFF + (h.pass % 8) * 2 ^ 16 + (h.fseq % 2 ^ 32) * 2 ^ 32)

/-- A payload word from its sixteen codes, code m at bits [4m+3:4m] (R171). -/
def payloadWord (codes : List Nat) : DWord :=
  BitVec.ofNat 64 (codes.foldr (fun c acc => c % 16 + 16 * acc) 0)

/-- The 512 payload words of a beam lane's 8,192 codes, given by index i = 128 j + s (R171). -/
def payloadWords (code : Nat → Nat) : List DWord :=
  (List.range 512).map (fun w => payloadWord ((List.range 16).map (fun m => code (16 * w + m))))

/-- Frame words 0 to 515 (R169). -/
def frameBody (h : FrameHead) (payload : List DWord) : List DWord :=
  [frameH0 h, frameH1 h, frameH2 h, 0#64] ++ payload

/-- The 520 words of a frame; an inverted CRC word stands for R194 CRC and for R316 (R169, R172). -/
def frameWords (h : FrameHead) (payload : List DWord) (invertCrc : Bool) : List DWord :=
  let body := frameBody h payload
  let crc := crc32c (wordBytes body)
  body ++ [BitVec.setWidth 64 (if invertCrc then ~~~ crc else crc), 0#64, 0#64, 0#64]

/-- The words a frame adds to its beam lane's course signature: words 0 to 515 with the masks of R296. -/
def maskedFrame (h : FrameHead) (payload : List DWord) : List DWord :=
  [frameH0 h &&& 0x0000FFFF00FFFFFF#64, frameH1 h &&& 0xFFFFFFFFF1FFFFFF#64, frameH2 h &&& 0x00000000FFFF0000#64, 0#64]
    ++ payload

/-- Whether the last word of a block holds the CRC of the words before it (R176). -/
def blockCrcOk (ws : List DWord) : Bool :=
  match ws.getLast? with
  | none => false
  | some l => l == BitVec.setWidth 64 (crc32c (wordBytes ws.dropLast))

/-- An ack entry (R177). -/
structure AckEntry where
  beamLane : Nat
  valid : Bool
  stroke6 : Nat
  gen : Nat
deriving DecidableEq, Repr

/-- The 16 bits of an ack entry read (R177). -/
def ackEntry (v : Nat) : AckEntry :=
  { beamLane := bits 0 7 v, valid := bitAt 7 v, stroke6 := bits 8 6 v, gen := bits 14 2 v }

/-- The ack entry of a frame (R177). -/
def ackEntryWord (e : AckEntry) : Nat :=
  if e.valid then e.beamLane % 128 + 2 ^ 7 + (e.stroke6 % 64) * 2 ^ 8 + (e.gen % 4) * 2 ^ 14 else 0

/-- The entries of an ack block whose form and CRC are good (R176); none where they are not. -/
def ackBlock (ws : List DWord) : Option (List AckEntry) :=
  match ws with
  | [] => none
  | a0 :: rest =>
    let n := bits 8 8 a0.toNat
    if bits 0 8 a0.toNat = 0xA6 ∧ 1 ≤ n ∧ n ≤ 32 ∧ rest.length = n + 1 ∧ blockCrcOk ws = true then
      some ((rest.take n).flatMap (fun w => (List.range 4).map (fun m => ackEntry (bits (16 * m) 16 w.toNat))))
    else none

/-- A blanker status message (R179). -/
structure StatusMsg where
  echoId : Nat
  temp : Int
  tempValid : Bool
  fault : Bool
  mismatch : Bool
  overflow : Bool
  locks : List Bool
deriving DecidableEq, Repr

/-- A status message whose form and CRC are good (R179). -/
def statusMsg (ws : List DWord) : Option StatusMsg :=
  match ws with
  | [s0, s1, s2, s3, _] =>
    let v := s0.toNat
    if bits 0 8 v = 0xB4 ∧ bits 8 8 v = 1 ∧ blockCrcOk ws = true then
      some { echoId := bits 16 2 v, temp := signedOf 16 (bits 32 16 v), tempValid := bitAt 48 v, fault := bitAt 49 v,
             mismatch := bitAt 50 v, overflow := bitAt 51 v,
             locks := (List.range 64).map (fun i => bitAt i s1.toNat) ++ (List.range 64).map (fun i => bitAt i s2.toNat)
               ++ (List.range 8).map (fun i => bitAt i s3.toNat) }
    else none
  | _ => none

/-- The head of a side frame or side response (R182, R184). -/
structure SideHead where
  space : Nat
  read : Bool
  beamLane : Nat
  len : Nat
  tag : Nat
  address : Nat
deriving DecidableEq, Repr

/-- The words of a side frame (R182). -/
def sideFrame (h : SideHead) (data : List DWord) (invertCrc : Bool) : List DWord :=
  let s0 : DWord := BitVec.ofNat 64 (0x3C + 1 * 2 ^ 8 + (h.space % 8) * 2 ^ 16 + bitOf h.read * 2 ^ 19
    + (h.beamLane % 256) * 2 ^ 20 + (h.len % 128) * 2 ^ 28 + (h.tag % 256) * 2 ^ 35 + (h.address % 2 ^ 21) * 2 ^ 43)
  let body := s0 :: (if h.read then [] else data)
  let crc := crc32c (wordBytes body)
  body ++ [BitVec.setWidth 64 (if invertCrc then ~~~ crc else crc)]

/-- A side response whose form and CRC are good: TAG, BEAM_LANE, STATUS and the data words (R184). -/
def sideResponse (ws : List DWord) : Option (Nat × Nat × Nat × List DWord) :=
  match ws with
  | [] => none
  | r0 :: rest =>
    let v := r0.toNat
    if bits 0 8 v = 0xD2 ∧ bits 8 8 v = 1 ∧ blockCrcOk ws = true then
      some (bits 35 8 v, bits 20 8 v, bits 43 8 v, rest.dropLast)
    else none

/-- A training word (R187). -/
structure TrainingWord where
  laneId : Nat
  rung : Nat
  nextRung : Nat
  countdown : Nat
  deviceId : Nat
  echoReady : Nat
deriving DecidableEq, Repr

/-- The word of a training word's fields (R187). -/
def trainingWord (t : TrainingWord) : DWord :=
  BitVec.ofNat 64 (0x96 + (t.laneId % 256) * 2 ^ 8 + (t.rung % 16) * 2 ^ 16 + (t.nextRung % 16) * 2 ^ 20
    + (t.countdown % 256) * 2 ^ 24 + (t.deviceId % 4096) * 2 ^ 32 + (t.echoReady % 16) * 2 ^ 44 + 0xC3A5 * 2 ^ 48)

/-- A training word read: none where KIND or MARK is wrong (R187). -/
def readTrainingWord (w : DWord) : Option TrainingWord :=
  let v := w.toNat
  if bits 0 8 v = 0x96 ∧ bits 48 16 v = 0xC3A5 then
    some { laneId := bits 8 8 v, rung := bits 16 4 v, nextRung := bits 20 4 v, countdown := bits 24 8 v,
           deviceId := bits 32 12 v, echoReady := bits 44 4 v }
  else none

end Sys2Proof.Machine
end

