-- ==== Sys2Proof/Machine/Regs.lean ====
section
/-! DEFINITION. The address of every BAR0 register (R451, R455) and the place of every field, as the register tables of spec/ give them.
An index argument stands for the instance index of R451 -/

namespace Sys2Proof.Machine

namespace R

/-- 02_course_data_and_layout_stream.md. -/
def ING_CTL : Nat := 0x0B0000
/-- 02_course_data_and_layout_stream.md. -/
def ING_STATUS : Nat := 0x0B0004
/-- 02_course_data_and_layout_stream.md. -/
def ING_EVENTS : Nat := 0x0B0008
/-- 02_course_data_and_layout_stream.md. -/
def ING_FENCE_HITS : Nat := 0x0B000C
/-- 02_course_data_and_layout_stream.md. -/
def ING_CQ_DESC (i : Nat) : Nat := 0x0B0040 + 0x4 * i
/-- 02_course_data_and_layout_stream.md. -/
def ING_CQ_POST : Nat := 0x0B0080
/-- 02_course_data_and_layout_stream.md. -/
def ING_CQ_LAST : Nat := 0x0B0084
/-- 02_course_data_and_layout_stream.md. -/
def ING_CQ_STATE (i : Nat) : Nat := 0x0B0100 + 0x10 * i
/-- 02_course_data_and_layout_stream.md. -/
def ING_CQ_TAG (i : Nat) : Nat := 0x0B0104 + 0x10 * i
/-- 02_course_data_and_layout_stream.md. -/
def ING_CQ_WHERE (i : Nat) : Nat := 0x0B0108 + 0x10 * i
/-- 02_course_data_and_layout_stream.md. -/
def ING_CQ_OFFSET (i : Nat) : Nat := 0x0B010C + 0x10 * i
/-- 03_slz_codec.md. -/
def SLZ_CTL : Nat := 0x0C0000
/-- 03_slz_codec.md. -/
def SLZ_STATUS : Nat := 0x0C0004
/-- 03_slz_codec.md. -/
def SLZ_EVENTS : Nat := 0x0C0008
/-- 03_slz_codec.md. -/
def SLZ_JOB_TABLE_LO : Nat := 0x0C0010
/-- 03_slz_codec.md. -/
def SLZ_JOB_TABLE_HI : Nat := 0x0C0014
/-- 03_slz_codec.md. -/
def SLZ_JOB_COUNT : Nat := 0x0C0018
/-- 03_slz_codec.md. -/
def SLZ_JOB_DST_LO : Nat := 0x0C0020
/-- 03_slz_codec.md. -/
def SLZ_JOB_DST_HI : Nat := 0x0C0024
/-- 03_slz_codec.md. -/
def SLZ_JOB_CAP_LO : Nat := 0x0C0028
/-- 03_slz_codec.md. -/
def SLZ_JOB_CAP_HI : Nat := 0x0C002C
/-- 03_slz_codec.md. -/
def SLZ_JOB_GO : Nat := 0x0C0030
/-- 03_slz_codec.md. -/
def SLZ_RESULT : Nat := 0x0C0040
/-- 03_slz_codec.md. -/
def SLZ_RESULT_USED_LO : Nat := 0x0C0044
/-- 03_slz_codec.md. -/
def SLZ_RESULT_USED_HI : Nat := 0x0C0048
/-- 03_slz_codec.md. -/
def SLZ_RESULT_ACK : Nat := 0x0C004C
/-- 03_slz_codec.md. -/
def SLZ_TILE_ERR (i : Nat) : Nat := 0x0C0100 + 0x10 * i
/-- 03_slz_codec.md. -/
def SLZ_TILE_ERR_IN (i : Nat) : Nat := 0x0C0104 + 0x10 * i
/-- 03_slz_codec.md. -/
def SLZ_TILE_ERR_OUT (i : Nat) : Nat := 0x0C0108 + 0x10 * i
/-- 04_rasterization.md. -/
def RAS_CTL : Nat := 0x0D0000
/-- 04_rasterization.md. -/
def RAS_STATUS : Nat := 0x0D0004
/-- 04_rasterization.md. -/
def RAS_EVENTS : Nat := 0x0D0008
/-- 04_rasterization.md. -/
def RAS_DISPATCH : Nat := 0x0D000C
/-- 04_rasterization.md. -/
def RAS_DONE : Nat := 0x0D0010
/-- 04_rasterization.md. -/
def RAS_SLOW_LIMIT : Nat := 0x0D0014
/-- 04_rasterization.md. -/
def RAS_SPILL_BASE_LO : Nat := 0x0D0018
/-- 04_rasterization.md. -/
def RAS_SPILL_BASE_HI : Nat := 0x0D001C
/-- 04_rasterization.md. -/
def RAS_CLASS_COUNT (i : Nat) : Nat := 0x0D0020 + 0x4 * i
/-- 04_rasterization.md. -/
def RAS_UNDERSTATED : Nat := 0x0D0030
/-- 04_rasterization.md. -/
def RAS_E_MAX : Nat := 0x0D0034
/-- 04_rasterization.md. -/
def RAS_E_MAX_AT : Nat := 0x0D0038
/-- 04_rasterization.md. -/
def RAS_PROBE : Nat := 0x0D0040
/-- 04_rasterization.md. -/
def RAS_PROBE_STATUS : Nat := 0x0D0044
/-- 04_rasterization.md. -/
def RAS_PROBE_A0_LO : Nat := 0x0D0048
/-- 04_rasterization.md. -/
def RAS_PROBE_A0_HI : Nat := 0x0D004C
/-- 04_rasterization.md. -/
def RAS_PROBE_A1 : Nat := 0x0D0050
/-- 04_rasterization.md. -/
def RAS_PROBE_A2 : Nat := 0x0D0054
/-- 04_rasterization.md. -/
def RAS_PROBE_B0_LO : Nat := 0x0D0058
/-- 04_rasterization.md. -/
def RAS_PROBE_B0_HI : Nat := 0x0D005C
/-- 04_rasterization.md. -/
def RAS_PROBE_B1 : Nat := 0x0D0060
/-- 04_rasterization.md. -/
def RAS_PROBE_B2 : Nat := 0x0D0064
/-- 04_rasterization.md. -/
def RAS_ISLET_CTL (i : Nat) : Nat := 0x0D8000 + 0x80 * i
/-- 04_rasterization.md. -/
def RAS_ISLET_STATUS (i : Nat) : Nat := 0x0D8004 + 0x80 * i
/-- 04_rasterization.md. -/
def RAS_ISLET_SLOT0 (i : Nat) : Nat := 0x0D8008 + 0x80 * i
/-- 04_rasterization.md. -/
def RAS_ISLET_SLOT1 (i : Nat) : Nat := 0x0D800C + 0x80 * i
/-- 04_rasterization.md. -/
def RAS_ISLET_TILES (i : Nat) : Nat := 0x0D8010 + 0x80 * i
/-- 04_rasterization.md. -/
def RAS_ISLET_FAULTS (i : Nat) : Nat := 0x0D8014 + 0x80 * i
/-- 04_rasterization.md. -/
def RAS_ISLET_SLOW (i : Nat) : Nat := 0x0D8018 + 0x80 * i
/-- 05_dose_pipeline.md. -/
def DOS_CTL : Nat := 0x0E0000
/-- 05_dose_pipeline.md. -/
def DOS_STATUS : Nat := 0x0E0004
/-- 05_dose_pipeline.md. -/
def DOS_EVENTS : Nat := 0x0E0008
/-- 05_dose_pipeline.md. -/
def DOS_PIX_MAX : Nat := 0x0E000C
/-- 05_dose_pipeline.md. -/
def DOS_BSE_REF : Nat := 0x0E0010
/-- 05_dose_pipeline.md. -/
def DOS_BSX_AHEAD : Nat := 0x0E0014
/-- 05_dose_pipeline.md. -/
def DOS_BSX_BAND : Nat := 0x0E0018
/-- 05_dose_pipeline.md. -/
def DOS_SAT_COUNT : Nat := 0x0E001C
/-- 05_dose_pipeline.md. -/
def DOS_SAT_FIRST : Nat := 0x0E0020
/-- 05_dose_pipeline.md. -/
def DOS_SAT_FIRST_ROW : Nat := 0x0E0024
/-- 05_dose_pipeline.md. -/
def DOS_KRN_BANK : Nat := 0x0E0040
/-- 05_dose_pipeline.md. -/
def DOS_TGN_BANK : Nat := 0x0E0044
/-- 05_dose_pipeline.md. -/
def DOS_KRN_RADIUS (i : Nat) : Nat := 0x0E2000 + 0x1000 * i
/-- 05_dose_pipeline.md. -/
def DOS_KRN_ETA (i j : Nat) : Nat := 0x0E2010 + 0x1000 * i + 0x4 * j
/-- 05_dose_pipeline.md. -/
def DOS_KRN_TAP (i j k : Nat) : Nat := 0x0E2100 + 0x1000 * i + 0x300 * j + 0x4 * k
/-- 05_dose_pipeline.md. -/
def DOS_TGN (i j : Nat) : Nat := 0x0E8000 + 0x4000 * i + 0x4 * j
/-- 06_crews_and_wake_buffer.md. -/
def CRW_CTL : Nat := 0x0F0000
/-- 06_crews_and_wake_buffer.md. -/
def CRW_STATUS : Nat := 0x0F0004
/-- 06_crews_and_wake_buffer.md. -/
def CRW_EVENTS : Nat := 0x0F0008
/-- 06_crews_and_wake_buffer.md. -/
def CRW_SPLIT_STROKE : Nat := 0x0F000C
/-- 06_crews_and_wake_buffer.md. -/
def CRW_MAP_LIVE : Nat := 0x0F0010
/-- 06_crews_and_wake_buffer.md. -/
def CRW_MAP_OFF : Nat := 0x0F0014
/-- 06_crews_and_wake_buffer.md. -/
def CRW_MAP_ON : Nat := 0x0F0018
/-- 06_crews_and_wake_buffer.md. -/
def CRW_MAP_MIN_L : Nat := 0x0F001C
/-- 06_crews_and_wake_buffer.md. -/
def CRW_UNDER_COUNT : Nat := 0x0F0020
/-- 06_crews_and_wake_buffer.md. -/
def CRW_OVER_COUNT : Nat := 0x0F0024
/-- 06_crews_and_wake_buffer.md. -/
def CRW_DEFICIT_DU : Nat := 0x0F0028
/-- 06_crews_and_wake_buffer.md. -/
def CRW_EXCESS_DU : Nat := 0x0F002C
/-- 06_crews_and_wake_buffer.md. -/
def CRW_UNW_FIRST : Nat := 0x0F0030
/-- 06_crews_and_wake_buffer.md. -/
def CRW_UNW_FIRST_ROW : Nat := 0x0F0034
/-- 06_crews_and_wake_buffer.md. -/
def CRW_MAP_SHADOW_LO : Nat := 0x0F0048
/-- 06_crews_and_wake_buffer.md. -/
def CRW_MAP_SHADOW_HI : Nat := 0x0F004C
/-- 06_crews_and_wake_buffer.md. -/
def CRW_MAP_MARKED : Nat := 0x0F0050
/-- 06_crews_and_wake_buffer.md. -/
def CRW_MAP_INVALID : Nat := 0x0F0054
/-- 06_crews_and_wake_buffer.md. -/
def CRW_MAP_INVALID_AT : Nat := 0x0F0058
/-- 06_crews_and_wake_buffer.md. -/
def CRW_PROBE : Nat := 0x0F0060
/-- 06_crews_and_wake_buffer.md. -/
def CRW_PROBE_ROW : Nat := 0x0F0064
/-- 06_crews_and_wake_buffer.md. -/
def CRW_PROBE_OUT : Nat := 0x0F0068
/-- 06_crews_and_wake_buffer.md. -/
def CRW_MAP_LO (i : Nat) : Nat := 0x800000 + 0x8 * i
/-- 06_crews_and_wake_buffer.md. -/
def CRW_MAP_HI (i : Nat) : Nat := 0x800004 + 0x8 * i
/-- 06_crews_and_wake_buffer.md. -/
def WAK_STATUS : Nat := 0x100000
/-- 06_crews_and_wake_buffer.md. -/
def WAK_EVENTS : Nat := 0x100004
/-- 06_crews_and_wake_buffer.md. -/
def WAK_READ_POINT : Nat := 0x100008
/-- 06_crews_and_wake_buffer.md. -/
def WAK_FRONT : Nat := 0x10000C
/-- 06_crews_and_wake_buffer.md. -/
def WAK_LEAD : Nat := 0x100010
/-- 06_crews_and_wake_buffer.md. -/
def WAK_STALLS : Nat := 0x100014
/-- 06_crews_and_wake_buffer.md. -/
def WAK_FAULTS : Nat := 0x100018
/-- 06_crews_and_wake_buffer.md. -/
def WAK_FAULT_STROKE : Nat := 0x100020
/-- 06_crews_and_wake_buffer.md. -/
def WAK_FAULT_CELL : Nat := 0x100024
/-- 06_crews_and_wake_buffer.md. -/
def WAK_FAULT_ROW : Nat := 0x100028
/-- 06_crews_and_wake_buffer.md. -/
def WAK_PEEK : Nat := 0x100040
/-- 06_crews_and_wake_buffer.md. -/
def WAK_PEEK_ROW : Nat := 0x100044
/-- 06_crews_and_wake_buffer.md. -/
def WAK_PEEK_DATA : Nat := 0x100048
/-- 06_crews_and_wake_buffer.md. -/
def WAK_SLOT (i : Nat) : Nat := 0x100100 + 0x8 * i
/-- 06_crews_and_wake_buffer.md. -/
def WAK_SLOT_MASK (i : Nat) : Nat := 0x100104 + 0x8 * i
/-- 07_beam_lanes.md. -/
def BLN_LANE_CTL (i : Nat) : Nat := 0x110000 + 0x100 * i
/-- 07_beam_lanes.md. -/
def BLN_LANE_STATUS (i : Nat) : Nat := 0x110004 + 0x100 * i
/-- 07_beam_lanes.md. -/
def BLN_LANE_EVENTS (i : Nat) : Nat := 0x110008 + 0x100 * i
/-- 07_beam_lanes.md. -/
def BLN_LANE_FRAMES (i : Nat) : Nat := 0x11000C + 0x100 * i
/-- 07_beam_lanes.md. -/
def BLN_LANE_ACK_MISS (i : Nat) : Nat := 0x110010 + 0x100 * i
/-- 07_beam_lanes.md. -/
def BLN_LANE_PRBS (i : Nat) : Nat := 0x110014 + 0x100 * i
/-- 07_beam_lanes.md. -/
def BLN_LANE_INJECT (i : Nat) : Nat := 0x110018 + 0x100 * i
/-- 07_beam_lanes.md. -/
def BLN_LANE_TRAIN (i : Nat) : Nat := 0x11001C + 0x100 * i
/-- 07_beam_lanes.md. -/
def BLN_ECHO_CTL (i : Nat) : Nat := 0x118800 + 0x100 * i
/-- 07_beam_lanes.md. -/
def BLN_ECHO_STATUS (i : Nat) : Nat := 0x118804 + 0x100 * i
/-- 07_beam_lanes.md. -/
def BLN_ECHO_EVENTS (i : Nat) : Nat := 0x118808 + 0x100 * i
/-- 07_beam_lanes.md. -/
def BLN_ECHO_FEC_CORR (i : Nat) : Nat := 0x11880C + 0x100 * i
/-- 07_beam_lanes.md. -/
def BLN_ECHO_FEC_UNCORR (i : Nat) : Nat := 0x118810 + 0x100 * i
/-- 07_beam_lanes.md. -/
def BLN_ECHO_CRC_ERRS (i : Nat) : Nat := 0x118814 + 0x100 * i
/-- 07_beam_lanes.md. -/
def BLN_ECHO_PRBS_ERRS (i : Nat) : Nat := 0x118818 + 0x100 * i
/-- 07_beam_lanes.md. -/
def BLN_CTL : Nat := 0x119000
/-- 07_beam_lanes.md. -/
def BLN_STATUS : Nat := 0x119004
/-- 07_beam_lanes.md. -/
def BLN_EVENTS : Nat := 0x119008
/-- 07_beam_lanes.md. -/
def BLN_STRAY : Nat := 0x11900C
/-- 07_beam_lanes.md. -/
def BLN_SUBS : Nat := 0x119010
/-- 07_beam_lanes.md. -/
def BLN_SUB_LAST : Nat := 0x119014
/-- 07_beam_lanes.md. -/
def BLN_TEMP : Nat := 0x119018
/-- 07_beam_lanes.md. -/
def BLN_BLANKER_FLAGS : Nat := 0x11901C
/-- 07_beam_lanes.md. -/
def BLN_TRIM_SEL : Nat := 0x119020
/-- 07_beam_lanes.md. -/
def BLN_SIDE_SRC_LO : Nat := 0x119080
/-- 07_beam_lanes.md. -/
def BLN_SIDE_SRC_HI : Nat := 0x119084
/-- 07_beam_lanes.md. -/
def BLN_SIDE_ADDR : Nat := 0x119088
/-- 07_beam_lanes.md. -/
def BLN_SIDE_COUNT : Nat := 0x11908C
/-- 07_beam_lanes.md. -/
def BLN_SIDE_GO : Nat := 0x119090
/-- 07_beam_lanes.md. -/
def BLN_SIDE_RESULT : Nat := 0x1190A0
/-- 07_beam_lanes.md. -/
def BLN_SIDE_RESULT_AT : Nat := 0x1190A4
/-- 07_beam_lanes.md. -/
def BLN_SIDE_RESULT_ACK : Nat := 0x1190A8
/-- 07_beam_lanes.md. -/
def BLN_MAP (i j : Nat) : Nat := 0x11A000 + 0x400 * i + 0x4 * j
/-- 08_stroke_timing.md. -/
def STK_CTL : Nat := 0x120000
/-- 08_stroke_timing.md. -/
def STK_STATUS : Nat := 0x120004
/-- 08_stroke_timing.md. -/
def STK_EVENTS : Nat := 0x120008
/-- 08_stroke_timing.md. -/
def STK_GATE : Nat := 0x12000C
/-- 08_stroke_timing.md. -/
def STK_TMIN : Nat := 0x120010
/-- 08_stroke_timing.md. -/
def STK_DEPTH : Nat := 0x120014
/-- 08_stroke_timing.md. -/
def STK_COMMIT : Nat := 0x120018
/-- 08_stroke_timing.md. -/
def STK_RTT_BUDGET : Nat := 0x12001C
/-- 08_stroke_timing.md. -/
def STK_POS_CTL : Nat := 0x120020
/-- 08_stroke_timing.md. -/
def STK_POS_LAT_X : Nat := 0x120024
/-- 08_stroke_timing.md. -/
def STK_POS_LAT_Y : Nat := 0x120028
/-- 08_stroke_timing.md. -/
def STK_LOOP_KA : Nat := 0x12002C
/-- 08_stroke_timing.md. -/
def STK_LOOP_KV : Nat := 0x120030
/-- 08_stroke_timing.md. -/
def STK_LOOP_KC : Nat := 0x120034
/-- 08_stroke_timing.md. -/
def STK_LOCK_TOL : Nat := 0x120038
/-- 08_stroke_timing.md. -/
def STK_UNLOCK_TOL : Nat := 0x12003C
/-- 08_stroke_timing.md. -/
def STK_LOCK_COUNT : Nat := 0x120040
/-- 08_stroke_timing.md. -/
def STK_VMIN : Nat := 0x120044
/-- 08_stroke_timing.md. -/
def STK_TRIM_OFS : Nat := 0x120048
/-- 08_stroke_timing.md. -/
def STK_TRIM_LIMIT : Nat := 0x12004C
/-- 08_stroke_timing.md. -/
def STK_STROKE : Nat := 0x120050
/-- 08_stroke_timing.md. -/
def STK_FIRED : Nat := 0x120054
/-- 08_stroke_timing.md. -/
def STK_HALT_AT : Nat := 0x120058
/-- 08_stroke_timing.md. -/
def STK_HALT_CAUSE : Nat := 0x12005C
/-- 08_stroke_timing.md. -/
def STK_PERIOD : Nat := 0x120060
/-- 08_stroke_timing.md. -/
def STK_PERIOD_MIN : Nat := 0x120064
/-- 08_stroke_timing.md. -/
def STK_RTT_MAX : Nat := 0x120068
/-- 08_stroke_timing.md. -/
def STK_FIRE_LOW : Nat := 0x12006C
/-- 08_stroke_timing.md. -/
def STK_OVERRUNS : Nat := 0x120070
/-- 08_stroke_timing.md. -/
def STK_POS_BAD_X : Nat := 0x120074
/-- 08_stroke_timing.md. -/
def STK_POS_BAD_Y : Nat := 0x120078
/-- 08_stroke_timing.md. -/
def STK_BTEMP_USED : Nat := 0x12007C
/-- 08_stroke_timing.md. -/
def STK_POS_X_LO : Nat := 0x120080
/-- 08_stroke_timing.md. -/
def STK_POS_X_HI : Nat := 0x120084
/-- 08_stroke_timing.md. -/
def STK_VEL_X : Nat := 0x120088
/-- 08_stroke_timing.md. -/
def STK_POS_Y_LO : Nat := 0x12008C
/-- 08_stroke_timing.md. -/
def STK_POS_Y_HI : Nat := 0x120090
/-- 08_stroke_timing.md. -/
def STK_VEL_Y : Nat := 0x120094
/-- 08_stroke_timing.md. -/
def STK_WAVE_GPD (i : Nat) : Nat := 0x121000 + 0x100 * i
/-- 08_stroke_timing.md. -/
def STK_WAVE_LO (i j : Nat) : Nat := 0x121040 + 0x100 * i + 0x8 * j
/-- 08_stroke_timing.md. -/
def STK_WAVE_HI (i j : Nat) : Nat := 0x121044 + 0x100 * i + 0x8 * j
/-- 09_cox_and_recatch.md. -/
def COX_CTL : Nat := 0x130000
/-- 09_cox_and_recatch.md. -/
def COX_STATUS : Nat := 0x130004
/-- 09_cox_and_recatch.md. -/
def COX_EVENTS : Nat := 0x130008
/-- 09_cox_and_recatch.md. -/
def COX_VCMD : Nat := 0x13000C
/-- 09_cox_and_recatch.md. -/
def COX_VTOP : Nat := 0x130010
/-- 09_cox_and_recatch.md. -/
def COX_VMAX : Nat := 0x130020
/-- 09_cox_and_recatch.md. -/
def COX_VMIN_RUN : Nat := 0x130024
/-- 09_cox_and_recatch.md. -/
def COX_VRESUME : Nat := 0x130028
/-- 09_cox_and_recatch.md. -/
def COX_UP_STEP : Nat := 0x13002C
/-- 09_cox_and_recatch.md. -/
def COX_DROP : Nat := 0x130030
/-- 09_cox_and_recatch.md. -/
def COX_MARGIN : Nat := 0x130034
/-- 09_cox_and_recatch.md. -/
def COX_LEAD_TARGET : Nat := 0x130038
/-- 09_cox_and_recatch.md. -/
def COX_LEAD_FLOOR : Nat := 0x13003C
/-- 09_cox_and_recatch.md. -/
def COX_LEAD_HALT : Nat := 0x130040
/-- 09_cox_and_recatch.md. -/
def COX_LEAD_HIGH : Nat := 0x130044
/-- 09_cox_and_recatch.md. -/
def COX_TEMP_WARN : Nat := 0x130048
/-- 09_cox_and_recatch.md. -/
def COX_TEMP_HARD : Nat := 0x13004C
/-- 09_cox_and_recatch.md. -/
def COX_TEMP_RESUME : Nat := 0x130050
/-- 09_cox_and_recatch.md. -/
def COX_TEMP_DERATE : Nat := 0x130054
/-- 09_cox_and_recatch.md. -/
def COX_STALE_HALT : Nat := 0x130058
/-- 09_cox_and_recatch.md. -/
def COX_SUPPLY_HOLD : Nat := 0x13005C
/-- 09_cox_and_recatch.md. -/
def COX_RTT_GUARD : Nat := 0x130060
/-- 09_cox_and_recatch.md. -/
def COX_SETTLE : Nat := 0x130064
/-- 09_cox_and_recatch.md. -/
def COX_RETREAT_MARGIN : Nat := 0x130068
/-- 09_cox_and_recatch.md. -/
def COX_PAUSE_WARN : Nat := 0x13006C
/-- 09_cox_and_recatch.md. -/
def COX_PAUSE_LIMIT : Nat := 0x130070
/-- 09_cox_and_recatch.md. -/
def COX_RECATCH_LIMIT : Nat := 0x130074
/-- 09_cox_and_recatch.md. -/
def COX_REASON : Nat := 0x130080
/-- 09_cox_and_recatch.md. -/
def COX_RESUME_WAIT : Nat := 0x130084
/-- 09_cox_and_recatch.md. -/
def COX_RECATCHES : Nat := 0x130088
/-- 09_cox_and_recatch.md. -/
def COX_PAUSE_NOW : Nat := 0x13008C
/-- 09_cox_and_recatch.md. -/
def COX_PAUSE_MAX : Nat := 0x130090
/-- 09_cox_and_recatch.md. -/
def COX_PAUSE_TOTAL : Nat := 0x130094
/-- 09_cox_and_recatch.md. -/
def COX_SOFT_TRIPS : Nat := 0x130098
/-- 09_cox_and_recatch.md. -/
def COX_DERATED_PERIODS : Nat := 0x13009C
/-- 09_cox_and_recatch.md. -/
def COX_ABANDON : Nat := 0x1300A0
/-- 10_stage_motion.md. -/
def MOT_SERVO : Nat := 0x140000
/-- 10_stage_motion.md. -/
def MOT_EVENTS : Nat := 0x140004
/-- 10_stage_motion.md. -/
def MOT_DRV_CTL : Nat := 0x140008
/-- 10_stage_motion.md. -/
def MOT_TBL_BASE_LO : Nat := 0x140040
/-- 10_stage_motion.md. -/
def MOT_TBL_BASE_HI : Nat := 0x140044
/-- 10_stage_motion.md. -/
def MOT_TBL_COUNT : Nat := 0x140048
/-- 10_stage_motion.md. -/
def MOT_TBL_BLEND : Nat := 0x14004C
/-- 10_stage_motion.md. -/
def MOT_TBL_GO : Nat := 0x140050
/-- 10_stage_motion.md. -/
def MOT_TBL_STATUS : Nat := 0x140054
/-- 10_stage_motion.md. -/
def MOT_AX_CTL (i : Nat) : Nat := 0x140100 + 0x100 * i
/-- 10_stage_motion.md. -/
def MOT_AX_STATUS (i : Nat) : Nat := 0x140104 + 0x100 * i
/-- 10_stage_motion.md. -/
def MOT_AX_EVENTS (i : Nat) : Nat := 0x140108 + 0x100 * i
/-- 10_stage_motion.md. -/
def MOT_AX_VMAX (i : Nat) : Nat := 0x14010C + 0x100 * i
/-- 10_stage_motion.md. -/
def MOT_AX_AMAX (i : Nat) : Nat := 0x140110 + 0x100 * i
/-- 10_stage_motion.md. -/
def MOT_AX_JMAX (i : Nat) : Nat := 0x140114 + 0x100 * i
/-- 10_stage_motion.md. -/
def MOT_AX_QUICK_AMAX (i : Nat) : Nat := 0x140118 + 0x100 * i
/-- 10_stage_motion.md. -/
def MOT_AX_DEBOUNCE (i : Nat) : Nat := 0x14011C + 0x100 * i
/-- 10_stage_motion.md. -/
def MOT_AX_SOFT_MIN_LO (i : Nat) : Nat := 0x140120 + 0x100 * i
/-- 10_stage_motion.md. -/
def MOT_AX_SOFT_MIN_HI (i : Nat) : Nat := 0x140124 + 0x100 * i
/-- 10_stage_motion.md. -/
def MOT_AX_SOFT_MAX_LO (i : Nat) : Nat := 0x140128 + 0x100 * i
/-- 10_stage_motion.md. -/
def MOT_AX_SOFT_MAX_HI (i : Nat) : Nat := 0x14012C + 0x100 * i
/-- 10_stage_motion.md. -/
def MOT_AX_HOME_VEL (i : Nat) : Nat := 0x140130 + 0x100 * i
/-- 10_stage_motion.md. -/
def MOT_AX_HOME_CREEP (i : Nat) : Nat := 0x140134 + 0x100 * i
/-- 10_stage_motion.md. -/
def MOT_AX_INDEX_DIST (i : Nat) : Nat := 0x140138 + 0x100 * i
/-- 10_stage_motion.md. -/
def MOT_AX_CMD (i : Nat) : Nat := 0x14013C + 0x100 * i
/-- 10_stage_motion.md. -/
def MOT_AX_TARGET_LO (i : Nat) : Nat := 0x140140 + 0x100 * i
/-- 10_stage_motion.md. -/
def MOT_AX_TARGET_HI (i : Nat) : Nat := 0x140144 + 0x100 * i
/-- 10_stage_motion.md. -/
def MOT_AX_JOG (i : Nat) : Nat := 0x140148 + 0x100 * i
/-- 10_stage_motion.md. -/
def MOT_AX_SP_POS_LO (i : Nat) : Nat := 0x14014C + 0x100 * i
/-- 10_stage_motion.md. -/
def MOT_AX_SP_POS_HI (i : Nat) : Nat := 0x140150 + 0x100 * i
/-- 10_stage_motion.md. -/
def MOT_AX_SP_VEL (i : Nat) : Nat := 0x140154 + 0x100 * i
/-- 10_stage_motion.md. -/
def MOT_AX_INDEX_POS_LO (i : Nat) : Nat := 0x140158 + 0x100 * i
/-- 10_stage_motion.md. -/
def MOT_AX_INDEX_POS_HI (i : Nat) : Nat := 0x14015C + 0x100 * i
/-- 10_stage_motion.md. -/
def MOT_AX_ADIST_V (i : Nat) : Nat := 0x140160 + 0x100 * i
/-- 10_stage_motion.md. -/
def MOT_AX_ADIST (i : Nat) : Nat := 0x140164 + 0x100 * i
/-- 10_stage_motion.md. -/
def MOT_AX_CHATTER (i : Nat) : Nat := 0x140168 + 0x100 * i
/-- 10_stage_motion.md. -/
def MOT_AX_LIM_TRIPS (i : Nat) : Nat := 0x14016C + 0x100 * i
/-- 10_stage_motion.md. -/
def MOT_AX_DRV_BAD (i : Nat) : Nat := 0x140170 + 0x100 * i
/-- 11_integrity_and_replay.md. -/
def INT_CTL : Nat := 0x150000
/-- 11_integrity_and_replay.md. -/
def INT_STATUS : Nat := 0x150004
/-- 11_integrity_and_replay.md. -/
def INT_EVENTS : Nat := 0x150008
/-- 11_integrity_and_replay.md. -/
def INT_TILE_FAULTS : Nat := 0x15000C
/-- 11_integrity_and_replay.md. -/
def INT_RECOMPS : Nat := 0x150010
/-- 11_integrity_and_replay.md. -/
def INT_FAULT_LAST : Nat := 0x150014
/-- 11_integrity_and_replay.md. -/
def INT_AREA_DIFF : Nat := 0x150018
/-- 11_integrity_and_replay.md. -/
def INT_LOSS_ADDR_LO : Nat := 0x150020
/-- 11_integrity_and_replay.md. -/
def INT_LOSS_ADDR_HI : Nat := 0x150024
/-- 11_integrity_and_replay.md. -/
def INT_LOSS_LEN : Nat := 0x150028
/-- 11_integrity_and_replay.md. -/
def INT_LOSS_AT : Nat := 0x15002C
/-- 11_integrity_and_replay.md. -/
def INT_RESEND : Nat := 0x150030
/-- 11_integrity_and_replay.md. -/
def INT_LOSS_COUNT : Nat := 0x150034
/-- 11_integrity_and_replay.md. -/
def INT_JRNL_BASE_LO : Nat := 0x150040
/-- 11_integrity_and_replay.md. -/
def INT_JRNL_BASE_HI : Nat := 0x150044
/-- 11_integrity_and_replay.md. -/
def INT_JRNL_SIZE : Nat := 0x150048
/-- 11_integrity_and_replay.md. -/
def INT_JRNL_SEQ_LO : Nat := 0x15004C
/-- 11_integrity_and_replay.md. -/
def INT_JRNL_SEQ_HI : Nat := 0x150050
/-- 11_integrity_and_replay.md. -/
def INT_INJECT : Nat := 0x150060
/-- 11_integrity_and_replay.md. -/
def INT_RESULT : Nat := 0x150100
/-- 11_integrity_and_replay.md. -/
def INT_RESULT_TAG : Nat := 0x150104
/-- 11_integrity_and_replay.md. -/
def INT_RESULT_SEQ : Nat := 0x150108
/-- 11_integrity_and_replay.md. -/
def INT_RESULT_LAST : Nat := 0x15010C
/-- 11_integrity_and_replay.md. -/
def INT_RESULT_COUNTS : Nat := 0x150110
/-- 11_integrity_and_replay.md. -/
def INT_RESULT_ACK : Nat := 0x150114
/-- 11_integrity_and_replay.md. -/
def INT_SIG_LO (i : Nat) : Nat := 0x150400 + 0x8 * i
/-- 11_integrity_and_replay.md. -/
def INT_SIG_HI (i : Nat) : Nat := 0x150404 + 0x8 * i
/-- 12_memory.md. -/
def HBM_CTL : Nat := 0x090000
/-- 12_memory.md. -/
def HBM_STATUS : Nat := 0x090004
/-- 12_memory.md. -/
def HBM_EVENTS : Nat := 0x090008
/-- 12_memory.md. -/
def HBM_CE_COUNT : Nat := 0x09000C
/-- 12_memory.md. -/
def HBM_UE_COUNT : Nat := 0x090010
/-- 12_memory.md. -/
def HBM_ERR_ADDR_LO : Nat := 0x090014
/-- 12_memory.md. -/
def HBM_ERR_ADDR_HI : Nat := 0x090018
/-- 12_memory.md. -/
def HBM_ERR_INFO : Nat := 0x09001C
/-- 12_memory.md. -/
def HBM_REF_SEL : Nat := 0x090020
/-- 12_memory.md. -/
def HBM_REF_DEBT : Nat := 0x090024
/-- 12_memory.md. -/
def HBM_REF_DEBT_MAX : Nat := 0x090028
/-- 12_memory.md. -/
def HBM_REF_URGENT_COUNT : Nat := 0x09002C
/-- 12_memory.md. -/
def HBM_REF_SPLITS : Nat := 0x090030
/-- 12_memory.md. -/
def HBM_NBR_COUNT : Nat := 0x090034
/-- 12_memory.md. -/
def HBM_INIT_BASE_LO : Nat := 0x090040
/-- 12_memory.md. -/
def HBM_INIT_BASE_HI : Nat := 0x090044
/-- 12_memory.md. -/
def HBM_INIT_LEN_LO : Nat := 0x090048
/-- 12_memory.md. -/
def HBM_INIT_LEN_HI : Nat := 0x09004C
/-- 12_memory.md. -/
def HBM_INIT_GO : Nat := 0x090050
/-- 12_memory.md. -/
def HBM_SCRUB_CTL : Nat := 0x090060
/-- 12_memory.md. -/
def HBM_SCRUB_LAPS : Nat := 0x090064
/-- 12_memory.md. -/
def HBM_SCRUB_LAP_TIME : Nat := 0x090068
/-- 12_memory.md. -/
def HBM_SCRUB_LAP_ERRS : Nat := 0x09006C
/-- 12_memory.md. -/
def HBM_SCRUB_POS_LO : Nat := 0x090070
/-- 12_memory.md. -/
def HBM_SCRUB_POS_HI : Nat := 0x090074
/-- 12_memory.md. -/
def HBM_STK_STATUS (i : Nat) : Nat := 0x091000 + 0x100 * i
/-- 12_memory.md. -/
def HBM_STK_PPR (i : Nat) : Nat := 0x091004 + 0x100 * i
/-- 12_memory.md. -/
def HBM_STK_CE (i : Nat) : Nat := 0x091008 + 0x100 * i
/-- 12_memory.md. -/
def SRM_CTL : Nat := 0x0A0000
/-- 12_memory.md. -/
def SRM_STATUS : Nat := 0x0A0004
/-- 12_memory.md. -/
def SRM_EVENTS : Nat := 0x0A0008
/-- 12_memory.md. -/
def SRM_CE_COUNT : Nat := 0x0A000C
/-- 12_memory.md. -/
def SRM_PAR_COUNT : Nat := 0x0A0010
/-- 12_memory.md. -/
def SRM_BAD_COUNT : Nat := 0x0A0014
/-- 12_memory.md. -/
def SRM_BAD_AT : Nat := 0x0A0018
/-- 12_memory.md. -/
def SRM_RESTORE_ADDR : Nat := 0x0A0020
/-- 12_memory.md. -/
def SRM_RESTORE_DATA : Nat := 0x0A0024
/-- 12_memory.md. -/
def SRM_RESTORE_GO : Nat := 0x0A0028
/-- 12_memory.md. -/
def SRM_SCRUB_LAPS : Nat := 0x0A0030
/-- 12_memory.md. -/
def SRM_SCRUB_LAP_TIME : Nat := 0x0A0034
/-- 12_memory.md. -/
def SRM_SCRUB_LAP_ERRS : Nat := 0x0A0038
/-- 12_memory.md. -/
def SRM_CHK_CTL : Nat := 0x0A0040
/-- 12_memory.md. -/
def SRM_CHK_ADDR_LO : Nat := 0x0A0044
/-- 12_memory.md. -/
def SRM_CHK_ADDR_HI : Nat := 0x0A0048
/-- 12_memory.md. -/
def SRM_CHK_RESULT : Nat := 0x0A004C
/-- 12_memory.md. -/
def SRM_CHK_RESULT_ACK : Nat := 0x0A0050
/-- 12_memory.md. -/
def SRM_REPAIR_CAND : Nat := 0x0A0060
/-- 12_memory.md. -/
def SRM_REPAIR_CAND_MACRO : Nat := 0x0A0064
/-- 12_memory.md. -/
def SRM_REPAIR_CAND_ADDR : Nat := 0x0A0068
/-- 12_memory.md. -/
def SRM_REPAIR_CTL : Nat := 0x0A006C
/-- 12_memory.md. -/
def SRM_REPAIR_USED : Nat := 0x0A0070
/-- 13_host_dma_arbiter.md. -/
def PCI_STATUS : Nat := 0x060000
/-- 13_host_dma_arbiter.md. -/
def PCI_EVENTS : Nat := 0x060004
/-- 13_host_dma_arbiter.md. -/
def PCI_CTL : Nat := 0x060008
/-- 13_host_dma_arbiter.md. -/
def PCI_BAR2_RANGE_ADDR_LO : Nat := 0x06000C
/-- 13_host_dma_arbiter.md. -/
def PCI_BAR2_RANGE_ADDR_HI : Nat := 0x060010
/-- 13_host_dma_arbiter.md. -/
def PCI_CORR_COUNT : Nat := 0x060014
/-- 13_host_dma_arbiter.md. -/
def PCI_UNCORR_COUNT : Nat := 0x060018
/-- 13_host_dma_arbiter.md. -/
def DMA_CTL : Nat := 0x070000
/-- 13_host_dma_arbiter.md. -/
def DMA_STATUS : Nat := 0x070004
/-- 13_host_dma_arbiter.md. -/
def DMA_ACTIVE : Nat := 0x070008
/-- 13_host_dma_arbiter.md. -/
def DMA_EVENTS : Nat := 0x07000C
/-- 13_host_dma_arbiter.md. -/
def DMA_TIMEOUT : Nat := 0x070010
/-- 13_host_dma_arbiter.md. -/
def DMA_CH_CTL (i : Nat) : Nat := 0x071000 + 0x40 * i
/-- 13_host_dma_arbiter.md. -/
def DMA_CH_STATUS (i : Nat) : Nat := 0x071004 + 0x40 * i
/-- 13_host_dma_arbiter.md. -/
def DMA_CH_RING_LO (i : Nat) : Nat := 0x071008 + 0x40 * i
/-- 13_host_dma_arbiter.md. -/
def DMA_CH_RING_HI (i : Nat) : Nat := 0x07100C + 0x40 * i
/-- 13_host_dma_arbiter.md. -/
def DMA_CH_PTR (i : Nat) : Nat := 0x071010 + 0x40 * i
/-- 13_host_dma_arbiter.md. -/
def DMA_CH_DESC_LO (i : Nat) : Nat := 0x071014 + 0x40 * i
/-- 13_host_dma_arbiter.md. -/
def DMA_CH_DESC_HI (i : Nat) : Nat := 0x071018 + 0x40 * i
/-- 13_host_dma_arbiter.md. -/
def DMA_CH_DONE (i : Nat) : Nat := 0x07101C + 0x40 * i
/-- 13_host_dma_arbiter.md. -/
def DMA_CH_EVENTS (i : Nat) : Nat := 0x071020 + 0x40 * i
/-- 13_host_dma_arbiter.md. -/
def ARB_CTL : Nat := 0x080000
/-- 13_host_dma_arbiter.md. -/
def ARB_STATUS : Nat := 0x080004
/-- 13_host_dma_arbiter.md. -/
def ARB_DEAD : Nat := 0x080008
/-- 13_host_dma_arbiter.md. -/
def ARB_PORT (i : Nat) : Nat := 0x080040 + 0x4 * i
/-- 13_host_dma_arbiter.md. -/
def ARB_TDM (i : Nat) : Nat := 0x080100 + 0x4 * i
/-- 13_host_dma_arbiter.md. -/
def ARB_PORT_GRANTS (i : Nat) : Nat := 0x080200 + 0x8 * i
/-- 13_host_dma_arbiter.md. -/
def ARB_PORT_WAIT_MAX (i : Nat) : Nat := 0x080204 + 0x8 * i
/-- 14_regatta.md. -/
def STR_CTL : Nat := 0x160000
/-- 14_regatta.md. -/
def STR_STATUS : Nat := 0x160004
/-- 14_regatta.md. -/
def STR_EVENTS : Nat := 0x160008
/-- 14_regatta.md. -/
def STR_DIV_SIZE : Nat := 0x16000C
/-- 14_regatta.md. -/
def STR_REG_SIZE : Nat := 0x160010
/-- 14_regatta.md. -/
def STR_GROUP_SIZE : Nat := 0x160014
/-- 14_regatta.md. -/
def STR_BEACON_US : Nat := 0x160018
/-- 14_regatta.md. -/
def STR_STEP_NS : Nat := 0x16001C
/-- 14_regatta.md. -/
def STR_HALT_NS : Nat := 0x160020
/-- 14_regatta.md. -/
def STR_STALL_US : Nat := 0x160024
/-- 14_regatta.md. -/
def STR_RESUME_LEAD : Nat := 0x160028
/-- 14_regatta.md. -/
def STR_STALLS : Nat := 0x16002C
/-- 14_regatta.md. -/
def STR_STALL_AT : Nat := 0x160030
/-- 14_regatta.md. -/
def STR_DROPS : Nat := 0x160034
/-- 14_regatta.md. -/
def STR_THETA : Nat := 0x160038
/-- 14_regatta.md. -/
def STR_TX_CTL : Nat := 0x160040
/-- 14_regatta.md. -/
def STR_TX_TAG : Nat := 0x160044
/-- 14_regatta.md. -/
def STR_TX_STATUS : Nat := 0x160048
/-- 14_regatta.md. -/
def STR_RX_HEAD : Nat := 0x16004C
/-- 14_regatta.md. -/
def STR_RX_TAIL : Nat := 0x160050
/-- 14_regatta.md. -/
def STR_RX_DROPS : Nat := 0x160054
/-- 14_regatta.md. -/
def STR_LINK_STATUS (i : Nat) : Nat := 0x160100 + 0x20 * i
/-- 14_regatta.md. -/
def STR_LINK_ASYM (i : Nat) : Nat := 0x160104 + 0x20 * i
/-- 14_regatta.md. -/
def STR_LINK_DELAY (i : Nat) : Nat := 0x160108 + 0x20 * i
/-- 14_regatta.md. -/
def STR_LINK_RESENDS (i : Nat) : Nat := 0x16010C + 0x20 * i
/-- 14_regatta.md. -/
def STR_TX_DATA (i : Nat) : Nat := 0x164000 + 0x4 * i
/-- 14_regatta.md. -/
def STR_RX_SLOT (i j : Nat) : Nat := 0x168000 + 0x800 * i + 0x4 * j
/-- 15_events_and_recorder.md. -/
def EVT_CTL : Nat := 0x040000
/-- 15_events_and_recorder.md. -/
def EVT_STATUS : Nat := 0x040004
/-- 15_events_and_recorder.md. -/
def EVT_LEVEL (i : Nat) : Nat := 0x040010 + 0x4 * i
/-- 15_events_and_recorder.md. -/
def EVT_PEND (i : Nat) : Nat := 0x040020 + 0x4 * i
/-- 15_events_and_recorder.md. -/
def EVT_FORCE (i : Nat) : Nat := 0x040030 + 0x4 * i
/-- 15_events_and_recorder.md. -/
def EVT_SRC_CFG (i : Nat) : Nat := 0x040100 + 0x4 * i
/-- 15_events_and_recorder.md. -/
def EVT_SRC_COUNT (i : Nat) : Nat := 0x040300 + 0x4 * i
/-- 15_events_and_recorder.md. -/
def LOG_CTL : Nat := 0x050000
/-- 15_events_and_recorder.md. -/
def LOG_STATUS : Nat := 0x050004
/-- 15_events_and_recorder.md. -/
def LOG_EVENTS : Nat := 0x050008
/-- 15_events_and_recorder.md. -/
def LOG_NEWEST_SEQ_LO : Nat := 0x05000C
/-- 15_events_and_recorder.md. -/
def LOG_NEWEST_SEQ_HI : Nat := 0x050010
/-- 15_events_and_recorder.md. -/
def LOG_NEWEST_SLOT : Nat := 0x050014
/-- 15_events_and_recorder.md. -/
def LOG_OPTIME_LO : Nat := 0x050018
/-- 15_events_and_recorder.md. -/
def LOG_OPTIME_HI : Nat := 0x05001C
/-- 15_events_and_recorder.md. -/
def LOG_CYCLES : Nat := 0x050020
/-- 15_events_and_recorder.md. -/
def LOG_DROPS_LO : Nat := 0x050024
/-- 15_events_and_recorder.md. -/
def LOG_DROPS_HI : Nat := 0x050028
/-- 15_events_and_recorder.md. -/
def LOG_QUEUE_LOST : Nat := 0x05002C
/-- 15_events_and_recorder.md. -/
def LOG_CRIT_SLOTS : Nat := 0x050030
/-- 15_events_and_recorder.md. -/
def LOG_WALL_LO : Nat := 0x050040
/-- 15_events_and_recorder.md. -/
def LOG_WALL_HI : Nat := 0x050044
/-- 15_events_and_recorder.md. -/
def LOG_WALL_TAG : Nat := 0x050048
/-- 15_events_and_recorder.md. -/
def LOG_NOTE (i : Nat) : Nat := 0x050050 + 0x4 * i
/-- 15_events_and_recorder.md. -/
def LOG_NOTE_CFG : Nat := 0x050078
/-- 15_events_and_recorder.md. -/
def LOG_WIN_SLOT : Nat := 0x050100
/-- 15_events_and_recorder.md. -/
def LOG_WIN (i : Nat) : Nat := 0x050140 + 0x4 * i
/-- 15_events_and_recorder.md. -/
def LOG_AUD_SEQ_LO : Nat := 0x050200
/-- 15_events_and_recorder.md. -/
def LOG_AUD_SEQ_HI : Nat := 0x050204
/-- 15_events_and_recorder.md. -/
def LOG_AUD_GO : Nat := 0x050208
/-- 15_events_and_recorder.md. -/
def LOG_AUD_STATUS : Nat := 0x05020C
/-- 15_events_and_recorder.md. -/
def LOG_AUD (i : Nat) : Nat := 0x050240 + 0x4 * i
/-- 15_events_and_recorder.md. -/
def LOG_EXP_BASE_LO : Nat := 0x050300
/-- 15_events_and_recorder.md. -/
def LOG_EXP_BASE_HI : Nat := 0x050304
/-- 15_events_and_recorder.md. -/
def LOG_EXP_CAP : Nat := 0x050308
/-- 15_events_and_recorder.md. -/
def LOG_EXP_FROM_LO : Nat := 0x05030C
/-- 15_events_and_recorder.md. -/
def LOG_EXP_FROM_HI : Nat := 0x050310
/-- 15_events_and_recorder.md. -/
def LOG_EXP_GO : Nat := 0x050314
/-- 15_events_and_recorder.md. -/
def LOG_EXP_RESULT : Nat := 0x050320
/-- 15_events_and_recorder.md. -/
def LOG_EXP_COUNT : Nat := 0x050324
/-- 15_events_and_recorder.md. -/
def LOG_EXP_GAPS : Nat := 0x050328
/-- 15_events_and_recorder.md. -/
def LOG_EXP_LAST_LO : Nat := 0x05032C
/-- 15_events_and_recorder.md. -/
def LOG_EXP_LAST_HI : Nat := 0x050330
/-- 15_events_and_recorder.md. -/
def LOG_EXP_ACK : Nat := 0x050334
/-- 16_safety.md. -/
def SAF_CTL : Nat := 0x030000
/-- 16_safety.md. -/
def SAF_STATUS : Nat := 0x030004
/-- 16_safety.md. -/
def SAF_EVENTS : Nat := 0x030008
/-- 16_safety.md. -/
def SAF_CAUSE : Nat := 0x03000C
/-- 16_safety.md. -/
def SAF_LOCK : Nat := 0x030010
/-- 16_safety.md. -/
def SAF_LOCK_VIOL : Nat := 0x030014
/-- 16_safety.md. -/
def SAF_STOP_FILTER : Nat := 0x030018
/-- 16_safety.md. -/
def SAF_DIAG : Nat := 0x03001C
/-- 16_safety.md. -/
def SAF_REACT : Nat := 0x030020
/-- 16_safety.md. -/
def SAF_CUT : Nat := 0x030028
/-- 16_safety.md. -/
def SAF_PARAM_CRC : Nat := 0x03002C
/-- 16_safety.md. -/
def SAF_TEST : Nat := 0x030030
/-- 16_safety.md. -/
def SAF_TEST_RESULT : Nat := 0x030034
/-- 16_safety.md. -/
def SAF_TEST_ACK : Nat := 0x030038
/-- 16_safety.md. -/
def SAF_ENV_MIN_LO (i : Nat) : Nat := 0x030100 + 0x40 * i
/-- 16_safety.md. -/
def SAF_ENV_MIN_HI (i : Nat) : Nat := 0x030104 + 0x40 * i
/-- 16_safety.md. -/
def SAF_ENV_MAX_LO (i : Nat) : Nat := 0x030108 + 0x40 * i
/-- 16_safety.md. -/
def SAF_ENV_MAX_HI (i : Nat) : Nat := 0x03010C + 0x40 * i
/-- 16_safety.md. -/
def SAF_VLIM (i : Nat) : Nat := 0x030110 + 0x40 * i
/-- 16_safety.md. -/
def SAF_FOLLOW (i : Nat) : Nat := 0x030114 + 0x40 * i
/-- 16_safety.md. -/
def SAF_DECEL_CHK (i : Nat) : Nat := 0x030118 + 0x40 * i
/-- 16_safety.md. -/
def SAF_FILT (i : Nat) : Nat := 0x03011C + 0x40 * i
/-- 17_power_reset_configuration.md. -/
def PWR_RESET : Nat := 0x020000
/-- 17_power_reset_configuration.md. -/
def PWR_STATUS : Nat := 0x020004
/-- 17_power_reset_configuration.md. -/
def PWR_EVENTS : Nat := 0x020008
/-- 17_power_reset_configuration.md. -/
def PWR_VCORE_WARN : Nat := 0x02000C
/-- 17_power_reset_configuration.md. -/
def PWR_VCORE_NOW : Nat := 0x020010
/-- 17_power_reset_configuration.md. -/
def PWR_RAIL_LOW : Nat := 0x020014
/-- 17_power_reset_configuration.md. -/
def PWR_TJ : Nat := 0x020018
/-- 17_power_reset_configuration.md. -/
def PWR_TJ_WARN : Nat := 0x02001C
/-- 17_power_reset_configuration.md. -/
def PWR_WARN_COUNT : Nat := 0x020020
/-- 17_power_reset_configuration.md. -/
def PWR_STANDBY : Nat := 0x020024
/-- 17_power_reset_configuration.md. -/
def PWR_LAST_RESET : Nat := 0x020028
/-- 17_power_reset_configuration.md. -/
def PWR_KA_FLAGS : Nat := 0x02002C
/-- 17_power_reset_configuration.md. -/
def CFG_CTL : Nat := 0x010000
/-- 17_power_reset_configuration.md. -/
def CFG_STATUS : Nat := 0x010004
/-- 17_power_reset_configuration.md. -/
def CFG_EVENTS : Nat := 0x010008
/-- 17_power_reset_configuration.md. -/
def CFG_DEFAULTED : Nat := 0x01000C
/-- 17_power_reset_configuration.md. -/
def CFG_DEVICE_ID : Nat := 0x010010
/-- 17_power_reset_configuration.md. -/
def CFG_BUILD_LO : Nat := 0x010014
/-- 17_power_reset_configuration.md. -/
def CFG_BUILD_HI : Nat := 0x010018
/-- 17_power_reset_configuration.md. -/
def CFG_IMAGE_CRC_LO : Nat := 0x01001C
/-- 17_power_reset_configuration.md. -/
def CFG_IMAGE_CRC_HI : Nat := 0x010020
/-- 17_power_reset_configuration.md. -/
def CFG_JOB_SRC_LO : Nat := 0x010040
/-- 17_power_reset_configuration.md. -/
def CFG_JOB_SRC_HI : Nat := 0x010044
/-- 17_power_reset_configuration.md. -/
def CFG_JOB_CTL : Nat := 0x010048
/-- 17_power_reset_configuration.md. -/
def CFG_JOB_RESULT : Nat := 0x01004C
/-- 17_power_reset_configuration.md. -/
def CFG_JOB_ACK : Nat := 0x010050
/-- 17_power_reset_configuration.md. -/
def CFG_SHAPE (i : Nat) : Nat := 0x010100 + 0x4 * i
/-- 17_power_reset_configuration.md. -/
def CFG_STAGE (i : Nat) : Nat := 0x010180 + 0x4 * i
/-- 19_register_index.md. -/
def GEN_ID : Nat := 0x000000
/-- 19_register_index.md. -/
def GEN_REV : Nat := 0x000004
/-- 19_register_index.md. -/
def GEN_EVENTS : Nat := 0x000008
/-- 19_register_index.md. -/
def GEN_SCRATCH : Nat := 0x00000C
/-- 19_register_index.md. -/
def GEN_TIME_LO : Nat := 0x000010
/-- 19_register_index.md. -/
def GEN_TIME_HI : Nat := 0x000014
/-- 19_register_index.md. -/
def GEN_SERIAL_LO : Nat := 0x000018
/-- 19_register_index.md. -/
def GEN_SERIAL_HI : Nat := 0x00001C
/-- 07_beam_lanes.md. -/
def BLN_MAP_BANK : Nat := 0x119040
/-- 06_crews_and_wake_buffer.md. -/
def CRW_MAP_BANK : Nat := 0x0F0040
/-- 08_stroke_timing.md. -/
def STK_WAVE_BANK : Nat := 0x1200C0

end R

namespace F

def ING_CTL_RUN : Fld := .mk R.ING_CTL 0 1
def ING_CTL_FENCE_EN : Fld := .mk R.ING_CTL 1 1
def ING_CTL_FLUSH : Fld := .mk R.ING_CTL 2 1
def ING_CTL_SKIP : Fld := .mk R.ING_CTL 3 1
def ING_STATUS_OCCUPIED : Fld := .mk R.ING_STATUS 0 4
def ING_STATUS_HEAD : Fld := .mk R.ING_STATUS 4 3
def ING_STATUS_FULL : Fld := .mk R.ING_STATUS 7 1
def ING_STATUS_FROZEN : Fld := .mk R.ING_STATUS 8 1
def ING_STATUS_RUNNING : Fld := .mk R.ING_STATUS 9 1
def ING_STATUS_RUN_ENTRY : Fld := .mk R.ING_STATUS 10 3
def ING_EVENTS_POST_REFUSED : Fld := .mk R.ING_EVENTS 0 1
def ING_EVENTS_ADMIT_FAIL : Fld := .mk R.ING_EVENTS 1 1
def ING_EVENTS_LAYOUT_ABORT : Fld := .mk R.ING_EVENTS 2 1
def ING_EVENTS_FENCE_HIT : Fld := .mk R.ING_EVENTS 3 1
def ING_EVENTS_COURSE_START : Fld := .mk R.ING_EVENTS 4 1
def ING_EVENTS_COURSE_END : Fld := .mk R.ING_EVENTS 5 1
def ING_FENCE_HITS_COUNT : Fld := .mk R.ING_FENCE_HITS 0 32
def ING_CQ_DESC_WORD (i : Nat) : Fld := .mk (R.ING_CQ_DESC i) 0 32
def ING_CQ_POST_POST : Fld := .mk R.ING_CQ_POST 0 1
def ING_CQ_LAST_ENTRY : Fld := .mk R.ING_CQ_LAST 0 3
def ING_CQ_LAST_SEQ : Fld := .mk R.ING_CQ_LAST 8 16
def ING_CQ_STATE_STATE (i : Nat) : Fld := .mk (R.ING_CQ_STATE i) 0 3
def ING_CQ_STATE_ERROR (i : Nat) : Fld := .mk (R.ING_CQ_STATE i) 3 5
def ING_CQ_STATE_PASS (i : Nat) : Fld := .mk (R.ING_CQ_STATE i) 8 3
def ING_CQ_STATE_PREPARSE (i : Nat) : Fld := .mk (R.ING_CQ_STATE i) 11 1
def ING_CQ_STATE_SEQ (i : Nat) : Fld := .mk (R.ING_CQ_STATE i) 16 16
def ING_CQ_TAG_TAG (i : Nat) : Fld := .mk (R.ING_CQ_TAG i) 0 32
def ING_CQ_WHERE_BAND (i : Nat) : Fld := .mk (R.ING_CQ_WHERE i) 0 16
def ING_CQ_WHERE_TILE (i : Nat) : Fld := .mk (R.ING_CQ_WHERE i) 16 5
def ING_CQ_OFFSET_OFFSET (i : Nat) : Fld := .mk (R.ING_CQ_OFFSET i) 0 26
def ING_CQ_OFFSET_IN_HEADER (i : Nat) : Fld := .mk (R.ING_CQ_OFFSET i) 26 1
def SLZ_CTL_LEVEL : Fld := .mk R.SLZ_CTL 0 2
def SLZ_CTL_ABORT : Fld := .mk R.SLZ_CTL 8 1
def SLZ_STATUS_BUSY : Fld := .mk R.SLZ_STATUS 0 1
def SLZ_STATUS_KIND : Fld := .mk R.SLZ_STATUS 1 1
def SLZ_STATUS_ENTRY : Fld := .mk R.SLZ_STATUS 2 12
def SLZ_EVENTS_JOB_DONE : Fld := .mk R.SLZ_EVENTS 0 1
def SLZ_EVENTS_GO_REFUSED : Fld := .mk R.SLZ_EVENTS 1 1
def SLZ_EVENTS_TILE_CODEC : Fld := .mk R.SLZ_EVENTS 2 1
def SLZ_JOB_TABLE_LO_ADDR : Fld := .mk R.SLZ_JOB_TABLE_LO 0 32
def SLZ_JOB_TABLE_HI_ADDR : Fld := .mk R.SLZ_JOB_TABLE_HI 0 32
def SLZ_JOB_COUNT_COUNT : Fld := .mk R.SLZ_JOB_COUNT 0 13
def SLZ_JOB_DST_LO_ADDR : Fld := .mk R.SLZ_JOB_DST_LO 0 32
def SLZ_JOB_DST_HI_ADDR : Fld := .mk R.SLZ_JOB_DST_HI 0 32
def SLZ_JOB_CAP_LO_CAP : Fld := .mk R.SLZ_JOB_CAP_LO 0 32
def SLZ_JOB_CAP_HI_CAP : Fld := .mk R.SLZ_JOB_CAP_HI 0 32
def SLZ_JOB_GO_GO : Fld := .mk R.SLZ_JOB_GO 0 1
def SLZ_JOB_GO_KIND : Fld := .mk R.SLZ_JOB_GO 1 1
def SLZ_RESULT_VALID : Fld := .mk R.SLZ_RESULT 0 1
def SLZ_RESULT_SEEN : Fld := .mk R.SLZ_RESULT 1 1
def SLZ_RESULT_OVERRUN : Fld := .mk R.SLZ_RESULT 2 1
def SLZ_RESULT_CODE : Fld := .mk R.SLZ_RESULT 4 3
def SLZ_RESULT_ENTRY : Fld := .mk R.SLZ_RESULT 10 12
def SLZ_RESULT_USED_LO_USED : Fld := .mk R.SLZ_RESULT_USED_LO 0 32
def SLZ_RESULT_USED_HI_USED : Fld := .mk R.SLZ_RESULT_USED_HI 0 32
def SLZ_RESULT_ACK_ACK : Fld := .mk R.SLZ_RESULT_ACK 0 1
def SLZ_TILE_ERR_NAME (i : Nat) : Fld := .mk (R.SLZ_TILE_ERR i) 0 2
def SLZ_TILE_ERR_ISLET (i : Nat) : Fld := .mk (R.SLZ_TILE_ERR i) 2 7
def SLZ_TILE_ERR_BSX (i : Nat) : Fld := .mk (R.SLZ_TILE_ERR i) 9 1
def SLZ_TILE_ERR_IN_IN_OFFSET (i : Nat) : Fld := .mk (R.SLZ_TILE_ERR_IN i) 0 24
def SLZ_TILE_ERR_OUT_OUT_COUNT (i : Nat) : Fld := .mk (R.SLZ_TILE_ERR_OUT i) 0 24
def RAS_CTL_HOLD : Fld := .mk R.RAS_CTL 0 1
def RAS_CTL_DCLASS_ORDER : Fld := .mk R.RAS_CTL 1 1
def RAS_CTL_SPILL_EN : Fld := .mk R.RAS_CTL 2 1
def RAS_CTL_FAULT_LIMIT : Fld := .mk R.RAS_CTL 4 4
def RAS_STATUS_IN_FLIGHT : Fld := .mk R.RAS_STATUS 0 9
def RAS_STATUS_IN_SERVICE : Fld := .mk R.RAS_STATUS 9 8
def RAS_STATUS_ADMIT_IN_SERVICE : Fld := .mk R.RAS_STATUS 17 8
def RAS_STATUS_HELD : Fld := .mk R.RAS_STATUS 25 1
def RAS_EVENTS_UNDERSTATED : Fld := .mk R.RAS_EVENTS 0 1
def RAS_EVENTS_SLOW_TILE : Fld := .mk R.RAS_EVENTS 1 1
def RAS_EVENTS_RESTART : Fld := .mk R.RAS_EVENTS 2 1
def RAS_EVENTS_AUTO_DISABLE : Fld := .mk R.RAS_EVENTS 3 1
def RAS_EVENTS_TOO_FEW : Fld := .mk R.RAS_EVENTS 4 1
def RAS_DISPATCH_BAND : Fld := .mk R.RAS_DISPATCH 0 17
def RAS_DONE_BAND : Fld := .mk R.RAS_DONE 0 17
def RAS_SLOW_LIMIT_LIMIT : Fld := .mk R.RAS_SLOW_LIMIT 0 16
def RAS_SPILL_BASE_LO_ADDR : Fld := .mk R.RAS_SPILL_BASE_LO 24 8
def RAS_SPILL_BASE_HI_ADDR : Fld := .mk R.RAS_SPILL_BASE_HI 0 32
def RAS_CLASS_COUNT_COUNT (i : Nat) : Fld := .mk (R.RAS_CLASS_COUNT i) 0 32
def RAS_UNDERSTATED_COUNT : Fld := .mk R.RAS_UNDERSTATED 0 32
def RAS_E_MAX_E : Fld := .mk R.RAS_E_MAX 0 32
def RAS_E_MAX_AT_BAND : Fld := .mk R.RAS_E_MAX_AT 0 16
def RAS_E_MAX_AT_TILE : Fld := .mk R.RAS_E_MAX_AT 16 5
def RAS_PROBE_BAND : Fld := .mk R.RAS_PROBE 0 16
def RAS_PROBE_TILE : Fld := .mk R.RAS_PROBE 16 5
def RAS_PROBE_ENTRY : Fld := .mk R.RAS_PROBE 21 3
def RAS_PROBE_GO : Fld := .mk R.RAS_PROBE 31 1
def RAS_PROBE_STATUS_VALID : Fld := .mk R.RAS_PROBE_STATUS 0 1
def RAS_PROBE_STATUS_ERROR : Fld := .mk R.RAS_PROBE_STATUS 1 1
def RAS_PROBE_A0_LO_A0 : Fld := .mk R.RAS_PROBE_A0_LO 0 32
def RAS_PROBE_A0_HI_A0 : Fld := .mk R.RAS_PROBE_A0_HI 0 32
def RAS_PROBE_A1_A1 : Fld := .mk R.RAS_PROBE_A1 0 32
def RAS_PROBE_A2_A2 : Fld := .mk R.RAS_PROBE_A2 0 32
def RAS_PROBE_B0_LO_B0 : Fld := .mk R.RAS_PROBE_B0_LO 0 32
def RAS_PROBE_B0_HI_B0 : Fld := .mk R.RAS_PROBE_B0_HI 0 32
def RAS_PROBE_B1_B1 : Fld := .mk R.RAS_PROBE_B1 0 32
def RAS_PROBE_B2_B2 : Fld := .mk R.RAS_PROBE_B2 0 32
def RAS_ISLET_CTL_DISABLE (i : Nat) : Fld := .mk (R.RAS_ISLET_CTL i) 0 1
def RAS_ISLET_STATUS_ROLE (i : Nat) : Fld := .mk (R.RAS_ISLET_STATUS i) 0 2
def RAS_ISLET_STATUS_IN_SERVICE (i : Nat) : Fld := .mk (R.RAS_ISLET_STATUS i) 2 1
def RAS_ISLET_STATUS_BUSY_SLOTS (i : Nat) : Fld := .mk (R.RAS_ISLET_STATUS i) 3 2
def RAS_ISLET_STATUS_AUTO_DISABLED (i : Nat) : Fld := .mk (R.RAS_ISLET_STATUS i) 5 1
def RAS_ISLET_SLOT0_BAND (i : Nat) : Fld := .mk (R.RAS_ISLET_SLOT0 i) 0 16
def RAS_ISLET_SLOT0_TILE (i : Nat) : Fld := .mk (R.RAS_ISLET_SLOT0 i) 16 5
def RAS_ISLET_SLOT0_ENTRY (i : Nat) : Fld := .mk (R.RAS_ISLET_SLOT0 i) 21 3
def RAS_ISLET_SLOT0_KIND (i : Nat) : Fld := .mk (R.RAS_ISLET_SLOT0 i) 24 2
def RAS_ISLET_SLOT1_BAND (i : Nat) : Fld := .mk (R.RAS_ISLET_SLOT1 i) 0 16
def RAS_ISLET_SLOT1_TILE (i : Nat) : Fld := .mk (R.RAS_ISLET_SLOT1 i) 16 5
def RAS_ISLET_SLOT1_ENTRY (i : Nat) : Fld := .mk (R.RAS_ISLET_SLOT1 i) 21 3
def RAS_ISLET_SLOT1_KIND (i : Nat) : Fld := .mk (R.RAS_ISLET_SLOT1 i) 24 2
def RAS_ISLET_TILES_COUNT (i : Nat) : Fld := .mk (R.RAS_ISLET_TILES i) 0 32
def RAS_ISLET_FAULTS_IN_COURSE (i : Nat) : Fld := .mk (R.RAS_ISLET_FAULTS i) 0 8
def RAS_ISLET_FAULTS_TOTAL (i : Nat) : Fld := .mk (R.RAS_ISLET_FAULTS i) 16 16
def RAS_ISLET_SLOW_COUNT (i : Nat) : Fld := .mk (R.RAS_ISLET_SLOW i) 0 32
def DOS_CTL_BSX_EN : Fld := .mk R.DOS_CTL 0 1
def DOS_CTL_TGN_EN : Fld := .mk R.DOS_CTL 1 1
def DOS_STATUS_BSX_BUSY : Fld := .mk R.DOS_STATUS 0 1
def DOS_STATUS_BSX_WAIT : Fld := .mk R.DOS_STATUS 1 1
def DOS_EVENTS_SATURATED : Fld := .mk R.DOS_EVENTS 0 1
def DOS_EVENTS_BSX_LATE : Fld := .mk R.DOS_EVENTS 1 1
def DOS_EVENTS_BSX_REBUILD : Fld := .mk R.DOS_EVENTS 2 1
def DOS_EVENTS_TBL_REFUSED : Fld := .mk R.DOS_EVENTS 3 1
def DOS_EVENTS_TBL_WRITE_IGNORED : Fld := .mk R.DOS_EVENTS 4 1
def DOS_PIX_MAX_MAX : Fld := .mk R.DOS_PIX_MAX 0 11
def DOS_BSE_REF_REF : Fld := .mk R.DOS_BSE_REF 0 16
def DOS_BSX_AHEAD_BANDS : Fld := .mk R.DOS_BSX_AHEAD 0 12
def DOS_BSX_BAND_BAND : Fld := .mk R.DOS_BSX_BAND 0 17
def DOS_SAT_COUNT_COUNT : Fld := .mk R.DOS_SAT_COUNT 0 32
def DOS_SAT_FIRST_TRACK : Fld := .mk R.DOS_SAT_FIRST 0 13
def DOS_SAT_FIRST_VALID : Fld := .mk R.DOS_SAT_FIRST 31 1
def DOS_SAT_FIRST_ROW_ROW : Fld := .mk R.DOS_SAT_FIRST_ROW 0 24
def DOS_KRN_BANK_OPEN : Fld := .mk R.DOS_KRN_BANK 0 1
def DOS_KRN_BANK_CLONE : Fld := .mk R.DOS_KRN_BANK 1 1
def DOS_KRN_BANK_COMMIT : Fld := .mk R.DOS_KRN_BANK 2 1
def DOS_KRN_BANK_ACTIVE : Fld := .mk R.DOS_KRN_BANK 4 1
def DOS_KRN_BANK_PENDING : Fld := .mk R.DOS_KRN_BANK 5 1
def DOS_KRN_BANK_COMPLETE : Fld := .mk R.DOS_KRN_BANK 6 1
def DOS_KRN_BANK_CLONING : Fld := .mk R.DOS_KRN_BANK 7 1
def DOS_KRN_BANK_REFUSE : Fld := .mk R.DOS_KRN_BANK 8 2
def DOS_KRN_BANK_IGNORED : Fld := .mk R.DOS_KRN_BANK 10 1
def DOS_TGN_BANK_OPEN : Fld := .mk R.DOS_TGN_BANK 0 1
def DOS_TGN_BANK_CLONE : Fld := .mk R.DOS_TGN_BANK 1 1
def DOS_TGN_BANK_COMMIT : Fld := .mk R.DOS_TGN_BANK 2 1
def DOS_TGN_BANK_ACTIVE : Fld := .mk R.DOS_TGN_BANK 4 1
def DOS_TGN_BANK_PENDING : Fld := .mk R.DOS_TGN_BANK 5 1
def DOS_TGN_BANK_COMPLETE : Fld := .mk R.DOS_TGN_BANK 6 1
def DOS_TGN_BANK_CLONING : Fld := .mk R.DOS_TGN_BANK 7 1
def DOS_TGN_BANK_REFUSE : Fld := .mk R.DOS_TGN_BANK 8 2
def DOS_TGN_BANK_IGNORED : Fld := .mk R.DOS_TGN_BANK 10 1
def DOS_KRN_RADIUS_RADIUS (i : Nat) : Fld := .mk (R.DOS_KRN_RADIUS i) 0 8
def DOS_KRN_ETA_ETA (i j : Nat) : Fld := .mk (R.DOS_KRN_ETA i j) 0 16
def DOS_KRN_TAP_TAP (i j k : Nat) : Fld := .mk (R.DOS_KRN_TAP i j k) 0 16
def DOS_TGN_GAIN_LO (i j : Nat) : Fld := .mk (R.DOS_TGN i j) 0 16
def DOS_TGN_GAIN_HI (i j : Nat) : Fld := .mk (R.DOS_TGN i j) 16 16
def CRW_CTL_PERM_EN : Fld := .mk R.CRW_CTL 0 1
def CRW_STATUS_SPLITTING : Fld := .mk R.CRW_STATUS 0 1
def CRW_STATUS_EXCHANGING : Fld := .mk R.CRW_STATUS 1 1
def CRW_EVENTS_UNDER : Fld := .mk R.CRW_EVENTS 0 1
def CRW_EVENTS_OVER : Fld := .mk R.CRW_EVENTS 1 1
def CRW_EVENTS_DEAD_CREW : Fld := .mk R.CRW_EVENTS 2 1
def CRW_EVENTS_MAP_EXCHANGED : Fld := .mk R.CRW_EVENTS 3 1
def CRW_EVENTS_MAP_REFUSED : Fld := .mk R.CRW_EVENTS 4 1
def CRW_EVENTS_MAP_IGNORED : Fld := .mk R.CRW_EVENTS 5 1
def CRW_SPLIT_STROKE_STROKE : Fld := .mk R.CRW_SPLIT_STROKE 0 25
def CRW_MAP_LIVE_COUNT : Fld := .mk R.CRW_MAP_LIVE 0 21
def CRW_MAP_OFF_COUNT : Fld := .mk R.CRW_MAP_OFF 0 21
def CRW_MAP_ON_COUNT : Fld := .mk R.CRW_MAP_ON 0 21
def CRW_MAP_MIN_L_MIN_L : Fld := .mk R.CRW_MAP_MIN_L 0 8
def CRW_MAP_MIN_L_TRACK : Fld := .mk R.CRW_MAP_MIN_L 8 13
def CRW_UNDER_COUNT_COUNT : Fld := .mk R.CRW_UNDER_COUNT 0 32
def CRW_OVER_COUNT_COUNT : Fld := .mk R.CRW_OVER_COUNT 0 32
def CRW_DEFICIT_DU_DU : Fld := .mk R.CRW_DEFICIT_DU 0 32
def CRW_EXCESS_DU_DU : Fld := .mk R.CRW_EXCESS_DU 0 32
def CRW_UNW_FIRST_TRACK : Fld := .mk R.CRW_UNW_FIRST 0 13
def CRW_UNW_FIRST_KIND : Fld := .mk R.CRW_UNW_FIRST 13 1
def CRW_UNW_FIRST_VALID : Fld := .mk R.CRW_UNW_FIRST 31 1
def CRW_UNW_FIRST_ROW_ROW : Fld := .mk R.CRW_UNW_FIRST_ROW 0 24
def CRW_MAP_SHADOW_LO_ADDR : Fld := .mk R.CRW_MAP_SHADOW_LO 23 9
def CRW_MAP_SHADOW_HI_ADDR : Fld := .mk R.CRW_MAP_SHADOW_HI 0 32
def CRW_MAP_MARKED_COUNT : Fld := .mk R.CRW_MAP_MARKED 0 21
def CRW_MAP_INVALID_COUNT : Fld := .mk R.CRW_MAP_INVALID 0 21
def CRW_MAP_INVALID_AT_INDEX : Fld := .mk R.CRW_MAP_INVALID_AT 0 20
def CRW_MAP_INVALID_AT_VALID : Fld := .mk R.CRW_MAP_INVALID_AT 31 1
def CRW_PROBE_TRACK : Fld := .mk R.CRW_PROBE 0 13
def CRW_PROBE_SEAT : Fld := .mk R.CRW_PROBE 13 7
def CRW_PROBE_P : Fld := .mk R.CRW_PROBE 20 11
def CRW_PROBE_GO : Fld := .mk R.CRW_PROBE 31 1
def CRW_PROBE_ROW_ROW : Fld := .mk R.CRW_PROBE_ROW 0 24
def CRW_PROBE_OUT_CODE : Fld := .mk R.CRW_PROBE_OUT 0 4
def CRW_PROBE_OUT_RANK : Fld := .mk R.CRW_PROBE_OUT 4 7
def CRW_PROBE_OUT_OFF : Fld := .mk R.CRW_PROBE_OUT 12 7
def CRW_PROBE_OUT_L : Fld := .mk R.CRW_PROBE_OUT 20 8
def CRW_PROBE_OUT_UNDER : Fld := .mk R.CRW_PROBE_OUT 28 1
def CRW_PROBE_OUT_OVER : Fld := .mk R.CRW_PROBE_OUT 29 1
def CRW_PROBE_OUT_NONLIVE : Fld := .mk R.CRW_PROBE_OUT 30 1
def CRW_PROBE_OUT_VALID : Fld := .mk R.CRW_PROBE_OUT 31 1
def CRW_MAP_LO_ENTRY (i : Nat) : Fld := .mk (R.CRW_MAP_LO i) 0 32
def CRW_MAP_HI_ENTRY (i : Nat) : Fld := .mk (R.CRW_MAP_HI i) 0 32
def WAK_STATUS_ACTIVE : Fld := .mk R.WAK_STATUS 0 1
def WAK_STATUS_STALLED : Fld := .mk R.WAK_STATUS 1 1
def WAK_STATUS_K : Fld := .mk R.WAK_STATUS 2 1
def WAK_EVENTS_FAULT : Fld := .mk R.WAK_EVENTS 0 1
def WAK_EVENTS_STALL : Fld := .mk R.WAK_EVENTS 1 1
def WAK_READ_POINT_ROW : Fld := .mk R.WAK_READ_POINT 0 25
def WAK_FRONT_ROW : Fld := .mk R.WAK_FRONT 0 25
def WAK_LEAD_LEAD : Fld := .mk R.WAK_LEAD 0 16
def WAK_LEAD_MIN : Fld := .mk R.WAK_LEAD 16 16
def WAK_STALLS_COUNT : Fld := .mk R.WAK_STALLS 0 32
def WAK_FAULTS_COUNT : Fld := .mk R.WAK_FAULTS 0 32
def WAK_FAULT_STROKE_STROKE : Fld := .mk R.WAK_FAULT_STROKE 0 25
def WAK_FAULT_STROKE_VALID : Fld := .mk R.WAK_FAULT_STROKE 31 1
def WAK_FAULT_CELL_TRACK : Fld := .mk R.WAK_FAULT_CELL 0 13
def WAK_FAULT_CELL_KIND : Fld := .mk R.WAK_FAULT_CELL 13 1
def WAK_FAULT_CELL_SEAT : Fld := .mk R.WAK_FAULT_CELL 14 7
def WAK_FAULT_ROW_ROW : Fld := .mk R.WAK_FAULT_ROW 0 24
def WAK_PEEK_TRACK : Fld := .mk R.WAK_PEEK 0 13
def WAK_PEEK_GO : Fld := .mk R.WAK_PEEK 31 1
def WAK_PEEK_ROW_ROW : Fld := .mk R.WAK_PEEK_ROW 0 24
def WAK_PEEK_DATA_CELL : Fld := .mk R.WAK_PEEK_DATA 0 16
def WAK_PEEK_DATA_PAR_ERR : Fld := .mk R.WAK_PEEK_DATA 16 1
def WAK_PEEK_DATA_ABSENT : Fld := .mk R.WAK_PEEK_DATA 17 1
def WAK_PEEK_DATA_VALID : Fld := .mk R.WAK_PEEK_DATA 31 1
def WAK_SLOT_BAND (i : Nat) : Fld := .mk (R.WAK_SLOT i) 0 16
def WAK_SLOT_HELD (i : Nat) : Fld := .mk (R.WAK_SLOT i) 16 1
def WAK_SLOT_MASK_MASK (i : Nat) : Fld := .mk (R.WAK_SLOT_MASK i) 0 32
def BLN_LANE_CTL_ENABLE (i : Nat) : Fld := .mk (R.BLN_LANE_CTL i) 0 1
def BLN_LANE_CTL_TRAIN (i : Nat) : Fld := .mk (R.BLN_LANE_CTL i) 1 1
def BLN_LANE_CTL_LADDER (i : Nat) : Fld := .mk (R.BLN_LANE_CTL i) 2 1
def BLN_LANE_CTL_PRECODE (i : Nat) : Fld := .mk (R.BLN_LANE_CTL i) 3 1
def BLN_LANE_CTL_TX_INVERT (i : Nat) : Fld := .mk (R.BLN_LANE_CTL i) 4 1
def BLN_LANE_CTL_TEST (i : Nat) : Fld := .mk (R.BLN_LANE_CTL i) 5 1
def BLN_LANE_CTL_TX_PRESET (i : Nat) : Fld := .mk (R.BLN_LANE_CTL i) 8 4
def BLN_LANE_STATUS_STATE (i : Nat) : Fld := .mk (R.BLN_LANE_STATUS i) 0 3
def BLN_LANE_STATUS_RUNG (i : Nat) : Fld := .mk (R.BLN_LANE_STATUS i) 3 2
def BLN_LANE_STATUS_REMOTE_LOCK (i : Nat) : Fld := .mk (R.BLN_LANE_STATUS i) 5 1
def BLN_LANE_STATUS_SPARE (i : Nat) : Fld := .mk (R.BLN_LANE_STATUS i) 6 1
def BLN_LANE_STATUS_BEAM_LANE (i : Nat) : Fld := .mk (R.BLN_LANE_STATUS i) 8 7
def BLN_LANE_STATUS_FAILS (i : Nat) : Fld := .mk (R.BLN_LANE_STATUS i) 16 8
def BLN_LANE_EVENTS_TRAINED (i : Nat) : Fld := .mk (R.BLN_LANE_EVENTS i) 0 1
def BLN_LANE_EVENTS_TRAIN_FAIL (i : Nat) : Fld := .mk (R.BLN_LANE_EVENTS i) 1 1
def BLN_LANE_EVENTS_LOCK_LOST (i : Nat) : Fld := .mk (R.BLN_LANE_EVENTS i) 2 1
def BLN_LANE_EVENTS_ACK_MISS (i : Nat) : Fld := .mk (R.BLN_LANE_EVENTS i) 3 1
def BLN_LANE_EVENTS_SUB_OUT (i : Nat) : Fld := .mk (R.BLN_LANE_EVENTS i) 4 1
def BLN_LANE_EVENTS_SUB_IN (i : Nat) : Fld := .mk (R.BLN_LANE_EVENTS i) 5 1
def BLN_LANE_FRAMES_COUNT (i : Nat) : Fld := .mk (R.BLN_LANE_FRAMES i) 0 32
def BLN_LANE_ACK_MISS_COUNT (i : Nat) : Fld := .mk (R.BLN_LANE_ACK_MISS i) 0 32
def BLN_LANE_PRBS_PATTERN (i : Nat) : Fld := .mk (R.BLN_LANE_PRBS i) 0 3
def BLN_LANE_PRBS_FRAMED (i : Nat) : Fld := .mk (R.BLN_LANE_PRBS i) 3 1
def BLN_LANE_INJECT_KIND (i : Nat) : Fld := .mk (R.BLN_LANE_INJECT i) 0 2
def BLN_LANE_INJECT_NSYM (i : Nat) : Fld := .mk (R.BLN_LANE_INJECT i) 2 5
def BLN_LANE_INJECT_PERIODIC (i : Nat) : Fld := .mk (R.BLN_LANE_INJECT i) 7 1
def BLN_LANE_INJECT_PERIOD (i : Nat) : Fld := .mk (R.BLN_LANE_INJECT i) 8 24
def BLN_LANE_TRAIN_TIME (i : Nat) : Fld := .mk (R.BLN_LANE_TRAIN i) 0 16
def BLN_LANE_TRAIN_TOP_RUNG (i : Nat) : Fld := .mk (R.BLN_LANE_TRAIN i) 16 2
def BLN_LANE_TRAIN_OK (i : Nat) : Fld := .mk (R.BLN_LANE_TRAIN i) 18 1
def BLN_ECHO_CTL_ENABLE (i : Nat) : Fld := .mk (R.BLN_ECHO_CTL i) 0 1
def BLN_ECHO_CTL_PRECODE (i : Nat) : Fld := .mk (R.BLN_ECHO_CTL i) 1 1
def BLN_ECHO_CTL_TEST (i : Nat) : Fld := .mk (R.BLN_ECHO_CTL i) 2 1
def BLN_ECHO_CTL_PATTERN (i : Nat) : Fld := .mk (R.BLN_ECHO_CTL i) 3 3
def BLN_ECHO_CTL_FRAMED (i : Nat) : Fld := .mk (R.BLN_ECHO_CTL i) 6 1
def BLN_ECHO_STATUS_STATE (i : Nat) : Fld := .mk (R.BLN_ECHO_STATUS i) 0 2
def BLN_ECHO_STATUS_POL_INV (i : Nat) : Fld := .mk (R.BLN_ECHO_STATUS i) 2 1
def BLN_ECHO_STATUS_ECHO_ID (i : Nat) : Fld := .mk (R.BLN_ECHO_STATUS i) 3 2
def BLN_ECHO_STATUS_FROZEN (i : Nat) : Fld := .mk (R.BLN_ECHO_STATUS i) 5 1
def BLN_ECHO_STATUS_PRBS_LOCK (i : Nat) : Fld := .mk (R.BLN_ECHO_STATUS i) 6 1
def BLN_ECHO_EVENTS_LOCKED (i : Nat) : Fld := .mk (R.BLN_ECHO_EVENTS i) 0 1
def BLN_ECHO_EVENTS_LOCK_LOST (i : Nat) : Fld := .mk (R.BLN_ECHO_EVENTS i) 1 1
def BLN_ECHO_EVENTS_CRC_ERR (i : Nat) : Fld := .mk (R.BLN_ECHO_EVENTS i) 2 1
def BLN_ECHO_EVENTS_FRAMING (i : Nat) : Fld := .mk (R.BLN_ECHO_EVENTS i) 3 1
def BLN_ECHO_EVENTS_ID_CONFLICT (i : Nat) : Fld := .mk (R.BLN_ECHO_EVENTS i) 4 1
def BLN_ECHO_FEC_CORR_COUNT (i : Nat) : Fld := .mk (R.BLN_ECHO_FEC_CORR i) 0 32
def BLN_ECHO_FEC_UNCORR_COUNT (i : Nat) : Fld := .mk (R.BLN_ECHO_FEC_UNCORR i) 0 32
def BLN_ECHO_CRC_ERRS_COUNT (i : Nat) : Fld := .mk (R.BLN_ECHO_CRC_ERRS i) 0 32
def BLN_ECHO_PRBS_ERRS_COUNT (i : Nat) : Fld := .mk (R.BLN_ECHO_PRBS_ERRS i) 0 32
def BLN_CTL_AUTO_SPARE : Fld := .mk R.BLN_CTL 0 1
def BLN_CTL_AUTO_RETRAIN : Fld := .mk R.BLN_CTL 1 1
def BLN_CTL_ECHO_MIN : Fld := .mk R.BLN_CTL 2 3
def BLN_CTL_MISS_LIMIT : Fld := .mk R.BLN_CTL 8 4
def BLN_STATUS_ACTIVE : Fld := .mk R.BLN_STATUS 0 8
def BLN_STATUS_SPARES : Fld := .mk R.BLN_STATUS 8 4
def BLN_STATUS_ECHO_LOCKED : Fld := .mk R.BLN_STATUS 12 3
def BLN_STATUS_TEMP_STALE : Fld := .mk R.BLN_STATUS 15 1
def BLN_STATUS_SIDE_BUSY : Fld := .mk R.BLN_STATUS 16 1
def BLN_STATUS_GEN : Fld := .mk R.BLN_STATUS 17 2
def BLN_EVENTS_SUBSTITUTION : Fld := .mk R.BLN_EVENTS 0 1
def BLN_EVENTS_NO_SPARE : Fld := .mk R.BLN_EVENTS 1 1
def BLN_EVENTS_ECHO_LOW : Fld := .mk R.BLN_EVENTS 2 1
def BLN_EVENTS_BLANKER_FAULT : Fld := .mk R.BLN_EVENTS 3 1
def BLN_EVENTS_MISMATCH : Fld := .mk R.BLN_EVENTS 4 1
def BLN_EVENTS_OVERFLOW : Fld := .mk R.BLN_EVENTS 5 1
def BLN_EVENTS_TEMP_STALE : Fld := .mk R.BLN_EVENTS 6 1
def BLN_EVENTS_SIDE_DONE : Fld := .mk R.BLN_EVENTS 7 1
def BLN_EVENTS_MAP_REFUSED : Fld := .mk R.BLN_EVENTS 8 1
def BLN_EVENTS_MAP_IGNORED : Fld := .mk R.BLN_EVENTS 9 1
def BLN_EVENTS_STRAY : Fld := .mk R.BLN_EVENTS 10 1
def BLN_STRAY_COUNT : Fld := .mk R.BLN_STRAY 0 32
def BLN_SUBS_TOTAL : Fld := .mk R.BLN_SUBS 0 16
def BLN_SUBS_IN_COURSE : Fld := .mk R.BLN_SUBS 16 16
def BLN_SUB_LAST_BEAM_LANE : Fld := .mk R.BLN_SUB_LAST 0 7
def BLN_SUB_LAST_FROM : Fld := .mk R.BLN_SUB_LAST 8 8
def BLN_SUB_LAST_TO : Fld := .mk R.BLN_SUB_LAST 16 8
def BLN_SUB_LAST_VALID : Fld := .mk R.BLN_SUB_LAST 31 1
def BLN_TEMP_TEMP : Fld := .mk R.BLN_TEMP 0 16
def BLN_TEMP_VALID : Fld := .mk R.BLN_TEMP 16 1
def BLN_BLANKER_FLAGS_FAULT : Fld := .mk R.BLN_BLANKER_FLAGS 0 1
def BLN_BLANKER_FLAGS_MISMATCH : Fld := .mk R.BLN_BLANKER_FLAGS 1 1
def BLN_BLANKER_FLAGS_OVERFLOW : Fld := .mk R.BLN_BLANKER_FLAGS 2 1
def BLN_BLANKER_FLAGS_AGE : Fld := .mk R.BLN_BLANKER_FLAGS 8 8
def BLN_TRIM_SEL_BANK : Fld := .mk R.BLN_TRIM_SEL 0 1
def BLN_SIDE_SRC_LO_ADDR : Fld := .mk R.BLN_SIDE_SRC_LO 0 32
def BLN_SIDE_SRC_HI_ADDR : Fld := .mk R.BLN_SIDE_SRC_HI 0 32
def BLN_SIDE_ADDR_ADDRESS : Fld := .mk R.BLN_SIDE_ADDR 0 21
def BLN_SIDE_ADDR_SPACE : Fld := .mk R.BLN_SIDE_ADDR 21 3
def BLN_SIDE_ADDR_READ : Fld := .mk R.BLN_SIDE_ADDR 24 1
def BLN_SIDE_COUNT_WORDS : Fld := .mk R.BLN_SIDE_COUNT 0 22
def BLN_SIDE_COUNT_BEAM_LANE : Fld := .mk R.BLN_SIDE_COUNT 22 8
def BLN_SIDE_GO_GO : Fld := .mk R.BLN_SIDE_GO 0 1
def BLN_SIDE_GO_ABORT : Fld := .mk R.BLN_SIDE_GO 1 1
def BLN_SIDE_RESULT_VALID : Fld := .mk R.BLN_SIDE_RESULT 0 1
def BLN_SIDE_RESULT_SEEN : Fld := .mk R.BLN_SIDE_RESULT 1 1
def BLN_SIDE_RESULT_OVERRUN : Fld := .mk R.BLN_SIDE_RESULT 2 1
def BLN_SIDE_RESULT_CODE : Fld := .mk R.BLN_SIDE_RESULT 4 4
def BLN_SIDE_RESULT_BEAM_LANE : Fld := .mk R.BLN_SIDE_RESULT 8 8
def BLN_SIDE_RESULT_AT_ADDRESS : Fld := .mk R.BLN_SIDE_RESULT_AT 0 21
def BLN_SIDE_RESULT_ACK_ACK : Fld := .mk R.BLN_SIDE_RESULT_ACK 0 1
def BLN_MAP_PHYS (i j : Nat) : Fld := .mk (R.BLN_MAP i j) 0 8
def BLN_MAP_NO_USE (i j : Nat) : Fld := .mk (R.BLN_MAP i j) 8 1
def STK_CTL_TRIM_EN : Fld := .mk R.STK_CTL 0 1
def STK_STATUS_LOCK_X : Fld := .mk R.STK_STATUS 0 1
def STK_STATUS_LOCK_Y : Fld := .mk R.STK_STATUS 1 1
def STK_STATUS_POS_X_OK : Fld := .mk R.STK_STATUS 2 1
def STK_STATUS_POS_Y_OK : Fld := .mk R.STK_STATUS 3 1
def STK_STATUS_ARMED : Fld := .mk R.STK_STATUS 4 1
def STK_STATUS_HALTED : Fld := .mk R.STK_STATUS 5 1
def STK_EVENTS_LOCKED : Fld := .mk R.STK_EVENTS 0 1
def STK_EVENTS_UNLOCKED : Fld := .mk R.STK_EVENTS 1 1
def STK_EVENTS_POS_LOST : Fld := .mk R.STK_EVENTS 2 1
def STK_EVENTS_POS_BAD : Fld := .mk R.STK_EVENTS 3 1
def STK_EVENTS_OVERRUN : Fld := .mk R.STK_EVENTS 4 1
def STK_EVENTS_ACK_LATE : Fld := .mk R.STK_EVENTS 5 1
def STK_EVENTS_FRAME_LATE : Fld := .mk R.STK_EVENTS 6 1
def STK_EVENTS_HALT : Fld := .mk R.STK_EVENTS 7 1
def STK_EVENTS_DEPTH : Fld := .mk R.STK_EVENTS 8 1
def STK_EVENTS_TRIM_LIMIT : Fld := .mk R.STK_EVENTS 9 1
def STK_EVENTS_TRIM_SAT : Fld := .mk R.STK_EVENTS 10 1
def STK_EVENTS_WAVE_LOAD : Fld := .mk R.STK_EVENTS 11 1
def STK_EVENTS_WT_REFUSED : Fld := .mk R.STK_EVENTS 12 1
def STK_EVENTS_WT_IGNORED : Fld := .mk R.STK_EVENTS 13 1
def STK_EVENTS_GAIN_REFUSED : Fld := .mk R.STK_EVENTS 14 1
def STK_GATE_GATE : Fld := .mk R.STK_GATE 0 11
def STK_TMIN_TMIN : Fld := .mk R.STK_TMIN 0 20
def STK_DEPTH_DEPTH : Fld := .mk R.STK_DEPTH 0 5
def STK_COMMIT_LEAD : Fld := .mk R.STK_COMMIT 0 8
def STK_RTT_BUDGET_NS : Fld := .mk R.STK_RTT_BUDGET 0 12
def STK_POS_CTL_BAD_LIMIT : Fld := .mk R.STK_POS_CTL 0 4
def STK_POS_LAT_X_LAT : Fld := .mk R.STK_POS_LAT_X 0 16
def STK_POS_LAT_Y_LAT : Fld := .mk R.STK_POS_LAT_Y 0 16
def STK_LOOP_KA_KA : Fld := .mk R.STK_LOOP_KA 0 16
def STK_LOOP_KV_KV : Fld := .mk R.STK_LOOP_KV 0 16
def STK_LOOP_KC_KC : Fld := .mk R.STK_LOOP_KC 0 16
def STK_LOCK_TOL_TOL : Fld := .mk R.STK_LOCK_TOL 0 16
def STK_UNLOCK_TOL_TOL : Fld := .mk R.STK_UNLOCK_TOL 0 20
def STK_LOCK_COUNT_COUNT : Fld := .mk R.STK_LOCK_COUNT 0 10
def STK_VMIN_VMIN : Fld := .mk R.STK_VMIN 0 24
def STK_TRIM_OFS_OFS : Fld := .mk R.STK_TRIM_OFS 0 24
def STK_TRIM_LIMIT_LIMIT : Fld := .mk R.STK_TRIM_LIMIT 0 24
def STK_STROKE_STROKE : Fld := .mk R.STK_STROKE 0 25
def STK_FIRED_STROKE : Fld := .mk R.STK_FIRED 0 25
def STK_HALT_AT_STROKE : Fld := .mk R.STK_HALT_AT 0 25
def STK_HALT_AT_VALID : Fld := .mk R.STK_HALT_AT 31 1
def STK_HALT_CAUSE_FIRST : Fld := .mk R.STK_HALT_CAUSE 0 4
def STK_HALT_CAUSE_CAUSES : Fld := .mk R.STK_HALT_CAUSE 17 12
def STK_PERIOD_TICKS : Fld := .mk R.STK_PERIOD 0 20
def STK_PERIOD_MIN_TICKS : Fld := .mk R.STK_PERIOD_MIN 0 20
def STK_RTT_MAX_NS : Fld := .mk R.STK_RTT_MAX 0 16
def STK_FIRE_LOW_COUNT : Fld := .mk R.STK_FIRE_LOW 0 32
def STK_OVERRUNS_COUNT : Fld := .mk R.STK_OVERRUNS 0 32
def STK_POS_BAD_X_COUNT : Fld := .mk R.STK_POS_BAD_X 0 32
def STK_POS_BAD_Y_COUNT : Fld := .mk R.STK_POS_BAD_Y 0 32
def STK_BTEMP_USED_TEMP : Fld := .mk R.STK_BTEMP_USED 0 16
def STK_BTEMP_USED_VALID : Fld := .mk R.STK_BTEMP_USED 16 1
def STK_POS_X_LO_POS : Fld := .mk R.STK_POS_X_LO 0 32
def STK_POS_X_HI_POS : Fld := .mk R.STK_POS_X_HI 0 16
def STK_VEL_X_VEL : Fld := .mk R.STK_VEL_X 0 32
def STK_POS_Y_LO_POS : Fld := .mk R.STK_POS_Y_LO 0 32
def STK_POS_Y_HI_POS : Fld := .mk R.STK_POS_Y_HI 0 16
def STK_VEL_Y_VEL : Fld := .mk R.STK_VEL_Y 0 32
def STK_WAVE_GPD_GPD (i : Nat) : Fld := .mk (R.STK_WAVE_GPD i) 0 3
def STK_WAVE_LO_MASK (i j : Nat) : Fld := .mk (R.STK_WAVE_LO i j) 0 32
def STK_WAVE_HI_MASK (i j : Nat) : Fld := .mk (R.STK_WAVE_HI i j) 0 32
def COX_CTL_HALT : Fld := .mk R.COX_CTL 0 1
def COX_CTL_HOLD : Fld := .mk R.COX_CTL 1 1
def COX_CTL_PAUSE_ACTION : Fld := .mk R.COX_CTL 2 1
def COX_STATUS_STATE : Fld := .mk R.COX_STATUS 0 3
def COX_STATUS_DERATED : Fld := .mk R.COX_STATUS 3 1
def COX_STATUS_RAISE_OK : Fld := .mk R.COX_STATUS 4 1
def COX_STATUS_SUPPLY_WARN : Fld := .mk R.COX_STATUS 5 1
def COX_STATUS_SOFT : Fld := .mk R.COX_STATUS 6 1
def COX_STATUS_LIMITER : Fld := .mk R.COX_STATUS 8 3
def COX_EVENTS_HALT_REQ : Fld := .mk R.COX_EVENTS 0 1
def COX_EVENTS_LEAD_FLOOR : Fld := .mk R.COX_EVENTS 1 1
def COX_EVENTS_LEAD_HALT : Fld := .mk R.COX_EVENTS 2 1
def COX_EVENTS_TEMP_WARN : Fld := .mk R.COX_EVENTS 3 1
def COX_EVENTS_TEMP_HARD : Fld := .mk R.COX_EVENTS 4 1
def COX_EVENTS_TEMP_STALE : Fld := .mk R.COX_EVENTS 5 1
def COX_EVENTS_SUPPLY : Fld := .mk R.COX_EVENTS 6 1
def COX_EVENTS_SOFT : Fld := .mk R.COX_EVENTS 7 1
def COX_EVENTS_RESUMED : Fld := .mk R.COX_EVENTS 8 1
def COX_EVENTS_PAUSE_WARN : Fld := .mk R.COX_EVENTS 9 1
def COX_EVENTS_PAUSE_LIMIT : Fld := .mk R.COX_EVENTS 10 1
def COX_EVENTS_ABANDONED : Fld := .mk R.COX_EVENTS 11 1
def COX_EVENTS_THRESH_REFUSED : Fld := .mk R.COX_EVENTS 12 1
def COX_EVENTS_RETREAT_SHORT : Fld := .mk R.COX_EVENTS 13 1
def COX_VCMD_V : Fld := .mk R.COX_VCMD 0 24
def COX_VTOP_V : Fld := .mk R.COX_VTOP 0 24
def COX_VMAX_V : Fld := .mk R.COX_VMAX 0 24
def COX_VMIN_RUN_V : Fld := .mk R.COX_VMIN_RUN 0 24
def COX_VRESUME_V : Fld := .mk R.COX_VRESUME 0 24
def COX_UP_STEP_V : Fld := .mk R.COX_UP_STEP 0 16
def COX_DROP_V : Fld := .mk R.COX_DROP 0 16
def COX_MARGIN_CAP : Fld := .mk R.COX_MARGIN 0 8
def COX_MARGIN_SOFT : Fld := .mk R.COX_MARGIN 8 8
def COX_LEAD_TARGET_PX : Fld := .mk R.COX_LEAD_TARGET 0 12
def COX_LEAD_FLOOR_PX : Fld := .mk R.COX_LEAD_FLOOR 0 12
def COX_LEAD_HALT_PX : Fld := .mk R.COX_LEAD_HALT 0 12
def COX_LEAD_HIGH_PX : Fld := .mk R.COX_LEAD_HIGH 0 12
def COX_TEMP_WARN_T : Fld := .mk R.COX_TEMP_WARN 0 16
def COX_TEMP_HARD_T : Fld := .mk R.COX_TEMP_HARD 0 16
def COX_TEMP_RESUME_T : Fld := .mk R.COX_TEMP_RESUME 0 16
def COX_TEMP_DERATE_F : Fld := .mk R.COX_TEMP_DERATE 0 8
def COX_STALE_HALT_US : Fld := .mk R.COX_STALE_HALT 0 16
def COX_SUPPLY_HOLD_US : Fld := .mk R.COX_SUPPLY_HOLD 0 16
def COX_RTT_GUARD_NS : Fld := .mk R.COX_RTT_GUARD 0 12
def COX_SETTLE_US : Fld := .mk R.COX_SETTLE 0 16
def COX_RETREAT_MARGIN_UM : Fld := .mk R.COX_RETREAT_MARGIN 0 16
def COX_PAUSE_WARN_MS : Fld := .mk R.COX_PAUSE_WARN 0 24
def COX_PAUSE_LIMIT_MS : Fld := .mk R.COX_PAUSE_LIMIT 0 24
def COX_RECATCH_LIMIT_COURSE : Fld := .mk R.COX_RECATCH_LIMIT 0 16
def COX_RECATCH_LIMIT_SAME : Fld := .mk R.COX_RECATCH_LIMIT 16 8
def COX_REASON_REASONS : Fld := .mk R.COX_REASON 0 5
def COX_REASON_VALID : Fld := .mk R.COX_REASON 31 1
def COX_RESUME_WAIT_UNMET : Fld := .mk R.COX_RESUME_WAIT 0 11
def COX_RECATCHES_IN_COURSE : Fld := .mk R.COX_RECATCHES 0 16
def COX_RECATCHES_SAME : Fld := .mk R.COX_RECATCHES 16 8
def COX_PAUSE_NOW_MS : Fld := .mk R.COX_PAUSE_NOW 0 24
def COX_PAUSE_MAX_MS : Fld := .mk R.COX_PAUSE_MAX 0 24
def COX_PAUSE_TOTAL_MS : Fld := .mk R.COX_PAUSE_TOTAL 0 32
def COX_SOFT_TRIPS_COUNT : Fld := .mk R.COX_SOFT_TRIPS 0 32
def COX_DERATED_PERIODS_COUNT : Fld := .mk R.COX_DERATED_PERIODS 0 32
def COX_ABANDON_REASON : Fld := .mk R.COX_ABANDON 0 3
def COX_ABANDON_VALID : Fld := .mk R.COX_ABANDON 31 1
def MOT_SERVO_PERIOD : Fld := .mk R.MOT_SERVO 0 7
def MOT_EVENTS_SERVO_REFUSED : Fld := .mk R.MOT_EVENTS 0 1
def MOT_EVENTS_TBL_DONE : Fld := .mk R.MOT_EVENTS 1 1
def MOT_EVENTS_TBL_REFUSED : Fld := .mk R.MOT_EVENTS 2 1
def MOT_EVENTS_CMD_REFUSED : Fld := .mk R.MOT_EVENTS 3 1
def MOT_DRV_CTL_STS_LIMIT : Fld := .mk R.MOT_DRV_CTL 0 4
def MOT_TBL_BASE_LO_ADDR : Fld := .mk R.MOT_TBL_BASE_LO 0 32
def MOT_TBL_BASE_HI_ADDR : Fld := .mk R.MOT_TBL_BASE_HI 0 32
def MOT_TBL_COUNT_COUNT : Fld := .mk R.MOT_TBL_COUNT 0 13
def MOT_TBL_BLEND_N : Fld := .mk R.MOT_TBL_BLEND 0 8
def MOT_TBL_GO_LOAD : Fld := .mk R.MOT_TBL_GO 0 1
def MOT_TBL_GO_RUN : Fld := .mk R.MOT_TBL_GO 1 1
def MOT_TBL_GO_ABORT : Fld := .mk R.MOT_TBL_GO 2 1
def MOT_TBL_STATUS_LOADED : Fld := .mk R.MOT_TBL_STATUS 0 1
def MOT_TBL_STATUS_RUNNING : Fld := .mk R.MOT_TBL_STATUS 1 1
def MOT_TBL_STATUS_BLENDING : Fld := .mk R.MOT_TBL_STATUS 2 1
def MOT_TBL_STATUS_POINT : Fld := .mk R.MOT_TBL_STATUS 4 12
def MOT_TBL_STATUS_ERROR : Fld := .mk R.MOT_TBL_STATUS 16 4
def MOT_AX_CTL_ENABLE (i : Nat) : Fld := .mk (R.MOT_AX_CTL i) 0 1
def MOT_AX_CTL_POWER (i : Nat) : Fld := .mk (R.MOT_AX_CTL i) 1 1
def MOT_AX_CTL_CLEAR (i : Nat) : Fld := .mk (R.MOT_AX_CTL i) 2 1
def MOT_AX_CTL_LIM_INV (i : Nat) : Fld := .mk (R.MOT_AX_CTL i) 3 1
def MOT_AX_CTL_HOME_INV (i : Nat) : Fld := .mk (R.MOT_AX_CTL i) 4 1
def MOT_AX_CTL_IDX_INV (i : Nat) : Fld := .mk (R.MOT_AX_CTL i) 5 1
def MOT_AX_CTL_STOP_MODE (i : Nat) : Fld := .mk (R.MOT_AX_CTL i) 6 1
def MOT_AX_CTL_HOME_DIR (i : Nat) : Fld := .mk (R.MOT_AX_CTL i) 7 1
def MOT_AX_STATUS_STATE (i : Nat) : Fld := .mk (R.MOT_AX_STATUS i) 0 3
def MOT_AX_STATUS_ENABLED (i : Nat) : Fld := .mk (R.MOT_AX_STATUS i) 3 1
def MOT_AX_STATUS_REF (i : Nat) : Fld := .mk (R.MOT_AX_STATUS i) 4 1
def MOT_AX_STATUS_AT_REST (i : Nat) : Fld := .mk (R.MOT_AX_STATUS i) 5 1
def MOT_AX_STATUS_LIM_POS (i : Nat) : Fld := .mk (R.MOT_AX_STATUS i) 6 1
def MOT_AX_STATUS_LIM_NEG (i : Nat) : Fld := .mk (R.MOT_AX_STATUS i) 7 1
def MOT_AX_STATUS_HOME (i : Nat) : Fld := .mk (R.MOT_AX_STATUS i) 8 1
def MOT_AX_STATUS_DRV_READY (i : Nat) : Fld := .mk (R.MOT_AX_STATUS i) 9 1
def MOT_AX_STATUS_DRV_POWER (i : Nat) : Fld := .mk (R.MOT_AX_STATUS i) 10 1
def MOT_AX_STATUS_DRV_FAULT (i : Nat) : Fld := .mk (R.MOT_AX_STATUS i) 11 1
def MOT_AX_STATUS_AWAY_ONLY (i : Nat) : Fld := .mk (R.MOT_AX_STATUS i) 12 1
def MOT_AX_STATUS_FAULT (i : Nat) : Fld := .mk (R.MOT_AX_STATUS i) 16 3
def MOT_AX_EVENTS_LIMIT_TRIP (i : Nat) : Fld := .mk (R.MOT_AX_EVENTS i) 0 1
def MOT_AX_EVENTS_SOFT_STOP (i : Nat) : Fld := .mk (R.MOT_AX_EVENTS i) 1 1
def MOT_AX_EVENTS_HOMED (i : Nat) : Fld := .mk (R.MOT_AX_EVENTS i) 2 1
def MOT_AX_EVENTS_HOME_FAIL (i : Nat) : Fld := .mk (R.MOT_AX_EVENTS i) 3 1
def MOT_AX_EVENTS_REF_LOST (i : Nat) : Fld := .mk (R.MOT_AX_EVENTS i) 4 1
def MOT_AX_EVENTS_LIMIT_REFUSED (i : Nat) : Fld := .mk (R.MOT_AX_EVENTS i) 5 1
def MOT_AX_EVENTS_DRIVER (i : Nat) : Fld := .mk (R.MOT_AX_EVENTS i) 6 1
def MOT_AX_EVENTS_CHATTER (i : Nat) : Fld := .mk (R.MOT_AX_EVENTS i) 7 1
def MOT_AX_EVENTS_VEL_CLAMPED (i : Nat) : Fld := .mk (R.MOT_AX_EVENTS i) 8 1
def MOT_AX_EVENTS_REVERSED (i : Nat) : Fld := .mk (R.MOT_AX_EVENTS i) 9 1
def MOT_AX_VMAX_V (i : Nat) : Fld := .mk (R.MOT_AX_VMAX i) 0 24
def MOT_AX_AMAX_A (i : Nat) : Fld := .mk (R.MOT_AX_AMAX i) 0 24
def MOT_AX_JMAX_J (i : Nat) : Fld := .mk (R.MOT_AX_JMAX i) 0 24
def MOT_AX_QUICK_AMAX_A (i : Nat) : Fld := .mk (R.MOT_AX_QUICK_AMAX i) 0 24
def MOT_AX_DEBOUNCE_US (i : Nat) : Fld := .mk (R.MOT_AX_DEBOUNCE i) 0 10
def MOT_AX_SOFT_MIN_LO_POS (i : Nat) : Fld := .mk (R.MOT_AX_SOFT_MIN_LO i) 0 32
def MOT_AX_SOFT_MIN_HI_POS (i : Nat) : Fld := .mk (R.MOT_AX_SOFT_MIN_HI i) 0 16
def MOT_AX_SOFT_MAX_LO_POS (i : Nat) : Fld := .mk (R.MOT_AX_SOFT_MAX_LO i) 0 32
def MOT_AX_SOFT_MAX_HI_POS (i : Nat) : Fld := .mk (R.MOT_AX_SOFT_MAX_HI i) 0 16
def MOT_AX_HOME_VEL_V (i : Nat) : Fld := .mk (R.MOT_AX_HOME_VEL i) 0 24
def MOT_AX_HOME_CREEP_V (i : Nat) : Fld := .mk (R.MOT_AX_HOME_CREEP i) 0 24
def MOT_AX_INDEX_DIST_UM (i : Nat) : Fld := .mk (R.MOT_AX_INDEX_DIST i) 0 24
def MOT_AX_CMD_ORDER (i : Nat) : Fld := .mk (R.MOT_AX_CMD i) 0 3
def MOT_AX_TARGET_LO_POS (i : Nat) : Fld := .mk (R.MOT_AX_TARGET_LO i) 0 32
def MOT_AX_TARGET_HI_POS (i : Nat) : Fld := .mk (R.MOT_AX_TARGET_HI i) 0 16
def MOT_AX_JOG_V (i : Nat) : Fld := .mk (R.MOT_AX_JOG i) 0 24
def MOT_AX_SP_POS_LO_POS (i : Nat) : Fld := .mk (R.MOT_AX_SP_POS_LO i) 0 32
def MOT_AX_SP_POS_HI_POS (i : Nat) : Fld := .mk (R.MOT_AX_SP_POS_HI i) 0 16
def MOT_AX_SP_VEL_V (i : Nat) : Fld := .mk (R.MOT_AX_SP_VEL i) 0 32
def MOT_AX_INDEX_POS_LO_POS (i : Nat) : Fld := .mk (R.MOT_AX_INDEX_POS_LO i) 0 32
def MOT_AX_INDEX_POS_HI_POS (i : Nat) : Fld := .mk (R.MOT_AX_INDEX_POS_HI i) 0 16
def MOT_AX_ADIST_V_V (i : Nat) : Fld := .mk (R.MOT_AX_ADIST_V i) 0 24
def MOT_AX_ADIST_NM (i : Nat) : Fld := .mk (R.MOT_AX_ADIST i) 0 32
def MOT_AX_CHATTER_LIMIT (i : Nat) : Fld := .mk (R.MOT_AX_CHATTER i) 0 16
def MOT_AX_CHATTER_HOME (i : Nat) : Fld := .mk (R.MOT_AX_CHATTER i) 16 16
def MOT_AX_LIM_TRIPS_COUNT (i : Nat) : Fld := .mk (R.MOT_AX_LIM_TRIPS i) 0 16
def MOT_AX_DRV_BAD_COUNT (i : Nat) : Fld := .mk (R.MOT_AX_DRV_BAD i) 0 32
def INT_CTL_TILE_LIMIT : Fld := .mk R.INT_CTL 0 4
def INT_CTL_JRNL_EN : Fld := .mk R.INT_CTL 8 1
def INT_STATUS_HOLDING : Fld := .mk R.INT_STATUS 0 1
def INT_STATUS_LOSS_HELD : Fld := .mk R.INT_STATUS 1 1
def INT_STATUS_RECOMP_WAIT : Fld := .mk R.INT_STATUS 8 8
def INT_EVENTS_TILE_FAULT : Fld := .mk R.INT_EVENTS 0 1
def INT_EVENTS_WAKE_HALT : Fld := .mk R.INT_EVENTS 1 1
def INT_EVENTS_SPLIT_FAULT : Fld := .mk R.INT_EVENTS 2 1
def INT_EVENTS_SOURCE_LOSS : Fld := .mk R.INT_EVENTS 3 1
def INT_EVENTS_RESEND_FAIL : Fld := .mk R.INT_EVENTS 4 1
def INT_EVENTS_REPLAY_MISMATCH : Fld := .mk R.INT_EVENTS 5 1
def INT_EVENTS_TILE_LIMIT : Fld := .mk R.INT_EVENTS 6 1
def INT_EVENTS_WAKE_HARD : Fld := .mk R.INT_EVENTS 7 1
def INT_EVENTS_RESULT : Fld := .mk R.INT_EVENTS 8 1
def INT_EVENTS_RESULT_OVERRUN : Fld := .mk R.INT_EVENTS 9 1
def INT_TILE_FAULTS_COUNT : Fld := .mk R.INT_TILE_FAULTS 0 32
def INT_RECOMPS_COUNT : Fld := .mk R.INT_RECOMPS 0 32
def INT_FAULT_LAST_BAND : Fld := .mk R.INT_FAULT_LAST 0 16
def INT_FAULT_LAST_TILE : Fld := .mk R.INT_FAULT_LAST 16 5
def INT_FAULT_LAST_ISLET : Fld := .mk R.INT_FAULT_LAST 21 7
def INT_FAULT_LAST_KIND : Fld := .mk R.INT_FAULT_LAST 28 3
def INT_FAULT_LAST_VALID : Fld := .mk R.INT_FAULT_LAST 31 1
def INT_AREA_DIFF_DELTA : Fld := .mk R.INT_AREA_DIFF 0 32
def INT_LOSS_ADDR_LO_ADDR : Fld := .mk R.INT_LOSS_ADDR_LO 0 32
def INT_LOSS_ADDR_HI_ADDR : Fld := .mk R.INT_LOSS_ADDR_HI 0 32
def INT_LOSS_LEN_BYTES : Fld := .mk R.INT_LOSS_LEN 0 24
def INT_LOSS_AT_BAND : Fld := .mk R.INT_LOSS_AT 0 16
def INT_LOSS_AT_TILE : Fld := .mk R.INT_LOSS_AT 16 5
def INT_LOSS_AT_ENTRY : Fld := .mk R.INT_LOSS_AT 21 3
def INT_LOSS_AT_INDEX : Fld := .mk R.INT_LOSS_AT 24 1
def INT_LOSS_AT_ADMIT : Fld := .mk R.INT_LOSS_AT 25 1
def INT_LOSS_AT_VALID : Fld := .mk R.INT_LOSS_AT 31 1
def INT_RESEND_DONE : Fld := .mk R.INT_RESEND 0 1
def INT_LOSS_COUNT_COUNT : Fld := .mk R.INT_LOSS_COUNT 0 32
def INT_JRNL_BASE_LO_ADDR : Fld := .mk R.INT_JRNL_BASE_LO 12 20
def INT_JRNL_BASE_HI_ADDR : Fld := .mk R.INT_JRNL_BASE_HI 0 32
def INT_JRNL_SIZE_LOG2 : Fld := .mk R.INT_JRNL_SIZE 0 5
def INT_JRNL_SEQ_LO_SEQ : Fld := .mk R.INT_JRNL_SEQ_LO 0 32
def INT_JRNL_SEQ_HI_SEQ : Fld := .mk R.INT_JRNL_SEQ_HI 0 16
def INT_INJECT_KIND : Fld := .mk R.INT_INJECT 0 3
def INT_INJECT_ISLET : Fld := .mk R.INT_INJECT 3 7
def INT_INJECT_TRACK : Fld := .mk R.INT_INJECT 10 13
def INT_RESULT_VALID : Fld := .mk R.INT_RESULT 0 1
def INT_RESULT_SEEN : Fld := .mk R.INT_RESULT 1 1
def INT_RESULT_OVERRUN : Fld := .mk R.INT_RESULT 2 1
def INT_RESULT_PARTIAL : Fld := .mk R.INT_RESULT 3 1
def INT_RESULT_SUSPECT : Fld := .mk R.INT_RESULT 4 1
def INT_RESULT_OUTCOME : Fld := .mk R.INT_RESULT 5 3
def INT_RESULT_ENTRY : Fld := .mk R.INT_RESULT 8 3
def INT_RESULT_PASS : Fld := .mk R.INT_RESULT 11 3
def INT_RESULT_ABANDON : Fld := .mk R.INT_RESULT 14 3
def INT_RESULT_TAG_TAG : Fld := .mk R.INT_RESULT_TAG 0 32
def INT_RESULT_SEQ_SEQ : Fld := .mk R.INT_RESULT_SEQ 0 16
def INT_RESULT_LAST_STROKE : Fld := .mk R.INT_RESULT_LAST 0 25
def INT_RESULT_LAST_ANY : Fld := .mk R.INT_RESULT_LAST 31 1
def INT_RESULT_COUNTS_RECATCHES : Fld := .mk R.INT_RESULT_COUNTS 0 16
def INT_RESULT_COUNTS_RECOMPS : Fld := .mk R.INT_RESULT_COUNTS 16 16
def INT_RESULT_ACK_ACK : Fld := .mk R.INT_RESULT_ACK 0 1
def INT_SIG_LO_SIG (i : Nat) : Fld := .mk (R.INT_SIG_LO i) 0 32
def INT_SIG_HI_SIG (i : Nat) : Fld := .mk (R.INT_SIG_HI i) 0 32
def HBM_CTL_INIT_AT_BOOT : Fld := .mk R.HBM_CTL 0 1
def HBM_CTL_NBR_EN : Fld := .mk R.HBM_CTL 1 1
def HBM_CTL_NBR_K : Fld := .mk R.HBM_CTL 2 5
def HBM_CTL_REF_PRESS : Fld := .mk R.HBM_CTL 7 3
def HBM_CTL_RETRAIN : Fld := .mk R.HBM_CTL 10 1
def HBM_STATUS_READY : Fld := .mk R.HBM_STATUS 0 1
def HBM_STATUS_INIT_BUSY : Fld := .mk R.HBM_STATUS 1 1
def HBM_STATUS_URGENT : Fld := .mk R.HBM_STATUS 2 1
def HBM_STATUS_SCRUB_LATE : Fld := .mk R.HBM_STATUS 3 1
def HBM_EVENTS_CE : Fld := .mk R.HBM_EVENTS 0 1
def HBM_EVENTS_UE : Fld := .mk R.HBM_EVENTS 1 1
def HBM_EVENTS_TRAIN_FAIL : Fld := .mk R.HBM_EVENTS 2 1
def HBM_EVENTS_HOT : Fld := .mk R.HBM_EVENTS 3 1
def HBM_EVENTS_COOL : Fld := .mk R.HBM_EVENTS 4 1
def HBM_EVENTS_URGENT : Fld := .mk R.HBM_EVENTS 5 1
def HBM_EVENTS_SPLIT : Fld := .mk R.HBM_EVENTS 6 1
def HBM_EVENTS_INIT_DONE : Fld := .mk R.HBM_EVENTS 7 1
def HBM_EVENTS_INIT_REFUSED : Fld := .mk R.HBM_EVENTS 8 1
def HBM_EVENTS_SCRUB_LAP : Fld := .mk R.HBM_EVENTS 9 1
def HBM_EVENTS_SCRUB_LATE : Fld := .mk R.HBM_EVENTS 10 1
def HBM_EVENTS_POISON_WRITE : Fld := .mk R.HBM_EVENTS 11 1
def HBM_CE_COUNT_COUNT : Fld := .mk R.HBM_CE_COUNT 0 32
def HBM_UE_COUNT_COUNT : Fld := .mk R.HBM_UE_COUNT 0 32
def HBM_ERR_ADDR_LO_ADDR : Fld := .mk R.HBM_ERR_ADDR_LO 0 32
def HBM_ERR_ADDR_HI_ADDR : Fld := .mk R.HBM_ERR_ADDR_HI 0 32
def HBM_ERR_INFO_PORT : Fld := .mk R.HBM_ERR_INFO 0 4
def HBM_ERR_INFO_SCRUB : Fld := .mk R.HBM_ERR_INFO 4 1
def HBM_ERR_INFO_STACK : Fld := .mk R.HBM_ERR_INFO 5 1
def HBM_ERR_INFO_VALID : Fld := .mk R.HBM_ERR_INFO 31 1
def HBM_REF_SEL_PC : Fld := .mk R.HBM_REF_SEL 0 7
def HBM_REF_DEBT_NS : Fld := .mk R.HBM_REF_DEBT 0 24
def HBM_REF_DEBT_STATE : Fld := .mk R.HBM_REF_DEBT 24 2
def HBM_REF_DEBT_MAX_NS : Fld := .mk R.HBM_REF_DEBT_MAX 0 24
def HBM_REF_URGENT_COUNT_COUNT : Fld := .mk R.HBM_REF_URGENT_COUNT 0 32
def HBM_REF_SPLITS_COUNT : Fld := .mk R.HBM_REF_SPLITS 0 32
def HBM_NBR_COUNT_COUNT : Fld := .mk R.HBM_NBR_COUNT 0 32
def HBM_INIT_BASE_LO_ADDR : Fld := .mk R.HBM_INIT_BASE_LO 12 20
def HBM_INIT_BASE_HI_ADDR : Fld := .mk R.HBM_INIT_BASE_HI 0 32
def HBM_INIT_LEN_LO_LEN : Fld := .mk R.HBM_INIT_LEN_LO 12 20
def HBM_INIT_LEN_HI_LEN : Fld := .mk R.HBM_INIT_LEN_HI 0 32
def HBM_INIT_GO_GO : Fld := .mk R.HBM_INIT_GO 0 1
def HBM_SCRUB_CTL_EN : Fld := .mk R.HBM_SCRUB_CTL 0 1
def HBM_SCRUB_CTL_RATE : Fld := .mk R.HBM_SCRUB_CTL 16 16
def HBM_SCRUB_LAPS_COUNT : Fld := .mk R.HBM_SCRUB_LAPS 0 32
def HBM_SCRUB_LAP_TIME_MS : Fld := .mk R.HBM_SCRUB_LAP_TIME 0 32
def HBM_SCRUB_LAP_ERRS_CE : Fld := .mk R.HBM_SCRUB_LAP_ERRS 0 16
def HBM_SCRUB_LAP_ERRS_UE : Fld := .mk R.HBM_SCRUB_LAP_ERRS 16 16
def HBM_SCRUB_POS_LO_ADDR : Fld := .mk R.HBM_SCRUB_POS_LO 0 32
def HBM_SCRUB_POS_HI_ADDR : Fld := .mk R.HBM_SCRUB_POS_HI 0 32
def HBM_STK_STATUS_STATE (i : Nat) : Fld := .mk (R.HBM_STK_STATUS i) 0 3
def HBM_STK_STATUS_HOT (i : Nat) : Fld := .mk (R.HBM_STK_STATUS i) 3 1
def HBM_STK_STATUS_LANE_REPAIRS (i : Nat) : Fld := .mk (R.HBM_STK_STATUS i) 4 4
def HBM_STK_STATUS_TEMP (i : Nat) : Fld := .mk (R.HBM_STK_STATUS i) 8 8
def HBM_STK_STATUS_TEMP_MAX (i : Nat) : Fld := .mk (R.HBM_STK_STATUS i) 16 8
def HBM_STK_PPR_APPLIED (i : Nat) : Fld := .mk (R.HBM_STK_PPR i) 0 8
def HBM_STK_PPR_REFUSED (i : Nat) : Fld := .mk (R.HBM_STK_PPR i) 8 8
def HBM_STK_CE_COUNT (i : Nat) : Fld := .mk (R.HBM_STK_CE i) 0 32
def SRM_CTL_SCRUB_EN : Fld := .mk R.SRM_CTL 0 1
def SRM_CTL_AUTO_SAVE : Fld := .mk R.SRM_CTL 1 1
def SRM_CTL_RATE : Fld := .mk R.SRM_CTL 16 16
def SRM_STATUS_BAD_IN_SERVICE : Fld := .mk R.SRM_STATUS 0 1
def SRM_STATUS_SELFTEST_BUSY : Fld := .mk R.SRM_STATUS 1 1
def SRM_STATUS_SCRUB_LATE : Fld := .mk R.SRM_STATUS 2 1
def SRM_EVENTS_CE : Fld := .mk R.SRM_EVENTS 0 1
def SRM_EVENTS_BAD : Fld := .mk R.SRM_EVENTS 1 1
def SRM_EVENTS_PARITY : Fld := .mk R.SRM_EVENTS 2 1
def SRM_EVENTS_RESTORED : Fld := .mk R.SRM_EVENTS 3 1
def SRM_EVENTS_RESTORE_REFUSED : Fld := .mk R.SRM_EVENTS 4 1
def SRM_EVENTS_SCRUB_LAP : Fld := .mk R.SRM_EVENTS 5 1
def SRM_EVENTS_SCRUB_LATE : Fld := .mk R.SRM_EVENTS 6 1
def SRM_EVENTS_REPAIR_CAND : Fld := .mk R.SRM_EVENTS 7 1
def SRM_EVENTS_REPAIR_SAVED : Fld := .mk R.SRM_EVENTS 8 1
def SRM_EVENTS_REPAIR_FULL : Fld := .mk R.SRM_EVENTS 9 1
def SRM_EVENTS_REPAIR_SKIPPED : Fld := .mk R.SRM_EVENTS 10 1
def SRM_EVENTS_SELFTEST_DONE : Fld := .mk R.SRM_EVENTS 11 1
def SRM_EVENTS_FIFO_PARITY : Fld := .mk R.SRM_EVENTS 12 1
def SRM_CE_COUNT_COUNT : Fld := .mk R.SRM_CE_COUNT 0 32
def SRM_PAR_COUNT_COUNT : Fld := .mk R.SRM_PAR_COUNT 0 32
def SRM_BAD_COUNT_COUNT : Fld := .mk R.SRM_BAD_COUNT 0 16
def SRM_BAD_AT_OFFSET : Fld := .mk R.SRM_BAD_AT 0 24
def SRM_BAD_AT_VALID : Fld := .mk R.SRM_BAD_AT 31 1
def SRM_RESTORE_ADDR_OFFSET : Fld := .mk R.SRM_RESTORE_ADDR 0 24
def SRM_RESTORE_DATA_DATA : Fld := .mk R.SRM_RESTORE_DATA 0 32
def SRM_RESTORE_GO_GO : Fld := .mk R.SRM_RESTORE_GO 0 1
def SRM_SCRUB_LAPS_COUNT : Fld := .mk R.SRM_SCRUB_LAPS 0 32
def SRM_SCRUB_LAP_TIME_US : Fld := .mk R.SRM_SCRUB_LAP_TIME 0 32
def SRM_SCRUB_LAP_ERRS_CE : Fld := .mk R.SRM_SCRUB_LAP_ERRS 0 16
def SRM_SCRUB_LAP_ERRS_PAR : Fld := .mk R.SRM_SCRUB_LAP_ERRS 16 16
def SRM_CHK_CTL_MODE : Fld := .mk R.SRM_CHK_CTL 0 2
def SRM_CHK_CTL_TARGET : Fld := .mk R.SRM_CHK_CTL 2 2
def SRM_CHK_CTL_FLIP : Fld := .mk R.SRM_CHK_CTL 8 8
def SRM_CHK_ADDR_LO_ADDR : Fld := .mk R.SRM_CHK_ADDR_LO 0 32
def SRM_CHK_ADDR_HI_ADDR : Fld := .mk R.SRM_CHK_ADDR_HI 0 32
def SRM_CHK_RESULT_VALID : Fld := .mk R.SRM_CHK_RESULT 0 1
def SRM_CHK_RESULT_SEEN : Fld := .mk R.SRM_CHK_RESULT 1 1
def SRM_CHK_RESULT_OVERRUN : Fld := .mk R.SRM_CHK_RESULT 2 1
def SRM_CHK_RESULT_CODE : Fld := .mk R.SRM_CHK_RESULT 4 2
def SRM_CHK_RESULT_FAILED : Fld := .mk R.SRM_CHK_RESULT 8 16
def SRM_CHK_RESULT_ACK_ACK : Fld := .mk R.SRM_CHK_RESULT_ACK 0 1
def SRM_REPAIR_CAND_KIND : Fld := .mk R.SRM_REPAIR_CAND 0 2
def SRM_REPAIR_CAND_TRIGGER : Fld := .mk R.SRM_REPAIR_CAND 8 3
def SRM_REPAIR_CAND_VALID : Fld := .mk R.SRM_REPAIR_CAND 31 1
def SRM_REPAIR_CAND_MACRO_MACRO : Fld := .mk R.SRM_REPAIR_CAND_MACRO 0 16
def SRM_REPAIR_CAND_ADDR_ADDR : Fld := .mk R.SRM_REPAIR_CAND_ADDR 0 32
def SRM_REPAIR_CTL_SAVE : Fld := .mk R.SRM_REPAIR_CTL 0 1
def SRM_REPAIR_CTL_DISCARD : Fld := .mk R.SRM_REPAIR_CTL 1 1
def SRM_REPAIR_USED_ENTRIES : Fld := .mk R.SRM_REPAIR_USED 0 10
def SRM_REPAIR_USED_SKIPPED : Fld := .mk R.SRM_REPAIR_USED 16 10
def PCI_STATUS_SPEED : Fld := .mk R.PCI_STATUS 0 3
def PCI_STATUS_WIDTH : Fld := .mk R.PCI_STATUS 3 5
def PCI_STATUS_FLIT : Fld := .mk R.PCI_STATUS 8 1
def PCI_STATUS_LINK_UP : Fld := .mk R.PCI_STATUS 9 1
def PCI_EVENTS_DEGRADED : Fld := .mk R.PCI_EVENTS 0 1
def PCI_EVENTS_LINK_RESET : Fld := .mk R.PCI_EVENTS 1 1
def PCI_EVENTS_FLR : Fld := .mk R.PCI_EVENTS 2 1
def PCI_EVENTS_AER_CORR : Fld := .mk R.PCI_EVENTS 3 1
def PCI_EVENTS_AER_UNCORR : Fld := .mk R.PCI_EVENTS 4 1
def PCI_EVENTS_POISON_OUT : Fld := .mk R.PCI_EVENTS 5 1
def PCI_EVENTS_BAR2_RANGE : Fld := .mk R.PCI_EVENTS 6 1
def PCI_CTL_UE_CA : Fld := .mk R.PCI_CTL 0 1
def PCI_BAR2_RANGE_ADDR_LO_OFFSET : Fld := .mk R.PCI_BAR2_RANGE_ADDR_LO 0 32
def PCI_BAR2_RANGE_ADDR_HI_OFFSET : Fld := .mk R.PCI_BAR2_RANGE_ADDR_HI 0 5
def PCI_CORR_COUNT_COUNT : Fld := .mk R.PCI_CORR_COUNT 0 32
def PCI_UNCORR_COUNT_COUNT : Fld := .mk R.PCI_UNCORR_COUNT 0 32
def DMA_CTL_RESTART : Fld := .mk R.DMA_CTL 0 1
def DMA_CTL_ABORT_ALL : Fld := .mk R.DMA_CTL 1 1
def DMA_STATUS_HALTED : Fld := .mk R.DMA_STATUS 0 1
def DMA_ACTIVE_CHANNELS : Fld := .mk R.DMA_ACTIVE 0 32
def DMA_EVENTS_TIMEOUT_HALT : Fld := .mk R.DMA_EVENTS 0 1
def DMA_TIMEOUT_US : Fld := .mk R.DMA_TIMEOUT 0 16
def DMA_CH_CTL_RUN (i : Nat) : Fld := .mk (R.DMA_CH_CTL i) 0 1
def DMA_CH_CTL_DOORBELL (i : Nat) : Fld := .mk (R.DMA_CH_CTL i) 1 1
def DMA_CH_CTL_RESUME (i : Nat) : Fld := .mk (R.DMA_CH_CTL i) 2 1
def DMA_CH_CTL_RESET (i : Nat) : Fld := .mk (R.DMA_CH_CTL i) 3 1
def DMA_CH_CTL_PRIO (i : Nat) : Fld := .mk (R.DMA_CH_CTL i) 4 3
def DMA_CH_CTL_RING_HBM (i : Nat) : Fld := .mk (R.DMA_CH_CTL i) 7 1
def DMA_CH_CTL_RING_LOG2 (i : Nat) : Fld := .mk (R.DMA_CH_CTL i) 8 4
def DMA_CH_STATUS_STATE (i : Nat) : Fld := .mk (R.DMA_CH_STATUS i) 0 3
def DMA_CH_STATUS_LAST (i : Nat) : Fld := .mk (R.DMA_CH_STATUS i) 4 4
def DMA_CH_RING_LO_ADDR (i : Nat) : Fld := .mk (R.DMA_CH_RING_LO i) 12 20
def DMA_CH_RING_HI_ADDR (i : Nat) : Fld := .mk (R.DMA_CH_RING_HI i) 0 32
def DMA_CH_PTR_INDEX (i : Nat) : Fld := .mk (R.DMA_CH_PTR i) 0 15
def DMA_CH_PTR_OFF_RING (i : Nat) : Fld := .mk (R.DMA_CH_PTR i) 31 1
def DMA_CH_DESC_LO_ADDR (i : Nat) : Fld := .mk (R.DMA_CH_DESC_LO i) 0 32
def DMA_CH_DESC_HI_ADDR (i : Nat) : Fld := .mk (R.DMA_CH_DESC_HI i) 0 32
def DMA_CH_DONE_COUNT (i : Nat) : Fld := .mk (R.DMA_CH_DONE i) 0 32
def DMA_CH_EVENTS_DONE (i : Nat) : Fld := .mk (R.DMA_CH_EVENTS i) 0 1
def DMA_CH_EVENTS_STOPPED (i : Nat) : Fld := .mk (R.DMA_CH_EVENTS i) 1 1
def ARB_CTL_TDM_EN : Fld := .mk R.ARB_CTL 0 1
def ARB_CTL_SLOT_NS : Fld := .mk R.ARB_CTL 8 8
def ARB_CTL_BURST : Fld := .mk R.ARB_CTL 16 5
def ARB_STATUS_SLOT : Fld := .mk R.ARB_STATUS 0 6
def ARB_DEAD_COUNT : Fld := .mk R.ARB_DEAD 0 32
def ARB_PORT_PRIO (i : Nat) : Fld := .mk (R.ARB_PORT i) 0 3
def ARB_PORT_MAX_OUT (i : Nat) : Fld := .mk (R.ARB_PORT i) 8 8
def ARB_TDM_PORT (i : Nat) : Fld := .mk (R.ARB_TDM i) 0 4
def ARB_TDM_VALID (i : Nat) : Fld := .mk (R.ARB_TDM i) 7 1
def ARB_PORT_GRANTS_COUNT (i : Nat) : Fld := .mk (R.ARB_PORT_GRANTS i) 0 32
def ARB_PORT_WAIT_MAX_NS (i : Nat) : Fld := .mk (R.ARB_PORT_WAIT_MAX i) 0 16
def STR_CTL_ENABLE : Fld := .mk R.STR_CTL 0 1
def STR_CTL_MASTER : Fld := .mk R.STR_CTL 1 1
def STR_CTL_CEV_EN : Fld := .mk R.STR_CTL 2 1
def STR_CTL_TOKEN_EN : Fld := .mk R.STR_CTL 3 1
def STR_CTL_GROUP : Fld := .mk R.STR_CTL 4 4
def STR_STATUS_TIME_LOCKED : Fld := .mk R.STR_STATUS 0 1
def STR_STATUS_HOLDOVER : Fld := .mk R.STR_STATUS 1 1
def STR_STATUS_RESUME_FIXED : Fld := .mk R.STR_STATUS 2 1
def STR_STATUS_MASTER_ID : Fld := .mk R.STR_STATUS 3 12
def STR_STATUS_DIST : Fld := .mk R.STR_STATUS 15 8
def STR_EVENTS_WIRING : Fld := .mk R.STR_EVENTS 0 1
def STR_EVENTS_FAILOVER : Fld := .mk R.STR_EVENTS 1 1
def STR_EVENTS_LINK_DOWN : Fld := .mk R.STR_EVENTS 2 1
def STR_EVENTS_STALL : Fld := .mk R.STR_EVENTS 3 1
def STR_EVENTS_MASTER_CONFLICT : Fld := .mk R.STR_EVENTS 4 1
def STR_EVENTS_UNLOCK : Fld := .mk R.STR_EVENTS 5 1
def STR_EVENTS_RX : Fld := .mk R.STR_EVENTS 6 1
def STR_EVENTS_RX_FULL : Fld := .mk R.STR_EVENTS 7 1
def STR_EVENTS_TOKEN : Fld := .mk R.STR_EVENTS 8 1
def STR_EVENTS_REFUSED : Fld := .mk R.STR_EVENTS 9 1
def STR_DIV_SIZE_N : Fld := .mk R.STR_DIV_SIZE 0 7
def STR_REG_SIZE_N : Fld := .mk R.STR_REG_SIZE 0 7
def STR_GROUP_SIZE_N : Fld := .mk R.STR_GROUP_SIZE 0 13
def STR_BEACON_US_US : Fld := .mk R.STR_BEACON_US 0 8
def STR_STEP_NS_NS : Fld := .mk R.STR_STEP_NS 0 16
def STR_HALT_NS_NS : Fld := .mk R.STR_HALT_NS 0 8
def STR_STALL_US_US : Fld := .mk R.STR_STALL_US 0 16
def STR_RESUME_LEAD_US : Fld := .mk R.STR_RESUME_LEAD 0 16
def STR_STALLS_COUNT : Fld := .mk R.STR_STALLS 0 32
def STR_STALL_AT_LINK : Fld := .mk R.STR_STALL_AT 0 2
def STR_STALL_AT_VC : Fld := .mk R.STR_STALL_AT 2 2
def STR_DROPS_COUNT : Fld := .mk R.STR_DROPS 0 32
def STR_THETA_TICKS : Fld := .mk R.STR_THETA 0 32
def STR_TX_CTL_DEST : Fld := .mk R.STR_TX_CTL 0 12
def STR_TX_CTL_BCAST : Fld := .mk R.STR_TX_CTL 12 1
def STR_TX_CTL_LEN : Fld := .mk R.STR_TX_CTL 13 8
def STR_TX_CTL_GO : Fld := .mk R.STR_TX_CTL 31 1
def STR_TX_TAG_TAG : Fld := .mk R.STR_TX_TAG 0 32
def STR_TX_STATUS_BUSY : Fld := .mk R.STR_TX_STATUS 0 1
def STR_RX_HEAD_INDEX : Fld := .mk R.STR_RX_HEAD 0 4
def STR_RX_TAIL_INDEX : Fld := .mk R.STR_RX_TAIL 0 4
def STR_RX_DROPS_COUNT : Fld := .mk R.STR_RX_DROPS 0 32
def STR_LINK_STATUS_STATE (i : Nat) : Fld := .mk (R.STR_LINK_STATUS i) 0 2
def STR_LINK_STATUS_ON_STANDBY (i : Nat) : Fld := .mk (R.STR_LINK_STATUS i) 2 1
def STR_LINK_STATUS_PEER (i : Nat) : Fld := .mk (R.STR_LINK_STATUS i) 4 12
def STR_LINK_ASYM_TICKS (i : Nat) : Fld := .mk (R.STR_LINK_ASYM i) 0 16
def STR_LINK_DELAY_TICKS (i : Nat) : Fld := .mk (R.STR_LINK_DELAY i) 0 24
def STR_LINK_RESENDS_COUNT (i : Nat) : Fld := .mk (R.STR_LINK_RESENDS i) 0 32
def STR_TX_DATA_DATA (i : Nat) : Fld := .mk (R.STR_TX_DATA i) 0 32
def STR_RX_SLOT_DATA (i j : Nat) : Fld := .mk (R.STR_RX_SLOT i j) 0 32
def EVT_CTL_ALERT_TEST : Fld := .mk R.EVT_CTL 0 1
def EVT_STATUS_ALERT : Fld := .mk R.EVT_STATUS 0 1
def EVT_STATUS_FIRST : Fld := .mk R.EVT_STATUS 1 7
def EVT_STATUS_COUNT : Fld := .mk R.EVT_STATUS 8 8
def EVT_LEVEL_LEVEL (i : Nat) : Fld := .mk (R.EVT_LEVEL i) 0 32
def EVT_PEND_PEND (i : Nat) : Fld := .mk (R.EVT_PEND i) 0 32
def EVT_FORCE_FORCE (i : Nat) : Fld := .mk (R.EVT_FORCE i) 0 32
def EVT_SRC_CFG_MSG_EN (i : Nat) : Fld := .mk (R.EVT_SRC_CFG i) 0 1
def EVT_SRC_CFG_ALERT_EN (i : Nat) : Fld := .mk (R.EVT_SRC_CFG i) 1 1
def EVT_SRC_CFG_LOG_EN (i : Nat) : Fld := .mk (R.EVT_SRC_CFG i) 2 1
def EVT_SRC_CFG_SEV (i : Nat) : Fld := .mk (R.EVT_SRC_CFG i) 3 2
def EVT_SRC_COUNT_COUNT (i : Nat) : Fld := .mk (R.EVT_SRC_COUNT i) 0 32
def LOG_CTL_EN : Fld := .mk R.LOG_CTL 0 1
def LOG_CTL_ERASE : Fld := .mk R.LOG_CTL 1 1
def LOG_CTL_NOTE_GO : Fld := .mk R.LOG_CTL 2 1
def LOG_CTL_WALL_GO : Fld := .mk R.LOG_CTL 3 1
def LOG_STATUS_READY : Fld := .mk R.LOG_STATUS 0 1
def LOG_STATUS_EXPORT_BUSY : Fld := .mk R.LOG_STATUS 1 1
def LOG_STATUS_ERASE_BUSY : Fld := .mk R.LOG_STATUS 2 1
def LOG_STATUS_QUEUE : Fld := .mk R.LOG_STATUS 8 9
def LOG_EVENTS_DROPPED : Fld := .mk R.LOG_EVENTS 0 1
def LOG_EVENTS_QUEUE_LOST : Fld := .mk R.LOG_EVENTS 1 1
def LOG_EVENTS_WRITE_FAIL : Fld := .mk R.LOG_EVENTS 2 1
def LOG_EVENTS_WALL_BACK : Fld := .mk R.LOG_EVENTS 3 1
def LOG_EVENTS_EXPORT_DONE : Fld := .mk R.LOG_EVENTS 4 1
def LOG_EVENTS_ERASED : Fld := .mk R.LOG_EVENTS 5 1
def LOG_EVENTS_ERASE_REFUSED : Fld := .mk R.LOG_EVENTS 6 1
def LOG_NEWEST_SEQ_LO_SEQ : Fld := .mk R.LOG_NEWEST_SEQ_LO 0 32
def LOG_NEWEST_SEQ_HI_SEQ : Fld := .mk R.LOG_NEWEST_SEQ_HI 0 16
def LOG_NEWEST_SLOT_SLOT : Fld := .mk R.LOG_NEWEST_SLOT 0 16
def LOG_OPTIME_LO_TICKS : Fld := .mk R.LOG_OPTIME_LO 0 32
def LOG_OPTIME_HI_TICKS : Fld := .mk R.LOG_OPTIME_HI 0 8
def LOG_CYCLES_COUNT : Fld := .mk R.LOG_CYCLES 0 24
def LOG_DROPS_LO_INFO : Fld := .mk R.LOG_DROPS_LO 0 16
def LOG_DROPS_LO_NOTICE : Fld := .mk R.LOG_DROPS_LO 16 16
def LOG_DROPS_HI_WARNING : Fld := .mk R.LOG_DROPS_HI 0 16
def LOG_DROPS_HI_CRITICAL : Fld := .mk R.LOG_DROPS_HI 16 16
def LOG_QUEUE_LOST_COUNT : Fld := .mk R.LOG_QUEUE_LOST 0 32
def LOG_CRIT_SLOTS_COUNT : Fld := .mk R.LOG_CRIT_SLOTS 0 17
def LOG_WALL_LO_WALL : Fld := .mk R.LOG_WALL_LO 0 32
def LOG_WALL_HI_WALL : Fld := .mk R.LOG_WALL_HI 0 32
def LOG_WALL_TAG_TAG : Fld := .mk R.LOG_WALL_TAG 0 32
def LOG_NOTE_DATA (i : Nat) : Fld := .mk (R.LOG_NOTE i) 0 32
def LOG_NOTE_CFG_SEV : Fld := .mk R.LOG_NOTE_CFG 0 2
def LOG_WIN_SLOT_SLOT : Fld := .mk R.LOG_WIN_SLOT 0 16
def LOG_WIN_DATA (i : Nat) : Fld := .mk (R.LOG_WIN i) 0 32
def LOG_AUD_SEQ_LO_SEQ : Fld := .mk R.LOG_AUD_SEQ_LO 0 32
def LOG_AUD_SEQ_HI_SEQ : Fld := .mk R.LOG_AUD_SEQ_HI 0 16
def LOG_AUD_GO_GO : Fld := .mk R.LOG_AUD_GO 0 1
def LOG_AUD_STATUS_VALID : Fld := .mk R.LOG_AUD_STATUS 0 1
def LOG_AUD_STATUS_RESULT : Fld := .mk R.LOG_AUD_STATUS 1 2
def LOG_AUD_DATA (i : Nat) : Fld := .mk (R.LOG_AUD i) 0 32
def LOG_EXP_BASE_LO_ADDR : Fld := .mk R.LOG_EXP_BASE_LO 6 26
def LOG_EXP_BASE_HI_ADDR : Fld := .mk R.LOG_EXP_BASE_HI 0 32
def LOG_EXP_CAP_RECORDS : Fld := .mk R.LOG_EXP_CAP 0 17
def LOG_EXP_FROM_LO_SEQ : Fld := .mk R.LOG_EXP_FROM_LO 0 32
def LOG_EXP_FROM_HI_SEQ : Fld := .mk R.LOG_EXP_FROM_HI 0 16
def LOG_EXP_GO_GO : Fld := .mk R.LOG_EXP_GO 0 1
def LOG_EXP_RESULT_VALID : Fld := .mk R.LOG_EXP_RESULT 0 1
def LOG_EXP_RESULT_SEEN : Fld := .mk R.LOG_EXP_RESULT 1 1
def LOG_EXP_RESULT_OVERRUN : Fld := .mk R.LOG_EXP_RESULT 2 1
def LOG_EXP_RESULT_CODE : Fld := .mk R.LOG_EXP_RESULT 4 3
def LOG_EXP_COUNT_RECORDS : Fld := .mk R.LOG_EXP_COUNT 0 17
def LOG_EXP_GAPS_COUNT : Fld := .mk R.LOG_EXP_GAPS 0 32
def LOG_EXP_LAST_LO_SEQ : Fld := .mk R.LOG_EXP_LAST_LO 0 32
def LOG_EXP_LAST_HI_SEQ : Fld := .mk R.LOG_EXP_LAST_HI 0 16
def LOG_EXP_ACK_ACK : Fld := .mk R.LOG_EXP_ACK 0 1
def SAF_CTL_INHIBIT : Fld := .mk R.SAF_CTL 0 1
def SAF_CTL_CLEAR : Fld := .mk R.SAF_CTL 1 1
def SAF_CTL_STOP_REQ : Fld := .mk R.SAF_CTL 2 1
def SAF_STATUS_BEAM_PERMIT : Fld := .mk R.SAF_STATUS 0 1
def SAF_STATUS_LINE_A : Fld := .mk R.SAF_STATUS 1 1
def SAF_STATUS_LINE_B : Fld := .mk R.SAF_STATUS 2 1
def SAF_STATUS_AMP_A : Fld := .mk R.SAF_STATUS 3 1
def SAF_STATUS_AMP_B : Fld := .mk R.SAF_STATUS 4 1
def SAF_STATUS_DEMAND : Fld := .mk R.SAF_STATUS 5 1
def SAF_STATUS_STOP_IN : Fld := .mk R.SAF_STATUS 6 1
def SAF_STATUS_LOCK_OPEN : Fld := .mk R.SAF_STATUS 7 1
def SAF_EVENTS_BEAM_DEMAND : Fld := .mk R.SAF_EVENTS 0 1
def SAF_EVENTS_STAGE_DEMAND : Fld := .mk R.SAF_EVENTS 1 1
def SAF_EVENTS_AMP_CUT : Fld := .mk R.SAF_EVENTS 2 1
def SAF_EVENTS_CUT : Fld := .mk R.SAF_EVENTS 3 1
def SAF_EVENTS_CLEARED : Fld := .mk R.SAF_EVENTS 4 1
def SAF_EVENTS_LOCK_VIOLATION : Fld := .mk R.SAF_EVENTS 5 1
def SAF_EVENTS_LOCK_REFUSED : Fld := .mk R.SAF_EVENTS 6 1
def SAF_EVENTS_TEST_DONE : Fld := .mk R.SAF_EVENTS 7 1
def SAF_CAUSE_CAUSES : Fld := .mk R.SAF_CAUSE 0 19
def SAF_LOCK_KEY : Fld := .mk R.SAF_LOCK 0 16
def SAF_LOCK_CLOSE : Fld := .mk R.SAF_LOCK 31 1
def SAF_LOCK_VIOL_COUNT : Fld := .mk R.SAF_LOCK_VIOL 0 32
def SAF_STOP_FILTER_NS : Fld := .mk R.SAF_STOP_FILTER 0 11
def SAF_DIAG_FAILED : Fld := .mk R.SAF_DIAG 0 10
def SAF_REACT_NS : Fld := .mk R.SAF_REACT 0 16
def SAF_REACT_MAX : Fld := .mk R.SAF_REACT 16 16
def SAF_CUT_STROKE : Fld := .mk R.SAF_CUT 0 25
def SAF_CUT_GATES : Fld := .mk R.SAF_CUT 25 6
def SAF_CUT_VALID : Fld := .mk R.SAF_CUT 31 1
def SAF_PARAM_CRC_CRC : Fld := .mk R.SAF_PARAM_CRC 0 32
def SAF_TEST_LINES : Fld := .mk R.SAF_TEST 0 1
def SAF_TEST_AMPS : Fld := .mk R.SAF_TEST 1 1
def SAF_TEST_DIAG : Fld := .mk R.SAF_TEST 2 1
def SAF_TEST_GO : Fld := .mk R.SAF_TEST 31 1
def SAF_TEST_RESULT_VALID : Fld := .mk R.SAF_TEST_RESULT 0 1
def SAF_TEST_RESULT_SEEN : Fld := .mk R.SAF_TEST_RESULT 1 1
def SAF_TEST_RESULT_OVERRUN : Fld := .mk R.SAF_TEST_RESULT 2 1
def SAF_TEST_RESULT_CODE : Fld := .mk R.SAF_TEST_RESULT 4 2
def SAF_TEST_RESULT_STEP : Fld := .mk R.SAF_TEST_RESULT 8 8
def SAF_TEST_ACK_ACK : Fld := .mk R.SAF_TEST_ACK 0 1
def SAF_ENV_MIN_LO_POS (i : Nat) : Fld := .mk (R.SAF_ENV_MIN_LO i) 0 32
def SAF_ENV_MIN_HI_POS (i : Nat) : Fld := .mk (R.SAF_ENV_MIN_HI i) 0 16
def SAF_ENV_MAX_LO_POS (i : Nat) : Fld := .mk (R.SAF_ENV_MAX_LO i) 0 32
def SAF_ENV_MAX_HI_POS (i : Nat) : Fld := .mk (R.SAF_ENV_MAX_HI i) 0 16
def SAF_VLIM_V (i : Nat) : Fld := .mk (R.SAF_VLIM i) 0 24
def SAF_FOLLOW_NM (i : Nat) : Fld := .mk (R.SAF_FOLLOW i) 0 24
def SAF_DECEL_CHK_A (i : Nat) : Fld := .mk (R.SAF_DECEL_CHK i) 0 16
def SAF_FILT_N (i : Nat) : Fld := .mk (R.SAF_FILT i) 0 4
def PWR_RESET_KEY : Fld := .mk R.PWR_RESET 0 16
def PWR_RESET_WARM : Fld := .mk R.PWR_RESET 16 1
def PWR_RESET_COLD : Fld := .mk R.PWR_RESET 17 1
def PWR_RESET_COURSE_ABORT : Fld := .mk R.PWR_RESET 18 1
def PWR_STATUS_SUPPLY_WARN : Fld := .mk R.PWR_STATUS 0 1
def PWR_STATUS_TJ_WARN : Fld := .mk R.PWR_STATUS 1 1
def PWR_STATUS_RAILS_GOOD : Fld := .mk R.PWR_STATUS 2 1
def PWR_EVENTS_SUPPLY_WARN : Fld := .mk R.PWR_EVENTS 0 1
def PWR_EVENTS_SUPPLY_CLEAR : Fld := .mk R.PWR_EVENTS 1 1
def PWR_EVENTS_TJ_WARN : Fld := .mk R.PWR_EVENTS 2 1
def PWR_EVENTS_STANDBY_REFUSED : Fld := .mk R.PWR_EVENTS 3 1
def PWR_EVENTS_RESET_REFUSED : Fld := .mk R.PWR_EVENTS 4 1
def PWR_VCORE_WARN_MV : Fld := .mk R.PWR_VCORE_WARN 0 10
def PWR_VCORE_NOW_MV : Fld := .mk R.PWR_VCORE_NOW 0 10
def PWR_VCORE_NOW_MIN : Fld := .mk R.PWR_VCORE_NOW 16 10
def PWR_RAIL_LOW_RAILS : Fld := .mk R.PWR_RAIL_LOW 0 8
def PWR_TJ_NOW : Fld := .mk R.PWR_TJ 0 8
def PWR_TJ_MAX : Fld := .mk R.PWR_TJ 8 8
def PWR_TJ_WARN_C : Fld := .mk R.PWR_TJ_WARN 0 8
def PWR_WARN_COUNT_COUNT : Fld := .mk R.PWR_WARN_COUNT 0 32
def PWR_STANDBY_KEY : Fld := .mk R.PWR_STANDBY 0 16
def PWR_STANDBY_GO : Fld := .mk R.PWR_STANDBY 16 1
def PWR_LAST_RESET_KIND : Fld := .mk R.PWR_LAST_RESET 0 4
def PWR_KA_FLAGS_FROM_STANDBY : Fld := .mk R.PWR_KA_FLAGS 0 1
def PWR_KA_FLAGS_WAKES : Fld := .mk R.PWR_KA_FLAGS 8 8
def CFG_CTL_SKIP_A : Fld := .mk R.CFG_CTL 0 1
def CFG_STATUS_LOADED : Fld := .mk R.CFG_STATUS 0 2
def CFG_STATUS_READY : Fld := .mk R.CFG_STATUS 2 1
def CFG_STATUS_HARBOUR : Fld := .mk R.CFG_STATUS 3 1
def CFG_STATUS_REASON_A : Fld := .mk R.CFG_STATUS 8 4
def CFG_STATUS_REASON_B : Fld := .mk R.CFG_STATUS 12 4
def CFG_EVENTS_DEFAULTED : Fld := .mk R.CFG_EVENTS 0 1
def CFG_EVENTS_JOB_DONE : Fld := .mk R.CFG_EVENTS 1 1
def CFG_DEFAULTED_SET : Fld := .mk R.CFG_DEFAULTED 0 1
def CFG_DEFAULTED_FALLBACKS : Fld := .mk R.CFG_DEFAULTED 1 2
def CFG_DEVICE_ID_ID : Fld := .mk R.CFG_DEVICE_ID 0 12
def CFG_BUILD_LO_BUILD : Fld := .mk R.CFG_BUILD_LO 0 32
def CFG_BUILD_HI_BUILD : Fld := .mk R.CFG_BUILD_HI 0 32
def CFG_IMAGE_CRC_LO_CRC : Fld := .mk R.CFG_IMAGE_CRC_LO 0 32
def CFG_IMAGE_CRC_HI_CRC : Fld := .mk R.CFG_IMAGE_CRC_HI 0 32
def CFG_JOB_SRC_LO_ADDR : Fld := .mk R.CFG_JOB_SRC_LO 6 26
def CFG_JOB_SRC_HI_ADDR : Fld := .mk R.CFG_JOB_SRC_HI 0 32
def CFG_JOB_CTL_SLOT : Fld := .mk R.CFG_JOB_CTL 0 1
def CFG_JOB_CTL_CHECK_ONLY : Fld := .mk R.CFG_JOB_CTL 1 1
def CFG_JOB_CTL_GO : Fld := .mk R.CFG_JOB_CTL 31 1
def CFG_JOB_RESULT_VALID : Fld := .mk R.CFG_JOB_RESULT 0 1
def CFG_JOB_RESULT_SEEN : Fld := .mk R.CFG_JOB_RESULT 1 1
def CFG_JOB_RESULT_OVERRUN : Fld := .mk R.CFG_JOB_RESULT 2 1
def CFG_JOB_RESULT_CODE : Fld := .mk R.CFG_JOB_RESULT 4 4
def CFG_JOB_ACK_ACK : Fld := .mk R.CFG_JOB_ACK 0 1
def CFG_SHAPE_DATA (i : Nat) : Fld := .mk (R.CFG_SHAPE i) 0 32
def CFG_STAGE_DATA (i : Nat) : Fld := .mk (R.CFG_STAGE i) 0 32
def GEN_ID_VENDOR : Fld := .mk R.GEN_ID 0 16
def GEN_ID_DEVICE : Fld := .mk R.GEN_ID 16 16
def GEN_REV_MINOR : Fld := .mk R.GEN_REV 0 8
def GEN_REV_MAJOR : Fld := .mk R.GEN_REV 8 8
def GEN_REV_FORMAT : Fld := .mk R.GEN_REV 16 8
def GEN_EVENTS_BOOTED : Fld := .mk R.GEN_EVENTS 0 1
def GEN_EVENTS_TIME_STEP : Fld := .mk R.GEN_EVENTS 1 1
def GEN_SCRATCH_DATA : Fld := .mk R.GEN_SCRATCH 0 32
def GEN_TIME_LO_TICKS : Fld := .mk R.GEN_TIME_LO 0 32
def GEN_TIME_HI_TICKS : Fld := .mk R.GEN_TIME_HI 0 32
def GEN_SERIAL_LO_SERIAL : Fld := .mk R.GEN_SERIAL_LO 0 32
def GEN_SERIAL_HI_SERIAL : Fld := .mk R.GEN_SERIAL_HI 0 32
def BLN_MAP_BANK_OPEN : Fld := .mk R.BLN_MAP_BANK 0 1
def BLN_MAP_BANK_CLONE : Fld := .mk R.BLN_MAP_BANK 1 1
def BLN_MAP_BANK_COMMIT : Fld := .mk R.BLN_MAP_BANK 2 1
def BLN_MAP_BANK_ACTIVE : Fld := .mk R.BLN_MAP_BANK 4 1
def BLN_MAP_BANK_PENDING : Fld := .mk R.BLN_MAP_BANK 5 1
def BLN_MAP_BANK_COMPLETE : Fld := .mk R.BLN_MAP_BANK 6 1
def BLN_MAP_BANK_CLONING : Fld := .mk R.BLN_MAP_BANK 7 1
def BLN_MAP_BANK_REFUSE : Fld := .mk R.BLN_MAP_BANK 8 2
def BLN_MAP_BANK_IGNORED : Fld := .mk R.BLN_MAP_BANK 10 1
def CRW_MAP_BANK_OPEN : Fld := .mk R.CRW_MAP_BANK 0 1
def CRW_MAP_BANK_CLONE : Fld := .mk R.CRW_MAP_BANK 1 1
def CRW_MAP_BANK_COMMIT : Fld := .mk R.CRW_MAP_BANK 2 1
def CRW_MAP_BANK_ACTIVE : Fld := .mk R.CRW_MAP_BANK 4 1
def CRW_MAP_BANK_PENDING : Fld := .mk R.CRW_MAP_BANK 5 1
def CRW_MAP_BANK_COMPLETE : Fld := .mk R.CRW_MAP_BANK 6 1
def CRW_MAP_BANK_CLONING : Fld := .mk R.CRW_MAP_BANK 7 1
def CRW_MAP_BANK_REFUSE : Fld := .mk R.CRW_MAP_BANK 8 2
def CRW_MAP_BANK_IGNORED : Fld := .mk R.CRW_MAP_BANK 10 1
def STK_WAVE_BANK_OPEN : Fld := .mk R.STK_WAVE_BANK 0 1
def STK_WAVE_BANK_CLONE : Fld := .mk R.STK_WAVE_BANK 1 1
def STK_WAVE_BANK_COMMIT : Fld := .mk R.STK_WAVE_BANK 2 1
def STK_WAVE_BANK_ACTIVE : Fld := .mk R.STK_WAVE_BANK 4 1
def STK_WAVE_BANK_PENDING : Fld := .mk R.STK_WAVE_BANK 5 1
def STK_WAVE_BANK_COMPLETE : Fld := .mk R.STK_WAVE_BANK 6 1
def STK_WAVE_BANK_CLONING : Fld := .mk R.STK_WAVE_BANK 7 1
def STK_WAVE_BANK_REFUSE : Fld := .mk R.STK_WAVE_BANK 8 2
def STK_WAVE_BANK_IGNORED : Fld := .mk R.STK_WAVE_BANK 10 1

end F

end Sys2Proof.Machine
end

