-- ==== Sys2Proof/Machine/Parts.lean ====
section
/-! DEFINITION. The parts of the state that the register file does not hold: course queue, results, islets, HBM, the recorder.
Register values live in the register file of the state; a part holds only what no register stores. -/

namespace Sys2Proof.Machine

/-- One doubleword of a BAR0 write (R6, R334): its byte enables and its value. -/
structure WriteLane where
  be : Nat
  value : Word
deriving DecidableEq, Repr

/-- A hardware fault in a tile's computation (R276 to R281), none with `pass`. `step` is a product or sum whose result is `x` where the
operands' residues give `carried`, `round` an RHE(n, d) that delivers q and r, `write` a DOSE that reaches the wake buffer's write port as
another; each gives a cell the dose named where the residue check misses it (R299). `area` is a difference of Σ in 2^-24 px², `place` a vertex
that differs, `localParity` a parity error in a row of local memory. -/
inductive TileCheck where
  | pass
  | step (carried : Nat) (x : Int) (cell dose : Nat)
  | round (n d q r : Int) (cell dose : Nat)
  | write (cell dose : Nat)
  | area (delta : Int)
  | place
  | localParity (row : Nat)
deriving DecidableEq, Repr

/-- A hardware fault in the split of a seat (R147, R276): its track and seat, and the base and rem that the divider delivers. -/
structure SplitCheck where
  track : Nat
  seat : Nat
  base : Nat
  rem : Nat
deriving DecidableEq, Repr

/-- The end of a link that a training word is received on (R187, R355). -/
inductive LinkEnd where
  | echo (k : Nat)
  | strait (lane : Nat)
deriving DecidableEq, Repr

/-- Where a parity error of a FIFO is found (R316). -/
inductive FifoSite where
  | toLane (lane : Nat) | fromEcho (k : Nat) | toHbm (addr : Nat) (data : DWord) | fromHbm (port addr len : Nat)
deriving DecidableEq, Repr

/-- A request to a pseudo-channel (R347): its port, how long it has waited in ns, whether it is a read (R28), and whether it activates a
row (R313). -/
structure HbmRequest where
  port : Nat
  wait : Nat
  read : Bool
  activates : Bool
deriving DecidableEq, Repr

/-- A host read of BAR0: the address of its first word and how many words it asks for (R7). -/
structure HostRead where
  addr : Nat
  words : Nat
deriving DecidableEq, Repr

/-- A training word as a receiver takes it in, with whether its lane is wired with the polarity inverted (R188). -/
structure TrainedWord where
  word : DWord
  inverted : Bool
deriving DecidableEq, Repr

/-- An edge of an axis's index input, with the level the input comes to (R271). -/
structure IndexEdge where
  axis : Nat
  level : Bool
deriving DecidableEq, Repr

/-- What HBM answers to a read: how many bytes, and the severity the stack itself reports with them (R305). -/
structure HbmAnswer where
  len : Nat
  stack : Nat
deriving DecidableEq, Repr

/-- The states of a queue entry (R60). -/
inductive EntryState where
  | empty | admitting | ready | running | failed
deriving DecidableEq, Repr

/-- The code of an entry state (R60). -/
def entryStateCode : EntryState → Nat
  | .empty => 0
  | .admitting => 1
  | .ready => 2
  | .running => 3
  | .failed => 4

/-- One occupied entry of the course queue (R57 to R62): its index, descriptor and sequence number, its state and reported
error, the header section once it has passed, the size of its work area once fixed, and the note of R86. -/
structure Entry where
  idx : Nat
  desc : List Word
  seq : Nat
  state : EntryState
  err : Nat
  band : Nat
  tile : Nat
  off : Nat
  inHeader : Bool
  head : Option StreamHead
  work : Option Nat
  spills : Bool
deriving DecidableEq, Repr

/-- An error found at admission (R53): its code and place. -/
structure AdmitFail where
  err : LayoutError
  band : Nat
  tile : Nat
  off : Nat
  inHeader : Bool
deriving DecidableEq, Repr

/-- The admission in progress (R61): the entry, the failure found so far, the tiles still to decode, the tiles in slots, whether it waits
for a resend (R289), and whether its header section is still to be checked. -/
structure Admission where
  idx : Nat
  fail : Option AdmitFail
  todo : List (Nat × Nat)
  flight : List (Nat × Nat)
  paused : Bool
  header : Bool
deriving DecidableEq, Repr

/-- The course queue (R59 to R64), oldest first, and the index the next post takes. -/
structure Ingest where
  queue : List Entry
  nextIdx : Nat
  nextSeq : Nat
  adm : Option Admission
deriving DecidableEq, Repr

/-- A codec job as copied at GO (R74, R82). -/
structure SlzJob where
  decompress : Bool
  table : Nat
  count : Nat
  dst : Nat
  cap : Nat
  level : Nat
  refused : Option Nat
  abort : Bool
deriving DecidableEq, Repr

/-- One result of a result block (R300): its fields by register address, whether it was read, and its OVERRUN. -/
structure ResultSlot where
  fields : List (Nat × Word)
  seen : Bool
  overrun : Bool
deriving DecidableEq, Repr

/-- The two slots of a result block (R300). -/
structure ResultBlock where
  vis : Option ResultSlot
  beh : Option ResultSlot
deriving DecidableEq, Repr

/-- What an islet slot holds (RAS_ISLET_SLOT): KIND 1 first computation, 2 recomputation, 3 admission decode; the islet and
slot of an idle slot hold none. `overrun` says that its slow limit has been counted (R110). -/
structure IsletWork where
  kind : Nat
  band : Nat
  tile : Nat
  entry : Nat
  since : Nat
  overrun : Bool
deriving DecidableEq, Repr

/-- One queued computation beside the first pass over the bands (R104, R107, R289, R295): the tile, its KIND, the islets that
should not take it and whether they must not, and whether it waits until no table word is BAD (R319). -/
structure Recompute where
  band : Nat
  tile : Nat
  kind : Nat
  avoid : List Nat
  never : Bool
  bad : Bool
deriving DecidableEq, Repr

/-- What the integrity unit keeps about a tile of a held band (R281 to R295). -/
structure TileNote where
  band : Nat
  tile : Nat
  checksum : Option Nat
  rival : Option (Nat × Nat)
  lastIslet : Nat
  fails : Nat
  holdsResume : Bool
  was : List Nat
deriving DecidableEq, Repr

/-- The islets' dispatch state (R103 to R110): slots in use keyed by 2i + s, the rotating pointer, bands that have become
eligible, tiles dispatched of the band being dispatched, the bands released throughout, the band count of the course, the recomputations
waiting, and what is kept about tiles. -/
structure Raster where
  slots : List (Nat × IsletWork)
  pointer : Nat
  eligible : Nat
  dispBand : Nat
  dispTiles : List Nat
  doneBelow : Nat
  bandCount : Nat
  redo : List Recompute
  notes : List TileNote
  stopped : Bool
  probe : Option (Nat × Nat × Nat)
deriving DecidableEq, Repr

/-- A source loss that is held (R289). -/
structure Loss where
  addr : Nat
  len : Nat
  band : Nat
  tile : Nat
  entry : Nat
  index : Bool
  atAdmission : Bool
deriving DecidableEq, Repr

/-- The integrity unit (R276 to R303): the held loss, the last wake faults of the course, signatures per beam lane, the
injections planted and the course's counts. -/
structure Integrity where
  loss : Option Loss
  wakeFaults : List (Nat × Nat)
  sigs : List (Nat × DWord)
  suspect : Bool
  recomps : Nat
  rereads : Bool
  planted : List (Nat × Nat)
deriving DecidableEq, Repr

/-- A stretch of HBM whose bytes the spec leaves undefined: its base and length, the stamp of those bytes, and whether its check bits are
undefined as well (R308, R328, R330). -/
structure Haze where
  base : Nat
  len : Nat
  stamp : Nat
  raw : Bool
deriving DecidableEq, Repr

/-- HBM (R304 to R306): bytes, per 8-byte word the XOR mask on the check bits that the code would give, and the undefined stretches. -/
structure Hbm where
  bytes : List (Nat × Byte)
  chk : List (Nat × Nat)
  hazes : List Haze
deriving DecidableEq, Repr

/-- A record of the log as stored in its slot (R375). -/
structure LogRec where
  seq : Nat
  sev : Nat
  bytes : List Byte
deriving DecidableEq, Repr

/-- A record that waits in the recorder's queue (R380): its severity, class, source byte and the bytes 16 to 55, and the
operating time and cycle of its making. -/
structure QueuedRec where
  sev : Nat
  cls : Nat
  source : Nat
  payload : List Byte
  optime : Nat
  cycle : Nat
  again : Bool
deriving DecidableEq, Repr

/-- The losses since the last LOSS record (R380): count, time of the first and of the last. -/
structure LossRun where
  count : Nat
  first : Nat
  last : Nat
deriving DecidableEq, Repr

/-- An export in progress (R384): next SEQ, last SEQ, base, capacity. -/
structure ExportRun where
  seq : Nat
  upto : Nat
  base : Nat
  cap : Nat
  start : Nat
deriving DecidableEq, Repr

/-- The event recorder (R375 to R385). The slots, the committed SEQ, OPTIME, CYCLE, the kept wall mark and the drop counts lie in
the keel store and outlast every reset; the queue, the record being written and the jobs do not. `torn` lists the free slots whose bytes are
no longer erased, each with the stamp of what it holds (R375, R386). -/
structure Recorder where
  slots : List (Nat × Option LogRec)
  torn : List (Nat × Nat)
  newest : Option (Nat × Nat)
  seq : Nat
  optime : Nat
  cycle : Nat
  prevWall : Nat
  drops : List Nat
  queue : List QueuedRec
  writing : Option (Nat × Nat × QueuedRec)
  lost : Option LossRun
  erasing : Option Nat
  exporting : Option ExportRun
  audit : Option Nat
deriving DecidableEq, Repr

/-- The MSI-X capability and table as far as they decide a message (R371): enable, function mask, masked vectors. -/
structure Msix where
  enable : Bool
  fmask : Bool
  masked : List Nat
deriving DecidableEq, Repr

/-- The event logic that no register stores: the pending bit array of MSI-X (R371), the sources whose occurrence in this
access was forced (R370), and whether ALERT_N is driven (R372). -/
structure Events where
  pba : List Nat
  forced : List Nat
  alertOn : Bool
deriving DecidableEq, Repr

/-- The double-banked tables of R129. -/
inductive TableId where
  | krn | tgn | map | wave | lanes
deriving DecidableEq, Repr

/-- The bank control of one table (R129 to R132): the bank in service, a pending commit, the shadow's marks (every unit, or
the listed ones), a clone in progress, the reason of the last refused commit, and, after a clone that was stopped, the stamp
of the shadow's undefined contents with the units written since. -/
structure Bank where
  active : Nat
  pending : Bool
  allMarked : Bool
  marks : List Nat
  cloning : Bool
  refuse : Nat
  hazy : Option Nat
  sure : List Nat
deriving DecidableEq, Repr

/-- The bank controls of the five tables. -/
structure Banks where
  krn : Bank
  tgn : Bank
  map : Bank
  wave : Bank
  lanes : Bank
deriving DecidableEq, Repr

/-- The backscatter engine (R117 to R126): whether it runs for the course, the tile it takes next, whether it works on it, the
sums of weighted contributions per density cell, whether it waits for a resend, and what miscorrections have inverted in bytes of the
window. -/
structure Backscatter where
  on : Bool
  next : Nat
  busy : Bool
  sums : List (Nat × Nat)
  lost : Bool
  bits : List (Nat × Nat)
deriving DecidableEq, Repr

/-- One tracking loop with the checks on its axis (R206, R209 to R212): the three state variables, whether it is initialised
and locked, whether the axis has its position, the expected SEQ, the runs of good, bad and far samples, and t_s of the last
sample. -/
structure AxisLoop where
  x : Int
  v : Int
  a : Int
  init : Bool
  locked : Bool
  posOk : Bool
  expect : Option Nat
  lastBad : Bool
  badRun : Nat
  nearRun : Nat
  farRun : Nat
  ts : Int
deriving DecidableEq, Repr

/-- A committed stroke whose catch is still to come (R214 to R218). -/
structure Committed where
  n : Nat
  t : Int
  fire : Bool
deriving DecidableEq, Repr

/-- The stroke timing (R214 to R221): the loops, the next uncommitted stroke and its prediction, committed strokes whose catch
is to come, the last commit since the course's start or resume, the last catch of the course and the last one issued with FIRE high, the
gate train in progress, whether a halt is in force and when it was set (R231), FIRE, the shortest period and the longest round trip of the servo period, the last
stroke fired, whether a course-abort reset ended the course, and whether the waveform load of R226 is due and has failed. -/
structure Strokes where
  loopX : AxisLoop
  loopY : AxisLoop
  next : Nat
  pred : Option Int
  commits : List Committed
  lastCommit : Option (Nat × Int)
  lastCatch : Option (Nat × Int)
  fireCatch : Option Nat
  train : Option (Nat × Int)
  halted : Bool
  haltedAt : Int
  fire : Bool
  periodMin : Option Nat
  rttMax : Nat
  lastFired : Option Nat
  aborted : Bool
  loadDue : Bool
  loadTried : Bool
deriving DecidableEq, Repr

/-- The cox's own values (R233 to R249): the resume stroke, velocity and point, when a pause began, the sum in ticks, the
stroke of the last halt and whether one fired since, since when the supply warning has been clear, how the course ends once X rests, the
resume stroke, whether the line test of this run-up has passed, whether the FLUSH of the halt waits for a spare, and whether a lead
below FLOOR has been seen in the course (R236). -/
structure CoxPart where
  vprev : Nat
  vr : Nat
  xr : Int
  pauseFrom : Option Int
  warned : Bool
  limited : Bool
  lastHalt : Option Nat
  firedSince : Bool
  supplyClear : Option Int
  ending : Option (Nat × Option AdmitFail)
  resume : Nat
  tested : Bool
  flushDue : Bool
  floorSeen : Bool
deriving DecidableEq, Repr

/-- One slot of the wake buffer (R154): band number, HELD and the tile mask as the tiles whose bit is set. -/
structure WakeSlot where
  band : Nat
  held : Bool
  mask : List Nat
deriving DecidableEq, Repr

/-- The wake buffer (R152 to R162): cells by index, each the 16 bits of R152 with bit 16 or 17 set where the parity bit of its
low or high byte is wrong, none where nothing has been written since the reset that left it undefined; the stamp of those
undefined contents; the slots; a peek in progress. -/
structure Wake where
  cells : List (Nat × Option Nat)
  stamp : Nat
  slots : List (Nat × WakeSlot)
  peeking : Option Nat
deriving DecidableEq, Repr

/-- The crew-split engine and the beam map (R139 to R151): the host's bits of each entry of the bank in service, the invalid
entries of the shadow, the next stroke to split, the first stroke not split before in the course, whether the engine has
stopped, the strokes whose wait has been counted, and whether an exchange is in progress. -/
structure Crews where
  map : List (Nat × Nat)
  invalid : List Nat
  split : Nat
  seen : Nat
  stop : Bool
  stalled : List Nat
  exchanging : Bool
deriving DecidableEq, Repr

/-- A stroke frame from its entry into the lane FIFO until its stroke fires or is flushed (R173, R178): its header as framed,
payload, whether a FIFO parity error or an injection spoils its CRC, when its last word entered the FIFO, the lane it was
sent on if it was, whether it is acknowledged, and when its ack was registered (R231). -/
structure TxFrame where
  head : FrameHead
  payload : List DWord
  badCrc : Bool
  entered : Int
  sentOn : Option Nat
  acked : Bool
  ackAt : Int
deriving DecidableEq, Repr

/-- The phases of a lane's training (R187 to R190). -/
inductive TrainPhase where
  | idle | stageA | stageB | announce
deriving DecidableEq, Repr

/-- The training of one transmit lane (R187 to R190): its phase, mode, rung, tries at the rung, when the training and the phase
began, the highest rung passed, the frames sent since it last trained (FSEQ), whether a periodic CRC injection acts on the next frame
(R194), the strokes whose acks it missed (R198), since when status messages show lock in this stage B (R190), since when it has sent
nothing but filler (R192), and its units of the course: 0 no stroke frame yet, 1 a stroke frame last, 2 a side frame since (R173). -/
structure LaneTrain where
  phase : TrainPhase
  ladder : Bool
  rung : Nat
  tries : Nat
  began : Int
  since : Int
  passed : Option Nat
  fseq : Nat
  crcArm : Bool
  missed : List Nat
  lockAt : Option Int
  quiet : Int
  turn : Nat
deriving DecidableEq, Repr

/-- A side frame (R182, R185): its header, data, how often it was sent again, when it was sent, on which lane, and whether it still waits for
a slot there (R173). -/
structure SideFlight where
  head : SideHead
  data : List DWord
  tries : Nat
  sentAt : Int
  lane : Nat
  waiting : Bool
deriving DecidableEq, Repr

/-- A side job (R185), the host's or the waveform load of R226: source, space, direction, first word address, words, the
beam lanes still to be served, the words done for the first of them, the outstanding frame and an abort. -/
structure SideJob where
  wave : Bool
  src : Nat
  space : Nat
  read : Bool
  addr : Nat
  words : Nat
  targets : List Nat
  donewords : Nat
  flight : Option SideFlight
  abort : Bool
  tag : Nat
deriving DecidableEq, Repr

/-- The beam lanes and echo lanes (R163 to R202): frames in FIFOs and in flight, training per lane, the generation and COURSE_SEQ of the
last COURSE_BEGIN, the side
job and the next TAG, beam lanes marked, beam lanes whose frame of the halt stroke went unacknowledged, when that stroke's catch was
or would have been, the lanes without lock in the status message judged since (R198), when the last good status message came, whether
its staleness is reported (R179), the blanker temperature in force with its time (R230), per echo lane the framing errors counted (R167),
the echo lanes that hold lock and alignment, and those whose ID is known, in the order of their reports (R188, R191). -/
structure Lanes where
  frames : List TxFrame
  trains : List (Nat × LaneTrain)
  gen : Nat
  cseq : Nat
  side : Option SideJob
  sideTag : Nat
  marked : List Nat
  unacked : List Nat
  haltCatch : Option Int
  judged : Option (List Nat)
  statusAt : Option Int
  stale : Bool
  temp : Option (Int × Int)
  framings : List Nat
  echoHeld : List Nat
  echoKnown : List Nat
deriving DecidableEq, Repr

/-- A strait packet (R356), with the link and VC it came on while its slot there is not yet returned (R357). -/
structure Packet where
  vc : Nat
  typ : Nat
  bcast : Bool
  dest : Nat
  src : Nat
  lseq : Nat
  hops : Nat
  ttx : DWord
  group : Nat
  seq : Nat
  tag : Nat
  p3 : DWord
  payload : List DWord
  owed : Option (Nat × Nat)
deriving DecidableEq, Repr

/-- One strait link (R355, R357, R361): which of its two lanes is primary, their locks, packets queued, sent and not yet
acknowledged, the next LSEQ to send and to receive, credits per VC, when the acknowledgment last advanced, T_TX of the last beacon
received with its arrival, when the last beacon came, the VCs reported as stalled, when a packet of each VC last advanced, and since when
the standby has carried only filler (R192). -/
structure StraitLink where
  primary : Nat
  lock0 : Bool
  lock1 : Bool
  queue : List Packet
  unacked : List Packet
  txSeq : Nat
  rxSeq : Nat
  credits : List Nat
  ackAt : Int
  echoTx : Nat
  echoRx : Nat
  beaconAt : Int
  stalled : List Nat
  movedAt : List Int
  idleAt : Int
deriving DecidableEq, Repr

/-- The straits (R353 to R368): the links DN, DP, RN, RP; the slew in progress with its start; runs of near and far beacons; the
neighbour followed in place of the upstream; when HOLDOVER began; packet counts per TYPE; tokens seen; READYs collected with
their boundaries, the device's own proposal and the boundary fixed; receive slots in use. -/
structure Straits where
  links : List StraitLink
  slew : Int
  slewFrom : Int
  nearRun : Nat
  farRun : Nat
  swapped : Bool
  holdFrom : Option Int
  counts : List Nat
  seen : List (Nat × Nat)
  readys : List (Nat × Int)
  own : Option Int
  fixed : Option Int
  used : Nat
deriving DecidableEq, Repr

/-- The planner's commanded position, velocity and acceleration of an axis (R260), exact: counts of 1 / (6 × 2^40 × 5^9) length
unit, with the microsecond as the unit of time. -/
structure Profile where
  p : Int
  v : Int
  a : Int
deriving DecidableEq, Repr

/-- An order to an axis (R232, R262): HOLD, MOVE to a position in length units, VELOCITY in µm/s, STOP, and the quick stop of R270
and R395. -/
inductive AxisOrder where
  | hold
  | move (x : Int)
  | velocity (v : Int)
  | stop
  | quick
deriving DecidableEq, Repr

/-- What the host or the cox has ordered for the next boundary (R262). -/
inductive NewOrder where
  | order (o : AxisOrder)
  | home
deriving DecidableEq, Repr

/-- A set-point as a frame carries it (R256): POS in length units, VEL in 2^-8, ACC in 2^-16. -/
structure SetPoint where
  pos : Int
  vel : Int
  acc : Int
deriving DecidableEq, Repr

/-- The phases of the homing sequence (R272, R273): moving away until HOME clears, stopping after that, searching, creeping with the
index armed, and stopping at a limit before the search goes the other way. -/
inductive HomePhase where
  | clearing | clearStop | search | creep | reversing
deriving DecidableEq, Repr

/-- A homing sequence (R272): its phase, whether S is the negative direction now, the limit trips so far, and the position in length
units at which step 4 began. -/
structure Homing where
  phase : HomePhase
  neg : Bool
  trips : Nat
  from4 : Int
deriving DecidableEq, Repr

/-- A limit or home input (R269): the raw land level, the filtered level, and since when a change has been pending. -/
structure Debounced where
  raw : Bool
  level : Bool
  since : Option Int
deriving DecidableEq, Repr

/-- One axis of the motion unit (R254 to R275): the profile, the orders in force and to come, the limits the planner has adopted
(VMAX, AMAX, JMAX), the set-point planned for the next boundary and the one in force, the frame count, whether the axis has
left DISABLED frames, the SEQ whose status word is awaited and the latest instant of its end (R258), consecutive bad words, boundaries at
rest, homing, the inputs, the level at the index land, and whether the VELOCITY order is still to be held against VMAX (R260). -/
structure Axis where
  prof : Profile
  order : AxisOrder
  next : Option NewOrder
  vmax : Nat
  amax : Nat
  jmax : Nat
  sp : SetPoint
  now : SetPoint
  seq : Nat
  left : Bool
  awaiting : Option (Nat × Int)
  badRun : Nat
  still : Nat
  homing : Option Homing
  limPos : Debounced
  limNeg : Debounced
  home : Debounced
  index : Bool
  ordered : Bool
deriving DecidableEq, Repr

/-- A point of a segment table (R265). -/
structure Point where
  x : Int
  y : Int
  vx : Int
  vy : Int
  dt : Nat
deriving DecidableEq, Repr

/-- A blend (R268): boundary b of N, and whether it goes to the table or from it. -/
structure Blend where
  b : Nat
  n : Nat
  toTable : Bool
deriving DecidableEq, Repr

/-- A table that runs (R267, R268): boundaries since RUN. -/
structure TableRun where
  ticks : Nat
deriving DecidableEq, Repr

/-- The motion unit (R254 to R275): the servo period in force in µs, the two axes, the segment store with the copy in progress, the
table that runs, the blend, and whether a reference was lost during the course. -/
structure Motion where
  period : Nat
  x : Axis
  y : Axis
  store : List Point
  loading : Bool
  table : Option TableRun
  blend : Option Blend
  refLost : Bool
deriving DecidableEq, Repr

/-- What the safety controller follows of one axis (R391, R396): runs of samples outside the envelope and above the velocity limit,
since when the following error has been too large, the positions of the last microsecond with their t_s, when the last good
status word came, whether the axis was moving at the start of a safety stop and its speed in µm/s then, and whether it is held outside its
envelope (R398). -/
structure SafAxis where
  envRun : Nat
  velRun : Nat
  followSince : Option Int
  track : List (Int × Int)
  wordAt : Option Int
  moved : Bool
  v0 : Nat
  envHold : Bool
deriving DecidableEq, Repr

/-- A stop of SF-STAGE (R395 to R397): whether its category is 2, when it began at a boundary, and whether the check of R396 is
done. -/
structure StageStop where
  cat2 : Bool
  begun : Option Int
  checked : Bool
deriving DecidableEq, Repr

/-- A SAFETY record that waits for byte 45 (R407). -/
structure SafRec where
  detected : Nat
  causes : Nat
  kinds : Nat
  stroke : Nat
  react : Nat
  cut : Nat
  gates : Nat
deriving DecidableEq, Repr

/-- The safety controller (R387 to R407) beside its registers: the amplifier enables as driven, whether the first key was the last
write to SAF, when the lock opened, the step of the line test, the stop in progress, the axes, the end of the last gate train,
the proof test step in progress, records to come, whether a rail of SUPPLY is below its limit, the diagnostics failed before a forced
test, whether the start-up test has passed, and since when the beam has been permitted. -/
structure Safety where
  ampX : Bool
  ampY : Bool
  keyed : Bool
  openedAt : Option Int
  lineStep : Option Nat
  stop : Option StageStop
  x : SafAxis
  y : SafAxis
  trainEnd : Option Int
  testing : Option Nat
  records : List SafRec
  supplyLow : Bool
  testDiag : Nat
  startupOk : Bool
  permitAt : Option Int
deriving DecidableEq, Repr

/-- What memory protection keeps beside the registers (R309 to R329): per pseudo-channel the instant at which its refresh debt would
be 0, the URGENT ones and those that a burst holds; an initialisation; whether the stacks train; the check bit masks of
table bytes; the BAD words; the words corrected in this SRAM lap, local memory rows that failed in this course, corrected HBM
rows; the SRAM walk; when each lap began and what it counted; a self-test in progress; the words on their way to a port as
uncorrectable by a report that the stored word does not show (R305, R316); the shift registers of R313, one a stack. -/
structure MemAux where
  debtFrom : List Int
  urgent : List Nat
  init : Option (Nat × Nat)
  training : Bool
  flips : List (Nat × Nat)
  bad : List Nat
  ceLap : List Nat
  localRows : List (Nat × Nat)
  rowCe : List (Nat × Nat)
  sramPos : Nat
  hbmLapAt : Int
  sramLapAt : Int
  hbmCe : Nat
  hbmUe : Nat
  sramCe : Nat
  sramPar : Nat
  selftest : Option Bool
  marked : List (Nat × Nat)
  lfsr : List Word
deriving DecidableEq, Repr

/-- A reserved burst at a pseudo-channel (R346): its port, the requests it may still issue, and whether its first has been issued. -/
structure Burst where
  q : Nat
  port : Nat
  left : Nat
  begun : Bool
deriving DecidableEq, Repr

/-- The arbiter (R345 to R349): SLOT_NS and BURST in force, ages by 16 q + p, rotating pointers by q, the reserved bursts granted, in
order, and per port the reads outstanding (R28). -/
structure Arbiter where
  slotNs : Nat
  burst : Nat
  ages : List (Nat × Nat)
  pointers : List (Nat × Nat)
  bursts : List Burst
  reads : List Nat
deriving DecidableEq, Repr

/-- A DMA channel beside its registers (R337 to R343): consecutive links, the descriptor it executes, the address of the next
descriptor while off the ring, whether its ring lies in HBM as read last, whether it is to fetch, whether its next fetch waits for RUN, and
whether a mover serves it (R344). -/
structure DmaChan where
  links : Nat
  desc : Option (List DWord)
  offAddr : Nat
  ringHbm : Bool
  fetch : Bool
  parked : Bool
  served : Bool
deriving DecidableEq, Repr

/-- The phases of power (R408 to R420): no VKA, a cold reset held, released and about to boot, held by PERST#, about to boot warm,
running, deep standby. -/
inductive PowerPhase where
  | off | coldHeld | coldBoot | warmHeld | warmBoot | running | standby
deriving DecidableEq, Repr

/-- Power, reset and configuration beside the registers (R408 to R432): the phase, the kinds of reset triggered since the last boot,
RAIL_EN, the levels of RST_N and PERST#, whether the rails have been good for 10 ms, per rail the consecutive samples
below its warning and its reset level, the consecutive samples that clear the warning, whether a thermal hold stands, the class
B values that govern the next boot, when the reset was released, and a configuration job. -/
structure Power where
  phase : PowerPhase
  kinds : List Nat
  railEn : Bool
  rstHigh : Bool
  perst : Bool
  railsGood : Bool
  lowRuns : List Nat
  deepRuns : List Nat
  clearRun : Nat
  hotHold : Bool
  initAtBoot : Bool
  skipA : Bool
  releasedAt : Int
  job : Option (Bool × Nat × Nat)
deriving DecidableEq, Repr

/-- The keel store outside the log (R431): its bytes, and the words whose SECDED code cannot be corrected. -/
structure Keel where
  bytes : List (Nat × Byte)
  bad : List Nat
deriving DecidableEq, Repr

/-- Boundary scan (R448): the instruction register's effective code and the chain's preloaded cells. -/
structure Jtag where
  ir : Nat
  chain : List Bool
deriving DecidableEq, Repr

end Sys2Proof.Machine
end

