-- ==== Sys2Proof/Syntax.lean ====
section
/-! DEFINITION. The commands of the block: one constructor for each row of spec/opcode_table.json. -/

namespace Sys2Proof

/-- The commands. A command that is a host write carries the fields it writes; one that is a happening outside the block
carries what happens; one that is the block's own step carries the unit that steps where there are several. -/
inductive Instr where
  | registerWrite (addr : Nat) (lanes : List Machine.WriteLane)
  | lowWordRead (read : Machine.HostRead)
  | rcRead (read : Machine.HostRead)
  | resultRead (read : Machine.HostRead)
  | resultAck (addr : Nat)
  | post
  | ingRun (run : Bool)
  | flush
  | skip
  | admissionStart
  | admissionDone
  | courseStart
  | slzCompress
  | slzDecompress
  | slzAbort
  | slzJobEnd
  | bandEligible
  | tileDispatch
  | tileComputeDone (islet : Nat) (slot : Nat) (check : Machine.TileCheck)
  | slowTile (islet : Nat) (slot : Nat)
  | rasProbe (band : Nat) (tile : Nat) (entry : Nat)
  | rasProbeDone
  | bsxTileStart
  | bsxTileDone
  | bankOpen (t : Machine.TableId)
  | bankClone (t : Machine.TableId)
  | cloneDone (t : Machine.TableId)
  | bankCommit (t : Machine.TableId)
  | tableWrite (addr : Nat) (value : Word)
  | mapShadowBaseWrite (high : Bool) (value : Word)
  | mapExchangeStart
  | mapExchanged
  | strokeSplit (check : Option Machine.SplitCheck)
  | crwProbe (track : Nat) (seat : Nat) (p : Nat)
  | wakPeek (track : Nat)
  | wakPeekDone
  | frameSend (lane : Nat)
  | fifoParityError (site : Machine.FifoSite)
  | laneEnable (lane : Nat) (on : Bool)
  | train (lane : Nat)
  | laneTest (lane : Nat) (on : Bool)
  | stageAEnd (lane : Nat)
  | rungPass (lane : Nat)
  | rungTimeout (lane : Nat)
  | rungSwitch (lane : Nat)
  | trainingWord (src : Machine.LinkEnd) (got : Machine.TrainedWord)
  | echoLocked (k : Nat)
  | echoLockLost (k : Nat)
  | ackBlock (k : Nat) (words : List DWord)
  | statusMessage (k : Nat) (words : List DWord)
  | tempStale
  | framingError (k : Nat)
  | sideGo
  | sideAbort
  | sideResponse (k : Nat) (words : List DWord)
  | sideTimeout
  | trainingBurst (lane : Nat)
  | eqFreeze (k : Nat)
  | eqThaw (k : Nat)
  | injectBit (lane : Nat) (periodic : Bool) (period : Nat)
  | injectSymbols (lane : Nat) (nsym : Nat) (periodic : Bool) (period : Nat)
  | injectCrc (lane : Nat) (periodic : Bool) (period : Nat)
  | injectPeriod (lane : Nat)
  | positionSample (axis : Nat) (frame : DWord) (tf : Int)
  | posLost (axis : Nat)
  | locked (axis : Nat)
  | unlocked (axis : Nat)
  | strokeCommit
  | catchStrobe
  | strokeFired
  | servoBoundary
  | lineTestStepEnd (ok : Bool)
  | coxHalt
  | pauseWarn
  | pauseLimit
  | supplyHoldEnd
  | servoPeriodWrite (value : Nat)
  | statusWord (axis : Nat) (word : Word)
  | statusWordMissing (axis : Nat)
  | driverLost (axis : Nat)
  | move (axis : Nat)
  | velocity (axis : Nat)
  | stop (axis : Nat)
  | home (axis : Nat)
  | clear (axis : Nat)
  | axisPowerWrite (axis : Nat) (on : Bool)
  | adistQuery (axis : Nat) (v : Nat)
  | tblLoad
  | tblLoadDone
  | tblRun
  | tblAbort
  | inputEdge (axis : Nat) (input : Nat) (level : Bool)
  | limitTrip (axis : Nat) (side : Nat)
  | homeChange (axis : Nat)
  | indexEdge (edge : Machine.IndexEdge)
  | resend
  | resendReadDone
  | injectResidue (islet : Nat)
  | injectArea (islet : Nat)
  | injectPlace (islet : Nat)
  | injectWake (track : Nat)
  | injectSplit (track : Nat)
  | hbmReadDone (port : Nat) (addr : Nat) (answer : Machine.HbmAnswer)
  | hbmTrainDone (ends : List (Bool × Nat))
  | retrain
  | stackTempRead (stack : Nat) (temp : Int)
  | refreshIssue (q : Nat) (waiting : Bool)
  | urgent (q : Nat)
  | hbmScrubStep (late : Bool)
  | sramScrubStep (late : Bool)
  | restore
  | repairSave
  | repairDiscard
  | flip (target : Nat) (mask : Nat)
  | selftest
  | selftestDone (failed : Nat)
  | hbmInitGo
  | initDone
  | bar2Read (addr : Nat) (len : Nat)
  | bar2Write (addr : Nat) (bytes : List Byte) (poisoned : Bool)
  | configRequest (offset : Nat) (control : Option (Bool × Bool))
  | msixUnmask (vector : Nat)
  | pendClear (word : Nat) (value : Word)
  | evtForce (word : Nat) (value : Word)
  | perstAsserted
  | perstDeasserted
  | hotReset
  | dataLinkDown
  | flr
  | degraded (speed : Nat) (width : Nat)
  | dmaRun (channel : Nat)
  | doorbell (channel : Nat)
  | dmaResume (channel : Nat)
  | dmaReset (channel : Nat)
  | dmaRestart
  | abortAll
  | descriptorFetch (channel : Nat) (words : List DWord)
  | descriptorDone (channel : Nat) (data : List Byte) (failed : Bool)
  | dmaTimeout
  | arbiterRound (q : Nat) (waiting : List Machine.HbmRequest) (withdraw : Bool)
  | tdmSlotStart (waiting : List (Nat × Nat))
  | message (link : Nat) (words : List DWord)
  | courseEvent (link : Nat) (words : List DWord)
  | beacon (link : Nat) (words : List DWord)
  | stopToken (link : Nat) (words : List DWord)
  | resumeReady (link : Nat) (words : List DWord)
  | linkWord (link : Nat) (word : DWord)
  | packetResendTimeout (link : Nat)
  | beaconSend
  | upstreamSilent
  | holdoverTimeout
  | failover (lane : Nat)
  | sendMessage (dest : Nat) (len : Nat)
  | broadcastMessage (dest : Nat) (len : Nat)
  | recordWriteDone (ok : Bool)
  | optimeTick
  | wallGo
  | noteGo
  | erase
  | erased
  | auditGo
  | exportGo
  | exportDone
  | safeStop
  | hostStop
  | safClear
  | lockKey (key : Nat)
  | lockClose
  | lockTimeout
  | echoSilent
  | clock
  | diag (bit : Nat) (failed : Bool)
  | follow (axis : Nat)
  | driver (axis : Nat)
  | stopCheck
  | inhibitDelayEnd
  | testLines
  | testAmps
  | testDiag
  | testDone (ok : Bool) (step : Nat)
  | powerOn
  | railEnRelease
  | railsGood
  | rstN
  | supplySample (rails : List Nat)
  | tjRead (temp : Int)
  | warm (value : Word)
  | cold (value : Word)
  | courseAbort (value : Word)
  | standby (key : Nat) (go : Bool) (wakeN : Bool)
  | wake
  | coldBoot (testOk : Bool) (ends : List (Bool × Nat)) (ms : Nat)
  | warmBoot (testOk : Bool) (ms : Nat)
  | cfgWriteSlot (slot : Nat)
  | cfgCheckImage (slot : Nat)
  | cfgJobDone (ok : Bool)
  | jtagBypass
  | jtagIdcode
  | jtagSamplePreload (lands : List Bool) (cells : List Bool)
  | jtagExtest
  | jtagHighz
  | jtagClamp
  | vcStall (link : Nat) (vc : Nat)
  | transitPacket (link : Nat) (words : List DWord)
  | limitClear (axis : Nat) (side : Nat)
  | safeStopRelease
  | rstNHigh
  | powerLost
  | linkUp (speed : Nat) (width : Nat) (flit : Bool)
  | aerError (uncorrectable : Bool)
  | auditDone
deriving DecidableEq, Repr

end Sys2Proof
end

