-- ==== Sys2Proof/Machine/Residue.lean ====
section
/-! DEFINITION. Residue checks (R276, R277). -/

namespace Sys2Proof.Machine

/-- The residue of an integer, 0 to 1,022 (R276). -/
def res (x : Int) : Int := x % 1023

/-- The relation that a checked RHE(n, d) = q with r' = n - q d meets (R277). -/
def roundRelation (n d q r : Int) : Bool :=
  (res q * res d + res r) % 1023 == res n && (decide (2 * r.natAbs < d.natAbs) || (decide (2 * r.natAbs = d.natAbs) && q % 2 == 0))

/-- The relation that a checked division of Pe by L meets (R147, R276): Pe = base L + rem by residues, with rem < L. -/
def splitRelation (pe l base rem : Nat) : Bool := (res base * res l + res rem) % 1023 == res pe && decide (rem < l)

end Sys2Proof.Machine
end

