-- ==== Sys2Proof/Config.lean ====
section
/-! DEFINITION. What the spec leaves open and no state fixes: free values. Nothing in Lean can evaluate them (log entry 2). -/

namespace Sys2Proof

/-- A byte whose value the spec leaves undefined: the stamp of the undefined contents and the place within them. -/
opaque Config.freeByte : Nat → Nat → Byte

/-- A register or table word whose value the spec leaves undefined. -/
opaque Config.freeWord : Nat → Nat → Word

/-- A wake cell whose value the spec leaves undefined (R162): the 16 bits and its two parity bits. -/
opaque Config.freeCell : Nat → BitVec 18

/-- Whether a syndrome of odd weight above 1 of the Hsiao code names a data bit (R305 gives no matrix), and which. -/
opaque Config.hsiaoColumn : Nat → Option Nat

/-- The bank and row of an HBM byte within its pseudo-channel (R325): the spec gives no row map. -/
opaque Config.hbmRow : Nat → Word

/-- The macro and row of an on-chip memory word (R325): the spec gives no macro map. The arguments are the memory and the address. -/
opaque Config.sramPlace : Nat → Nat → Nat × Word

/-- The reference CRC over the safety parameters (R401): the spec does not say which bytes it covers. -/
opaque Config.paramCrc : List Nat → Word

/-- The memory that an SRAM macro index belongs to (R325 gives no macro map): 0 wake buffer, 1 tables, else islet local memory. -/
opaque Config.macroMemory : Nat → Nat

/-- Spares of a macro that the factory fuse map uses, by the KIND of the repair (R325). -/
opaque Config.fusedSpares : Nat → Nat → Nat

/-- The seed of a stack's shift register from the regatta time of the cold reset (R313 gives no formula): stack and time. -/
opaque Config.shiftSeed : Nat → DWord → Word

/-- One step of the 32-bit linear feedback shift register (R313 gives no polynomial). -/
opaque Config.shiftNext : Word → Word

/-- Whether a shift register's word draws a neighbour refresh at an exponent k, which it does with probability 2^-k (R313). -/
opaque Config.shiftDraws : Word → Nat → Bool

/-- The repair resources that a stack reports for soft post-package repairs (R325). -/
opaque Config.pprRows : Nat → Nat

/-- The serial number that the identity record holds (R431 gives no offsets), from the record's listed bytes. -/
opaque Config.serial : List (Nat × Byte) → DWord

/-- The transmit equaliser taps of a lane under presets 8 to 15, from the listed bytes of the factory calibration area (R431, R447 give no
layout): lane and preset; none where the calibration entry fails its check. -/
opaque Config.calibratedTaps : List (Nat × Byte) → Nat → Nat → Option (List Int)

/-- Subsystem Vendor ID and Subsystem ID that the identity record holds (R332, R431), as one configuration word. -/
opaque Config.subsystem : List (Nat × Byte) → Word

/-- The check word of the harbour image in read-only memory (R421, R429). -/
opaque Config.harbourCheck : DWord

end Sys2Proof
end

