-- ==== Sys2Proof/Machine/EventTable.lean ====
section
/-! DEFINITION. The event sources of R373: their member bits and the severity they hold after a reset. -/

namespace Sys2Proof.Machine

/-- An event source: its number, its reset severity (R375) and its members, each an events register with the bits that belong. -/
structure EventSource where
  src : Nat
  sev : Nat
  members : List (Nat × Nat)
deriving DecidableEq, Repr

/-- Sources 0 to 63 (R373). -/
def sourcesLow : List EventSource := [
  .mk 0 1 ([(R.GEN_EVENTS, 0x3)]),
  .mk 1 2 ([(R.CFG_EVENTS, 0x3)]),
  .mk 2 2 ([(R.PWR_EVENTS, 0x1F)]),
  .mk 8 3 ([(R.SAF_EVENTS, 0xFF)]),
  .mk 16 0 ([(R.HBM_EVENTS, 0x1)]),
  .mk 17 3 ([(R.HBM_EVENTS, 0x806)]),
  .mk 18 1 ([(R.HBM_EVENTS, 0x78)]),
  .mk 19 0 ([(R.HBM_EVENTS, 0x180)]),
  .mk 20 0 ([(R.HBM_EVENTS, 0x600)]),
  .mk 21 0 ([(R.SRM_EVENTS, 0x1)]),
  .mk 22 2 ([(R.SRM_EVENTS, 0x1006)]),
  .mk 23 1 ([(R.SRM_EVENTS, 0x18)]),
  .mk 24 0 ([(R.SRM_EVENTS, 0x60)]),
  .mk 25 2 ([(R.SRM_EVENTS, 0x780)]),
  .mk 26 0 ([(R.SRM_EVENTS, 0x800)]),
  .mk 32 2 ([(R.ING_EVENTS, 0x3)]),
  .mk 33 3 ([(R.ING_EVENTS, 0x4)]),
  .mk 34 2 ([(R.ING_EVENTS, 0x8)]),
  .mk 35 0 ([(R.ING_EVENTS, 0x30)]),
  .mk 36 0 ([(R.SLZ_EVENTS, 0x3)]),
  .mk 37 2 ([(R.SLZ_EVENTS, 0x4)]),
  .mk 38 0 ([(R.RAS_EVENTS, 0x3)]),
  .mk 39 0 ([(R.RAS_EVENTS, 0x4)]),
  .mk 40 2 ([(R.RAS_EVENTS, 0x18)]),
  .mk 48 1 ([(R.DOS_EVENTS, 0x1)]),
  .mk 49 1 ([(R.DOS_EVENTS, 0x6)]),
  .mk 50 2 ([(R.DOS_EVENTS, 0x18)]),
  .mk 51 2 ([(R.CRW_EVENTS, 0x7)]),
  .mk 52 1 ([(R.CRW_EVENTS, 0x38)]),
  .mk 53 2 ([(R.WAK_EVENTS, 0x1)]),
  .mk 54 1 ([(R.WAK_EVENTS, 0x2)]),
  .mk 55 2 ([(R.INT_EVENTS, 0x21)]),
  .mk 56 2 ([(R.INT_EVENTS, 0x6)]),
  .mk 57 3 ([(R.INT_EVENTS, 0x18)]),
  .mk 58 3 ([(R.INT_EVENTS, 0xC0)]),
  .mk 59 0 ([(R.INT_EVENTS, 0x300)])]

/-- Sources 64 to 80, one for each eight lanes (R373). -/
def sourcesLanes : List EventSource := (List.range 17).map (fun g =>
  .mk (64 + g) 1 ((List.range 8).map (fun i => (R.BLN_LANE_EVENTS (8 * g + i), 0x3F))))

/-- Sources 81 to 84, one for each echo lane (R373). -/
def sourcesEcho : List EventSource := (List.range 4).map (fun k => .mk (81 + k) 1 [(R.BLN_ECHO_EVENTS k, 0x1F)])

/-- Sources 85 to 127 (R373). -/
def sourcesHigh : List EventSource := [
  .mk 85 2 ([(R.BLN_EVENTS, 0x3)]),
  .mk 86 2 ([(R.BLN_EVENTS, 0x44)]),
  .mk 87 3 ([(R.BLN_EVENTS, 0x38)]),
  .mk 88 0 ([(R.BLN_EVENTS, 0x80)]),
  .mk 89 1 ([(R.BLN_EVENTS, 0x700)]),
  .mk 96 1 ([(R.STK_EVENTS, 0xF)]),
  .mk 97 1 ([(R.STK_EVENTS, 0x2F0)]),
  .mk 98 2 ([(R.STK_EVENTS, 0x4D00)]),
  .mk 99 1 ([(R.STK_EVENTS, 0x3000)]),
  .mk 100 1 ([(R.COX_EVENTS, 0x87)]),
  .mk 101 2 ([(R.COX_EVENTS, 0x78)]),
  .mk 102 2 ([(R.COX_EVENTS, 0xF00)]),
  .mk 103 1 ([(R.COX_EVENTS, 0x3000)]),
  .mk 104 1 ([(R.MOT_EVENTS, 0xF)]),
  .mk 105 2 ([(R.MOT_AX_EVENTS 0, 0x3FF)]),
  .mk 106 2 ([(R.MOT_AX_EVENTS 1, 0x3FF)]),
  .mk 112 2 ([(R.STR_EVENTS, 0x7)]),
  .mk 113 2 ([(R.STR_EVENTS, 0x8)]),
  .mk 114 2 ([(R.STR_EVENTS, 0x30)]),
  .mk 115 0 ([(R.STR_EVENTS, 0xC0)]),
  .mk 116 1 ([(R.STR_EVENTS, 0x100)]),
  .mk 117 1 ([(R.STR_EVENTS, 0x200)]),
  .mk 120 0 ((List.range 32).map (fun c => (R.DMA_CH_EVENTS c, 0x1))),
  .mk 121 2 ((R.DMA_EVENTS, 0x1) :: (List.range 32).map (fun c => (R.DMA_CH_EVENTS c, 0x2))),
  .mk 122 2 ([(R.PCI_EVENTS, 0x7)]),
  .mk 123 1 ([(R.PCI_EVENTS, 0x78)]),
  .mk 124 2 ([(R.LOG_EVENTS, 0x7F)])]

/-- Every source of R373. -/
def eventSources : List EventSource := sourcesLow ++ sourcesLanes ++ sourcesEcho ++ sourcesHigh

/-- The source with a number, if it is not reserved (R373). -/
def eventSource (n : Nat) : Option EventSource := eventSources.find? (fun e => e.src == n)

end Sys2Proof.Machine
end

