-- ==== Sys2Proof/Machine/RegTable.lean ====
section
/-! DEFINITION. Every register of BAR0 with its fields: place, access code (R9), effect class (R12), reset value and stored bounds,
as the register tables of spec/ give them -/

namespace Sys2Proof.Machine

/-- The registers of block ING. -/
def tableIng : List RegDesc := [
  .mk "ING_CTL" 0x0B0000 []
    [.mk 0 1 .rw .i 0 0 1,
     .mk 1 1 .rw .i 1 0 1,
     .mk 2 1 .wo .i 0 0 1,
     .mk 3 1 .wo .i 0 0 1],
  .mk "ING_STATUS" 0x0B0004 []
    [.mk 0 4 .ro .n 0 0 15,
     .mk 4 3 .ro .n 0 0 7,
     .mk 7 1 .ro .n 0 0 1,
     .mk 8 1 .ro .n 0 0 1,
     .mk 9 1 .ro .n 0 0 1,
     .mk 10 3 .ro .n 0 0 7],
  .mk "ING_EVENTS" 0x0B0008 []
    [.mk 0 1 .w1c .n 0 0 1,
     .mk 1 1 .w1c .n 0 0 1,
     .mk 2 1 .w1c .n 0 0 1,
     .mk 3 1 .w1c .n 0 0 1,
     .mk 4 1 .w1c .n 0 0 1,
     .mk 5 1 .w1c .n 0 0 1],
  .mk "ING_FENCE_HITS" 0x0B000C []
    [.mk 0 32 .rc .n 0 0 4294967295],
  .mk "ING_CQ_DESC" 0x0B0040 [(0x4, 16)]
    [.mk 0 32 .rw .i 0 0 4294967295],
  .mk "ING_CQ_POST" 0x0B0080 []
    [.mk 0 1 .wo .i 0 0 1],
  .mk "ING_CQ_LAST" 0x0B0084 []
    [.mk 0 3 .ro .n 0 0 7,
     .mk 8 16 .ro .n 0 0 65535],
  .mk "ING_CQ_STATE" 0x0B0100 [(0x10, 8)]
    [.mk 0 3 .ro .n 0 0 7,
     .mk 3 5 .ro .n 0 0 31,
     .mk 8 3 .ro .n 0 0 7,
     .mk 11 1 .ro .n 0 0 1,
     .mk 16 16 .ro .n 0 0 65535],
  .mk "ING_CQ_TAG" 0x0B0104 [(0x10, 8)]
    [.mk 0 32 .ro .n 0 0 4294967295],
  .mk "ING_CQ_WHERE" 0x0B0108 [(0x10, 8)]
    [.mk 0 16 .ro .n 0 0 65535,
     .mk 16 5 .ro .n 0 0 31],
  .mk "ING_CQ_OFFSET" 0x0B010C [(0x10, 8)]
    [.mk 0 26 .ro .n 0 0 67108863,
     .mk 26 1 .ro .n 0 0 1]]

/-- The registers of block SLZ. -/
def tableSlz : List RegDesc := [
  .mk "SLZ_CTL" 0x0C0000 []
    [.mk 0 2 .rw .i 1 0 3,
     .mk 8 1 .wo .i 0 0 1],
  .mk "SLZ_STATUS" 0x0C0004 []
    [.mk 0 1 .ro .n 0 0 1,
     .mk 1 1 .ro .n 0 0 1,
     .mk 2 12 .ro .n 0 0 4095],
  .mk "SLZ_EVENTS" 0x0C0008 []
    [.mk 0 1 .w1c .n 0 0 1,
     .mk 1 1 .w1c .n 0 0 1,
     .mk 2 1 .w1c .n 0 0 1],
  .mk "SLZ_JOB_TABLE_LO" 0x0C0010 []
    [.mk 0 32 .rw .i 0 0 4294967295],
  .mk "SLZ_JOB_TABLE_HI" 0x0C0014 []
    [.mk 0 32 .rw .i 0 0 4294967295],
  .mk "SLZ_JOB_COUNT" 0x0C0018 []
    [.mk 0 13 .rw .i 0 0 8191],
  .mk "SLZ_JOB_DST_LO" 0x0C0020 []
    [.mk 0 32 .rw .i 0 0 4294967295],
  .mk "SLZ_JOB_DST_HI" 0x0C0024 []
    [.mk 0 32 .rw .i 0 0 4294967295],
  .mk "SLZ_JOB_CAP_LO" 0x0C0028 []
    [.mk 0 32 .rw .i 0 0 4294967295],
  .mk "SLZ_JOB_CAP_HI" 0x0C002C []
    [.mk 0 32 .rw .i 0 0 4294967295],
  .mk "SLZ_JOB_GO" 0x0C0030 []
    [.mk 0 1 .wo .i 0 0 1,
     .mk 1 1 .wo .i 0 0 1],
  .mk "SLZ_RESULT" 0x0C0040 []
    [.mk 0 1 .ro .n 0 0 1,
     .mk 1 1 .ro .n 0 0 1,
     .mk 2 1 .ro .n 0 0 1,
     .mk 4 3 .ro .n 0 0 7,
     .mk 10 12 .ro .n 0 0 4095],
  .mk "SLZ_RESULT_USED_LO" 0x0C0044 []
    [.mk 0 32 .ro .n 0 0 4294967295],
  .mk "SLZ_RESULT_USED_HI" 0x0C0048 []
    [.mk 0 32 .ro .n 0 0 4294967295],
  .mk "SLZ_RESULT_ACK" 0x0C004C []
    [.mk 0 1 .wo .i 0 0 1],
  .mk "SLZ_TILE_ERR" 0x0C0100 [(0x10, 8)]
    [.mk 0 2 .ro .n 0 0 3,
     .mk 2 7 .ro .n 0 0 127,
     .mk 9 1 .ro .n 0 0 1],
  .mk "SLZ_TILE_ERR_IN" 0x0C0104 [(0x10, 8)]
    [.mk 0 24 .ro .n 0 0 16777215],
  .mk "SLZ_TILE_ERR_OUT" 0x0C0108 [(0x10, 8)]
    [.mk 0 24 .ro .n 0 0 16777215]]

/-- The registers of block RAS. -/
def tableRas : List RegDesc := [
  .mk "RAS_CTL" 0x0D0000 []
    [.mk 0 1 .rw .i 0 0 1,
     .mk 1 1 .rw .c 1 0 1,
     .mk 2 1 .rw .c 0 0 1,
     .mk 4 4 .rw .c 3 0 15],
  .mk "RAS_STATUS" 0x0D0004 []
    [.mk 0 9 .ro .n 0 0 511,
     .mk 9 8 .ro .n 0 0 255,
     .mk 17 8 .ro .n 0 0 255,
     .mk 25 1 .ro .n 0 0 1],
  .mk "RAS_EVENTS" 0x0D0008 []
    [.mk 0 1 .w1c .n 0 0 1,
     .mk 1 1 .w1c .n 0 0 1,
     .mk 2 1 .w1c .n 0 0 1,
     .mk 3 1 .w1c .n 0 0 1,
     .mk 4 1 .w1c .n 0 0 1],
  .mk "RAS_DISPATCH" 0x0D000C []
    [.mk 0 17 .ro .n 0 0 131071],
  .mk "RAS_DONE" 0x0D0010 []
    [.mk 0 17 .ro .n 0 0 131071],
  .mk "RAS_SLOW_LIMIT" 0x0D0014 []
    [.mk 0 16 .rw .i 400 0 65535],
  .mk "RAS_SPILL_BASE_LO" 0x0D0018 []
    [.mk 24 8 .rw .c 0 0 255],
  .mk "RAS_SPILL_BASE_HI" 0x0D001C []
    [.mk 0 32 .rw .c 0 0 4294967295],
  .mk "RAS_CLASS_COUNT" 0x0D0020 [(0x4, 4)]
    [.mk 0 32 .rc .n 0 0 4294967295],
  .mk "RAS_UNDERSTATED" 0x0D0030 []
    [.mk 0 32 .rc .n 0 0 4294967295],
  .mk "RAS_E_MAX" 0x0D0034 []
    [.mk 0 32 .ro .n 0 0 4294967295],
  .mk "RAS_E_MAX_AT" 0x0D0038 []
    [.mk 0 16 .ro .n 0 0 65535,
     .mk 16 5 .ro .n 0 0 31],
  .mk "RAS_PROBE" 0x0D0040 []
    [.mk 0 16 .wo .i 0 0 65535,
     .mk 16 5 .wo .i 0 0 31,
     .mk 21 3 .wo .i 0 0 7,
     .mk 31 1 .wo .i 0 0 1],
  .mk "RAS_PROBE_STATUS" 0x0D0044 []
    [.mk 0 1 .ro .n 0 0 1,
     .mk 1 1 .ro .n 0 0 1],
  .mk "RAS_PROBE_A0_LO" 0x0D0048 []
    [.mk 0 32 .ro .n 0 0 4294967295],
  .mk "RAS_PROBE_A0_HI" 0x0D004C []
    [.mk 0 32 .ro .n 0 0 4294967295],
  .mk "RAS_PROBE_A1" 0x0D0050 []
    [.mk 0 32 .ro .n 0 0 4294967295],
  .mk "RAS_PROBE_A2" 0x0D0054 []
    [.mk 0 32 .ro .n 0 0 4294967295],
  .mk "RAS_PROBE_B0_LO" 0x0D0058 []
    [.mk 0 32 .ro .n 0 0 4294967295],
  .mk "RAS_PROBE_B0_HI" 0x0D005C []
    [.mk 0 32 .ro .n 0 0 4294967295],
  .mk "RAS_PROBE_B1" 0x0D0060 []
    [.mk 0 32 .ro .n 0 0 4294967295],
  .mk "RAS_PROBE_B2" 0x0D0064 []
    [.mk 0 32 .ro .n 0 0 4294967295],
  .mk "RAS_ISLET_CTL" 0x0D8000 [(0x80, 128)]
    [.mk 0 1 .rw .c 0 0 1],
  .mk "RAS_ISLET_STATUS" 0x0D8004 [(0x80, 128)]
    [.mk 0 2 .ro .n 0 0 3,
     .mk 2 1 .ro .n 0 0 1,
     .mk 3 2 .ro .n 0 0 3,
     .mk 5 1 .ro .n 0 0 1],
  .mk "RAS_ISLET_SLOT0" 0x0D8008 [(0x80, 128)]
    [.mk 0 16 .ro .n 0 0 65535,
     .mk 16 5 .ro .n 0 0 31,
     .mk 21 3 .ro .n 0 0 7,
     .mk 24 2 .ro .n 0 0 3],
  .mk "RAS_ISLET_SLOT1" 0x0D800C [(0x80, 128)]
    [.mk 0 16 .ro .n 0 0 65535,
     .mk 16 5 .ro .n 0 0 31,
     .mk 21 3 .ro .n 0 0 7,
     .mk 24 2 .ro .n 0 0 3],
  .mk "RAS_ISLET_TILES" 0x0D8010 [(0x80, 128)]
    [.mk 0 32 .rc .n 0 0 4294967295],
  .mk "RAS_ISLET_FAULTS" 0x0D8014 [(0x80, 128)]
    [.mk 0 8 .ro .n 0 0 255,
     .mk 16 16 .ro .n 0 0 65535],
  .mk "RAS_ISLET_SLOW" 0x0D8018 [(0x80, 128)]
    [.mk 0 32 .rc .n 0 0 4294967295]]

/-- The registers of block DOS. -/
def tableDos : List RegDesc := [
  .mk "DOS_CTL" 0x0E0000 []
    [.mk 0 1 .rw .c 1 0 1,
     .mk 1 1 .rw .c 1 0 1],
  .mk "DOS_STATUS" 0x0E0004 []
    [.mk 0 1 .ro .n 0 0 1,
     .mk 1 1 .ro .n 0 0 1],
  .mk "DOS_EVENTS" 0x0E0008 []
    [.mk 0 1 .w1c .n 0 0 1,
     .mk 1 1 .w1c .n 0 0 1,
     .mk 2 1 .w1c .n 0 0 1,
     .mk 3 1 .w1c .n 0 0 1,
     .mk 4 1 .w1c .n 0 0 1],
  .mk "DOS_PIX_MAX" 0x0E000C []
    [.mk 0 11 .rw .c 1920 0 1920],
  .mk "DOS_BSE_REF" 0x0E0010 []
    [.mk 0 16 .rw .c 12288 16 65535],
  .mk "DOS_BSX_AHEAD" 0x0E0014 []
    [.mk 0 12 .rw .c 256 8 4095],
  .mk "DOS_BSX_BAND" 0x0E0018 []
    [.mk 0 17 .ro .n 0 0 131071],
  .mk "DOS_SAT_COUNT" 0x0E001C []
    [.mk 0 32 .ro .n 0 0 4294967295],
  .mk "DOS_SAT_FIRST" 0x0E0020 []
    [.mk 0 13 .ro .n 0 0 8191,
     .mk 31 1 .ro .n 0 0 1],
  .mk "DOS_SAT_FIRST_ROW" 0x0E0024 []
    [.mk 0 24 .ro .n 0 0 16777215],
  .mk "DOS_KRN_BANK" 0x0E0040 []
    [.mk 0 1 .wo .i 0 0 1,
     .mk 1 1 .wo .i 0 0 1,
     .mk 2 1 .wo .c 0 0 1,
     .mk 4 1 .ro .n 0 0 1,
     .mk 5 1 .ro .n 0 0 1,
     .mk 6 1 .ro .n 0 0 1,
     .mk 7 1 .ro .n 0 0 1,
     .mk 8 2 .ro .n 0 0 3,
     .mk 10 1 .w1c .n 0 0 1],
  .mk "DOS_TGN_BANK" 0x0E0044 []
    [.mk 0 1 .wo .i 0 0 1,
     .mk 1 1 .wo .i 0 0 1,
     .mk 2 1 .wo .c 0 0 1,
     .mk 4 1 .ro .n 0 0 1,
     .mk 5 1 .ro .n 0 0 1,
     .mk 6 1 .ro .n 0 0 1,
     .mk 7 1 .ro .n 0 0 1,
     .mk 8 2 .ro .n 0 0 3,
     .mk 10 1 .w1c .n 0 0 1],
  .mk "DOS_KRN_RADIUS" 0x0E2000 [(0x1000, 2)]
    [.mk 0 8 .rw .c 0 0 255],
  .mk "DOS_KRN_ETA" 0x0E2010 [(0x1000, 2), (0x4, 3)]
    [.mk 0 16 .rw .c 0 0 65535],
  .mk "DOS_KRN_TAP" 0x0E2100 [(0x1000, 2), (0x300, 3), (0x4, 151)]
    [.mk 0 16 .rw .c 0 0 65535],
  .mk "DOS_TGN" 0x0E8000 [(0x4000, 2), (0x4, 4096)]
    [.mk 0 16 .rw .c 0 0 65535,
     .mk 16 16 .rw .c 0 0 65535]]

/-- The registers of block CRW. -/
def tableCrw : List RegDesc := [
  .mk "CRW_CTL" 0x0F0000 []
    [.mk 0 1 .rw .c 1 0 1],
  .mk "CRW_STATUS" 0x0F0004 []
    [.mk 0 1 .ro .n 0 0 1,
     .mk 1 1 .ro .n 0 0 1],
  .mk "CRW_EVENTS" 0x0F0008 []
    [.mk 0 1 .w1c .n 0 0 1,
     .mk 1 1 .w1c .n 0 0 1,
     .mk 2 1 .w1c .n 0 0 1,
     .mk 3 1 .w1c .n 0 0 1,
     .mk 4 1 .w1c .n 0 0 1,
     .mk 5 1 .w1c .n 0 0 1],
  .mk "CRW_SPLIT_STROKE" 0x0F000C []
    [.mk 0 25 .ro .n 0 0 33554431],
  .mk "CRW_MAP_LIVE" 0x0F0010 []
    [.mk 0 21 .ro .n 0 0 2097151],
  .mk "CRW_MAP_OFF" 0x0F0014 []
    [.mk 0 21 .ro .n 0 0 2097151],
  .mk "CRW_MAP_ON" 0x0F0018 []
    [.mk 0 21 .ro .n 0 0 2097151],
  .mk "CRW_MAP_MIN_L" 0x0F001C []
    [.mk 0 8 .ro .n 0 0 255,
     .mk 8 13 .ro .n 0 0 8191],
  .mk "CRW_UNDER_COUNT" 0x0F0020 []
    [.mk 0 32 .ro .n 0 0 4294967295],
  .mk "CRW_OVER_COUNT" 0x0F0024 []
    [.mk 0 32 .ro .n 0 0 4294967295],
  .mk "CRW_DEFICIT_DU" 0x0F0028 []
    [.mk 0 32 .ro .n 0 0 4294967295],
  .mk "CRW_EXCESS_DU" 0x0F002C []
    [.mk 0 32 .ro .n 0 0 4294967295],
  .mk "CRW_UNW_FIRST" 0x0F0030 []
    [.mk 0 13 .ro .n 0 0 8191,
     .mk 13 1 .ro .n 0 0 1,
     .mk 31 1 .ro .n 0 0 1],
  .mk "CRW_UNW_FIRST_ROW" 0x0F0034 []
    [.mk 0 24 .ro .n 0 0 16777215],
  .mk "CRW_MAP_SHADOW_LO" 0x0F0048 []
    [.mk 23 9 .rw .i 0 0 511],
  .mk "CRW_MAP_SHADOW_HI" 0x0F004C []
    [.mk 0 32 .rw .i 0 0 4294967295],
  .mk "CRW_MAP_MARKED" 0x0F0050 []
    [.mk 0 21 .ro .n 0 0 2097151],
  .mk "CRW_MAP_INVALID" 0x0F0054 []
    [.mk 0 21 .ro .n 0 0 2097151],
  .mk "CRW_MAP_INVALID_AT" 0x0F0058 []
    [.mk 0 20 .ro .n 0 0 1048575,
     .mk 31 1 .ro .n 0 0 1],
  .mk "CRW_PROBE" 0x0F0060 []
    [.mk 0 13 .wo .i 0 0 8191,
     .mk 13 7 .wo .i 0 0 127,
     .mk 20 11 .wo .i 0 0 2047,
     .mk 31 1 .wo .i 0 0 1],
  .mk "CRW_PROBE_ROW" 0x0F0064 []
    [.mk 0 24 .rw .i 0 0 16777215],
  .mk "CRW_PROBE_OUT" 0x0F0068 []
    [.mk 0 4 .ro .n 0 0 15,
     .mk 4 7 .ro .n 0 0 127,
     .mk 12 7 .ro .n 0 0 127,
     .mk 20 8 .ro .n 0 0 255,
     .mk 28 1 .ro .n 0 0 1,
     .mk 29 1 .ro .n 0 0 1,
     .mk 30 1 .ro .n 0 0 1,
     .mk 31 1 .ro .n 0 0 1],
  .mk "CRW_MAP_LO" 0x800000 [(0x8, 1048576)]
    [.mk 0 32 .ro .n 0 0 4294967295],
  .mk "CRW_MAP_HI" 0x800004 [(0x8, 1048576)]
    [.mk 0 32 .ro .n 0 0 4294967295],
  .mk "CRW_MAP_BANK" 0x0F0040 []
    [.mk 0 1 .wo .i 0 0 1,
     .mk 1 1 .wo .i 0 0 1,
     .mk 2 1 .wo .c 0 0 1,
     .mk 4 1 .ro .n 0 0 1,
     .mk 5 1 .ro .n 0 0 1,
     .mk 6 1 .ro .n 0 0 1,
     .mk 7 1 .ro .n 0 0 1,
     .mk 8 2 .ro .n 0 0 3,
     .mk 10 1 .w1c .n 0 0 1]]

/-- The registers of block WAK. -/
def tableWak : List RegDesc := [
  .mk "WAK_STATUS" 0x100000 []
    [.mk 0 1 .ro .n 0 0 1,
     .mk 1 1 .ro .n 0 0 1,
     .mk 2 1 .ro .n 0 0 1],
  .mk "WAK_EVENTS" 0x100004 []
    [.mk 0 1 .w1c .n 0 0 1,
     .mk 1 1 .w1c .n 0 0 1],
  .mk "WAK_READ_POINT" 0x100008 []
    [.mk 0 25 .ro .n 0 0 33554431],
  .mk "WAK_FRONT" 0x10000C []
    [.mk 0 25 .ro .n 0 0 33554431],
  .mk "WAK_LEAD" 0x100010 []
    [.mk 0 16 .ro .n 0 0 65535,
     .mk 16 16 .ro .n 0 0 65535],
  .mk "WAK_STALLS" 0x100014 []
    [.mk 0 32 .rc .n 0 0 4294967295],
  .mk "WAK_FAULTS" 0x100018 []
    [.mk 0 32 .rc .n 0 0 4294967295],
  .mk "WAK_FAULT_STROKE" 0x100020 []
    [.mk 0 25 .ro .n 0 0 33554431,
     .mk 31 1 .ro .n 0 0 1],
  .mk "WAK_FAULT_CELL" 0x100024 []
    [.mk 0 13 .ro .n 0 0 8191,
     .mk 13 1 .ro .n 0 0 1,
     .mk 14 7 .ro .n 0 0 127],
  .mk "WAK_FAULT_ROW" 0x100028 []
    [.mk 0 24 .ro .n 0 0 16777215],
  .mk "WAK_PEEK" 0x100040 []
    [.mk 0 13 .wo .i 0 0 8191,
     .mk 31 1 .wo .i 0 0 1],
  .mk "WAK_PEEK_ROW" 0x100044 []
    [.mk 0 24 .rw .i 0 0 16777215],
  .mk "WAK_PEEK_DATA" 0x100048 []
    [.mk 0 16 .ro .n 0 0 65535,
     .mk 16 1 .ro .n 0 0 1,
     .mk 17 1 .ro .n 0 0 1,
     .mk 31 1 .ro .n 0 0 1],
  .mk "WAK_SLOT" 0x100100 [(0x8, 24)]
    [.mk 0 16 .ro .n 0 0 65535,
     .mk 16 1 .ro .n 0 0 1],
  .mk "WAK_SLOT_MASK" 0x100104 [(0x8, 24)]
    [.mk 0 32 .ro .n 0 0 4294967295]]

/-- The registers of block BLN. -/
def tableBln : List RegDesc := [
  .mk "BLN_LANE_CTL" 0x110000 [(0x100, 136)]
    [.mk 0 1 .rw .i 1 0 1,
     .mk 1 1 .wo .i 0 0 1,
     .mk 2 1 .rw .i 0 0 1,
     .mk 3 1 .rw .i 0 0 1,
     .mk 4 1 .rw .i 0 0 1,
     .mk 5 1 .rw .i 0 0 1,
     .mk 8 4 .rw .i 0 0 15],
  .mk "BLN_LANE_STATUS" 0x110004 [(0x100, 136)]
    [.mk 0 3 .ro .n 0 0 7,
     .mk 3 2 .ro .n 0 0 3,
     .mk 5 1 .ro .n 0 0 1,
     .mk 6 1 .ro .n 0 0 1,
     .mk 8 7 .ro .n 0 0 127,
     .mk 16 8 .ro .n 0 0 255],
  .mk "BLN_LANE_EVENTS" 0x110008 [(0x100, 136)]
    [.mk 0 1 .w1c .n 0 0 1,
     .mk 1 1 .w1c .n 0 0 1,
     .mk 2 1 .w1c .n 0 0 1,
     .mk 3 1 .w1c .n 0 0 1,
     .mk 4 1 .w1c .n 0 0 1,
     .mk 5 1 .w1c .n 0 0 1],
  .mk "BLN_LANE_FRAMES" 0x11000C [(0x100, 136)]
    [.mk 0 32 .rc .n 0 0 4294967295],
  .mk "BLN_LANE_ACK_MISS" 0x110010 [(0x100, 136)]
    [.mk 0 32 .rc .n 0 0 4294967295],
  .mk "BLN_LANE_PRBS" 0x110014 [(0x100, 136)]
    [.mk 0 3 .rw .i 3 0 7,
     .mk 3 1 .rw .i 0 0 1],
  .mk "BLN_LANE_INJECT" 0x110018 [(0x100, 136)]
    [.mk 0 2 .lck .i 0 0 3,
     .mk 2 5 .lck .i 1 0 31,
     .mk 7 1 .lck .i 0 0 1,
     .mk 8 24 .lck .i 1 0 16777215],
  .mk "BLN_LANE_TRAIN" 0x11001C [(0x100, 136)]
    [.mk 0 16 .ro .n 0 0 65535,
     .mk 16 2 .ro .n 0 0 3,
     .mk 18 1 .ro .n 0 0 1],
  .mk "BLN_ECHO_CTL" 0x118800 [(0x100, 4)]
    [.mk 0 1 .rw .i 1 0 1,
     .mk 1 1 .rw .i 0 0 1,
     .mk 2 1 .rw .i 0 0 1,
     .mk 3 3 .rw .i 3 0 7,
     .mk 6 1 .rw .i 0 0 1],
  .mk "BLN_ECHO_STATUS" 0x118804 [(0x100, 4)]
    [.mk 0 2 .ro .n 0 0 3,
     .mk 2 1 .ro .n 0 0 1,
     .mk 3 2 .ro .n 0 0 3,
     .mk 5 1 .ro .n 0 0 1,
     .mk 6 1 .ro .n 0 0 1],
  .mk "BLN_ECHO_EVENTS" 0x118808 [(0x100, 4)]
    [.mk 0 1 .w1c .n 0 0 1,
     .mk 1 1 .w1c .n 0 0 1,
     .mk 2 1 .w1c .n 0 0 1,
     .mk 3 1 .w1c .n 0 0 1,
     .mk 4 1 .w1c .n 0 0 1],
  .mk "BLN_ECHO_FEC_CORR" 0x11880C [(0x100, 4)]
    [.mk 0 32 .rc .n 0 0 4294967295],
  .mk "BLN_ECHO_FEC_UNCORR" 0x118810 [(0x100, 4)]
    [.mk 0 32 .rc .n 0 0 4294967295],
  .mk "BLN_ECHO_CRC_ERRS" 0x118814 [(0x100, 4)]
    [.mk 0 32 .rc .n 0 0 4294967295],
  .mk "BLN_ECHO_PRBS_ERRS" 0x118818 [(0x100, 4)]
    [.mk 0 32 .rc .n 0 0 4294967295],
  .mk "BLN_CTL" 0x119000 []
    [.mk 0 1 .rw .c 1 0 1,
     .mk 1 1 .rw .i 1 0 1,
     .mk 2 3 .rw .c 2 1 4,
     .mk 8 4 .rw .c 4 0 15],
  .mk "BLN_STATUS" 0x119004 []
    [.mk 0 8 .ro .n 0 0 255,
     .mk 8 4 .ro .n 0 0 15,
     .mk 12 3 .ro .n 0 0 7,
     .mk 15 1 .ro .n 1 0 1,
     .mk 16 1 .ro .n 0 0 1,
     .mk 17 2 .ro .n 0 0 3],
  .mk "BLN_EVENTS" 0x119008 []
    [.mk 0 1 .w1c .n 0 0 1,
     .mk 1 1 .w1c .n 0 0 1,
     .mk 2 1 .w1c .n 0 0 1,
     .mk 3 1 .w1c .n 0 0 1,
     .mk 4 1 .w1c .n 0 0 1,
     .mk 5 1 .w1c .n 0 0 1,
     .mk 6 1 .w1c .n 0 0 1,
     .mk 7 1 .w1c .n 0 0 1,
     .mk 8 1 .w1c .n 0 0 1,
     .mk 9 1 .w1c .n 0 0 1,
     .mk 10 1 .w1c .n 0 0 1],
  .mk "BLN_STRAY" 0x11900C []
    [.mk 0 32 .rc .n 0 0 4294967295],
  .mk "BLN_SUBS" 0x119010 []
    [.mk 0 16 .ro .n 0 0 65535,
     .mk 16 16 .ro .n 0 0 65535],
  .mk "BLN_SUB_LAST" 0x119014 []
    [.mk 0 7 .ro .n 0 0 127,
     .mk 8 8 .ro .n 0 0 255,
     .mk 16 8 .ro .n 0 0 255,
     .mk 31 1 .ro .n 0 0 1],
  .mk "BLN_TEMP" 0x119018 []
    [.mk 0 16 .ro .n 0 0 65535,
     .mk 16 1 .ro .n 0 0 1],
  .mk "BLN_BLANKER_FLAGS" 0x11901C []
    [.mk 0 1 .ro .n 0 0 1,
     .mk 1 1 .ro .n 0 0 1,
     .mk 2 1 .ro .n 0 0 1,
     .mk 8 8 .ro .n 255 0 255],
  .mk "BLN_TRIM_SEL" 0x119020 []
    [.mk 0 1 .rw .c 0 0 1],
  .mk "BLN_SIDE_SRC_LO" 0x119080 []
    [.mk 0 32 .rw .i 0 0 4294967295],
  .mk "BLN_SIDE_SRC_HI" 0x119084 []
    [.mk 0 32 .rw .i 0 0 4294967295],
  .mk "BLN_SIDE_ADDR" 0x119088 []
    [.mk 0 21 .rw .i 0 0 2097151,
     .mk 21 3 .rw .i 0 0 7,
     .mk 24 1 .rw .i 0 0 1],
  .mk "BLN_SIDE_COUNT" 0x11908C []
    [.mk 0 22 .rw .i 0 0 4194303,
     .mk 22 8 .rw .i 0 0 255],
  .mk "BLN_SIDE_GO" 0x119090 []
    [.mk 0 1 .wo .i 0 0 1,
     .mk 1 1 .wo .i 0 0 1],
  .mk "BLN_SIDE_RESULT" 0x1190A0 []
    [.mk 0 1 .ro .n 0 0 1,
     .mk 1 1 .ro .n 0 0 1,
     .mk 2 1 .ro .n 0 0 1,
     .mk 4 4 .ro .n 0 0 15,
     .mk 8 8 .ro .n 0 0 255],
  .mk "BLN_SIDE_RESULT_AT" 0x1190A4 []
    [.mk 0 21 .ro .n 0 0 2097151],
  .mk "BLN_SIDE_RESULT_ACK" 0x1190A8 []
    [.mk 0 1 .wo .i 0 0 1],
  .mk "BLN_MAP" 0x11A000 [(0x400, 2), (0x4, 136)]
    [.mk 0 8 .rw .c 0 0 255,
     .mk 8 1 .rw .c 0 0 1],
  .mk "BLN_MAP_BANK" 0x119040 []
    [.mk 0 1 .wo .i 0 0 1,
     .mk 1 1 .wo .i 0 0 1,
     .mk 2 1 .wo .c 0 0 1,
     .mk 4 1 .ro .n 0 0 1,
     .mk 5 1 .ro .n 0 0 1,
     .mk 6 1 .ro .n 0 0 1,
     .mk 7 1 .ro .n 0 0 1,
     .mk 8 2 .ro .n 0 0 3,
     .mk 10 1 .w1c .n 0 0 1]]

/-- The registers of block STK. -/
def tableStk : List RegDesc := [
  .mk "STK_CTL" 0x120000 []
    [.mk 0 1 .rw .c 1 0 1],
  .mk "STK_STATUS" 0x120004 []
    [.mk 0 1 .ro .n 0 0 1,
     .mk 1 1 .ro .n 0 0 1,
     .mk 2 1 .ro .n 0 0 1,
     .mk 3 1 .ro .n 0 0 1,
     .mk 4 1 .ro .n 0 0 1,
     .mk 5 1 .ro .n 0 0 1],
  .mk "STK_EVENTS" 0x120008 []
    [.mk 0 1 .w1c .n 0 0 1,
     .mk 1 1 .w1c .n 0 0 1,
     .mk 2 1 .w1c .n 0 0 1,
     .mk 3 1 .w1c .n 0 0 1,
     .mk 4 1 .w1c .n 0 0 1,
     .mk 5 1 .w1c .n 0 0 1,
     .mk 6 1 .w1c .n 0 0 1,
     .mk 7 1 .w1c .n 0 0 1,
     .mk 8 1 .w1c .n 0 0 1,
     .mk 9 1 .w1c .n 0 0 1,
     .mk 10 1 .w1c .n 0 0 1,
     .mk 11 1 .w1c .n 0 0 1,
     .mk 12 1 .w1c .n 0 0 1,
     .mk 13 1 .w1c .n 0 0 1,
     .mk 14 1 .w1c .n 0 0 1],
  .mk "STK_GATE" 0x12000C []
    [.mk 0 11 .rw .c 192 96 1280],
  .mk "STK_TMIN" 0x120010 []
    [.mk 0 20 .ro .n 12800 0 1048575],
  .mk "STK_DEPTH" 0x120014 []
    [.mk 0 5 .rw .c 8 3 16],
  .mk "STK_COMMIT" 0x120018 []
    [.mk 0 8 .rw .c 64 48 255],
  .mk "STK_RTT_BUDGET" 0x12001C []
    [.mk 0 12 .rw .c 800 0 4095],
  .mk "STK_POS_CTL" 0x120020 []
    [.mk 0 4 .rw .i 4 1 15],
  .mk "STK_POS_LAT_X" 0x120024 []
    [.mk 0 16 .rw .i 0 0 65535],
  .mk "STK_POS_LAT_Y" 0x120028 []
    [.mk 0 16 .rw .i 0 0 65535],
  .mk "STK_LOOP_KA" 0x12002C []
    [.mk 0 16 .rw .c 32768 0 65535],
  .mk "STK_LOOP_KV" 0x120030 []
    [.mk 0 16 .rw .c 11264 0 65535],
  .mk "STK_LOOP_KC" 0x120034 []
    [.mk 0 16 .rw .c 2048 0 65535],
  .mk "STK_LOCK_TOL" 0x120038 []
    [.mk 0 16 .rw .c 2048 0 65535],
  .mk "STK_UNLOCK_TOL" 0x12003C []
    [.mk 0 20 .rw .c 8192 0 1048575],
  .mk "STK_LOCK_COUNT" 0x120040 []
    [.mk 0 10 .rw .c 64 1 1023],
  .mk "STK_VMIN" 0x120044 []
    [.mk 0 24 .rw .c 1000 0 16777215],
  .mk "STK_TRIM_OFS" 0x120048 []
    [.mk 0 24 .rw .c 0 0 16777215],
  .mk "STK_TRIM_LIMIT" 0x12004C []
    [.mk 0 24 .rw .c 204800 0 16777215],
  .mk "STK_STROKE" 0x120050 []
    [.mk 0 25 .ro .n 0 0 33554431],
  .mk "STK_FIRED" 0x120054 []
    [.mk 0 25 .ro .n 0 0 33554431],
  .mk "STK_HALT_AT" 0x120058 []
    [.mk 0 25 .ro .n 0 0 33554431,
     .mk 31 1 .ro .n 0 0 1],
  .mk "STK_HALT_CAUSE" 0x12005C []
    [.mk 0 4 .ro .n 0 0 15,
     .mk 17 12 .ro .n 0 0 4095],
  .mk "STK_PERIOD" 0x120060 []
    [.mk 0 20 .ro .n 0 0 1048575],
  .mk "STK_PERIOD_MIN" 0x120064 []
    [.mk 0 20 .ro .n 1048575 0 1048575],
  .mk "STK_RTT_MAX" 0x120068 []
    [.mk 0 16 .ro .n 0 0 65535],
  .mk "STK_FIRE_LOW" 0x12006C []
    [.mk 0 32 .rc .n 0 0 4294967295],
  .mk "STK_OVERRUNS" 0x120070 []
    [.mk 0 32 .rc .n 0 0 4294967295],
  .mk "STK_POS_BAD_X" 0x120074 []
    [.mk 0 32 .rc .n 0 0 4294967295],
  .mk "STK_POS_BAD_Y" 0x120078 []
    [.mk 0 32 .rc .n 0 0 4294967295],
  .mk "STK_BTEMP_USED" 0x12007C []
    [.mk 0 16 .ro .n 0 0 65535,
     .mk 16 1 .ro .n 0 0 1],
  .mk "STK_POS_X_LO" 0x120080 []
    [.mk 0 32 .ro .n 0 0 4294967295],
  .mk "STK_POS_X_HI" 0x120084 []
    [.mk 0 16 .ro .n 0 0 65535],
  .mk "STK_VEL_X" 0x120088 []
    [.mk 0 32 .ro .n 0 0 4294967295],
  .mk "STK_POS_Y_LO" 0x12008C []
    [.mk 0 32 .ro .n 0 0 4294967295],
  .mk "STK_POS_Y_HI" 0x120090 []
    [.mk 0 16 .ro .n 0 0 65535],
  .mk "STK_VEL_Y" 0x120094 []
    [.mk 0 32 .ro .n 0 0 4294967295],
  .mk "STK_WAVE_GPD" 0x121000 [(0x100, 2)]
    [.mk 0 3 .rw .c 0 0 7],
  .mk "STK_WAVE_LO" 0x121040 [(0x100, 2), (0x8, 16)]
    [.mk 0 32 .rw .c 0 0 4294967295],
  .mk "STK_WAVE_HI" 0x121044 [(0x100, 2), (0x8, 16)]
    [.mk 0 32 .rw .c 0 0 4294967295],
  .mk "STK_WAVE_BANK" 0x1200C0 []
    [.mk 0 1 .wo .i 0 0 1,
     .mk 1 1 .wo .i 0 0 1,
     .mk 2 1 .wo .c 0 0 1,
     .mk 4 1 .ro .n 0 0 1,
     .mk 5 1 .ro .n 0 0 1,
     .mk 6 1 .ro .n 0 0 1,
     .mk 7 1 .ro .n 0 0 1,
     .mk 8 2 .ro .n 0 0 3,
     .mk 10 1 .w1c .n 0 0 1]]

/-- The registers of block COX. -/
def tableCox : List RegDesc := [
  .mk "COX_CTL" 0x130000 []
    [.mk 0 1 .wo .i 0 0 1,
     .mk 1 1 .rw .i 0 0 1,
     .mk 2 1 .rw .c 0 0 1],
  .mk "COX_STATUS" 0x130004 []
    [.mk 0 3 .ro .n 0 0 7,
     .mk 3 1 .ro .n 1 0 1,
     .mk 4 1 .ro .n 0 0 1,
     .mk 5 1 .ro .n 0 0 1,
     .mk 6 1 .ro .n 0 0 1,
     .mk 8 3 .ro .n 0 0 7],
  .mk "COX_EVENTS" 0x130008 []
    [.mk 0 1 .w1c .n 0 0 1,
     .mk 1 1 .w1c .n 0 0 1,
     .mk 2 1 .w1c .n 0 0 1,
     .mk 3 1 .w1c .n 0 0 1,
     .mk 4 1 .w1c .n 0 0 1,
     .mk 5 1 .w1c .n 0 0 1,
     .mk 6 1 .w1c .n 0 0 1,
     .mk 7 1 .w1c .n 0 0 1,
     .mk 8 1 .w1c .n 0 0 1,
     .mk 9 1 .w1c .n 0 0 1,
     .mk 10 1 .w1c .n 0 0 1,
     .mk 11 1 .w1c .n 0 0 1,
     .mk 12 1 .w1c .n 0 0 1,
     .mk 13 1 .w1c .n 0 0 1],
  .mk "COX_VCMD" 0x13000C []
    [.mk 0 24 .ro .n 0 0 16777215],
  .mk "COX_VTOP" 0x130010 []
    [.mk 0 24 .ro .n 0 0 16777215],
  .mk "COX_VMAX" 0x130020 []
    [.mk 0 24 .rw .c 100000 0 16777215],
  .mk "COX_VMIN_RUN" 0x130024 []
    [.mk 0 24 .rw .c 5000 0 16777215],
  .mk "COX_VRESUME" 0x130028 []
    [.mk 0 24 .rw .c 20000 0 16777215],
  .mk "COX_UP_STEP" 0x13002C []
    [.mk 0 16 .rw .c 160 0 65535],
  .mk "COX_DROP" 0x130030 []
    [.mk 0 16 .rw .c 500 0 65535],
  .mk "COX_MARGIN" 0x130034 []
    [.mk 0 8 .rw .c 4 0 255,
     .mk 8 8 .rw .c 2 0 255],
  .mk "COX_LEAD_TARGET" 0x130038 []
    [.mk 0 12 .rw .c 1536 0 4095],
  .mk "COX_LEAD_FLOOR" 0x13003C []
    [.mk 0 12 .rw .c 256 0 4095],
  .mk "COX_LEAD_HALT" 0x130040 []
    [.mk 0 12 .rw .c 64 0 4095],
  .mk "COX_LEAD_HIGH" 0x130044 []
    [.mk 0 12 .ro .n 0 0 4095],
  .mk "COX_TEMP_WARN" 0x130048 []
    [.mk 0 16 .rw .c 880 0 65535],
  .mk "COX_TEMP_HARD" 0x13004C []
    [.mk 0 16 .rw .c 960 0 65535],
  .mk "COX_TEMP_RESUME" 0x130050 []
    [.mk 0 16 .rw .c 832 0 65535],
  .mk "COX_TEMP_DERATE" 0x130054 []
    [.mk 0 8 .rw .c 192 1 255],
  .mk "COX_STALE_HALT" 0x130058 []
    [.mk 0 16 .rw .c 1000 0 65535],
  .mk "COX_SUPPLY_HOLD" 0x13005C []
    [.mk 0 16 .rw .c 1000 0 65535],
  .mk "COX_RTT_GUARD" 0x130060 []
    [.mk 0 12 .rw .c 50 0 4095],
  .mk "COX_SETTLE" 0x130064 []
    [.mk 0 16 .rw .c 100 0 65535],
  .mk "COX_RETREAT_MARGIN" 0x130068 []
    [.mk 0 16 .rw .c 10 0 65535],
  .mk "COX_PAUSE_WARN" 0x13006C []
    [.mk 0 24 .rw .c 1000 0 16777215],
  .mk "COX_PAUSE_LIMIT" 0x130070 []
    [.mk 0 24 .rw .c 30000 0 16777215],
  .mk "COX_RECATCH_LIMIT" 0x130074 []
    [.mk 0 16 .rw .c 256 0 65535,
     .mk 16 8 .rw .c 8 0 255],
  .mk "COX_REASON" 0x130080 []
    [.mk 0 5 .ro .n 0 0 31,
     .mk 31 1 .ro .n 0 0 1],
  .mk "COX_RESUME_WAIT" 0x130084 []
    [.mk 0 11 .ro .n 0 0 2047],
  .mk "COX_RECATCHES" 0x130088 []
    [.mk 0 16 .ro .n 0 0 65535,
     .mk 16 8 .ro .n 0 0 255],
  .mk "COX_PAUSE_NOW" 0x13008C []
    [.mk 0 24 .ro .n 0 0 16777215],
  .mk "COX_PAUSE_MAX" 0x130090 []
    [.mk 0 24 .ro .n 0 0 16777215],
  .mk "COX_PAUSE_TOTAL" 0x130094 []
    [.mk 0 32 .ro .n 0 0 4294967295],
  .mk "COX_SOFT_TRIPS" 0x130098 []
    [.mk 0 32 .rc .n 0 0 4294967295],
  .mk "COX_DERATED_PERIODS" 0x13009C []
    [.mk 0 32 .rc .n 0 0 4294967295],
  .mk "COX_ABANDON" 0x1300A0 []
    [.mk 0 3 .ro .n 0 0 7,
     .mk 31 1 .ro .n 0 0 1]]

/-- The registers of block MOT. -/
def tableMot : List RegDesc := [
  .mk "MOT_SERVO" 0x140000 []
    [.mk 0 7 .rw .i 20 10 100],
  .mk "MOT_EVENTS" 0x140004 []
    [.mk 0 1 .w1c .n 0 0 1,
     .mk 1 1 .w1c .n 0 0 1,
     .mk 2 1 .w1c .n 0 0 1,
     .mk 3 1 .w1c .n 0 0 1],
  .mk "MOT_DRV_CTL" 0x140008 []
    [.mk 0 4 .rw .i 3 1 15],
  .mk "MOT_TBL_BASE_LO" 0x140040 []
    [.mk 0 32 .rw .i 0 0 4294967295],
  .mk "MOT_TBL_BASE_HI" 0x140044 []
    [.mk 0 32 .rw .i 0 0 4294967295],
  .mk "MOT_TBL_COUNT" 0x140048 []
    [.mk 0 13 .rw .i 0 0 8191],
  .mk "MOT_TBL_BLEND" 0x14004C []
    [.mk 0 8 .rw .i 16 0 255],
  .mk "MOT_TBL_GO" 0x140050 []
    [.mk 0 1 .wo .i 0 0 1,
     .mk 1 1 .wo .i 0 0 1,
     .mk 2 1 .wo .i 0 0 1],
  .mk "MOT_TBL_STATUS" 0x140054 []
    [.mk 0 1 .ro .n 0 0 1,
     .mk 1 1 .ro .n 0 0 1,
     .mk 2 1 .ro .n 0 0 1,
     .mk 4 12 .ro .n 0 0 4095,
     .mk 16 4 .ro .n 0 0 15],
  .mk "MOT_AX_CTL" 0x140100 [(0x100, 2)]
    [.mk 0 1 .rw .i 0 0 1,
     .mk 1 1 .rw .i 1 0 1,
     .mk 2 1 .wo .i 0 0 1,
     .mk 3 1 .rw .i 0 0 1,
     .mk 4 1 .rw .i 0 0 1,
     .mk 5 1 .rw .i 0 0 1,
     .mk 6 1 .rw .i 0 0 1,
     .mk 7 1 .rw .i 0 0 1],
  .mk "MOT_AX_STATUS" 0x140104 [(0x100, 2)]
    [.mk 0 3 .ro .n 0 0 7,
     .mk 3 1 .ro .n 0 0 1,
     .mk 4 1 .ro .n 0 0 1,
     .mk 5 1 .ro .n 1 0 1,
     .mk 6 1 .ro .n 0 0 1,
     .mk 7 1 .ro .n 0 0 1,
     .mk 8 1 .ro .n 0 0 1,
     .mk 9 1 .ro .n 0 0 1,
     .mk 10 1 .ro .n 0 0 1,
     .mk 11 1 .ro .n 0 0 1,
     .mk 12 1 .ro .n 0 0 1,
     .mk 16 3 .ro .n 0 0 7],
  .mk "MOT_AX_EVENTS" 0x140108 [(0x100, 2)]
    [.mk 0 1 .w1c .n 0 0 1,
     .mk 1 1 .w1c .n 0 0 1,
     .mk 2 1 .w1c .n 0 0 1,
     .mk 3 1 .w1c .n 0 0 1,
     .mk 4 1 .w1c .n 0 0 1,
     .mk 5 1 .w1c .n 0 0 1,
     .mk 6 1 .w1c .n 0 0 1,
     .mk 7 1 .w1c .n 0 0 1,
     .mk 8 1 .w1c .n 0 0 1,
     .mk 9 1 .w1c .n 0 0 1],
  .mk "MOT_AX_VMAX" 0x14010C [(0x100, 2)]
    [.mk 0 24 .rw .i 100000 0 16777215],
  .mk "MOT_AX_AMAX" 0x140110 [(0x100, 2)]
    [.mk 0 24 .rw .i 10000 0 16777215],
  .mk "MOT_AX_JMAX" 0x140114 [(0x100, 2)]
    [.mk 0 24 .rw .i 10000 0 16777215],
  .mk "MOT_AX_QUICK_AMAX" 0x140118 [(0x100, 2)]
    [.mk 0 24 .rw .i 30000 0 16777215],
  .mk "MOT_AX_DEBOUNCE" 0x14011C [(0x100, 2)]
    [.mk 0 10 .rw .i 200 0 1000],
  .mk "MOT_AX_SOFT_MIN_LO" 0x140120 [(0x100, 2)]
    [.mk 0 32 .rw .i 0 0 4294967295],
  .mk "MOT_AX_SOFT_MIN_HI" 0x140124 [(0x100, 2)]
    [.mk 0 16 .rw .i 32768 0 65535],
  .mk "MOT_AX_SOFT_MAX_LO" 0x140128 [(0x100, 2)]
    [.mk 0 32 .rw .i 4294967295 0 4294967295],
  .mk "MOT_AX_SOFT_MAX_HI" 0x14012C [(0x100, 2)]
    [.mk 0 16 .rw .i 32767 0 65535],
  .mk "MOT_AX_HOME_VEL" 0x140130 [(0x100, 2)]
    [.mk 0 24 .rw .i 5000 0 16777215],
  .mk "MOT_AX_HOME_CREEP" 0x140134 [(0x100, 2)]
    [.mk 0 24 .rw .i 500 0 16777215],
  .mk "MOT_AX_INDEX_DIST" 0x140138 [(0x100, 2)]
    [.mk 0 24 .rw .i 2000 0 16777215],
  .mk "MOT_AX_CMD" 0x14013C [(0x100, 2)]
    [.mk 0 3 .wo .i 0 0 7],
  .mk "MOT_AX_TARGET_LO" 0x140140 [(0x100, 2)]
    [.mk 0 32 .rw .i 0 0 4294967295],
  .mk "MOT_AX_TARGET_HI" 0x140144 [(0x100, 2)]
    [.mk 0 16 .rw .i 0 0 65535],
  .mk "MOT_AX_JOG" 0x140148 [(0x100, 2)]
    [.mk 0 24 .rw .i 0 0 16777215],
  .mk "MOT_AX_SP_POS_LO" 0x14014C [(0x100, 2)]
    [.mk 0 32 .ro .n 0 0 4294967295],
  .mk "MOT_AX_SP_POS_HI" 0x140150 [(0x100, 2)]
    [.mk 0 16 .ro .n 0 0 65535],
  .mk "MOT_AX_SP_VEL" 0x140154 [(0x100, 2)]
    [.mk 0 32 .ro .n 0 0 4294967295],
  .mk "MOT_AX_INDEX_POS_LO" 0x140158 [(0x100, 2)]
    [.mk 0 32 .ro .n 0 0 4294967295],
  .mk "MOT_AX_INDEX_POS_HI" 0x14015C [(0x100, 2)]
    [.mk 0 16 .ro .n 0 0 65535],
  .mk "MOT_AX_ADIST_V" 0x140160 [(0x100, 2)]
    [.mk 0 24 .rw .i 0 0 16777215],
  .mk "MOT_AX_ADIST" 0x140164 [(0x100, 2)]
    [.mk 0 32 .ro .n 0 0 4294967295],
  .mk "MOT_AX_CHATTER" 0x140168 [(0x100, 2)]
    [.mk 0 16 .rc .n 0 0 65535,
     .mk 16 16 .rc .n 0 0 65535],
  .mk "MOT_AX_LIM_TRIPS" 0x14016C [(0x100, 2)]
    [.mk 0 16 .rc .n 0 0 65535],
  .mk "MOT_AX_DRV_BAD" 0x140170 [(0x100, 2)]
    [.mk 0 32 .rc .n 0 0 4294967295]]

/-- The registers of block INT. -/
def tableInt : List RegDesc := [
  .mk "INT_CTL" 0x150000 []
    [.mk 0 4 .rw .c 4 1 15,
     .mk 8 1 .rw .c 0 0 1],
  .mk "INT_STATUS" 0x150004 []
    [.mk 0 1 .ro .n 0 0 1,
     .mk 1 1 .ro .n 0 0 1,
     .mk 8 8 .ro .n 0 0 255],
  .mk "INT_EVENTS" 0x150008 []
    [.mk 0 1 .w1c .n 0 0 1,
     .mk 1 1 .w1c .n 0 0 1,
     .mk 2 1 .w1c .n 0 0 1,
     .mk 3 1 .w1c .n 0 0 1,
     .mk 4 1 .w1c .n 0 0 1,
     .mk 5 1 .w1c .n 0 0 1,
     .mk 6 1 .w1c .n 0 0 1,
     .mk 7 1 .w1c .n 0 0 1,
     .mk 8 1 .w1c .n 0 0 1,
     .mk 9 1 .w1c .n 0 0 1],
  .mk "INT_TILE_FAULTS" 0x15000C []
    [.mk 0 32 .rc .n 0 0 4294967295],
  .mk "INT_RECOMPS" 0x150010 []
    [.mk 0 32 .rc .n 0 0 4294967295],
  .mk "INT_FAULT_LAST" 0x150014 []
    [.mk 0 16 .ro .n 0 0 65535,
     .mk 16 5 .ro .n 0 0 31,
     .mk 21 7 .ro .n 0 0 127,
     .mk 28 3 .ro .n 0 0 7,
     .mk 31 1 .ro .n 0 0 1],
  .mk "INT_AREA_DIFF" 0x150018 []
    [.mk 0 32 .ro .n 0 0 4294967295],
  .mk "INT_LOSS_ADDR_LO" 0x150020 []
    [.mk 0 32 .ro .n 0 0 4294967295],
  .mk "INT_LOSS_ADDR_HI" 0x150024 []
    [.mk 0 32 .ro .n 0 0 4294967295],
  .mk "INT_LOSS_LEN" 0x150028 []
    [.mk 0 24 .ro .n 0 0 16777215],
  .mk "INT_LOSS_AT" 0x15002C []
    [.mk 0 16 .ro .n 0 0 65535,
     .mk 16 5 .ro .n 0 0 31,
     .mk 21 3 .ro .n 0 0 7,
     .mk 24 1 .ro .n 0 0 1,
     .mk 25 1 .ro .n 0 0 1,
     .mk 31 1 .ro .n 0 0 1],
  .mk "INT_RESEND" 0x150030 []
    [.mk 0 1 .wo .i 0 0 1],
  .mk "INT_LOSS_COUNT" 0x150034 []
    [.mk 0 32 .rc .n 0 0 4294967295],
  .mk "INT_JRNL_BASE_LO" 0x150040 []
    [.mk 12 20 .rw .c 0 0 1048575],
  .mk "INT_JRNL_BASE_HI" 0x150044 []
    [.mk 0 32 .rw .c 0 0 4294967295],
  .mk "INT_JRNL_SIZE" 0x150048 []
    [.mk 0 5 .rw .c 26 20 30],
  .mk "INT_JRNL_SEQ_LO" 0x15004C []
    [.mk 0 32 .ro .n 0 0 4294967295],
  .mk "INT_JRNL_SEQ_HI" 0x150050 []
    [.mk 0 16 .ro .n 0 0 65535],
  .mk "INT_INJECT" 0x150060 []
    [.mk 0 3 .lck .i 0 0 7,
     .mk 3 7 .lck .i 0 0 127,
     .mk 10 13 .lck .i 0 0 8191],
  .mk "INT_RESULT" 0x150100 []
    [.mk 0 1 .ro .n 0 0 1,
     .mk 1 1 .ro .n 0 0 1,
     .mk 2 1 .ro .n 0 0 1,
     .mk 3 1 .ro .n 0 0 1,
     .mk 4 1 .ro .n 0 0 1,
     .mk 5 3 .ro .n 0 0 7,
     .mk 8 3 .ro .n 0 0 7,
     .mk 11 3 .ro .n 0 0 7,
     .mk 14 3 .ro .n 0 0 7],
  .mk "INT_RESULT_TAG" 0x150104 []
    [.mk 0 32 .ro .n 0 0 4294967295],
  .mk "INT_RESULT_SEQ" 0x150108 []
    [.mk 0 16 .ro .n 0 0 65535],
  .mk "INT_RESULT_LAST" 0x15010C []
    [.mk 0 25 .ro .n 0 0 33554431,
     .mk 31 1 .ro .n 0 0 1],
  .mk "INT_RESULT_COUNTS" 0x150110 []
    [.mk 0 16 .ro .n 0 0 65535,
     .mk 16 16 .ro .n 0 0 65535],
  .mk "INT_RESULT_ACK" 0x150114 []
    [.mk 0 1 .wo .i 0 0 1],
  .mk "INT_SIG_LO" 0x150400 [(0x8, 128)]
    [.mk 0 32 .ro .n 0 0 4294967295],
  .mk "INT_SIG_HI" 0x150404 [(0x8, 128)]
    [.mk 0 32 .ro .n 0 0 4294967295]]

/-- The registers of block HBM. -/
def tableHbm : List RegDesc := [
  .mk "HBM_CTL" 0x090000 []
    [.mk 0 1 .rw .b 1 0 1,
     .mk 1 1 .rw .i 1 0 1,
     .mk 2 5 .rw .i 12 8 16,
     .mk 7 3 .rw .i 6 1 7,
     .mk 10 1 .wo .i 0 0 1],
  .mk "HBM_STATUS" 0x090004 []
    [.mk 0 1 .ro .n 0 0 1,
     .mk 1 1 .ro .n 0 0 1,
     .mk 2 1 .ro .n 0 0 1,
     .mk 3 1 .ro .n 0 0 1],
  .mk "HBM_EVENTS" 0x090008 []
    [.mk 0 1 .w1c .n 0 0 1,
     .mk 1 1 .w1c .n 0 0 1,
     .mk 2 1 .w1c .n 0 0 1,
     .mk 3 1 .w1c .n 0 0 1,
     .mk 4 1 .w1c .n 0 0 1,
     .mk 5 1 .w1c .n 0 0 1,
     .mk 6 1 .w1c .n 0 0 1,
     .mk 7 1 .w1c .n 0 0 1,
     .mk 8 1 .w1c .n 0 0 1,
     .mk 9 1 .w1c .n 0 0 1,
     .mk 10 1 .w1c .n 0 0 1,
     .mk 11 1 .w1c .n 0 0 1],
  .mk "HBM_CE_COUNT" 0x09000C []
    [.mk 0 32 .rc .n 0 0 4294967295],
  .mk "HBM_UE_COUNT" 0x090010 []
    [.mk 0 32 .rc .n 0 0 4294967295],
  .mk "HBM_ERR_ADDR_LO" 0x090014 []
    [.mk 0 32 .ro .n 0 0 4294967295],
  .mk "HBM_ERR_ADDR_HI" 0x090018 []
    [.mk 0 32 .ro .n 0 0 4294967295],
  .mk "HBM_ERR_INFO" 0x09001C []
    [.mk 0 4 .ro .n 0 0 15,
     .mk 4 1 .ro .n 0 0 1,
     .mk 5 1 .ro .n 0 0 1,
     .mk 31 1 .ro .n 0 0 1],
  .mk "HBM_REF_SEL" 0x090020 []
    [.mk 0 7 .rw .i 0 0 127],
  .mk "HBM_REF_DEBT" 0x090024 []
    [.mk 0 24 .ro .n 0 0 16777215,
     .mk 24 2 .ro .n 0 0 3],
  .mk "HBM_REF_DEBT_MAX" 0x090028 []
    [.mk 0 24 .rc .n 0 0 16777215],
  .mk "HBM_REF_URGENT_COUNT" 0x09002C []
    [.mk 0 32 .rc .n 0 0 4294967295],
  .mk "HBM_REF_SPLITS" 0x090030 []
    [.mk 0 32 .rc .n 0 0 4294967295],
  .mk "HBM_NBR_COUNT" 0x090034 []
    [.mk 0 32 .rc .n 0 0 4294967295],
  .mk "HBM_INIT_BASE_LO" 0x090040 []
    [.mk 12 20 .rw .i 0 0 1048575],
  .mk "HBM_INIT_BASE_HI" 0x090044 []
    [.mk 0 32 .rw .i 0 0 4294967295],
  .mk "HBM_INIT_LEN_LO" 0x090048 []
    [.mk 12 20 .rw .i 0 0 1048575],
  .mk "HBM_INIT_LEN_HI" 0x09004C []
    [.mk 0 32 .rw .i 0 0 4294967295],
  .mk "HBM_INIT_GO" 0x090050 []
    [.mk 0 1 .wo .i 0 0 1],
  .mk "HBM_SCRUB_CTL" 0x090060 []
    [.mk 0 1 .rw .i 1 0 1,
     .mk 16 16 .rw .i 256 1 65535],
  .mk "HBM_SCRUB_LAPS" 0x090064 []
    [.mk 0 32 .ro .n 0 0 4294967295],
  .mk "HBM_SCRUB_LAP_TIME" 0x090068 []
    [.mk 0 32 .ro .n 0 0 4294967295],
  .mk "HBM_SCRUB_LAP_ERRS" 0x09006C []
    [.mk 0 16 .ro .n 0 0 65535,
     .mk 16 16 .ro .n 0 0 65535],
  .mk "HBM_SCRUB_POS_LO" 0x090070 []
    [.mk 0 32 .ro .n 0 0 4294967295],
  .mk "HBM_SCRUB_POS_HI" 0x090074 []
    [.mk 0 32 .ro .n 0 0 4294967295],
  .mk "HBM_STK_STATUS" 0x091000 [(0x100, 4)]
    [.mk 0 3 .ro .n 0 0 7,
     .mk 3 1 .ro .n 0 0 1,
     .mk 4 4 .ro .n 0 0 15,
     .mk 8 8 .ro .n 0 0 255,
     .mk 16 8 .ro .n 0 0 255],
  .mk "HBM_STK_PPR" 0x091004 [(0x100, 4)]
    [.mk 0 8 .ro .n 0 0 255,
     .mk 8 8 .ro .n 0 0 255],
  .mk "HBM_STK_CE" 0x091008 [(0x100, 4)]
    [.mk 0 32 .rc .n 0 0 4294967295]]

/-- The registers of block SRM. -/
def tableSrm : List RegDesc := [
  .mk "SRM_CTL" 0x0A0000 []
    [.mk 0 1 .rw .i 1 0 1,
     .mk 1 1 .rw .i 1 0 1,
     .mk 16 16 .rw .i 1024 1 65535],
  .mk "SRM_STATUS" 0x0A0004 []
    [.mk 0 1 .ro .n 0 0 1,
     .mk 1 1 .ro .n 0 0 1,
     .mk 2 1 .ro .n 0 0 1],
  .mk "SRM_EVENTS" 0x0A0008 []
    [.mk 0 1 .w1c .n 0 0 1,
     .mk 1 1 .w1c .n 0 0 1,
     .mk 2 1 .w1c .n 0 0 1,
     .mk 3 1 .w1c .n 0 0 1,
     .mk 4 1 .w1c .n 0 0 1,
     .mk 5 1 .w1c .n 0 0 1,
     .mk 6 1 .w1c .n 0 0 1,
     .mk 7 1 .w1c .n 0 0 1,
     .mk 8 1 .w1c .n 0 0 1,
     .mk 9 1 .w1c .n 0 0 1,
     .mk 10 1 .w1c .n 0 0 1,
     .mk 11 1 .w1c .n 0 0 1,
     .mk 12 1 .w1c .n 0 0 1],
  .mk "SRM_CE_COUNT" 0x0A000C []
    [.mk 0 32 .rc .n 0 0 4294967295],
  .mk "SRM_PAR_COUNT" 0x0A0010 []
    [.mk 0 32 .rc .n 0 0 4294967295],
  .mk "SRM_BAD_COUNT" 0x0A0014 []
    [.mk 0 16 .ro .n 0 0 65535],
  .mk "SRM_BAD_AT" 0x0A0018 []
    [.mk 0 24 .ro .n 0 0 16777215,
     .mk 31 1 .ro .n 0 0 1],
  .mk "SRM_RESTORE_ADDR" 0x0A0020 []
    [.mk 2 22 .rw .i 0 0 4194303],
  .mk "SRM_RESTORE_DATA" 0x0A0024 []
    [.mk 0 32 .rw .i 0 0 4294967295],
  .mk "SRM_RESTORE_GO" 0x0A0028 []
    [.mk 0 1 .wo .i 0 0 1],
  .mk "SRM_SCRUB_LAPS" 0x0A0030 []
    [.mk 0 32 .ro .n 0 0 4294967295],
  .mk "SRM_SCRUB_LAP_TIME" 0x0A0034 []
    [.mk 0 32 .ro .n 0 0 4294967295],
  .mk "SRM_SCRUB_LAP_ERRS" 0x0A0038 []
    [.mk 0 16 .ro .n 0 0 65535,
     .mk 16 16 .ro .n 0 0 65535],
  .mk "SRM_CHK_CTL" 0x0A0040 []
    [.mk 0 2 .lck .i 0 0 3,
     .mk 2 2 .lck .i 0 0 3,
     .mk 8 8 .lck .i 0 0 255],
  .mk "SRM_CHK_ADDR_LO" 0x0A0044 []
    [.mk 0 32 .lck .i 0 0 4294967295],
  .mk "SRM_CHK_ADDR_HI" 0x0A0048 []
    [.mk 0 32 .lck .i 0 0 4294967295],
  .mk "SRM_CHK_RESULT" 0x0A004C []
    [.mk 0 1 .ro .n 0 0 1,
     .mk 1 1 .ro .n 0 0 1,
     .mk 2 1 .ro .n 0 0 1,
     .mk 4 2 .ro .n 0 0 3,
     .mk 8 16 .ro .n 0 0 65535],
  .mk "SRM_CHK_RESULT_ACK" 0x0A0050 []
    [.mk 0 1 .wo .i 0 0 1],
  .mk "SRM_REPAIR_CAND" 0x0A0060 []
    [.mk 0 2 .ro .n 0 0 3,
     .mk 8 3 .ro .n 0 0 7,
     .mk 31 1 .ro .n 0 0 1],
  .mk "SRM_REPAIR_CAND_MACRO" 0x0A0064 []
    [.mk 0 16 .ro .n 0 0 65535],
  .mk "SRM_REPAIR_CAND_ADDR" 0x0A0068 []
    [.mk 0 32 .ro .n 0 0 4294967295],
  .mk "SRM_REPAIR_CTL" 0x0A006C []
    [.mk 0 1 .wo .i 0 0 1,
     .mk 1 1 .wo .i 0 0 1],
  .mk "SRM_REPAIR_USED" 0x0A0070 []
    [.mk 0 10 .ro .n 0 0 1023,
     .mk 16 10 .ro .n 0 0 1023]]

/-- The registers of block PCI. -/
def tablePci : List RegDesc := [
  .mk "PCI_STATUS" 0x060000 []
    [.mk 0 3 .ro .n 0 0 7,
     .mk 3 5 .ro .n 0 0 31,
     .mk 8 1 .ro .n 0 0 1,
     .mk 9 1 .ro .n 0 0 1],
  .mk "PCI_EVENTS" 0x060004 []
    [.mk 0 1 .w1c .n 0 0 1,
     .mk 1 1 .w1c .n 0 0 1,
     .mk 2 1 .w1c .n 0 0 1,
     .mk 3 1 .w1c .n 0 0 1,
     .mk 4 1 .w1c .n 0 0 1,
     .mk 5 1 .w1c .n 0 0 1,
     .mk 6 1 .w1c .n 0 0 1],
  .mk "PCI_CTL" 0x060008 []
    [.mk 0 1 .rw .i 0 0 1],
  .mk "PCI_BAR2_RANGE_ADDR_LO" 0x06000C []
    [.mk 0 32 .ro .n 0 0 4294967295],
  .mk "PCI_BAR2_RANGE_ADDR_HI" 0x060010 []
    [.mk 0 5 .ro .n 0 0 31],
  .mk "PCI_CORR_COUNT" 0x060014 []
    [.mk 0 32 .rc .n 0 0 4294967295],
  .mk "PCI_UNCORR_COUNT" 0x060018 []
    [.mk 0 32 .rc .n 0 0 4294967295]]

/-- The registers of block DMA. -/
def tableDma : List RegDesc := [
  .mk "DMA_CTL" 0x070000 []
    [.mk 0 1 .wo .i 0 0 1,
     .mk 1 1 .wo .i 0 0 1],
  .mk "DMA_STATUS" 0x070004 []
    [.mk 0 1 .ro .n 0 0 1],
  .mk "DMA_ACTIVE" 0x070008 []
    [.mk 0 32 .ro .n 0 0 4294967295],
  .mk "DMA_EVENTS" 0x07000C []
    [.mk 0 1 .w1c .n 0 0 1],
  .mk "DMA_TIMEOUT" 0x070010 []
    [.mk 0 16 .rw .i 50000 1 65535],
  .mk "DMA_CH_CTL" 0x071000 [(0x40, 32)]
    [.mk 0 1 .rw .i 0 0 1,
     .mk 1 1 .wo .i 0 0 1,
     .mk 2 1 .wo .i 0 0 1,
     .mk 3 1 .wo .i 0 0 1,
     .mk 4 3 .rw .i 0 0 7,
     .mk 7 1 .rw .i 0 0 1,
     .mk 8 4 .rw .i 4 4 15],
  .mk "DMA_CH_STATUS" 0x071004 [(0x40, 32)]
    [.mk 0 3 .ro .n 0 0 7,
     .mk 4 4 .ro .n 0 0 15],
  .mk "DMA_CH_RING_LO" 0x071008 [(0x40, 32)]
    [.mk 12 20 .rw .i 0 0 1048575],
  .mk "DMA_CH_RING_HI" 0x07100C [(0x40, 32)]
    [.mk 0 32 .rw .i 0 0 4294967295],
  .mk "DMA_CH_PTR" 0x071010 [(0x40, 32)]
    [.mk 0 15 .ro .n 0 0 32767,
     .mk 31 1 .ro .n 0 0 1],
  .mk "DMA_CH_DESC_LO" 0x071014 [(0x40, 32)]
    [.mk 0 32 .ro .n 0 0 4294967295],
  .mk "DMA_CH_DESC_HI" 0x071018 [(0x40, 32)]
    [.mk 0 32 .ro .n 0 0 4294967295],
  .mk "DMA_CH_DONE" 0x07101C [(0x40, 32)]
    [.mk 0 32 .rc .n 0 0 4294967295],
  .mk "DMA_CH_EVENTS" 0x071020 [(0x40, 32)]
    [.mk 0 1 .w1c .n 0 0 1,
     .mk 1 1 .w1c .n 0 0 1]]

/-- The registers of block ARB. -/
def tableArb : List RegDesc := [
  .mk "ARB_CTL" 0x080000 []
    [.mk 0 1 .rw .i 1 0 1,
     .mk 8 8 .rw .i 40 10 255,
     .mk 16 5 .rw .i 4 1 16],
  .mk "ARB_STATUS" 0x080004 []
    [.mk 0 6 .ro .n 0 0 63],
  .mk "ARB_DEAD" 0x080008 []
    [.mk 0 32 .rc .n 0 0 4294967295],
  .mk "ARB_PORT" 0x080040 [(0x4, 16)]
    [.mk 0 3 .rw .i 0 0 7,
     .mk 8 8 .rw .i 32 1 255],
  .mk "ARB_TDM" 0x080100 [(0x4, 64)]
    [.mk 0 4 .rw .i 0 0 15,
     .mk 7 1 .rw .i 0 0 1],
  .mk "ARB_PORT_GRANTS" 0x080200 [(0x8, 16)]
    [.mk 0 32 .rc .n 0 0 4294967295],
  .mk "ARB_PORT_WAIT_MAX" 0x080204 [(0x8, 16)]
    [.mk 0 16 .rc .n 0 0 65535]]

/-- The registers of block STR. -/
def tableStr : List RegDesc := [
  .mk "STR_CTL" 0x160000 []
    [.mk 0 1 .rw .c 0 0 1,
     .mk 1 1 .rw .c 0 0 1,
     .mk 2 1 .rw .c 1 0 1,
     .mk 3 1 .rw .c 1 0 1,
     .mk 4 4 .rw .c 0 0 15],
  .mk "STR_STATUS" 0x160004 []
    [.mk 0 1 .ro .n 0 0 1,
     .mk 1 1 .ro .n 0 0 1,
     .mk 2 1 .ro .n 0 0 1,
     .mk 3 12 .ro .n 0 0 4095,
     .mk 15 8 .ro .n 0 0 255],
  .mk "STR_EVENTS" 0x160008 []
    [.mk 0 1 .w1c .n 0 0 1,
     .mk 1 1 .w1c .n 0 0 1,
     .mk 2 1 .w1c .n 0 0 1,
     .mk 3 1 .w1c .n 0 0 1,
     .mk 4 1 .w1c .n 0 0 1,
     .mk 5 1 .w1c .n 0 0 1,
     .mk 6 1 .w1c .n 0 0 1,
     .mk 7 1 .w1c .n 0 0 1,
     .mk 8 1 .w1c .n 0 0 1,
     .mk 9 1 .w1c .n 0 0 1],
  .mk "STR_DIV_SIZE" 0x16000C []
    [.mk 0 7 .rw .c 1 0 127],
  .mk "STR_REG_SIZE" 0x160010 []
    [.mk 0 7 .rw .c 1 0 127],
  .mk "STR_GROUP_SIZE" 0x160014 []
    [.mk 0 13 .rw .c 1 0 8191],
  .mk "STR_BEACON_US" 0x160018 []
    [.mk 0 8 .rw .c 10 1 255],
  .mk "STR_STEP_NS" 0x16001C []
    [.mk 0 16 .rw .c 1000 0 65535],
  .mk "STR_HALT_NS" 0x160020 []
    [.mk 0 8 .rw .c 8 0 255],
  .mk "STR_STALL_US" 0x160024 []
    [.mk 0 16 .rw .c 100 0 65535],
  .mk "STR_RESUME_LEAD" 0x160028 []
    [.mk 0 16 .rw .c 200 0 65535],
  .mk "STR_STALLS" 0x16002C []
    [.mk 0 32 .rc .n 0 0 4294967295],
  .mk "STR_STALL_AT" 0x160030 []
    [.mk 0 2 .ro .n 0 0 3,
     .mk 2 2 .ro .n 0 0 3],
  .mk "STR_DROPS" 0x160034 []
    [.mk 0 32 .rc .n 0 0 4294967295],
  .mk "STR_THETA" 0x160038 []
    [.mk 0 32 .ro .n 0 0 4294967295],
  .mk "STR_TX_CTL" 0x160040 []
    [.mk 0 12 .rw .i 0 0 4095,
     .mk 12 1 .rw .i 0 0 1,
     .mk 13 8 .rw .i 0 0 255,
     .mk 31 1 .wo .i 0 0 1],
  .mk "STR_TX_TAG" 0x160044 []
    [.mk 0 32 .rw .i 0 0 4294967295],
  .mk "STR_TX_STATUS" 0x160048 []
    [.mk 0 1 .ro .n 0 0 1],
  .mk "STR_RX_HEAD" 0x16004C []
    [.mk 0 4 .ro .n 0 0 15],
  .mk "STR_RX_TAIL" 0x160050 []
    [.mk 0 4 .rw .i 0 0 15],
  .mk "STR_RX_DROPS" 0x160054 []
    [.mk 0 32 .rc .n 0 0 4294967295],
  .mk "STR_LINK_STATUS" 0x160100 [(0x20, 4)]
    [.mk 0 2 .ro .n 0 0 3,
     .mk 2 1 .ro .n 0 0 1,
     .mk 4 12 .ro .n 0 0 4095],
  .mk "STR_LINK_ASYM" 0x160104 [(0x20, 4)]
    [.mk 0 16 .rw .i 0 0 65535],
  .mk "STR_LINK_DELAY" 0x160108 [(0x20, 4)]
    [.mk 0 24 .ro .n 0 0 16777215],
  .mk "STR_LINK_RESENDS" 0x16010C [(0x20, 4)]
    [.mk 0 32 .rc .n 0 0 4294967295],
  .mk "STR_TX_DATA" 0x164000 [(0x4, 256)]
    [.mk 0 32 .rw .i 0 0 4294967295],
  .mk "STR_RX_SLOT" 0x168000 [(0x800, 16), (0x4, 272)]
    [.mk 0 32 .ro .n 0 0 4294967295]]

/-- The registers of block EVT. -/
def tableEvt : List RegDesc := [
  .mk "EVT_CTL" 0x040000 []
    [.mk 0 1 .rw .i 0 0 1],
  .mk "EVT_STATUS" 0x040004 []
    [.mk 0 1 .ro .n 0 0 1,
     .mk 1 7 .ro .n 0 0 127,
     .mk 8 8 .ro .n 0 0 255],
  .mk "EVT_LEVEL" 0x040010 [(0x4, 4)]
    [.mk 0 32 .ro .n 0 0 4294967295],
  .mk "EVT_PEND" 0x040020 [(0x4, 4)]
    [.mk 0 32 .w1c .n 0 0 4294967295],
  .mk "EVT_FORCE" 0x040030 [(0x4, 4)]
    [.mk 0 32 .wo .i 0 0 4294967295],
  .mk "EVT_SRC_CFG" 0x040100 [(0x4, 128)]
    [.mk 0 1 .rw .i 0 0 1,
     .mk 1 1 .rw .i 0 0 1,
     .mk 2 1 .lck .i 0 0 1,
     .mk 3 2 .lck .i 0 0 3],
  .mk "EVT_SRC_COUNT" 0x040300 [(0x4, 128)]
    [.mk 0 32 .rc .n 0 0 4294967295]]

/-- The registers of block LOG. -/
def tableLog : List RegDesc := [
  .mk "LOG_CTL" 0x050000 []
    [.mk 0 1 .rw .i 1 0 1,
     .mk 1 1 .lck .i 0 0 1,
     .mk 2 1 .wo .i 0 0 1,
     .mk 3 1 .wo .i 0 0 1],
  .mk "LOG_STATUS" 0x050004 []
    [.mk 0 1 .ro .n 0 0 1,
     .mk 1 1 .ro .n 0 0 1,
     .mk 2 1 .ro .n 0 0 1,
     .mk 8 9 .ro .n 0 0 511],
  .mk "LOG_EVENTS" 0x050008 []
    [.mk 0 1 .w1c .n 0 0 1,
     .mk 1 1 .w1c .n 0 0 1,
     .mk 2 1 .w1c .n 0 0 1,
     .mk 3 1 .w1c .n 0 0 1,
     .mk 4 1 .w1c .n 0 0 1,
     .mk 5 1 .w1c .n 0 0 1,
     .mk 6 1 .w1c .n 0 0 1],
  .mk "LOG_NEWEST_SEQ_LO" 0x05000C []
    [.mk 0 32 .ro .n 0 0 4294967295],
  .mk "LOG_NEWEST_SEQ_HI" 0x050010 []
    [.mk 0 16 .ro .n 0 0 65535],
  .mk "LOG_NEWEST_SLOT" 0x050014 []
    [.mk 0 16 .ro .n 0 0 65535],
  .mk "LOG_OPTIME_LO" 0x050018 []
    [.mk 0 32 .ro .n 0 0 4294967295],
  .mk "LOG_OPTIME_HI" 0x05001C []
    [.mk 0 8 .ro .n 0 0 255],
  .mk "LOG_CYCLES" 0x050020 []
    [.mk 0 24 .ro .n 0 0 16777215],
  .mk "LOG_DROPS_LO" 0x050024 []
    [.mk 0 16 .ro .n 0 0 65535,
     .mk 16 16 .ro .n 0 0 65535],
  .mk "LOG_DROPS_HI" 0x050028 []
    [.mk 0 16 .ro .n 0 0 65535,
     .mk 16 16 .ro .n 0 0 65535],
  .mk "LOG_QUEUE_LOST" 0x05002C []
    [.mk 0 32 .rc .n 0 0 4294967295],
  .mk "LOG_CRIT_SLOTS" 0x050030 []
    [.mk 0 17 .ro .n 0 0 131071],
  .mk "LOG_WALL_LO" 0x050040 []
    [.mk 0 32 .rw .i 0 0 4294967295],
  .mk "LOG_WALL_HI" 0x050044 []
    [.mk 0 32 .rw .i 0 0 4294967295],
  .mk "LOG_WALL_TAG" 0x050048 []
    [.mk 0 32 .rw .i 0 0 4294967295],
  .mk "LOG_NOTE" 0x050050 [(0x4, 10)]
    [.mk 0 32 .rw .i 0 0 4294967295],
  .mk "LOG_NOTE_CFG" 0x050078 []
    [.mk 0 2 .rw .i 1 0 3],
  .mk "LOG_WIN_SLOT" 0x050100 []
    [.mk 0 16 .rw .i 0 0 65535],
  .mk "LOG_WIN" 0x050140 [(0x4, 16)]
    [.mk 0 32 .ro .n 0 0 4294967295],
  .mk "LOG_AUD_SEQ_LO" 0x050200 []
    [.mk 0 32 .rw .i 0 0 4294967295],
  .mk "LOG_AUD_SEQ_HI" 0x050204 []
    [.mk 0 16 .rw .i 0 0 65535],
  .mk "LOG_AUD_GO" 0x050208 []
    [.mk 0 1 .wo .i 0 0 1],
  .mk "LOG_AUD_STATUS" 0x05020C []
    [.mk 0 1 .ro .n 0 0 1,
     .mk 1 2 .ro .n 0 0 3],
  .mk "LOG_AUD" 0x050240 [(0x4, 16)]
    [.mk 0 32 .ro .n 0 0 4294967295],
  .mk "LOG_EXP_BASE_LO" 0x050300 []
    [.mk 6 26 .rw .i 0 0 67108863],
  .mk "LOG_EXP_BASE_HI" 0x050304 []
    [.mk 0 32 .rw .i 0 0 4294967295],
  .mk "LOG_EXP_CAP" 0x050308 []
    [.mk 0 17 .rw .i 0 0 131071],
  .mk "LOG_EXP_FROM_LO" 0x05030C []
    [.mk 0 32 .rw .i 0 0 4294967295],
  .mk "LOG_EXP_FROM_HI" 0x050310 []
    [.mk 0 16 .rw .i 0 0 65535],
  .mk "LOG_EXP_GO" 0x050314 []
    [.mk 0 1 .wo .i 0 0 1],
  .mk "LOG_EXP_RESULT" 0x050320 []
    [.mk 0 1 .ro .n 0 0 1,
     .mk 1 1 .ro .n 0 0 1,
     .mk 2 1 .ro .n 0 0 1,
     .mk 4 3 .ro .n 0 0 7],
  .mk "LOG_EXP_COUNT" 0x050324 []
    [.mk 0 17 .ro .n 0 0 131071],
  .mk "LOG_EXP_GAPS" 0x050328 []
    [.mk 0 32 .ro .n 0 0 4294967295],
  .mk "LOG_EXP_LAST_LO" 0x05032C []
    [.mk 0 32 .ro .n 0 0 4294967295],
  .mk "LOG_EXP_LAST_HI" 0x050330 []
    [.mk 0 16 .ro .n 0 0 65535],
  .mk "LOG_EXP_ACK" 0x050334 []
    [.mk 0 1 .wo .i 0 0 1]]

/-- The registers of block SAF. -/
def tableSaf : List RegDesc := [
  .mk "SAF_CTL" 0x030000 []
    [.mk 0 1 .rw .i 0 0 1,
     .mk 1 1 .wo .i 0 0 1,
     .mk 2 1 .wo .i 0 0 1],
  .mk "SAF_STATUS" 0x030004 []
    [.mk 0 1 .ro .n 0 0 1,
     .mk 1 1 .ro .n 0 0 1,
     .mk 2 1 .ro .n 0 0 1,
     .mk 3 1 .ro .n 0 0 1,
     .mk 4 1 .ro .n 0 0 1,
     .mk 5 1 .ro .n 0 0 1,
     .mk 6 1 .ro .n 0 0 1,
     .mk 7 1 .ro .n 0 0 1],
  .mk "SAF_EVENTS" 0x030008 []
    [.mk 0 1 .w1c .n 0 0 1,
     .mk 1 1 .w1c .n 0 0 1,
     .mk 2 1 .w1c .n 0 0 1,
     .mk 3 1 .w1c .n 0 0 1,
     .mk 4 1 .w1c .n 0 0 1,
     .mk 5 1 .w1c .n 0 0 1,
     .mk 6 1 .w1c .n 0 0 1,
     .mk 7 1 .w1c .n 0 0 1],
  .mk "SAF_CAUSE" 0x03000C []
    [.mk 0 19 .ro .n 0 0 524287],
  .mk "SAF_LOCK" 0x030010 []
    [.mk 0 16 .wo .i 0 0 65535,
     .mk 31 1 .wo .i 0 0 1],
  .mk "SAF_LOCK_VIOL" 0x030014 []
    [.mk 0 32 .rc .n 0 0 4294967295],
  .mk "SAF_STOP_FILTER" 0x030018 []
    [.mk 0 11 .lck .i 500 100 1500],
  .mk "SAF_DIAG" 0x03001C []
    [.mk 0 10 .ro .n 0 0 1023],
  .mk "SAF_REACT" 0x030020 []
    [.mk 0 16 .ro .n 0 0 65535,
     .mk 16 16 .ro .n 0 0 65535],
  .mk "SAF_CUT" 0x030028 []
    [.mk 0 25 .ro .n 0 0 33554431,
     .mk 25 6 .ro .n 0 0 63,
     .mk 31 1 .ro .n 0 0 1],
  .mk "SAF_PARAM_CRC" 0x03002C []
    [.mk 0 32 .ro .n 0 0 4294967295],
  .mk "SAF_TEST" 0x030030 []
    [.mk 0 1 .lck .i 0 0 1,
     .mk 1 1 .lck .i 0 0 1,
     .mk 2 1 .lck .i 0 0 1,
     .mk 31 1 .lck .i 0 0 1],
  .mk "SAF_TEST_RESULT" 0x030034 []
    [.mk 0 1 .ro .n 0 0 1,
     .mk 1 1 .ro .n 0 0 1,
     .mk 2 1 .ro .n 0 0 1,
     .mk 4 2 .ro .n 0 0 3,
     .mk 8 8 .ro .n 0 0 255],
  .mk "SAF_TEST_ACK" 0x030038 []
    [.mk 0 1 .wo .i 0 0 1],
  .mk "SAF_ENV_MIN_LO" 0x030100 [(0x40, 2)]
    [.mk 0 32 .lck .i 0 0 4294967295],
  .mk "SAF_ENV_MIN_HI" 0x030104 [(0x40, 2)]
    [.mk 0 16 .lck .i 32768 0 65535],
  .mk "SAF_ENV_MAX_LO" 0x030108 [(0x40, 2)]
    [.mk 0 32 .lck .i 4294967295 0 4294967295],
  .mk "SAF_ENV_MAX_HI" 0x03010C [(0x40, 2)]
    [.mk 0 16 .lck .i 32767 0 65535],
  .mk "SAF_VLIM" 0x030110 [(0x40, 2)]
    [.mk 0 24 .lck .i 120000 0 16777215],
  .mk "SAF_FOLLOW" 0x030114 [(0x40, 2)]
    [.mk 0 24 .lck .i 50000 0 16777215],
  .mk "SAF_DECEL_CHK" 0x030118 [(0x40, 2)]
    [.mk 0 16 .lck .i 10000 0 65535],
  .mk "SAF_FILT" 0x03011C [(0x40, 2)]
    [.mk 0 4 .lck .i 4 1 15]]

/-- The registers of block PWR. -/
def tablePwr : List RegDesc := [
  .mk "PWR_RESET" 0x020000 []
    [.mk 0 16 .wo .i 0 0 65535,
     .mk 16 1 .wo .i 0 0 1,
     .mk 17 1 .wo .i 0 0 1,
     .mk 18 1 .wo .i 0 0 1],
  .mk "PWR_STATUS" 0x020004 []
    [.mk 0 1 .ro .n 0 0 1,
     .mk 1 1 .ro .n 0 0 1,
     .mk 2 1 .ro .n 1 0 1],
  .mk "PWR_EVENTS" 0x020008 []
    [.mk 0 1 .w1c .n 0 0 1,
     .mk 1 1 .w1c .n 0 0 1,
     .mk 2 1 .w1c .n 0 0 1,
     .mk 3 1 .w1c .n 0 0 1,
     .mk 4 1 .w1c .n 0 0 1],
  .mk "PWR_VCORE_WARN" 0x02000C []
    [.mk 0 10 .rw .i 600 560 660],
  .mk "PWR_VCORE_NOW" 0x020010 []
    [.mk 0 10 .ro .n 0 0 1023,
     .mk 16 10 .ro .n 1023 0 1023],
  .mk "PWR_RAIL_LOW" 0x020014 []
    [.mk 0 8 .ro .n 0 0 255],
  .mk "PWR_TJ" 0x020018 []
    [.mk 0 8 .ro .n 0 0 255,
     .mk 8 8 .ro .n 0 0 255],
  .mk "PWR_TJ_WARN" 0x02001C []
    [.mk 0 8 .rw .i 100 60 105],
  .mk "PWR_WARN_COUNT" 0x020020 []
    [.mk 0 32 .rc .n 0 0 4294967295],
  .mk "PWR_STANDBY" 0x020024 []
    [.mk 0 16 .wo .i 0 0 65535,
     .mk 16 1 .wo .i 0 0 1],
  .mk "PWR_LAST_RESET" 0x020028 []
    [.mk 0 4 .ro .n 0 0 15],
  .mk "PWR_KA_FLAGS" 0x02002C []
    [.mk 0 1 .ro .n 0 0 1,
     .mk 8 8 .ro .n 0 0 255]]

/-- The registers of block CFG. -/
def tableCfg : List RegDesc := [
  .mk "CFG_CTL" 0x010000 []
    [.mk 0 1 .rw .b 0 0 1],
  .mk "CFG_STATUS" 0x010004 []
    [.mk 0 2 .ro .n 0 0 3,
     .mk 2 1 .ro .n 0 0 1,
     .mk 3 1 .ro .n 0 0 1,
     .mk 8 4 .ro .n 0 0 15,
     .mk 12 4 .ro .n 0 0 15],
  .mk "CFG_EVENTS" 0x010008 []
    [.mk 0 1 .w1c .n 0 0 1,
     .mk 1 1 .w1c .n 0 0 1],
  .mk "CFG_DEFAULTED" 0x01000C []
    [.mk 0 1 .w1c .n 0 0 1,
     .mk 1 2 .ro .n 0 0 3],
  .mk "CFG_DEVICE_ID" 0x010010 []
    [.mk 0 12 .ro .n 0 0 4095],
  .mk "CFG_BUILD_LO" 0x010014 []
    [.mk 0 32 .ro .n 0 0 4294967295],
  .mk "CFG_BUILD_HI" 0x010018 []
    [.mk 0 32 .ro .n 0 0 4294967295],
  .mk "CFG_IMAGE_CRC_LO" 0x01001C []
    [.mk 0 32 .ro .n 0 0 4294967295],
  .mk "CFG_IMAGE_CRC_HI" 0x010020 []
    [.mk 0 32 .ro .n 0 0 4294967295],
  .mk "CFG_JOB_SRC_LO" 0x010040 []
    [.mk 6 26 .rw .i 0 0 67108863],
  .mk "CFG_JOB_SRC_HI" 0x010044 []
    [.mk 0 32 .rw .i 0 0 4294967295],
  .mk "CFG_JOB_CTL" 0x010048 []
    [.mk 0 1 .rw .i 0 0 1,
     .mk 1 1 .rw .i 0 0 1,
     .mk 31 1 .wo .i 0 0 1],
  .mk "CFG_JOB_RESULT" 0x01004C []
    [.mk 0 1 .ro .n 0 0 1,
     .mk 1 1 .ro .n 0 0 1,
     .mk 2 1 .ro .n 0 0 1,
     .mk 4 4 .ro .n 0 0 15],
  .mk "CFG_JOB_ACK" 0x010050 []
    [.mk 0 1 .wo .i 0 0 1],
  .mk "CFG_SHAPE" 0x010100 [(0x4, 32)]
    [.mk 0 32 .ro .n 0 0 4294967295],
  .mk "CFG_STAGE" 0x010180 [(0x4, 16)]
    [.mk 0 32 .ro .n 0 0 4294967295]]

/-- The registers of block GEN. -/
def tableGen : List RegDesc := [
  .mk "GEN_ID" 0x000000 []
    [.mk 0 16 .ro .n 50558 0 65535,
     .mk 16 16 .ro .n 4132 0 65535],
  .mk "GEN_REV" 0x000004 []
    [.mk 0 8 .ro .n 0 0 255,
     .mk 8 8 .ro .n 1 0 255,
     .mk 16 8 .ro .n 1 0 255],
  .mk "GEN_EVENTS" 0x000008 []
    [.mk 0 1 .w1c .n 0 0 1,
     .mk 1 1 .w1c .n 0 0 1],
  .mk "GEN_SCRATCH" 0x00000C []
    [.mk 0 32 .rw .i 0 0 4294967295],
  .mk "GEN_TIME_LO" 0x000010 []
    [.mk 0 32 .ro .n 0 0 4294967295],
  .mk "GEN_TIME_HI" 0x000014 []
    [.mk 0 32 .ro .n 0 0 4294967295],
  .mk "GEN_SERIAL_LO" 0x000018 []
    [.mk 0 32 .ro .n 0 0 4294967295],
  .mk "GEN_SERIAL_HI" 0x00001C []
    [.mk 0 32 .ro .n 0 0 4294967295]]

/-- The block table of R451: the registers of the 64 KiB block with the given number. -/
def blockTable (blk : Nat) : List RegDesc :=
  match blk with
  | 0 => tableGen
  | 1 => tableCfg
  | 2 => tablePwr
  | 3 => tableSaf
  | 4 => tableEvt
  | 5 => tableLog
  | 6 => tablePci
  | 7 => tableDma
  | 8 => tableArb
  | 9 => tableHbm
  | 10 => tableSrm
  | 11 => tableIng
  | 12 => tableSlz
  | 13 => tableRas
  | 14 => tableDos
  | 15 => tableCrw
  | 16 => tableWak
  | 17 => tableBln
  | 18 => tableStk
  | 19 => tableCox
  | 20 => tableMot
  | 21 => tableInt
  | 22 => tableStr
  | _ => []

end Sys2Proof.Machine
end

