-- ==== Sys2Proof/Machine/State.lean ====
section
/-! DEFINITION. The machine's state as plain data, the reasons a step can stop, and the state after reset. -/

namespace Sys2Proof.Machine

/-- What the block drives or sends in one access. A word of the trim port (R229) or a frame of the set-point port (R255) starts at a regatta
time, and shows D0, D1 and FRM in each UI. The taps of a lane's equaliser count 1/64 (R447). -/
inductive Output where
  | msix (vector : Nat)
  | alert (level : Bool)
  | series (lane : Nat) (word : DWord)
  | laneWords (lane : Nat) (words : List DWord)
  | laneSetup (lane : Nat) (invert precode : Bool) (taps : List Int)
  | laneDrive (lane pattern : Nat) (framed : Bool)
  | catchEdge (stroke : Nat) (t : Int) (fire : Bool)
  | gateTrain (t : Int) (gate : Nat)
  | trim (start : Int) (uis : List (Bool × Bool × Bool))
  | straitWords (link : Nat) (words : List DWord)
  | straitDrive (lane pattern : Nat)
  | straitLane (lane : Nat) (words : List DWord)
  | setPoint (axis : Nat) (start : Int) (uis : List (Bool × Bool × Bool))
  | hostWrite (addr : Nat) (bytes : List Byte)
  | inhibit (channelB released : Bool)
  | ampEnable (axis : Nat) (on : Bool)
  | railEnable (on : Bool)
  | scanOut (cells : List Bool)
  | scanDrive (lands : List (Nat × Bool))
  | scanHighz (lands : List Nat)
deriving DecidableEq, Repr

/-- The answer to the host's request of this access. -/
inductive Response where
  | none
  | data (ws : List Word)
  | bytes (poisoned : Bool) (bs : List Byte)
  | abort
  | retry
  | unsupported
deriving DecidableEq, Repr

/-- The state of the block. `regs` holds every register of BAR0 that is stored, by address; `inf` the register file whose class C
and class S fields are in force (R12 to R15). -/
structure State where
  clock : Int
  rtOfs : Int
  regs : List (Nat × Word)
  inf : List (Nat × Word)
  latch : List (Nat × Word)
  shape : Shape
  ing : Ingest
  slz : Option SlzJob
  ras : Raster
  bsx : Backscatter
  banks : Banks
  crw : Crews
  wak : Wake
  bln : Lanes
  stk : Strokes
  cox : CoxPart
  int : Integrity
  hbm : Hbm
  str : Straits
  evt : Events
  msix : Msix
  log : Recorder
  mot : Motion
  saf : Safety
  mem : MemAux
  arb : Arbiter
  dma : List DmaChan
  moverTurn : Nat
  pwr : Power
  keel : Keel
  jtag : Jtag
  results : List (Nat × ResultBlock)
  free : Nat
  out : List Output
  resp : Response
  pending : List Instr
deriving DecidableEq, Repr

/-- No command of this block faults: every stop the spec describes leaves the block running (empty by design). -/
inductive Fault where
deriving DecidableEq, Repr

/-- Why a command is turned away. -/
inductive Refusal where
  /-- Raised by an arm of `exec` whose command has no meaning yet; safe. -/
  | notModelled (mnemonic : String)
  /-- Raised by every meaning for an operand outside the range its row can carry (WellFormed); safe. -/
  | illFormed
deriving DecidableEq, Repr

/-- A link at reset: DOWN, nothing queued, 8 credits for each VC (R357, R368). -/
def linkReset : StraitLink :=
  { primary := 0, lock0 := false, lock1 := false, queue := [], unacked := [], txSeq := 0, rxSeq := 0, credits := [8, 8, 8],
    ackAt := 0, echoTx := 0, echoRx := 0, beaconAt := 0, stalled := [], movedAt := [0, 0, 0], idleAt := 0 }

/-- A DMA channel's own part at reset (R336). -/
def chanReset : DmaChan :=
  { links := 0, desc := none, offAddr := 0, ringHbm := false, fetch := false, parked := false, served := false }

/-- A bank control at reset: bank 0 in service, nothing pending or marked (R129). -/
def bankReset : Bank :=
  { active := 0, pending := false, allMarked := false, marks := [], cloning := false, refuse := 0, hazy := none, sure := [] }

/-- A tracking loop at reset (R206, R211): not initialised, any SEQ expected. -/
def loopReset : AxisLoop :=
  { x := 0, v := 0, a := 0, init := false, locked := false, posOk := false, expect := none, lastBad := true, badRun := 0,
    nearRun := 0, farRun := 0, ts := 0 }

/-- An input at reset: untripped, no change pending (log entry 6). -/
def inputReset : Debounced := { raw := false, level := false, since := none }

/-- An axis at reset (R257, R264): DISABLED frames, at rest, the reset limits. -/
def axisReset : Axis :=
  { prof := { p := 0, v := 0, a := 0 }, order := .hold, next := none, vmax := 100000, amax := 10000, jmax := 10000,
    sp := { pos := 0, vel := 0, acc := 0 }, now := { pos := 0, vel := 0, acc := 0 }, seq := 0, left := false, awaiting := none,
    badRun := 0, still := 2, homing := none, limPos := inputReset, limNeg := inputReset, home := inputReset, index := false,
    ordered := false }

/-- What the safety controller follows of an axis, at reset. -/
def safAxisReset : SafAxis :=
  { envRun := 0, velRun := 0, followSince := none, track := [], wordAt := none, moved := false, v0 := 0, envHold := false }

/-- The machine right after reset: a cold reset of kind POWER_ON that has just been released, before its boot (R410, R417, R419). Every
register holds its Reset column; the keel store is erased, HBM and the wake buffer hold nothing (log entries 3, 6, 7). -/
def State.reset : State where
  clock := 0
  rtOfs := 0
  regs := []
  inf := []
  latch := []
  shape := shapeDefault
  ing := { queue := [], nextIdx := 0, nextSeq := 1, adm := none }
  slz := none
  ras := { slots := [], pointer := 0, eligible := 0, dispBand := 0, dispTiles := [], doneBelow := 0, bandCount := 0, redo := [], notes := [],
           stopped := true, probe := none }
  bsx := { on := false, next := 0, busy := false, sums := [], lost := false, bits := [] }
  banks := { krn := bankReset, tgn := bankReset, map := bankReset, wave := bankReset, lanes := bankReset }
  crw := { map := [], invalid := [], split := 0, seen := 0, stop := true, stalled := [], exchanging := false }
  wak := { cells := [], stamp := 0, slots := [], peeking := none }
  bln := { frames := [], trains := [], gen := 0, cseq := 0, side := none, sideTag := 0, marked := [], unacked := [], haltCatch := none,
           judged := none, statusAt := none, stale := false, temp := none, framings := [0, 0, 0, 0], echoHeld := [],
           echoKnown := [] }
  stk := { loopX := loopReset, loopY := loopReset, next := 0, pred := none, commits := [], lastCommit := none, lastCatch := none,
           fireCatch := none, train := none, halted := false, haltedAt := 0, fire := false, periodMin := none, rttMax := 0, lastFired := none,
           aborted := false, loadDue := true, loadTried := false }
  cox := { vprev := 0, vr := 0, xr := 0, pauseFrom := none, warned := false, limited := false, lastHalt := none,
           firedSince := false, supplyClear := none, ending := none, resume := 0, tested := false, flushDue := false,
           floorSeen := false }
  int := { loss := none, wakeFaults := [], sigs := [], suspect := false, recomps := 0, rereads := false, planted := [] }
  hbm := { bytes := [], chk := [], hazes := [{ base := 0, len := 103079215104, stamp := 0, raw := true }] }
  str := { links := [linkReset, linkReset, linkReset, linkReset], slew := 0, slewFrom := 0, nearRun := 0, farRun := 0,
           swapped := false, holdFrom := none, counts := [0, 0, 0, 0, 0, 0], seen := [], readys := [], own := none, fixed := none,
           used := 0 }
  evt := { pba := [], forced := [], alertOn := false }
  msix := { enable := false, fmask := false, masked := List.range 128 }
  log := { slots := [], torn := [], newest := none, seq := 1, optime := 0, cycle := 1, prevWall := 0, drops := [0, 0, 0, 0], queue := [],
           writing := none, lost := none, erasing := none, exporting := none, audit := none }
  mot := { period := 20, x := axisReset, y := axisReset, store := [], loading := false, table := none, blend := none,
           refLost := false }
  saf := { ampX := false, ampY := false, keyed := false, openedAt := none, lineStep := none, stop := none, x := safAxisReset,
           y := safAxisReset, trainEnd := none, testing := none, records := [], supplyLow := false, testDiag := 0,
           startupOk := false, permitAt := none }
  mem := { debtFrom := List.replicate 128 0, urgent := [], init := none, training := false, flips := [], bad := [], ceLap := [],
           localRows := [], rowCe := [], sramPos := 0, hbmLapAt := 0, sramLapAt := 0, hbmCe := 0, hbmUe := 0, sramCe := 0,
           sramPar := 0, selftest := none, marked := [], lfsr := [0#32, 0#32, 0#32, 0#32] }
  arb := { slotNs := 40, burst := 4, ages := [], pointers := [], bursts := [], reads := List.replicate 16 0 }
  dma := List.replicate 32 chanReset
  moverTurn := 0
  pwr := { phase := .coldBoot, kinds := [1], railEn := true, rstHigh := true, perst := false, railsGood := true,
           lowRuns := List.replicate 8 0, deepRuns := List.replicate 8 0, clearRun := 0, hotHold := false, initAtBoot := true,
           skipA := false, releasedAt := 0, job := none }
  keel := { bytes := [], bad := [] }
  jtag := { ir := 1, chain := List.replicate 62 false }
  results := []
  free := 1
  out := []
  resp := .none
  pending := []

end Sys2Proof.Machine
end

