-- ==== Sys2Proof/Machine/Ops.lean ====
section
/-! DEFINITION. The named operations on the state: registers and fields (R1 to R15), results (R300), what HBM reads as (R304, R305,
R314), the course queue's lookups and the time. -/

namespace Sys2Proof.Machine

/-! ### Registers -/

/-- The base priority of an arbiter port at reset (R345). -/
def portPrio (p : Nat) : Nat :=
  if p < 9 then 4 else ([6, 3, 5, 3, 6, 0, 0] : List Nat).getD (p - 9) 0

/-- A slot of the reservation table at reset (R350): VALID at bit 7 and the port; other slots are FREE. -/
def tdmReset (i : Nat) : Nat :=
  if i % 2 = 0 then 128 + i / 2 % 8
  else if i = 1 ∨ i = 33 then 128 + 8
  else if i = 17 ∨ i = 49 then 128 + 9
  else 0

/-- The word an event source's configuration holds after a reset (R374). -/
def srcCfgReset (s : Nat) : Nat :=
  match eventSource s with
  | none => 0
  | some e => e.sev * 8 + (if 2 ≤ e.sev then 4 else 0) + (if e.sev = 3 then 2 else 0)

/-- The description of the register at an address; the beam map window has none of its own here (R139, R451). -/
def descOf (a : Nat) : Option RegDesc :=
  if 0x800000 ≤ a then none else (blockTable (a / 65536)).find? (fun d => descAt d a)

/-- The Reset column of a register's fields as one word. -/
def resetWord (fs : List FieldDesc) : Nat := (fs.map (fun f => f.rst % 2 ^ f.width * 2 ^ f.lo)).sum

/-- What a register holds after the reset of its domain (R9). -/
def resetOf (a : Nat) : Word :=
  match descOf a with
  | none => 0#32
  | some d =>
    if d.addr = R.EVT_SRC_CFG 0 then BitVec.ofNat 32 (srcCfgReset ((a - d.addr) / 4))
    else if d.addr = R.ARB_PORT 0 then
      BitVec.ofNat 32 (resetWord d.fields / 16 * 16 + portPrio ((a - d.addr) / 4))
    else if d.addr = R.ARB_TDM 0 then BitVec.ofNat 32 (tdmReset ((a - d.addr) / 4))
    else BitVec.ofNat 32 (resetWord d.fields)

/-- The stored word of a register. -/
def State.reg (s : State) (a : Nat) : Word := sparseGet resetOf a s.regs

/-- A register's stored word replaced. -/
def State.setReg (s : State) (a : Nat) (w : Word) : State := { s with regs := sparsePut resetOf a w s.regs }

/-- The stored value of a field. -/
def State.fget (s : State) (f : Fld) : Nat := fieldOf f.lo f.width (s.reg f.addr)

/-- The stored value of a one-bit field as a Bool. -/
def State.flag (s : State) (f : Fld) : Bool := s.fget f != 0

/-- The stored value of a signed field (R3). -/
def State.sget (s : State) (f : Fld) : Int := signedOf f.width (s.fget f)

/-- A field set to a value, cut to its width. -/
def State.fset (s : State) (f : Fld) (v : Nat) : State := s.setReg f.addr (withField f.lo f.width v (s.reg f.addr))

/-- A signed field set (R3). -/
def State.fsetI (s : State) (f : Fld) (v : Int) : State := s.fset f (unsignedOf f.width v)

/-- A bit set, as a hardware event does (R10). -/
def State.raise (s : State) (f : Fld) : State := s.fset f (2 ^ f.width - 1)

/-- A bit set on a condition. -/
def State.raiseIf (b : Bool) (f : Fld) (s : State) : State := if b then s.raise f else s

/-- A field cleared. -/
def State.clear (s : State) (f : Fld) : State := s.fset f 0

/-- A counter increased by n, stopping at all ones. -/
def State.add (s : State) (f : Fld) (n : Nat) : State := s.fset f (satAdd f.width (s.fget f) n)

/-- A counter increased by one. -/
def State.bump (s : State) (f : Fld) : State := s.add f 1

/-- A field set to the larger of its value and another. -/
def State.raiseTo (s : State) (f : Fld) (v : Nat) : State := s.fset f (max (s.fget f) (min v (2 ^ f.width - 1)))

/-- A low and high pair of registers set from one number (R4). -/
def State.setPair (s : State) (lo hi : Fld) (v : Nat) : State := (s.fset lo v).fset hi (v / 2 ^ 32)

/-- The value of a low and high pair of fields, the low one placed where it stands (R4). -/
def State.pair (s : State) (lo hi : Fld) : Nat := s.fget lo * 2 ^ lo.lo + s.fget hi * 2 ^ 32

/-- The register word that governs (R12, R13). -/
def State.inReg (s : State) (a : Nat) : Word := sparseGet resetOf a s.inf

/-- The value of a class C or S field that governs the running course (R12 to R15). -/
def State.gov (s : State) (f : Fld) : Nat := fieldOf f.lo f.width (s.inReg f.addr)

/-- A one-bit field that governs. -/
def State.govFlag (s : State) (f : Fld) : Bool := s.gov f != 0

/-- A signed field that governs. -/
def State.govI (s : State) (f : Fld) : Int := signedOf f.width (s.gov f)

/-- A low and high pair that governs. -/
def State.govPair (s : State) (lo hi : Fld) : Nat := s.gov lo * 2 ^ lo.lo + s.gov hi * 2 ^ 32

/-- A governing register replaced. -/
def State.setInReg (s : State) (a : Nat) (w : Word) : State := { s with inf := sparsePut resetOf a w s.inf }

/-! ### Outputs, time, free values -/

/-- An output added to those of this access. -/
def State.emit (s : State) (o : Output) : State := { s with out := s.out ++ [o] }

/-- Outputs added. -/
def State.emits (s : State) (os : List Output) : State := { s with out := s.out ++ os }

/-- The next stamp for undefined contents. -/
def State.fresh (s : State) : Nat × State := (s.free, { s with free := s.free + 1 })

/-- Ticks of 15.625 ps in a nanosecond. -/
def ticksPerNs : Nat := 64

/-- Ticks in a microsecond. -/
def ticksPerUs : Nat := 64000

/-- Ticks in a millisecond. -/
def ticksPerMs : Nat := 64000000

/-- The ticks a slew has gained or dropped so far: at most one a microsecond (R361). -/
def State.slewed (s : State) : Int :=
  let n := min s.str.slew.natAbs ((s.clock - s.str.slewFrom) / 64000).toNat
  if s.str.slew < 0 then -(n : Int) else n

/-- Regatta time in ticks (R361, R454). -/
def State.rtime (s : State) : Int := s.clock + s.rtOfs + s.slewed

/-- The clock moved on to an instant; an instant already past leaves it (log entry 4). -/
def State.until (s : State) (t : Int) : State := { s with clock := max s.clock t }

/-- The clock moved on by a number of ticks. -/
def State.after (s : State) (n : Nat) : State := { s with clock := s.clock + n }

/-! ### Result blocks -/

/-- The result block whose VALID lies in the register at an address. -/
def State.result (s : State) (a : Nat) : ResultBlock := sparseGet (fun _ => { vis := none, beh := none }) a s.results

/-- A result block replaced. -/
def State.setResult (s : State) (a : Nat) (b : ResultBlock) : State :=
  { s with results := sparsePut (fun _ => { vis := none, beh := none }) a b s.results }

/-- A result arriving at a block (R300): whether it was discarded, and the block. -/
def postBlock (b : ResultBlock) (fields : List (Nat × Word)) : Bool × ResultBlock :=
  match b.vis, b.beh with
  | none, _ => (false, { b with vis := some { fields := fields, seen := false, overrun := false } })
  | some _, none => (false, { b with beh := some { fields := fields, seen := false, overrun := false } })
  | some _, some h => (true, { b with beh := some { h with overrun := true } })

/-- A result posted at the block of an address, and whether it was discarded (R300). -/
def State.postResult (s : State) (a : Nat) (fields : List (Nat × Word)) : Bool × State :=
  let (lost, b) := postBlock (s.result a) fields
  (lost, s.setResult a b)

/-- The ACK of a result block (R300). -/
def ackBlockOf (b : ResultBlock) : ResultBlock :=
  match b.vis with
  | none => b
  | some _ => { vis := b.beh.map (fun h => { h with seen := false }), beh := none }

/-- The word that a register of a result block reads as (R300). -/
def resultWord (b : ResultBlock) (a base : Nat) : Word :=
  match b.vis with
  | none => 0#32
  | some v =>
    let w := ((v.fields.find? (fun p => p.1 == a)).map Prod.snd).getD 0#32
    if a = base then
      let ovr := v.overrun || (b.beh.map ResultSlot.overrun).getD false
      withField 2 1 (bitOf ovr) (withField 1 1 (bitOf v.seen) (withField 0 1 1 w))
    else w

/-! ### HBM -/

/-- The size of HBM: 96 GiB (R304). -/
def hbmSize : Nat := 96 * 2 ^ 30

/-- What an HBM byte that nothing has written reads as (log entry 3). -/
def hbmDefault (_ : Nat) : Byte := 0#8

/-- Whether an undefined stretch holds an address. -/
def Haze.holds (h : Haze) (a : Nat) : Bool := decide (h.base ≤ a ∧ a < h.base + h.len)

/-- The undefined stretch that holds an address of HBM. -/
def State.hazeAt (s : State) (a : Nat) : Option Haze := s.hbm.hazes.find? (fun h => h.holds a)

/-- One byte of HBM: a free value inside an undefined stretch. -/
def State.hbmByte (s : State) (a : Nat) : Byte :=
  match s.hazeAt a with
  | some h => Config.freeByte h.stamp a
  | none => sparseGet hbmDefault a s.hbm.bytes

/-- The canonical form of HBM's bytes: addresses strictly rising, and none that repeats what an unlisted one reads as. -/
def Memory.wf (m : List Host.Cell) : Bool := sparseWf hbmDefault m

/-- `n` bytes of HBM from an address. -/
def State.hbmBytes (s : State) (a n : Nat) : List Byte := (List.range n).map (fun i => s.hbmByte (a + i))

/-- The XOR mask on a word's check bits: free where nothing has written the word since the cold reset (R328). -/
def State.hbmChk (s : State) (w : Nat) : Nat :=
  match s.hazeAt (8 * w) with
  | some h => if h.raw then (Config.freeWord h.stamp w).toNat % 256 else sparseGet (fun _ => 0) w s.hbm.chk
  | none => sparseGet (fun _ => 0) w s.hbm.chk

/-- The count of ones of a check mask. -/
def onesOf (n : Nat) : Nat := ((List.range 8).map (fun i => (n / 2 ^ i) % 2)).sum

/-- How a word reads (R314). -/
inductive WordClass where
  | clean
  | corrected (bit : Option Nat)
  | uncorrectable
deriving DecidableEq, Repr

/-- The class that a word's check mask gives under a Hsiao code (R305, R306, R314): one wrong check bit is corrected, an even
number is a double error, and an odd number names a data bit only where the matrix, which the spec does not give, says so. -/
def maskClass (m : Nat) : WordClass :=
  if m = 0 then .clean
  else if onesOf m = 1 then .corrected none
  else if onesOf m % 2 = 0 then .uncorrectable
  else match Config.hsiaoColumn m with
    | none => .uncorrectable
    | some b => .corrected (some (b % 64))

/-- Whether HBM is in use: every stack READY (R307). -/
def State.hbmReady (s : State) : Bool := s.flag F.HBM_STATUS_READY

/-- The 8-byte words that a range touches. -/
def wordsOf (a n : Nat) : List Nat :=
  if n = 0 then [] else (List.range ((a + n - 1) / 8 + 1 - a / 8)).map (fun i => a / 8 + i)

/-- The class of a word of HBM (R307, R314). -/
def State.wordClass (s : State) (w : Nat) : WordClass :=
  if s.hbmReady then maskClass (s.hbmChk w) else .uncorrectable

/-- Whether a word reaches a port uncorrectable: as stored, or marked on its way (R305, R314, R316). -/
def State.wordBad (s : State) (port w : Nat) : Bool := s.wordClass w == .uncorrectable || s.mem.marked.contains (port, w)

/-- Whether a port's read of a range meets an uncorrectable word (R314). -/
def State.hbmBad (s : State) (port a n : Nat) : Bool := (wordsOf a n).any (fun w => s.wordBad port w)

/-- The first uncorrectable word of a port's read. -/
def State.firstBad (s : State) (port a n : Nat) : Option Nat := (wordsOf a n).find? (fun w => s.wordBad port w)

/-- A byte of HBM as the code delivers it: a syndrome that names a data bit has it inverted (R314). -/
def State.readByte (s : State) (a : Nat) : Byte :=
  match s.wordClass (a / 8) with
  | .corrected (some b) =>
    if b / 8 = a % 8 then s.hbmByte a ^^^ BitVec.ofNat 8 (2 ^ (b % 8)) else s.hbmByte a
  | _ => s.hbmByte a

/-- `n` bytes of HBM from an address as delivered. -/
def State.readBytes (s : State) (a n : Nat) : List Byte := (List.range n).map (fun i => s.readByte (a + i))

/-- The bytes of a port's read as delivered, none where any word of it is uncorrectable (R314). -/
def State.hbmRead (s : State) (port a n : Nat) : Option (List Byte) := if s.hbmBad port a n then none else some (s.readBytes a n)

/-! ### The course queue -/

/-- A descriptor word. -/
def descWord (d : List Word) (i : Nat) : Nat := (d.getD i 0#32).toNat

/-- A 64-bit descriptor field of words i and i + 1 (R57). -/
def descPair (d : List Word) (i : Nat) : Nat := descWord d i + descWord d (i + 1) * 2 ^ 32

/-- STREAM_BASE of an entry (R57). -/
def Entry.base (e : Entry) : Nat := descPair e.desc 0

/-- STREAM_LEN. -/
def Entry.len (e : Entry) : Nat := descPair e.desc 2

/-- BSX_BASE. -/
def Entry.bsxBase (e : Entry) : Nat := descPair e.desc 4

/-- ORIGIN_X, signed, 48 bits. -/
def Entry.originX (e : Entry) : Int := signedOf 48 (descPair e.desc 6 % 2 ^ 48)

/-- ORIGIN_Y. -/
def Entry.originY (e : Entry) : Int := signedOf 48 (descPair e.desc 8 % 2 ^ 48)

/-- TAG. -/
def Entry.tag (e : Entry) : Nat := descWord e.desc 10

/-- PASS. -/
def Entry.pass (e : Entry) : Nat := bits 0 3 (descWord e.desc 11)

/-- DIR. -/
def Entry.dir (e : Entry) : Bool := bitAt 3 (descWord e.desc 11)

/-- PREPARSE. -/
def Entry.preparse (e : Entry) : Bool := bitAt 4 (descWord e.desc 11)

/-- STOP_AFTER. -/
def Entry.stopAfter (e : Entry) : Bool := bitAt 5 (descWord e.desc 11)

/-- The sign of travel (R213). -/
def Entry.sgn (e : Entry) : Int := if e.dir then -1 else 1

/-- The queue entry with an index. -/
def State.entry (s : State) (i : Nat) : Option Entry := s.ing.queue.find? (fun e => e.idx == i)

/-- The running entry (R62). -/
def State.running (s : State) : Option Entry := s.ing.queue.find? (fun e => e.state == .running)

/-- A queue entry changed in place. -/
def State.mapEntry (s : State) (i : Nat) (f : Entry → Entry) : State :=
  { s with ing := { s.ing with queue := s.ing.queue.map (fun e => if e.idx = i then f e else e) } }

/-- The header section of the running course. -/
def State.runHead (s : State) : Option StreamHead := s.running.bind Entry.head

/-- LENGTH_PX of the running course; 0 while none runs. -/
def State.lengthPx (s : State) : Nat := (s.runHead.map StreamHead.lengthPx).getD 0

/-- The bands of the running course. -/
def State.bands (s : State) : Nat := s.shape.bands s.lengthPx

/-- The last stroke of the running course (R138). -/
def State.lastStroke (s : State) : Nat := s.shape.lastStroke s.lengthPx

/-- The device ID the boot loaded. -/
def State.deviceId (s : State) : Nat := s.fget F.CFG_DEVICE_ID_ID

/-- The lane-map, the cox state and the like are fields of registers: the cox's state code (R240). -/
def State.coxState (s : State) : Nat := s.fget F.COX_STATUS_STATE

/-- The read of a stream's bytes as HBM delivers them. -/
def State.stream (s : State) (e : Entry) : StreamRead := fun off n => s.readBytes (e.base + off) n

/-- The tile edge, 512 or 256. -/
def State.tileEdge (s : State) : Nat := s.shape.tile

end Sys2Proof.Machine
end

