-- ==== Sys2Proof/Machine/Recorder.lean ====
section
/-! DEFINITION. The event recorder (R375 to R386): making, queueing and placing records, wall marks, notes, the audit read, the
export and the erase. -/

namespace Sys2Proof.Machine

/-- The bytes of a record (R375): SEQ, OPTIME, CYCLE, SEV and CLASS, SOURCE, the payload, DEVICE_ID and the CRC. -/
def recordBytes (seq deviceId : Nat) (r : QueuedRec) : List Byte :=
  let body := leBytes 6 seq ++ leBytes 5 r.optime ++ leBytes 3 r.cycle ++ leBytes 1 (r.sev + 4 * r.cls)
    ++ leBytes 1 r.source ++ (r.payload ++ List.replicate 40 0#8).take 40 ++ leBytes 2 (deviceId % 4096) ++ leBytes 2 0
  body ++ leBytes 4 (crc32c body).toNat

/-- The number of log slots (R379). -/
def logSlots : Nat := 65536

/-- The record of a slot, none where it is free (R375). -/
def slotRec (l : Recorder) (i : Nat) : Option LogRec := sparseGet (fun _ => none) i l.slots

/-- The first free slot at or after slot i, wrapping, over `n` slots (R379). -/
def freeFrom (l : Recorder) : Nat → Nat → Option Nat
  | 0, _ => none
  | n + 1, i => if (slotRec l (i % logSlots)).isNone then some (i % logSlots) else freeFrom l n (i + 1)

/-- The slot of the lowest SEQ among the records of severity at most `sev` (R379). -/
def oldestOf (sev : Nat) : List (Nat × Option LogRec) → Option (Nat × Nat)
  | [] => none
  | (i, none) :: t => let _ := i; oldestOf sev t
  | (i, some r) :: t =>
    match oldestOf sev t with
    | none => if r.sev ≤ sev then some (r.seq, i) else none
    | some (q, j) => if r.sev ≤ sev ∧ r.seq < q then some (r.seq, i) else some (q, j)

/-- The slot a new record of a severity is written to (R379). -/
def chooseSlot (l : Recorder) (sev : Nat) : Option Nat :=
  let start := match l.newest with | none => 0 | some (_, i) => i
  match freeFrom l logSlots start with
  | some i => some i
  | none => (oldestOf sev l.slots).map Prod.snd

/-- A record counted as dropped (R379). -/
def dropRec (r : QueuedRec) (s : State) : State :=
  let ds := s.log.drops
  let s1 := { s with log := { s.log with
    seq := s.log.seq + 1
    drops := ds.set r.sev (satAdd 16 (ds.getD r.sev 0) 1) } }
  s1.raise F.LOG_EVENTS_DROPPED

/-- The writing of the oldest queued record begins: the next SEQ is committed and its slot chosen (R376, R379). A record with no
slot is dropped and the next one taken. `n` bounds the records looked at. -/
def startWrite : Nat → State → State
  | 0, s => s
  | n + 1, s =>
    match s.log.writing, s.log.erasing, s.log.queue with
    | none, none, r :: rest =>
      match chooseSlot s.log r.sev with
      | some i =>
        { s with log := { s.log with queue := rest, writing := some (s.log.seq, i, r), seq := s.log.seq + 1 } }
      | none => startWrite n (dropRec r { s with log := { s.log with queue := rest } })
    | _, _, _ => s

/-- A loss counted for the next LOSS record (R380). -/
def countLoss (s : State) : State :=
  let now := (s.rtime % 2 ^ 64).toNat
  let l := match s.log.lost with
    | none => { count := 1, first := now, last := now }
    | some l => { l with count := l.count + 1, last := now }
  { s with log := { s.log with lost := some l } }

/-- A record that finds room in the queue of 256 waits there; another is lost and counted (R380). -/
def queueRec (r : QueuedRec) (s : State) : State :=
  if s.log.queue.length < 256 then startWrite 256 { s with log := { s.log with queue := s.log.queue ++ [r] } }
  else ((countLoss s).bump F.LOG_QUEUE_LOST_COUNT).raise F.LOG_EVENTS_QUEUE_LOST

/-- A record of a class with its payload (R378), queued. -/
def makeRec (sev cls source : Nat) (payload : List Byte) (s : State) : State :=
  queueRec { sev := sev, cls := cls, source := source, payload := payload, optime := s.log.optime, cycle := s.log.cycle,
             again := false } s

/-- The regatta time as a 64-bit field. -/
def State.rt64 (s : State) : Nat := (s.rtime % 2 ^ 64).toNat

/-- COURSE_SEQ and TAG of the running course, 0 while none runs (R378). -/
def State.courseIds (s : State) : Nat × Nat :=
  match s.running with
  | none => (0, 0)
  | some e => (e.seq, e.tag)

/-- The payload of an EVENT record (R378): bytes 16 to 55. -/
def eventPayload (s : State) (addr risen : Nat) : List Byte :=
  let (cseq, tag) := s.courseIds
  leBytes 8 s.rt64 ++ leBytes 4 risen ++ leBytes 3 addr ++ leBytes 1 0 ++ leBytes 4 (s.reg addr).toNat
    ++ leBytes 2 cseq ++ leBytes 2 0 ++ leBytes 4 tag
    ++ leBytes 4 (s.fget F.STK_STROKE_STROKE + s.coxState * 2 ^ 25) ++ leBytes 4 (s.reg R.STK_HALT_CAUSE).toNat

/-- Whether records are made (R386): the recorder is enabled. -/
def State.logEn (s : State) : Bool := s.flag F.LOG_CTL_EN

/-- One LOSS record for what was lost, once the queue has fallen below 128 (R380, R386). -/
def lossRecord (s : State) : State :=
  match s.log.lost with
  | none => s
  | some l =>
    if s.logEn && decide (s.log.queue.length < 128) then
      makeRec 2 4 0 (leBytes 4 l.count ++ leBytes 8 l.first ++ leBytes 8 l.last) { s with log := { s.log with lost := none } }
    else s

/-- A slot whose write was not completed or not verified: it is free, and its bytes are not known (R375, R380, R386). -/
def tearSlot (i stamp : Nat) (l : Recorder) : Recorder :=
  { l with slots := sparsePut (fun _ => none) i none l.slots, torn := (i, stamp) :: l.torn.filter (fun p => p.1 != i) }

/-- The keel store finishes writing a record (R379, R380); `ok` says whether it verified. A first failure is written again in
the next slot, with its SEQ; a second loses the record. -/
def recordWritten (ok : Bool) (s : State) : State :=
  match s.log.writing with
  | none => s
  | some (seq, i, r) =>
    if ok then
      let rec' : LogRec := { seq := seq, sev := r.sev, bytes := recordBytes seq s.deviceId r }
      let s1 := { s with log := { s.log with
        slots := sparsePut (fun _ => none) i (some rec') s.log.slots
        torn := s.log.torn.filter (fun p => p.1 != i)
        newest := some (seq, i)
        writing := none } }
      startWrite 256 (lossRecord s1)
    else
      let (g, s) := s.fresh
      let l1 := tearSlot i g s.log
      if r.again then
        let s1 := countLoss { s with log := { l1 with writing := none } }
        startWrite 256 (lossRecord (((s1.bump F.LOG_QUEUE_LOST_COUNT).raise F.LOG_EVENTS_QUEUE_LOST).raise F.LOG_EVENTS_WRITE_FAIL))
      else
        match freeFrom l1 logSlots (i + 1) with
        | some j => { s with log := { l1 with writing := some (seq, j, { r with again := true }) } }
        | none =>
          match oldestOf r.sev l1.slots with
          | some (_, j) => { s with log := { l1 with writing := some (seq, j, { r with again := true }) } }
          | none => startWrite 256 (dropRec r { s with log := { l1 with writing := none } })

/-- A wall mark (R381). -/
def wallMark (s : State) : State :=
  let wall := s.pair F.LOG_WALL_LO_WALL F.LOG_WALL_HI_WALL
  let back := decide (wall < s.log.prevWall)
  let s1 := if s.logEn then
      makeRec 1 2 0 (leBytes 8 wall ++ leBytes 8 s.rt64 ++ leBytes 4 (s.fget F.LOG_WALL_TAG_TAG) ++ leBytes 1 (bitOf back)
        ++ leBytes 3 0 ++ leBytes 8 s.log.prevWall) s
    else s
  State.raiseIf back F.LOG_EVENTS_WALL_BACK { s1 with log := { s1.log with prevWall := wall } }

/-- A HOST record from the note registers (R378). -/
def noteRecord (s : State) : State :=
  if s.logEn then
    makeRec (s.fget F.LOG_NOTE_CFG_SEV) 3 0 ((List.range 10).flatMap (fun w => leBytes 4 (s.reg (R.LOG_NOTE w)).toNat)) s
  else s

/-- The operating tick (R376): OPTIME advances and is saved. -/
def optimeTick (s : State) : State :=
  { s with log := { s.log with optime := (s.log.optime + 1) % 2 ^ 40 } }

/-- ERASE (R385): refused while an export runs; otherwise every slot is to be marked free. -/
def eraseGo (s : State) : State :=
  if s.log.exporting.isSome then s.raise F.LOG_EVENTS_ERASE_REFUSED
  else if s.log.erasing.isSome then s
  else
    let newest := match s.log.newest with | none => 0 | some (q, _) => q
    { s with log := { s.log with erasing := some newest } }

/-- The erase ends (R385): every slot is free, the drop counts are clear, and the first record is the recorder's own, made even
while EN is 0, ahead of the records that waited. -/
def eraseDone (s : State) : State :=
  match s.log.erasing with
  | none => s
  | some newest =>
    let own : QueuedRec := { sev := 3, cls := 3, source := 0, payload := leBytes 6 newest ++ leBytes 2 0, optime := s.log.optime,
                             cycle := s.log.cycle, again := false }
    let s1 := { s with log := { s.log with
      slots := [], torn := [], newest := s.log.newest.map (fun p => (p.1, 0)), drops := [0, 0, 0, 0], erasing := none, writing := none
      queue := own :: (match s.log.writing with | none => s.log.queue | some (_, _, r) => r :: s.log.queue) } }
    (startWrite 256 s1).raise F.LOG_EVENTS_ERASED

/-- The record with a SEQ, if a slot holds it. -/
def findSeq (l : Recorder) (q : Nat) : Option LogRec :=
  (l.slots.find? (fun p => match p.2 with | some r => r.seq == q | none => false)).bind Prod.snd

/-- The newest SEQ; 0 where no record is held. -/
def newestSeq (l : Recorder) : Nat := match l.newest with | none => 0 | some (q, _) => q

/-- The RESULT of an audit read (R383): 0 FOUND, 1 GONE, 2 NOT_YET. -/
def auditResult (l : Recorder) (q : Nat) : Nat :=
  if (findSeq l q).isSome then 0 else if q ≤ newestSeq l ∧ (l.writing.map Prod.fst) ≠ some q then 1 else 2

/-- AUDIT_GO (R383): VALID clears and the read begins. -/
def auditGo (s : State) : State :=
  let q := s.pair F.LOG_AUD_SEQ_LO_SEQ F.LOG_AUD_SEQ_HI_SEQ
  { s.fset F.LOG_AUD_STATUS_VALID 0 with log := { s.log with audit := some q } }

/-- The audit read completes (R383). -/
def auditDone (s : State) : State :=
  match s.log.audit with
  | none => s
  | some q =>
    let bs := match findSeq s.log q with | some r => r.bytes | none => List.replicate 64 0#8
    let s1 := (List.range 16).foldl (fun t w => t.setReg (R.LOG_AUD w) (BitVec.ofNat 32 (leAt (4 * w) 4 bs))) s
    let s2 := (s1.fset F.LOG_AUD_STATUS_RESULT (auditResult s.log q)).fset F.LOG_AUD_STATUS_VALID 1
    { s2 with log := { s2.log with audit := none } }

/-- The result of an export (R384). -/
def exportResult (code count gaps last : Nat) (s : State) : State :=
  let (_, s1) := s.postResult R.LOG_EXP_RESULT
    [(R.LOG_EXP_RESULT, BitVec.ofNat 32 (code * 16)), (R.LOG_EXP_COUNT, BitVec.ofNat 32 count),
     (R.LOG_EXP_GAPS, BitVec.ofNat 32 gaps), (R.LOG_EXP_LAST_LO, BitVec.ofNat 32 last),
     (R.LOG_EXP_LAST_HI, BitVec.ofNat 32 (last / 2 ^ 32))]
  s1.raise F.LOG_EVENTS_EXPORT_DONE

end Sys2Proof.Machine
end

