-- ==== Sys2Proof/Machine/Settle.lean ====
section
/-! DEFINITION. What every access settles: occurrences of event sources, their messages and records (R369 to R372, R377). -/

namespace Sys2Proof.Machine

/-- Whether PEND of a source is set (R370). -/
def State.pend (s : State) (n : Nat) : Bool := bitAt (n % 32) (s.reg (R.EVT_PEND (n / 32))).toNat

/-- LEVEL of a source (R370): some member bit is 1. -/
def State.level (s : State) (e : EventSource) : Bool :=
  e.members.any (fun m => ((s.reg m.1).toNat &&& m.2) != 0)

/-- The field of a source's PEND bit. -/
def pendBit (n : Nat) : Fld := .mk (R.EVT_PEND (n / 32)) (n % 32) 1

/-- A message on a vector, or its pending bit while the function or the vector is masked (R371). -/
def sendMsi (n : Nat) (s : State) : State :=
  if s.msix.enable && !s.msix.fmask && !s.msix.masked.contains n then s.emit (.msix n)
  else { s with evt := { s.evt with pba := n :: s.evt.pba.filter (fun m => m != n) } }

/-- The members of a source whose bits rose between two states, each with the bits that rose (R369). -/
def risenMembers (s0 s1 : State) (e : EventSource) : List (Nat × Nat) :=
  e.members.filterMap (fun m =>
    let r := (s1.reg m.1 &&& ~~~ s0.reg m.1).toNat &&& m.2
    if r = 0 then none else some (m.1, r))

/-- One occurrence of a source (R370, R371, R377). -/
def occur (e : EventSource) (forced : Bool) (risen : List (Nat × Nat)) (s : State) : State :=
  let was := s.pend e.src
  let s1 := (s.bump (F.EVT_SRC_COUNT_COUNT e.src)).raise (pendBit e.src)
  let s2 := if !was && s.flag (F.EVT_SRC_CFG_MSG_EN e.src) then sendMsi e.src s1 else s1
  if s.flag (F.EVT_SRC_CFG_LOG_EN e.src) && s.logEn then
    let src := e.src + (if forced then 128 else 0)
    let regs := if forced && risen.isEmpty then [(0, 0)] else risen
    regs.foldl (fun t m => makeRec (s.fget (F.EVT_SRC_CFG_SEV e.src)) 1 src (eventPayload t m.1 m.2) t) s2
  else s2

/-- The occurrences between two states, source by source. -/
def settlePass (s0 s1 : State) : State :=
  let forced := s1.evt.forced
  eventSources.foldl (fun t e =>
    let risen := risenMembers s0 s1 e
    let f := forced.contains e.src
    if risen.isEmpty && !f then t else occur e f risen t) { s1 with evt := { s1.evt with forced := [] } }

/-- Whether ALERT_N is asserted (R372). -/
def State.alert (s : State) : Bool :=
  s.flag F.EVT_CTL_ALERT_TEST ||
    eventSources.any (fun e => s.pend e.src && s.flag (F.EVT_SRC_CFG_ALERT_EN e.src))

/-- Settle an access: the occurrences it made, those that the recorder's own events made in turn (all of them members of one
source, so that three passes reach them), and the alert pin. -/
def settle (s0 s1 : State) : State :=
  let p1 := settlePass s0 s1
  let p2 := settlePass s1 p1
  let p3 := settlePass p1 p2
  let on := p3.alert
  let p4 := if on != s0.evt.alertOn then p3.emit (.alert on) else p3
  { p4 with evt := { p4.evt with alertOn := on } }

/-- A state as an access finds it: nothing answered, sent or forced yet. -/
def State.begin (s : State) : State := { s with out := [], resp := .none, evt := { s.evt with forced := [] } }

/-- How every meaning ends: an operand outside its range is refused by name; otherwise the effect on a state that has answered
and sent nothing yet, settled. No effect reaches the queue of commands. -/
def done (wellFormed : Bool) (f : State → State) (s : State) : Host.Outcome State Fault Refusal :=
  if wellFormed then .next { settle s.begin (f s.begin) with pending := s.pending } else .refused .illFormed

/-- Whether recording an occurrence writes the register at an address: EVT_PEND, EVT_SRC_COUNT, LOG_EVENTS and LOG_QUEUE_LOST. -/
def recorderReg (a : Nat) : Bool :=
  decide (0x040020 ≤ a ∧ a < 0x040030) || decide (0x040300 ≤ a ∧ a < 0x040500) || a == 0x050008 || a == 0x05002C

/-- PEND_CLEAR (R370, R371): a W1C write to a PEND word; the pending bit of a cleared source clears with it. -/
def pendClear (w : Nat) (v : Word) (s : State) : State :=
  let s1 := s.setReg (R.EVT_PEND w) (s.reg (R.EVT_PEND w) &&& ~~~ v)
  { s1 with evt := { s1.evt with pba := s1.evt.pba.filter (fun n => n / 32 != w || !bitAt (n % 32) v.toNat) } }

/-- EVT_FORCE (R370): a forced occurrence of each source named; a reserved source is ignored (R373). -/
def evtForce (w : Nat) (v : Word) (s : State) : State :=
  let srcs := (List.range 32).filter (fun i => bitAt i v.toNat && (eventSource (32 * w + i)).isSome)
  { s with evt := { s.evt with forced := s.evt.forced ++ srcs.map (fun i => 32 * w + i) } }

/-- MSIX_UNMASK (R371): the vector is unmasked; a message pending for it is sent if PEND is still 1. -/
def msixUnmask (n : Nat) (s : State) : State :=
  let s1 := { s with msix := { s.msix with masked := s.msix.masked.filter (fun m => m != n) } }
  if s1.evt.pba.contains n && s1.msix.enable && !s1.msix.fmask then
    let s2 := { s1 with evt := { s1.evt with pba := s1.evt.pba.filter (fun m => m != n) } }
    if s1.pend n then s2.emit (.msix n) else s2
  else s1

end Sys2Proof.Machine
end

