-- ==== Sys2Proof/Machine/Store.lean ====
section
/-! DEFINITION. What reads and writes of HBM do to it (R305, R306, R314, R324), the keel store's bytes, repair proposals (R325, R326) and
the FLIP of R327 on an HBM word. -/

namespace Sys2Proof.Machine

/-! ### The keel store's bytes -/

/-- One byte of the keel store outside the log; an erased byte reads 0xFF (log entry 7). -/
def State.keelByte (s : State) (a : Nat) : Byte := sparseGet (fun _ => 0xFF#8) a s.keel.bytes

/-- Bytes of the keel store. -/
def State.keelBytes (s : State) (a n : Nat) : List Byte := (List.range n).map (fun i => s.keelByte (a + i))

/-- Bytes written to the keel store; a rewritten word's code is whole again. -/
def keelWrite (a : Nat) (bs : List Byte) (s : State) : State :=
  let ps := ((List.range bs.length).zip bs).map (fun p => (a + p.1, p.2))
  { s with keel := {
    bytes := sparsePutAll (fun _ => 0xFF#8) s.keel.bytes ps
    bad := s.keel.bad.filter (fun w => !(wordsOf a bs.length).contains w) } }

/-- Whether a range of the keel store holds a word that its code cannot correct (R431). -/
def State.keelBad (s : State) (a n : Nat) : Bool := (wordsOf a n).any (fun w => s.keel.bad.contains w)

/-! ### Repair proposals -/

/-- The place of the soft repair list in the keel store (R431). -/
def repairList : Nat := 0x1C01000

/-- Whether an entry of the soft repair list is free (R325). -/
def State.repairFree (s : State) (i : Nat) : Bool := (s.keelBytes (repairList + 16 * i) 16).all (fun b => b == 0xFF#8)

/-- Entries of the soft repair list in use. -/
def State.repairUsed (s : State) : Nat := ((List.range 512).filter (fun i => !s.repairFree i)).length

/-- The held proposal is appended to the list (R326), or dropped where the list is full. -/
def saveRepair (s : State) : State :=
  if !s.flag F.SRM_REPAIR_CAND_VALID then s
  else
    let body := leBytes 1 (s.fget F.SRM_REPAIR_CAND_KIND) ++ leBytes 1 (s.fget F.SRM_REPAIR_CAND_TRIGGER)
      ++ leBytes 2 (s.fget F.SRM_REPAIR_CAND_MACRO_MACRO) ++ leBytes 4 (s.fget F.SRM_REPAIR_CAND_ADDR_ADDR)
      ++ leBytes 3 s.log.cycle ++ [0#8]
    let s1 := s.setReg R.SRM_REPAIR_CAND 0#32
    match (List.range 512).find? (fun i => s.repairFree i) with
    | none => s1.raise F.SRM_EVENTS_REPAIR_FULL
    | some i => (keelWrite (repairList + 16 * i) (body ++ leBytes 4 (crc32c body).toNat) s1).raise F.SRM_EVENTS_REPAIR_SAVED

/-- A repair proposed (R326): dropped while one is held, and saved at once with AUTO_SAVE. -/
def propose (kind trigger which : Nat) (addr : Word) (s : State) : State :=
  if s.flag F.SRM_REPAIR_CAND_VALID then s
  else
    let s1 := ((s.fset F.SRM_REPAIR_CAND_KIND kind).fset F.SRM_REPAIR_CAND_TRIGGER trigger).fset F.SRM_REPAIR_CAND_VALID 1
    let s2 := (s1.fset F.SRM_REPAIR_CAND_MACRO_MACRO which).fset F.SRM_REPAIR_CAND_ADDR_ADDR addr.toNat
    let s3 := s2.raise F.SRM_EVENTS_REPAIR_CAND
    if s.flag F.SRM_CTL_AUTO_SAVE then saveRepair s3 else s3

/-- A row repair of an on-chip memory: 0 tables, 1 islet local memory, 2 wake buffer; the spec gives no macro map (log entry 2). -/
def proposeRow (trigger mem addr : Nat) (s : State) : State :=
  let (m, r) := Config.sramPlace mem addr
  propose 1 trigger m r s

/-- An HBM row repair (R325, R326). -/
def proposeHbm (trigger addr : Nat) (s : State) : State := propose 3 trigger (addr / 256 % 128) (Config.hbmRow addr) s

/-! ### Reads of HBM -/

/-- The counts of a corrected word (R314). -/
def noteCe (w : Nat) (s : State) : State :=
  ((s.bump F.HBM_CE_COUNT_COUNT).bump (F.HBM_STK_CE_COUNT (8 * w / 256 % 128 / 32))).raise F.HBM_EVENTS_CE

/-- The counts of an uncorrectable word (R314). -/
def noteUe (scrub : Bool) (port w : Nat) (s : State) : State :=
  let s1 := (s.bump F.HBM_UE_COUNT_COUNT).raise F.HBM_EVENTS_UE
  let s2 := s1.setPair F.HBM_ERR_ADDR_LO_ADDR F.HBM_ERR_ADDR_HI_ADDR (8 * w)
  s2.setReg R.HBM_ERR_INFO (BitVec.ofNat 32 (port % 16 + bitOf scrub * 2 ^ 4 + 2 ^ 31))

/-- The counts that a word read raises (R314). -/
def State.countWord (s : State) (scrub : Bool) (port w : Nat) : State :=
  match s.wordClass w with
  | .clean => s
  | .corrected _ => noteCe w s
  | .uncorrectable => noteUe scrub port w s

/-- A corrected row is counted, and proposed from its fourth correction since the cold reset on (R326). -/
def countRow (w : Nat) (s : State) : State :=
  let key := (Config.hbmRow (8 * w)).toNat * 128 + 8 * w / 256 % 128
  let n := sparseGet (fun _ => 0) key s.mem.rowCe + 1
  let s1 := { s with mem := { s.mem with rowCe := sparsePut (fun _ => 0) key n s.mem.rowCe } }
  if 4 ≤ n then proposeHbm 6 (8 * w) s1 else s1

/-- A word read: its counts and the proposals of R326, without the write-back. -/
def noteRead (scrub : Bool) (port w : Nat) (s : State) : State :=
  let s1 := s.countWord scrub port w
  match s.wordClass w with
  | .clean => s1
  | .uncorrectable => if s.hbmChk w = 3 ∨ !s.hbmReady then s1 else proposeHbm 5 (8 * w) s1
  | .corrected _ => countRow w s1

/-! ### Writes of HBM -/

/-- Whether FLIP is armed on an address of a memory, with its mask (R327). -/
def State.armedFlip (s : State) (target : Nat) (hit : Nat → Bool) : Option (Nat × Nat) :=
  let a := s.pair F.SRM_CHK_ADDR_LO_ADDR F.SRM_CHK_ADDR_HI_ADDR
  if s.fget F.SRM_CHK_CTL_MODE = 1 ∧ s.fget F.SRM_CHK_CTL_TARGET = target ∧ hit a then some (a, s.fget F.SRM_CHK_CTL_FLIP) else none

/-- The check bits of a word written: an armed FLIP acts on them (R327). -/
def State.putChk (s : State) (w m : Nat) : State :=
  let put := fun (v : Nat) => { s with hbm := { s.hbm with chk := sparsePut (fun _ => 0) w v s.hbm.chk } }
  match s.armedFlip 3 (fun a => a / 8 == w) with
  | none => put m
  | some (_, f) => (put (m ^^^ f % 256)).fset F.SRM_CHK_CTL_MODE 0

/-- The undefined stretches without an interval. -/
def carve (lo hi : Nat) (hs : List Haze) : List Haze :=
  hs.flatMap (fun h =>
    if h.base + h.len ≤ lo ∨ hi ≤ h.base then [h]
    else (if h.base < lo then [{ h with len := lo - h.base }] else [])
      ++ (if hi < h.base + h.len then [{ h with base := hi, len := h.base + h.len - hi }] else []))

/-- The bytes of a word that a write leaves as they are, as the merge reads them (R306). -/
def State.mergeBytes (s : State) (w : Nat) (bytes : List (Nat × Byte)) : List (Nat × Byte) :=
  ((List.range 8).map (fun i => 8 * w + i)).filterMap (fun a => if bytes.any (fun p => p.1 == a) then none else some (a, s.readByte a))

/-- All eight bytes of a word stored, with a mask on its check bits. -/
def State.storeWord (s : State) (w m : Nat) (bytes : List (Nat × Byte)) : State :=
  ({ s with hbm := { s.hbm with bytes := sparsePutAll hbmDefault s.hbm.bytes bytes
                                hazes := carve (8 * w) (8 * w + 8) s.hbm.hazes } }).putChk w m

/-- One word written whole or in part by a port (R306): a partial write reads the word and merges; where that read is uncorrectable the word
is left poisoned. -/
def State.hbmPutWord (s : State) (port w : Nat) (bytes : List (Nat × Byte)) : State :=
  let rest := s.mergeBytes w bytes
  if rest.isEmpty then s.storeWord w 0 bytes
  else
    let bad := s.wordClass w == .uncorrectable
    State.raiseIf bad F.HBM_EVENTS_POISON_WRITE ((noteRead false port w s).storeWord w (if bad then 3 else 0) (rest ++ bytes))

/-- Bytes written at an address by a port; discarded while HBM is unusable (R307) and beyond 96 GiB. -/
def State.hbmWrite (s : State) (port a : Nat) (bs : List Byte) : State :=
  if !s.hbmReady then s
  else
    let ps := ((List.range bs.length).zip bs).map (fun p => (a + p.1, p.2))
    (wordsOf a bs.length).foldl (fun t w =>
      if 8 * w < hbmSize then t.hbmPutWord port w (ps.filter (fun p => p.1 / 8 == w)) else t) s

/-- The corrective write-back of a word (R314, R324). -/
def State.correctWord (s : State) (w : Nat) : State :=
  match s.wordClass w with
  | .corrected _ => s.storeWord w 0 (s.mergeBytes w [])
  | _ => s

/-- A word that reached its port: a mark on it is spent. -/
def spendMark (port w : Nat) (s : State) : State :=
  { s with mem := { s.mem with marked := s.mem.marked.filter (fun p => p != (port, w)) } }

/-- One HBM word read for a port (R314), corrected in place where its code allows. -/
def readHbmWord (scrub : Bool) (port w : Nat) (s : State) : State :=
  spendMark port w ((noteRead scrub port w s).correctWord w)

/-- The requests that a range takes, one for each 256-byte stride it touches (R304, R345). -/
def stridesOf (a n : Nat) : Nat := if n = 0 then 0 else (a + n - 1) / 256 + 1 - a / 256

/-- The reads of a port that return with a range: as many are outstanding no longer (R28). -/
def returnReads (port a n : Nat) (s : State) : State :=
  { s with arb := { s.arb with reads := s.arb.reads.set port (s.arb.reads.getD port 0 - stridesOf a n) } }

/-- The words of a range read for a port. -/
def readHbm (port a n : Nat) (s : State) : State :=
  returnReads port a n ((wordsOf a n).foldl (fun t w => readHbmWord false port w t) s)

/-! ### Ranges of HBM -/

/-- A range of HBM replaced as a whole: nothing listed in it, its undefined stretches as given. An armed FLIP acts on its word. -/
def State.fillRange (s : State) (base len : Nat) (hazes : List Haze) : State :=
  if !s.hbmReady then s
  else
    let s1 := { s with hbm := {
      bytes := s.hbm.bytes.filter (fun p => decide (p.1 < base ∨ base + len ≤ p.1))
      chk := s.hbm.chk.filter (fun p => decide (8 * p.1 < base ∨ base + len ≤ 8 * p.1))
      hazes := carve base (base + len) s.hbm.hazes ++ hazes } }
    match s1.armedFlip 3 (fun a => decide (base ≤ a / 8 * 8 ∧ a / 8 * 8 < base + len)) with
    | none => s1
    | some (a, _) => s1.putChk (a / 8) 0

/-- A range of HBM zeroed with valid check bits: an unlisted byte reads 0 (R328, R329). -/
def zeroHbm (base len : Nat) (s : State) : State := s.fillRange base len []

/-- A range of HBM left undefined; its check bits too where `raw` says so. -/
def hazeHbm (raw : Bool) (base len : Nat) (s : State) : State :=
  if len = 0 then s
  else
    let (g, s1) := s.fresh
    s1.fillRange base len [{ base := base, len := len, stamp := g, raw := raw }]

end Sys2Proof.Machine
end

