-- ==== Sys2Proof/Machine/Shadow.lean ====
section
/-! DEFINITION. Bank controls of the double-banked tables (R129, R130) and the beam map's shadow in HBM (R139, R142 to R144): what a
write of any requester to HBM does to it. -/

namespace Sys2Proof.Machine

/-- The bank control of a table. -/
def State.bank (s : State) : TableId → Bank
  | .krn => s.banks.krn
  | .tgn => s.banks.tgn
  | .map => s.banks.map
  | .wave => s.banks.wave
  | .lanes => s.banks.lanes

/-- The bank control of a table replaced. -/
def State.setBank (s : State) (t : TableId) (b : Bank) : State :=
  match t with
  | .krn => { s with banks := { s.banks with krn := b } }
  | .tgn => { s with banks := { s.banks with tgn := b } }
  | .map => { s with banks := { s.banks with map := b } }
  | .wave => { s with banks := { s.banks with wave := b } }
  | .lanes => { s with banks := { s.banks with lanes := b } }

/-- Bit IGNORED of a table's bank control register (R130). -/
def ignoredBit : TableId → Fld
  | .krn => F.DOS_KRN_BANK_IGNORED
  | .tgn => F.DOS_TGN_BANK_IGNORED
  | .map => F.CRW_MAP_BANK_IGNORED
  | .wave => F.STK_WAVE_BANK_IGNORED
  | .lanes => F.BLN_MAP_BANK_IGNORED

/-- The IGNORED report of a table (R130, R144, R195, R227). -/
def tableIgnored (t : TableId) (s : State) : State :=
  let s1 := (s.raise F.DOS_EVENTS_TBL_WRITE_IGNORED).raise (ignoredBit t)
  match t with
  | .krn | .tgn => s1
  | .map => s1.raise F.CRW_EVENTS_MAP_IGNORED
  | .wave => s1.raise F.STK_EVENTS_WT_IGNORED
  | .lanes => s1.raise F.BLN_EVENTS_MAP_IGNORED

/-- The HBM address of the shadow bank (R139). -/
def State.shadowBase (s : State) : Nat := s.pair F.CRW_MAP_SHADOW_LO_ADDR F.CRW_MAP_SHADOW_HI_ADDR

/-- The size of a beam map bank. -/
def mapBytes : Nat := 0x800000

/-- Entry i of the shadow as HBM holds it. -/
def State.shadowEntry (s : State) (i : Nat) : Nat := leNat (s.hbmBytes (s.shadowBase + 8 * i) 8)

/-- The entries of the shadow that a range of HBM touches in any byte (R143). -/
def shadowTouched (s : State) (a n : Nat) : List Nat :=
  let b := s.shadowBase
  let lo := max a b
  let hi := min (a + n) (b + mapBytes)
  if hi ≤ lo then [] else (List.range ((hi - 1 - b) / 8 + 1 - (lo - b) / 8)).map (fun i => (lo - b) / 8 + i)

/-- A list with one key added in rising order. -/
def insertKey (k : Nat) : List Nat → List Nat
  | [] => [k]
  | h :: t => if k < h then k :: h :: t else if k = h then h :: t else h :: insertKey k t

/-- An entry of the shadow marked and checked again (R142, R143). -/
def markEntry (i : Nat) (s : State) : State :=
  let k := s.banks.map
  let s1 := if k.allMarked then s else s.setBank .map { k with marks := insertKey i k.marks }
  let inv := if entryValid (s.shadowEntry i) then s.crw.invalid.filter (fun j => j != i) else insertKey i s.crw.invalid
  { s1 with crw := { s1.crw with invalid := inv } }

/-- Whether a write to the shadow bank of the beam map is ignored (R130, R131, R144). -/
def State.shadowClosed (s : State) : Bool := s.banks.map.pending || s.banks.map.cloning || s.crw.exchanging

/-- A range of HBM written by a requester other than the exchange (R143, R144): its part inside the shadow area is ignored while a commit is
pending, and otherwise marks the entries it touches. `put a n` writes the part of `n` bytes at `a`. -/
def clientRange (a n : Nat) (put : Nat → Nat → State → State) (s : State) : State :=
  let es := shadowTouched s a n
  if es.isEmpty then put a n s
  else if s.shadowClosed then
    let past := max a (s.shadowBase + mapBytes)
    tableIgnored .map (put past (a + n - past) (put a (s.shadowBase - a) s))
  else es.foldl (fun t i => markEntry i t) (put a n s)

/-- Bytes written to HBM by a port other than the exchange. -/
def clientWrite (port a : Nat) (bs : List Byte) (s : State) : State :=
  clientRange a bs.length (fun x n t => t.hbmWrite port x ((bs.drop (x - a)).take n)) s

/-- A range that a stopped writer leaves undefined (R77, R82, R126, R131). -/
def scramble (a n : Nat) (s : State) : State := clientRange a n (hazeHbm false) s

end Sys2Proof.Machine
end

