-- ==== Sys2Proof/Machine/Journal.lean ====
section
/-! DEFINITION. The journal (R292, R293) and the posting of results (R300, R301). -/

namespace Sys2Proof.Machine

/-- One journal record (R292, R293): its KIND, the course it belongs to, qwords 3 and 4, and INJECTED. The device writes it at
base + 64 × (SEQ mod ring records). -/
def journal (kind : Nat) (ids : Nat × Nat) (q3 q4 : Nat) (injected : Bool) (s : State) : State :=
  if s.govFlag F.INT_CTL_JRNL_EN then
    let seq := s.pair F.INT_JRNL_SEQ_LO_SEQ F.INT_JRNL_SEQ_HI_SEQ
    let base := s.govPair F.INT_JRNL_BASE_LO_ADDR F.INT_JRNL_BASE_HI_ADDR
    let recs := 2 ^ s.gov F.INT_JRNL_SIZE_LOG2 / 64
    let body := leBytes 8 (seq % 2 ^ 48 + kind % 256 * 2 ^ 48 + bitOf injected * 2 ^ 56) ++ leBytes 8 s.rt64
      ++ leBytes 8 (ids.1 % 65536 + ids.2 % 2 ^ 32 * 2 ^ 32) ++ leBytes 8 q3 ++ leBytes 8 q4 ++ List.replicate 24 0#8
    (clientWrite 9 (base + 64 * (seq % recs)) body s).setPair F.INT_JRNL_SEQ_LO_SEQ F.INT_JRNL_SEQ_HI_SEQ ((seq + 1) % 2 ^ 48)
  else s

/-- A journal record of the running course. -/
def journalRun (kind q3 q4 : Nat) (injected : Bool) (s : State) : State := journal kind s.courseIds q3 q4 injected s

/-- The signature register of a beam lane as the result gives it (R296): complemented. -/
def State.signature (s : State) (n : Nat) : DWord :=
  ~~~ (sparseGet (fun _ => 0xFFFFFFFFFFFFFFFF#64) n s.int.sigs)

/-- The course result and the COURSE_END record of the course of an entry (R297, R301), with OUTCOME code `o`: 0 DONE, 1 LAYOUT,
2 ABANDONED, 3 TILE_LIMIT, 4 WAKE_HARD, 5 ABORTED. PARTIAL says that not every stroke
fired. -/
def postCourseResult (o : Nat) (e : Entry) (s : State) : State :=
  let last := match e.head with | none => 0 | some h => s.shape.lastStroke h.lengthPx
  let whole := s.stk.lastFired == some last
  let lf := s.stk.lastFired.getD 0
  let word := bitOf (!whole) * 8 + bitOf s.int.suspect * 16 + o * 32 + e.idx * 256 + e.pass * 2048
    + (if o = 2 then s.fget F.COX_ABANDON_REASON else 0) * 2 ^ 14
  let recatches := s.fget F.COX_RECATCHES_IN_COURSE
  let fields := [(R.INT_RESULT, BitVec.ofNat 32 word), (R.INT_RESULT_TAG, BitVec.ofNat 32 e.tag),
      (R.INT_RESULT_SEQ, BitVec.ofNat 32 e.seq),
      (R.INT_RESULT_LAST, BitVec.ofNat 32 (lf + bitOf s.stk.lastFired.isSome * 2 ^ 31)),
      (R.INT_RESULT_COUNTS, BitVec.ofNat 32 (recatches + min s.int.recomps 65535 * 65536))]
    ++ (List.range 128).flatMap (fun n =>
      let v := if n < s.shape.beamLanes then (s.signature n).toNat else 0
      [(R.INT_SIG_LO n, BitVec.ofNat 32 v), (R.INT_SIG_HI n, BitVec.ofNat 32 (v / 2 ^ 32))])
  let (lost, s1) := s.postResult R.INT_RESULT fields
  let s2 := State.raiseIf lost F.INT_EVENTS_RESULT_OVERRUN (s1.raise F.INT_EVENTS_RESULT)
  journal 10 (e.seq, e.tag) o (lf + recatches % 65536 * 2 ^ 25) false s2

end Sys2Proof.Machine
end

