-- ==== Sys2Proof/Machine/Strait.lean ====
section
/-! DEFINITION. Strait links: packets, credits and resends (R353 to R359), routing (R358), broadcasts (R364 to R367). -/

namespace Sys2Proof.Machine

/-- The words of a packet with its CRC word and pad (R356). -/
def packetWords (p : Packet) : List DWord :=
  let p0 := 0xE1 + p.vc % 4 * 2 ^ 8 + p.typ % 16 * 2 ^ 10 + bitOf p.bcast * 2 ^ 14
    + (if p.bcast then 0 else p.dest % 4096) * 2 ^ 16 + p.src % 4096 * 2 ^ 28 + p.lseq % 256 * 2 ^ 40
    + p.payload.length % 256 * 2 ^ 48 + p.hops % 256 * 2 ^ 56
  let body := [BitVec.ofNat 64 p0, p.ttx,
      BitVec.ofNat 64 (p.group % 16 + p.seq % 65536 * 2 ^ 16 + p.tag % 2 ^ 32 * 2 ^ 32), p.p3] ++ p.payload
  body ++ [BitVec.setWidth 64 (crc32c (wordBytes body)), 0#64, 0#64, 0#64]

/-- The packet that received words spell, none where its form or its CRC is wrong (R356, R357). -/
def readPacket (ws : List DWord) : Option Packet :=
  match ws with
  | p0 :: p1 :: p2 :: p3 :: rest =>
    let v := p0.toNat
    let len := bits 48 8 v
    let body := ws.take (4 + len)
    if bits 0 8 v = 0xE1 ∧ len ≤ 128 ∧ len < rest.length ∧ blockCrcOk (ws.take (5 + len)) ∧ body.length = 4 + len then
      some { vc := bits 8 2 v, typ := bits 10 4 v, bcast := bitAt 14 v, dest := bits 16 12 v, src := bits 28 12 v,
             lseq := bits 40 8 v, hops := bits 56 8 v, ttx := p1, group := bits 0 4 p2.toNat, seq := bits 16 16 p2.toNat,
             tag := bits 32 32 p2.toNat, p3 := p3, payload := rest.take len, owed := none }
    else none
  | _ => none

/-- A link word (R356): the highest LSEQ received in order and the credits returned. -/
def linkWord (lseq c0 c1 c2 : Nat) : DWord :=
  BitVec.ofNat 64 (0x78 + lseq % 256 * 2 ^ 8 + c0 % 256 * 2 ^ 16 + c1 % 256 * 2 ^ 24 + c2 % 256 * 2 ^ 32)

/-- Link k. -/
def State.link (s : State) (k : Nat) : StraitLink := s.str.links.getD k linkReset

/-- Link k changed. -/
def State.setLink (s : State) (k : Nat) (l : StraitLink) : State := { s with str := { s.str with links := s.str.links.set k l } }

/-- Division and position of an ID (R23, R353). -/
def divOf (id : Nat) : Nat := id / 64 % 64

/-- The position of an ID. -/
def posOf (id : Nat) : Nat := id % 64

/-- The ring sizes in force (R353). -/
def State.divSize (s : State) : Nat := max 1 (s.gov F.STR_DIV_SIZE_N)

/-- Divisions in force (R353). -/
def State.regSize (s : State) : Nat := max 1 (s.gov F.STR_REG_SIZE_N)

/-- The ID of the neighbour on a link (R353); none where the ring has size 1. -/
def neighbour (s : State) (k : Nat) : Option Nat :=
  let me := s.deviceId
  let ds := s.divSize
  let rs := s.regSize
  match k with
  | 0 => if ds ≤ 1 then none else some (64 * divOf me + (posOf me + 1) % ds)
  | 1 => if ds ≤ 1 then none else some (64 * divOf me + (posOf me + ds - 1) % ds)
  | 2 => if rs ≤ 1 then none else some (64 * ((divOf me + 1) % rs) + posOf me)
  | _ => if rs ≤ 1 then none else some (64 * ((divOf me + rs - 1) % rs) + posOf me)

/-- Whether link k carries packets: one of its lanes is locked and it is UP (R355). -/
def State.linkUp (s : State) (k : Nat) : Bool := s.fget (F.STR_LINK_STATUS_STATE k) == 2

/-- The direction round a ring of size n from a to b, the shorter one, N on a tie (R358): true is N. -/
def ringNorth (n a b : Nat) : Bool :=
  let up := (b + n - a) % n
  decide (up ≤ n - up)

/-- Whether the hop from a in a direction crosses the ring's dateline (R358). -/
def crossesDateline (n a : Nat) (north : Bool) : Bool := if north then a + 1 == n else a == 0

/-- The link and VC on which a packet for `dest` leaves this device, none when it is the destination (R358). `vc` is the VC of its
arrival, and `ring` the ring it arrived on, 0 division, 1 regatta, none for the device's own. -/
def routeOf (s : State) (dest vc : Nat) (ring : Option Nat) : Option (Nat × Nat) :=
  let me := s.deviceId
  let step := fun (r n a b : Nat) =>
    let north := ringNorth n a b
    let base := if ring = some r then vc else if vc = 2 then 2 else 0
    let v := if base = 2 then 2 else if crossesDateline n a north then 1 else base
    (2 * r + (if north then 0 else 1), v)
  if divOf dest ≠ divOf me then some (step 1 s.regSize (divOf me) (divOf dest))
  else if posOf dest ≠ posOf me then some (step 0 s.divSize (posOf me) (posOf dest))
  else none

/-- The next packet that a link may send: VC 2 first, then VC 0 and 1 in queue order, each with a credit (R357). -/
def nextPacket (l : StraitLink) : Option Packet :=
  if 16 ≤ l.unacked.length then none
  else match l.queue.find? (fun p => p.vc == 2 && 0 < l.credits.getD 2 0) with
    | some p => some p
    | none => l.queue.find? (fun p => p.vc != 2 && 0 < l.credits.getD p.vc 0 &&
        ((l.queue.find? (fun q => q.vc == p.vc)) == some p))

/-- A link word of link k, with the highest LSEQ received in order there and the packet slots that it returns, one for the VC named if
any (R356, R357). -/
def sendLinkWord (k : Nat) (vc : Option Nat) (s : State) : State :=
  let n := fun (v : Nat) => bitOf (vc == some v)
  s.emit (.straitWords k [linkWord ((s.link k).rxSeq + 255) (n 0) (n 1) (n 2)])

/-- The slot that a packet held on the link it came on is returned as it leaves (R357, log entry 117). -/
def returnSlot (owed : Option (Nat × Nat)) (s : State) : State :=
  match owed with
  | some (j, v) => if s.linkUp j then sendLinkWord j (some v) s else s
  | none => s

/-- Packets sent while a link has one that may go; `n` bounds them (R357). T_TX is set as the packet leaves. -/
def pumpLink (k : Nat) : Nat → State → State
  | 0, s => s
  | n + 1, s =>
    let l := s.link k
    if s.linkUp k then
      match nextPacket l with
      | none => s
      | some p =>
        let q := { p with lseq := l.txSeq, ttx := BitVec.ofNat 64 s.rt64, owed := none }
        let l1 := { l with
          queue := l.queue.erase p
          unacked := l.unacked ++ [q]
          txSeq := (l.txSeq + 1) % 256
          credits := l.credits.set p.vc (l.credits.getD p.vc 0 - 1)
          ackAt := if l.unacked.isEmpty then s.clock else l.ackAt
          movedAt := l.movedAt.set p.vc s.clock
          stalled := l.stalled.filter (fun v => v != p.vc) }
        pumpLink k n (returnSlot p.owed ((s.setLink k l1).emit (.straitWords k (packetWords q))))
    else s

/-- A packet queued for a link and sent where it may be; a link that is not UP discards it and counts it (R355). -/
def sendOn (k : Nat) (p : Packet) (s : State) : State :=
  if s.linkUp k then
    let l := s.link k
    pumpLink k 16 (s.setLink k { l with queue := l.queue ++ [{ p with hops := p.hops + 1 }],
                                        movedAt := if l.queue.any (fun q => q.vc == p.vc) then l.movedAt else l.movedAt.set p.vc s.clock })
  else returnSlot p.owed (s.bump F.STR_DROPS_COUNT)

/-- Hops that a broadcast still makes from `a`, `src` being where it entered the ring of size n: both ways to half the ring, the
N way taking the middle of an even ring (R364). -/
def halfRing (n src a : Nat) (north : Bool) : Bool :=
  if north then decide ((a + n - src) % n < n / 2) else decide ((src + n - a) % n < (n - 1) / 2)

/-- The VC of a broadcast hop (R358). -/
def hopVc (n a vc : Nat) (north entering : Bool) : Nat :=
  if vc = 2 then 2 else if crossesDateline n a north then 1 else if entering then 0 else vc

/-- The links on which a broadcast leaves this device, with their VCs (R364): `via` is the link it arrived on. -/
def treeLinks (s : State) (p : Packet) (via : Option Nat) : List (Nat × Nat) :=
  let me := s.deviceId
  let ds := s.divSize
  let rs := s.regSize
  let regatta : Bool → Bool → List (Nat × Nat) := fun north entering =>
    if 1 < rs ∧ halfRing rs (divOf p.src) (divOf me) north then
      [(if north then 2 else 3, hopVc rs (divOf me) p.vc north entering)] else []
  let division : Bool → Bool → List (Nat × Nat) := fun north entering =>
    if 1 < ds ∧ halfRing ds (posOf p.src) (posOf me) north then
      [(if north then 0 else 1, hopVc ds (posOf me) p.vc north entering)] else []
  match via with
  | none => regatta true true ++ regatta false true ++ division true true ++ division false true
  | some 3 => regatta true false ++ division true true ++ division false true
  | some 2 => regatta false false ++ division true true ++ division false true
  | some 1 => division true false
  | some _ => division false false

/-- A broadcast sent on along its tree (R364). -/
def sendTree (p : Packet) (via : Option Nat) (s : State) : State :=
  (treeLinks s p via).foldl (fun t lv => sendOn lv.1 { p with vc := lv.2 } t) s

/-- A token flooded on every link but the one of arrival (R366). -/
def flood (p : Packet) (via : Option Nat) (s : State) : State :=
  (List.range 4).foldl (fun t k => if some k = via ∨ (neighbour s k).isNone then t else sendOn k p t) s

/-- The device's next SEQ of a packet TYPE (R356). -/
def State.nextSeq (s : State) (typ : Nat) : Nat × State :=
  let n := s.str.counts.getD typ 0
  (n, { s with str := { s.str with counts := s.str.counts.set typ ((n + 1) % 65536) } })

/-- A packet of the device's own (R356). -/
def ownPacket (s : State) (typ vc : Nat) (bcast : Bool) (dest seq tag : Nat) (p3 : Nat) (payload : List DWord) : Packet :=
  { vc := vc, typ := typ, bcast := bcast, dest := dest, src := s.deviceId, lseq := 0, hops := 0, ttx := 0#64,
    group := s.gov F.STR_CTL_GROUP, seq := seq, tag := tag, p3 := BitVec.ofNat 64 p3, payload := payload, owed := none }

/-- A COURSE_EVENT broadcast (R365), where CEV_EN is 1. -/
def courseEvent (event stroke cause : Nat) (s : State) : State :=
  if s.govFlag F.STR_CTL_CEV_EN && s.govFlag F.STR_CTL_ENABLE then
    let (q, s1) := s.nextSeq 2
    sendTree (ownPacket s 2 0 true 0 q s.courseIds.2 (event + stroke % 2 ^ 25 * 2 ^ 4 + cause % 16 * 2 ^ 29) []) none s1
  else s

/-- A STOP_TOKEN broadcast (R366), where TOKEN_EN is 1; it clears the READYs collected (R367). -/
def stopToken (stroke cause : Nat) (s : State) : State :=
  if s.govFlag F.STR_CTL_TOKEN_EN && s.govFlag F.STR_CTL_ENABLE then
    let (q, s1) := s.nextSeq 4
    let s2 := flood (ownPacket s 4 2 true 0 q s.courseIds.2 (stroke % 2 ^ 25 + cause % 16 * 2 ^ 25) []) none s1
    { s2.clear F.STR_STATUS_RESUME_FIXED with str := { s2.str with readys := [], own := none, fixed := none } }
  else s

/-- Whether a packet goes on to another device whole: it then holds its slot until it leaves (R357, R358). -/
def goesOn (s : State) (p : Packet) : Bool := !p.bcast && (p.typ == 1 || p.typ == 2) && p.dest != s.deviceId

/-- A packet arriving on a link: accepted where its CRC and LSEQ are right, and then acknowledged, its slot returned unless it goes on;
otherwise dropped, with nothing acknowledged beyond it (R357). -/
def arrive (k : Nat) (ws : List DWord) (s : State) : Option Packet × State :=
  match readPacket ws with
  | none => (none, sendLinkWord k none s)
  | some p =>
    let l := s.link k
    if p.lseq ≠ l.rxSeq then (none, sendLinkWord k none s)
    else
      let s1 := s.setLink k { l with rxSeq := (l.rxSeq + 1) % 256 }
      if goesOn s p then (some { p with owed := some (k, p.vc) }, sendLinkWord k none s1)
      else (some p, sendLinkWord k (some p.vc) s1)

/-- Whether the device is time-locked: the master always is (R361, R362). -/
def State.timeLocked (s : State) : Bool := s.govFlag F.STR_CTL_MASTER || s.flag F.STR_STATUS_TIME_LOCKED

/-- The resume boundary is fixed once READYs of all other members are held beside the device's own (R367). -/
def fixResume (s : State) : State :=
  match s.str.own with
  | none => s
  | some own =>
    if s.str.fixed.isNone && decide (s.gov F.STR_GROUP_SIZE_N - 1 ≤ s.str.readys.length) then
      let latest := s.str.readys.foldl (fun t r => max t r.2) own
      { s.raise F.STR_STATUS_RESUME_FIXED with str := { s.str with fixed := some latest } }
    else s

end Sys2Proof.Machine
end

