-- ==== Sys2Proof/Machine/Halt.lean ====
section
/-! DEFINITION. Halts (R220, R231, R236 to R239, R248), the read point and lead (R156), and the early end of a course (R54, R249,
R283, R285). -/

namespace Sys2Proof.Machine

/-- The read point n_r (R156): one more than the last stroke fired with FIRE high in the course. -/
def State.readPoint (s : State) : Nat := match s.stk.lastFired with | none => 0 | some n => n + 1

/-- The lowest band with a tile not yet released (R105); the band count once every band is. -/
def State.doneBand (s : State) : Nat := s.ras.doneBelow

/-- Whether every band of the course that runs, or of the last one, is released: its front is then unbounded (R156). -/
def State.frontUnbounded (s : State) : Bool := decide (0 < s.ras.bandCount ∧ s.ras.bandCount ≤ s.doneBand)

/-- The front (R156): TILE × RAS_DONE.BAND. -/
def State.front (s : State) : Nat := s.shape.tile * s.doneBand

/-- The lead as WAK_LEAD.LEAD shows it (R156). -/
def State.lead (s : State) : Nat := if s.frontUnbounded then 0xFFFF else min 0xFFFF (s.front - s.readPoint)

/-- L of R233: an unbounded front counts as COX_LEAD_HIGH. -/
def State.leadL (s : State) : Nat := if s.frontUnbounded then s.shape.leadLimit else s.lead

/-- Whether a halt can still be set: a course runs and a stroke of it is not yet committed. -/
def State.haltable (s : State) : Bool := s.running.isSome && !s.stk.aborted

/-- The field of a cause's bit in STK_HALT_CAUSE: bit 16 + c. -/
def causeBit (c : Nat) : Fld := .mk R.STK_HALT_CAUSE (16 + c) 1

/-- The halt stroke m is set with causes cs, the first of them FIRST, the pause running from `start` (R220, R248); a halt in force
gains the causes only, FIRST the lower code of two requests of one tick (R231); no catch follows the halt stroke's. A halt that the cox did
not request leaves no reason of it (R244). -/
def setHaltAll (m : Nat) (cs : List Nat) (start : Int) (injected : Bool) (s : State) : State :=
  let raiseAll := fun (t : State) => cs.foldl (fun u c => u.raise (causeBit c)) t
  if s.stk.halted then
    let first := s.fget F.STK_HALT_CAUSE_FIRST
    let low := cs.foldl min first
    (if s.stk.haltedAt = s.clock ∧ 7 ≤ first ∧ 7 ≤ low then s.fset F.STK_HALT_CAUSE_FIRST low else s) |> raiseAll
  else
    let c := cs.headD 0
    let same := if s.cox.lastHalt = some m ∧ !s.cox.firedSince then s.fget F.COX_RECATCHES_SAME + 1 else 1
    let s0 := if cs.contains 8 then s else s.setReg R.COX_REASON 0#32
    let s1 := ((s0.setReg R.STK_HALT_AT (BitVec.ofNat 32 (m % 2 ^ 25 + 2 ^ 31))).fset F.STK_HALT_CAUSE_FIRST c)
    let s2 := (raiseAll (s1.fset F.STK_HALT_CAUSE_CAUSES 0)).raise F.STK_EVENTS_HALT
    let s3 := (s2.bump F.COX_RECATCHES_IN_COURSE).fset F.COX_RECATCHES_SAME (min same 255)
    let s4 := { s3 with
      stk := { s3.stk with halted := true, haltedAt := s.clock, pred := none, commits := s3.stk.commits.filter (fun c => decide (c.n ≤ m)) }
      cox := { s3.cox with pauseFrom := some start, warned := false, limited := false, lastHalt := some m, firedSince := false
                           resume := m, tested := false }
      bln := { s3.bln with unacked := [], marked := [], haltCatch := none, judged := none } }
    let causes := s4.fget F.STK_HALT_CAUSE_CAUSES
    let s5 := journalRun 4 (m % 2 ^ 25 + causes % 4096 * 2 ^ 25 + c % 16 * 2 ^ 37) (s.stk.lastFired.getD 0) injected s4
    let s6 := courseEvent 2 m c s5
    if cs.contains 12 && c == 12 then s6 else stopToken m c s6

/-- The halt stroke m is set with one cause. -/
def setHalt (m c : Nat) (start : Int) (injected : Bool) (s : State) : State := setHaltAll m [c] start injected s

/-- A halt requested now from a source of R220: m is the lowest stroke not yet committed. -/
def requestHalt (c : Nat) (injected : Bool) (s : State) : State :=
  if !s.haltable then s
  else if s.stk.halted then setHalt 0 c s.clock injected s
  else if s.stk.next ≤ s.lastStroke then
    let s1 := setHalt s.stk.next c s.clock injected s
    { s1 with bln := { s1.bln with haltCatch := some s.rtime } }
  else s

/-- The reason bits of COX_REASON set: 0 LEAD, 1 SUPPLY, 2 TEMP_HARD, 3 TEMP_STALE, 4 HOST. A new halt clears the bits of the last one
(R244, R252). -/
def setReasons (rs : List Nat) (s : State) : State :=
  if rs.isEmpty then s
  else
    let s1 := if s.stk.halted then s else s.fset F.COX_REASON_REASONS 0
    ((rs.foldl (fun u r => u.raise (.mk R.COX_REASON r 1)) s1).raise F.COX_REASON_VALID).raise F.COX_EVENTS_HALT_REQ

/-- A halt that the cox requests, with its reason (R236, R238, R239, R252). -/
def coxRequest (r : Nat) (s : State) : State := requestHalt 8 false (setReasons [r] s)

/-- The course ends early once no committed stroke is outstanding (R54, R249, R283, R285, R297): its result is posted, its entry
becomes FAILED with its error, and its frames are discarded; the cox comes to rest. -/
def tryFinish (s : State) : State :=
  match s.cox.ending, s.running with
  | some (o, fail), some e =>
    if s.stk.commits.isEmpty && s.stk.train.isNone then
      let s1 := courseEvent (if o = 2 then 5 else 4) (s.stk.lastFired.getD 0) 0 (postCourseResult o e s)
      let s2 := s1.mapEntry e.idx (fun x =>
        match fail with
        | none => { x with state := .failed, err := 0 }
        | some f => { x with state := .failed, err := layoutCode f.err, band := f.band, tile := f.tile, off := f.off,
                             inHeader := f.inHeader })
      { s2 with
        stk := { s2.stk with pred := none, fire := false }
        bln := { s2.bln with frames := [] }
        cox := { s2.cox with pauseFrom := none } }
    else s
  | _, _ => s

/-- A loss of the course is over with it, and a paused admission goes on (R289, R302). -/
def dropCourseLoss (s : State) : State :=
  let s1 := { s with int := { s.int with rereads := false } }
  match s.int.loss with
  | some l =>
    if l.atAdmission then s1
    else { s1 with
      int := { s1.int with loss := none }
      ing := { s1.ing with adm := s1.ing.adm.map (fun a => { a with paused := false }) } }
  | none => s1

/-- The data path stops for a course that ends before LAST or is aborted (R107, R125, R158, R288): nothing waits for it any longer, and no
further frame of it is sent (R249). -/
def stopWork (s : State) : State :=
  let s1 := (dropCourseLoss s).clear F.DOS_STATUS_BSX_WAIT
  { s1.clear F.WAK_STATUS_STALLED with
    bln := { s1.bln with frames := s1.bln.frames.filter (fun f => f.sentOn.isSome) }
    ras := { s1.ras with stopped := true, slots := s1.ras.slots.filter (fun p => p.2.kind == 3), redo := []
                         notes := s1.ras.notes.map (fun n => { n with holdsResume := false }) }
    bsx := { s1.bsx with on := false, busy := false }
    crw := { s1.crw with stop := true } }

/-- A running course is to end early with an OUTCOME code of R301 (R54, R249, R283, R285): dispatch, the look-ahead and the split
stop and a loss of the course clears (R302). The first such ending stands. -/
def endEarly (o : Nat) (fail : Option AdmitFail) (s : State) : State :=
  if s.cox.ending.isSome || s.running.isNone then s
  else
    let s1 := stopWork s
    tryFinish { s1 with
      stk := { s1.stk with pred := none }
      cox := { s1.cox with ending := some (o, fail) } }

end Sys2Proof.Machine
end

