-- ==== Sys2Proof/Machine/Queue.lean ====
section
/-! DEFINITION. The course queue (R57 to R65): posting, admission, FLUSH and SKIP, and the fence over streams and work areas. -/

namespace Sys2Proof.Machine

/-- The stream range of an entry. -/
def Entry.streamRange (e : Entry) : Nat × Nat := (e.base, e.len)

/-- The work area of an entry, once its size is fixed (R58). -/
def Entry.workRange (e : Entry) : Option (Nat × Nat) := e.work.map (fun n => (e.bsxBase, n))

/-- Whether two ranges (base, length) share a byte: an empty range shares none. -/
def overlaps (a b : Nat × Nat) : Bool := decide (0 < a.2 ∧ 0 < b.2 ∧ a.1 < b.1 + b.2 ∧ b.1 < a.1 + a.2)

/-- The spill area in use (R85, R86): the values that govern the running course, or those last written. -/
def State.spillRange (s : State) : Option (Nat × Nat) :=
  let run := s.running.isSome
  if (if run then s.govFlag F.RAS_CTL_SPILL_EN else s.flag F.RAS_CTL_SPILL_EN) then
    some (if run then s.govPair F.RAS_SPILL_BASE_LO_ADDR F.RAS_SPILL_BASE_HI_ADDR
      else s.pair F.RAS_SPILL_BASE_LO_ADDR F.RAS_SPILL_BASE_HI_ADDR, 2 ^ 32)
  else none

/-- The ranges the fence holds while FENCE_EN is 1 (R65, R86). -/
def State.fences (s : State) : List (Nat × Nat) :=
  if s.flag F.ING_CTL_FENCE_EN then
    s.ing.queue.flatMap (fun e => e.streamRange :: e.workRange.toList)
      ++ (if s.ing.queue.any (fun e => e.state != .failed) then s.spillRange.toList else [])
  else []

/-- Whether a host write to a byte is discarded (R65): it lies in a fenced range and not in the range held for a resend (R290). -/
def State.fenced (s : State) (a : Nat) : Bool :=
  s.fences.any (fun r => decide (r.1 ≤ a ∧ a < r.1 + r.2)) &&
    !(match s.int.loss with | some l => decide (l.addr ≤ a ∧ a < l.addr + l.len) | none => false)

/-- Whether a range overlaps a fenced range. -/
def State.fencedRange (s : State) (a n : Nat) : Bool := s.fences.any (fun r => overlaps r (a, n))

/-- A write counted as discarded by the fence (R65). -/
def fenceHit (s : State) : State := (s.bump F.ING_FENCE_HITS_COUNT).raise F.ING_EVENTS_FENCE_HIT

/-- The index after one, mod 8. -/
def nextEntry (i : Nat) : Nat := (i + 1) % 8

/-- POST (R59): the staged words take the next entry with the next sequence number, or the post is refused. -/
def postOp (s : State) : State :=
  if 8 ≤ s.ing.queue.length then s.raise F.ING_EVENTS_POST_REFUSED
  else
    let i := s.ing.nextIdx
    let e : Entry := { idx := i, desc := (List.range 16).map (fun w => s.reg (R.ING_CQ_DESC w)), seq := s.ing.nextSeq,
                       state := .admitting, err := 0, band := 0, tile := 0, off := 0, inHeader := false, head := none,
                       work := none, spills := false }
    let s1 := { s with ing := { s.ing with
      queue := s.ing.queue ++ [e], nextIdx := nextEntry i
      nextSeq := if s.ing.nextSeq = 65535 then 1 else s.ing.nextSeq + 1 } }
    let s2 := (s1.fset F.ING_CQ_LAST_ENTRY i).fset F.ING_CQ_LAST_SEQ e.seq
    ((s2.setReg (R.SLZ_TILE_ERR i) 0#32).setReg (R.SLZ_TILE_ERR_IN i) 0#32).setReg (R.SLZ_TILE_ERR_OUT i) 0#32

/-- The admission's own loss is released when its entry leaves the queue or fails (R302). -/
def dropAdmitLoss (s : State) : State :=
  match s.int.loss with
  | some l => if l.atAdmission then { s with int := { s.int with loss := none } } else s
  | none => s

/-- An admission abandoned: its slots become idle (R63, R106). -/
def dropAdmission (s : State) : State :=
  dropAdmitLoss { s with
    ing := { s.ing with adm := none }
    ras := { s.ras with slots := s.ras.slots.filter (fun p => p.2.kind != 3) } }

/-- FLUSH (R63). -/
def flushOp (s : State) : State :=
  let s1 := dropAdmission s
  let keep := s1.ing.queue.filter (fun e => e.state == .running)
  let next := match keep with | e :: _ => nextEntry e.idx | [] => s1.ing.nextIdx
  { s1 with ing := { s1.ing with queue := keep, nextIdx := next } }

/-- SKIP (R63). -/
def skipOp (s : State) : State :=
  match s.ing.queue with
  | e :: rest => if e.state = .failed then { s with ing := { s.ing with queue := rest } } else s
  | [] => s

/-- The conditions of R58 on the descriptor alone. -/
def descriptorOk (e : Entry) : Bool :=
  decide (e.base % 4096 = 0 ∧ e.bsxBase % 4096 = 0 ∧ 0 < e.len ∧ e.base + e.len ≤ hbmSize ∧ e.bsxBase < hbmSize) &&
    [6, 8].all (fun i => let v := descPair e.desc i
      decide (v / 2 ^ 48 = if bitAt 47 v then 65535 else 0)) &&
    decide (descWord e.desc 11 / 2 ^ 6 = 0) && [12, 13, 14, 15].all (fun i => descWord e.desc i == 0)

/-- The conditions of R58 on the work area of size n of an entry, against every other entry. -/
def workOk (s : State) (e : Entry) (n : Nat) : Bool :=
  let w := (e.bsxBase, n)
  decide (e.bsxBase + n ≤ hbmSize) && !overlaps w e.streamRange &&
    (s.ing.queue.filter (fun x => x.idx != e.idx)).all (fun x => !overlaps w x.streamRange &&
      (match x.workRange with | some r => !overlaps e.streamRange r | none => true))

/-- An admission error of the header section at an offset. -/
def headFail (err : LayoutError) (off : Nat) : AdmitFail := { err := err, band := 0, tile := 0, off := off, inHeader := true }

/-- The failure DESCRIPTOR (R58). -/
def descFail : AdmitFail := { err := .descriptor, band := 0, tile := 0, off := 0, inHeader := false }

/-- Admission items 1 to 5 of R61 up to the work area: its size where it is fixed, and the error. -/
def admitFront (s : State) (e : Entry) : Option Nat × Option AdmitFail :=
  if !descriptorOk e then (none, some descFail)
  else
    let ch := s.stream e 0 120
    match courseHeadError s.shape ch e.len with
    | some err => (none, some (headFail err 0))
    | none =>
      if !polyBoundOk ((List.range 20).map (fun i => leAtS (40 + 4 * i) 4 ch)) then (none, some (headFail .geometry 0))
      else if leAt 32 1 ch ≤ e.pass then (none, some (headFail .pass 0))
      else
        let n := workAreaSize (leAt 16 4 ch)
        (some n, if workOk s e n then none else some descFail)

/-- How the check of a header section ends (R61): its first error, a tile index entry that cannot be read (number and offset, R289), or the
section. Bytes of the section outside the tile index entries are judged as they are delivered (log entry 107). -/
inductive HeadEnd where
  | fails (f : AdmitFail)
  | lost (i off : Nat)
  | passes (h : StreamHead)
deriving DecidableEq, Repr

/-- The check of the header section of an entry (R61), with the size of its work area. -/
def admitHead (s : State) (e : Entry) : Option Nat × HeadEnd :=
  match admitFront s e with
  | (w, some f) => (w, .fails f)
  | (w, none) =>
    match lostIndexEntry (s.stream e) (fun off n => s.hbmBad 14 (e.base + off) n) s.shape e.len with
    | some (i, off) => (w, .lost i off)
    | none => match restOfHead (s.stream e) s.shape e.len (s.flag F.RAS_CTL_SPILL_EN) with
      | .error (err, off) => (w, .fails (headFail err off))
      | .ok h => (w, .passes h)

/-- The bytes of a stream that the check of its header section reads. -/
def headReads (e : Entry) : HeadEnd → Nat
  | .fails f => if descriptorOk e then max 120 (f.off + 16) else 0
  | .lost _ off => off + 16
  | .passes h => h.headEnd

/-! ### Source loss -/

/-- A loss held (R289), with its journal record. -/
def holdLoss (l : Loss) (e : Entry) (s : State) : State :=
  journal 7 (e.seq, e.tag) l.addr (l.len % 2 ^ 24 + l.band % 65536 * 2 ^ 24 + l.tile % 32 * 2 ^ 40 + bitOf l.index * 2 ^ 45
      + bitOf l.atAdmission * 2 ^ 46) false
    ({ s.raise F.INT_EVENTS_SOURCE_LOSS with int := { s.int with loss := some l } })

/-- A source loss found (R289): a running course's comes before an admission's; a further one is only counted. -/
def foundLoss (e : Entry) (b k : Nat) (r : Nat × Nat × Bool) (atAdmission : Bool) (s : State) : State :=
  let l : Loss := { addr := r.1, len := r.2.1, band := b, tile := k, entry := e.idx, index := r.2.2, atAdmission := atAdmission }
  let s1 := s.bump F.INT_LOSS_COUNT_COUNT
  if atAdmission then
    let s2 := { s1 with ing := { s1.ing with adm := s1.ing.adm.map (fun a => { a with
      todo := if a.header then a.todo else (b, k) :: a.todo, flight := a.flight.filter (fun q => q != (b, k)), paused := true }) } }
    if s.int.loss.isNone then holdLoss l e s2 else s2
  else
    let others := match s.int.loss with | some x => !x.atAdmission | none => false
    requestHalt 7 false (if others then s1 else holdLoss l e s1)

/-! ### Admission -/

/-- Every tile of a course in band-major order (R61). -/
def allTiles (c : Shape) (h : StreamHead) : List (Nat × Nat) :=
  (List.range (c.bands h.lengthPx)).flatMap (fun b => (List.range c.tilesPerBand).map (fun k => (b, k)))

/-- The entry whose header section is due: that of the admission in progress, or the oldest posted one not yet admitted (R61). -/
def State.headerDue (s : State) : Option Entry :=
  match s.ing.adm with
  | none => s.ing.queue.find? (fun e => e.state == .admitting)
  | some a => if a.header && !a.paused then s.entry a.idx else none

/-- ADMISSION_START (R61): the oldest posted entry not yet admitted is checked up to its header section; with PREPARSE its tile
segments then wait for islets. A tile index entry that cannot be read pauses it (R289). -/
def admissionStartOp (s : State) : State :=
  match s.headerDue with
  | none => s
  | some e =>
    let (work, r) := admitHead s e
    let head := match r with | .passes h => some h | _ => none
    let s1 := (readHbm 14 e.base (headReads e r) s).mapEntry e.idx (fun x =>
      { x with work := work, head := head, spills := (head.map StreamHead.spills).getD false })
    let adm : Admission := { idx := e.idx, fail := none, todo := [], flight := [], paused := false, header := false }
    let take := fun (a : Admission) => { s1 with ing := { s1.ing with adm := some a } }
    match r with
    | .fails f => take { adm with fail := some f }
    | .lost i off => foundLoss e (i / s.shape.tilesPerBand) (i % s.shape.tilesPerBand) (e.base + off, 16, true) true (take { adm with header := true })
    | .passes h => take { adm with todo := if e.preparse then allTiles s.shape h else [] }

/-- ADMISSION_DONE (R61): with every check made, the entry becomes READY, or FAILED with its first error (R53, R63). -/
def admissionDoneOp (s : State) : State :=
  match s.ing.adm with
  | none => s
  | some a =>
    match a.fail with
    | some f =>
      if a.flight.isEmpty then
        let s1 := s.mapEntry a.idx (fun x => { x with state := .failed, err := layoutCode f.err, band := f.band, tile := f.tile,
                                                      off := f.off, inHeader := f.inHeader })
        (dropAdmission s1).raise F.ING_EVENTS_ADMIT_FAIL
      else s
    | none =>
      if a.todo.isEmpty && a.flight.isEmpty && !a.paused && !a.header then
        let s1 := s.mapEntry a.idx (fun x => { x with state := .ready })
        { s1 with ing := { s1.ing with adm := none } }
      else s

/-- The first of two failures in band-major order (R73). -/
def firstFail (t : Nat) (a b : Option AdmitFail) : Option AdmitFail :=
  match a, b with
  | none, b => b
  | a, none => a
  | some x, some y => if y.band * t + y.tile < x.band * t + x.tile then some y else some x

/-- SLZ_TILE_ERR of an entry set from a failing decode (R72): the codec's name and counts, and who made the decode. With no codec name
no token fails, so that IN_OFFSET is a free value (R70). -/
def setTileErr (e islet : Nat) (byEngine : Bool) (d : TileDecode) (s : State) : State :=
  let (g, s0) := s.fresh
  let inOff := if d.name = .none then (Config.freeWord g 0).toNat else d.inOffset
  let s1 := s0.setReg (R.SLZ_TILE_ERR e)
    (BitVec.ofNat 32 (slzNameCode d.name + (if byEngine then 0 else islet) * 4 + bitOf byEngine * 512))
  let s2 := s1.setReg (R.SLZ_TILE_ERR_IN e) (BitVec.ofNat 32 (inOff % 2 ^ 24))
  (s2.setReg (R.SLZ_TILE_ERR_OUT e) (BitVec.ofNat 32 (d.outCount % 2 ^ 24))).raise F.SLZ_EVENTS_TILE_CODEC

/-- The failure that a tile decode reports (R53, R54). -/
def tileFailure (d : TileDecode) (b k : Nat) : Option AdmitFail :=
  d.err.map (fun err => { err := err, band := b, tile := k, off := d.off, inHeader := false })

/-- BAND of an entry in admission (R61): the lowest band with a tile still to check, then the band of the failure found, or the last
band of the course. -/
def bandChecked (todo : List (Nat × Nat)) (best : Option AdmitFail) (last : Nat) : Nat :=
  match todo with
  | p :: t => t.foldl (fun m q => min m q.1) p.1
  | [] => match best with | some x => x.band | none => last

/-- An admission decode of tile (b, k) abandoned: the tile waits again (R106, R315). -/
def admitTileLost (b k : Nat) (s : State) : State :=
  { s with ing := { s.ing with adm := s.ing.adm.map (fun a => { a with
      todo := (b, k) :: a.todo, flight := a.flight.filter (fun q => q != (b, k)) }) } }

/-- An admission decode of tile (b, k) ends in an islet (R61): its failure is kept, and the tiles after the first failing one need
no decode. -/
def admitTileDone (islet b k : Nat) (d : TileDecode) (s : State) : State :=
  match s.ing.adm with
  | none => s
  | some a =>
    let t := s.shape.tilesPerBand
    let f := tileFailure d b k
    let best := firstFail t a.fail f
    let todo := match best with
      | none => a.todo
      | some x => a.todo.filter (fun p => p.1 * t + p.2 < x.band * t + x.tile)
    let flight := a.flight.filter (fun p => p != (b, k))
    let s1 := s.mapEntry a.idx (fun x => { x with
      band := bandChecked (todo ++ flight) best (((x.head.map (fun h => s.shape.bands h.lengthPx)).getD 1) - 1) })
    let s2 := { s1 with ing := { s1.ing with adm := some { a with fail := best, todo := todo, flight := flight } } }
    if f.isSome && best == f then setTileErr a.idx islet false d s2 else s2

end Sys2Proof.Machine
end

