-- ==== Sys2Proof/Machine/Banks.lean ====
section
/-! DEFINITION. Double-banked tables (R129 to R134, R195, R226) and the beam map with its shadow in HBM (R139 to R146). -/

namespace Sys2Proof.Machine

/-- Units of a table's bank (R129, R143, R195, R226). -/
def bankUnits : TableId → Nat
  | .krn => 457
  | .tgn => 4096
  | .map => 1048576
  | .wave => 33
  | .lanes => 136

/-- The BAR0 address and the size in bytes of a table's banks; the beam map's bank 0 is its window (R139). -/
def bankPlace : TableId → Nat × Nat
  | .krn => (0x0E2000, 4096)
  | .tgn => (0x0E8000, 16384)
  | .map => (0x800000, 0x800000)
  | .wave => (0x121000, 256)
  | .lanes => (0x11A000, 1024)

/-- The table, bank and offset within the bank of a BAR0 address that holds a table word. -/
def tableAt (a : Nat) : Option (TableId × Nat × Nat) :=
  ([TableId.krn, .tgn, .wave, .lanes, .map].find? (fun t =>
    let p := bankPlace t
    let n := if t = .map then 1 else 2
    decide (p.1 ≤ a ∧ a < p.1 + n * p.2) && (t == .map || (descOf a).isSome))).map (fun t =>
      let p := bankPlace t
      (t, (a - p.1) / p.2, (a - p.1) % p.2))

/-- Every address of a bank that holds a table word. -/
def bankWords (t : TableId) (b : Nat) : List Nat :=
  let p := bankPlace t
  ((List.range (p.2 / 4)).map (fun i => p.1 + b * p.2 + 4 * i)).filter (fun a => (descOf a).isSome)

/-- The word a bank holds at a BAR0 address, undefined where a stopped clone left it so (R131). -/
def State.tableWord (s : State) (t : TableId) (b a : Nat) : Word :=
  let k := s.bank t
  match k.hazy with
  | some g => if b ≠ k.active ∧ !k.sure.contains a then Config.freeWord g a else s.reg a
  | none => s.reg a

/-- Whether every mark is set (R131). -/
def bankComplete (t : TableId) (b : Bank) : Bool := b.allMarked || b.marks.length == bankUnits t

/-- The kernel that a bank holds (R121). -/
def State.kernel (s : State) (b : Nat) : Kernel where
  radius := bits 0 8 (s.tableWord .krn b (R.DOS_KRN_RADIUS b)).toNat
  eta := (List.range 3).map (fun g => bits 0 16 (s.tableWord .krn b (R.DOS_KRN_ETA b g)).toNat)
  taps := (List.range 3).map (fun g => (List.range 151).map (fun m => bits 0 16 (s.tableWord .krn b (R.DOS_KRN_TAP b g m)).toNat))

/-- G of a track in a bank (R116). -/
def State.trackGain (s : State) (b t : Nat) : Nat := bits (t % 2 * 16) 16 (s.tableWord .tgn b (R.DOS_TGN b (t / 2))).toNat

/-- W[c] of a waveform bank (R225). -/
def State.waveMask (s : State) (b c : Nat) : Nat :=
  (s.tableWord .wave b (R.STK_WAVE_LO b c)).toNat + (s.tableWord .wave b (R.STK_WAVE_HI b c)).toNat * 2 ^ 32

/-- GPD of a waveform bank (R225). -/
def State.waveGpd (s : State) (b : Nat) : Nat := bits 0 3 (s.tableWord .wave b (R.STK_WAVE_GPD b)).toNat

/-- Ones of a 64-bit mask. -/
def onesOf64 (n : Nat) : Nat := ((List.range 64).map (fun i => (n / 2 ^ i) % 2)).sum

/-- The validity rule of a waveform bank (R225). -/
def waveValid (s : State) (b : Nat) : Bool :=
  let g := s.waveGpd b
  decide (1 ≤ g ∧ g ≤ 4) && (List.range 16).all (fun c => onesOf64 (s.waveMask b c) == c * g)

/-- PHYS of unit u of a lane map bank (R195). -/
def State.lanePhys (s : State) (b u : Nat) : Nat := bits 0 8 (s.tableWord .lanes b (R.BLN_MAP b u)).toNat

/-- NO_USE of unit u (R195). -/
def State.laneNoUse (s : State) (b u : Nat) : Bool := bitAt 8 (s.tableWord .lanes b (R.BLN_MAP b u)).toNat

/-- The validity rule of a lane map bank (R195): a permutation, and NO_USE only in spare units. -/
def lanesValid (s : State) (b : Nat) : Bool :=
  let ps := (List.range 136).map (s.lanePhys b)
  (List.range 136).all (fun p => ps.contains p) && (List.range 128).all (fun u => !s.laneNoUse b u)

/-- A table's validity rule on its shadow (R132, R133, R142, R195, R225). -/
def shadowValid (s : State) (t : TableId) : Bool :=
  let b := 1 - (s.bank t).active
  match t with
  | .krn => kernelValid s.shape.pitch (s.kernel b)
  | .tgn => true
  | .map => s.crw.invalid.isEmpty
  | .wave => waveValid s b
  | .lanes => lanesValid s b

/-- The report of a refused commit (R132, R144, R195, R227). -/
def tableRefused (t : TableId) (code : Nat) (s : State) : State :=
  let s1 := (s.setBank t { s.bank t with refuse := code }).raise F.DOS_EVENTS_TBL_REFUSED
  match t with
  | .krn | .tgn => s1
  | .map => s1.raise F.CRW_EVENTS_MAP_REFUSED
  | .wave => s1.raise F.STK_EVENTS_WT_REFUSED
  | .lanes => s1.raise F.BLN_EVENTS_MAP_REFUSED

/-! ### The beam map -/

/-- The host's bits of entry i of the bank in service. -/
def State.mapEntryRaw (s : State) (i : Nat) : Nat := sparseGet (fun _ => 0) i s.crw.map

/-- Entry i of the bank in service as the device holds it (R140, R141). -/
def State.mapEntryFull (s : State) (i : Nat) : Nat := derivedEntry s.shape s.mapEntryRaw i

/-- Contiguous runs of a rising list of bytes by address. -/
def runsOf : List (Nat × Byte) → List (Nat × List Byte)
  | [] => []
  | (a, v) :: t =>
    match runsOf t with
    | (b, vs) :: rest => if b = a + 1 then (a, v :: vs) :: rest else (a, [v]) :: (b, vs) :: rest
    | [] => [(a, [v])]

/-- A host or job write under the fence (R65): only its bytes outside fenced ranges are written, and a write with bytes discarded
counts once. -/
def fencedWrite (port a : Nat) (bs : List Byte) (s : State) : State :=
  let ps := ((List.range bs.length).zip bs).map (fun p => (a + p.1, p.2))
  if ps.any (fun p => s.fenced p.1) then
    fenceHit ((runsOf (ps.filter (fun p => !s.fenced p.1))).foldl (fun t r => clientWrite port r.1 r.2 t) s)
  else clientWrite port a bs s

/-! ### The bank controls -/

/-- OPEN (R131): marks and REFUSE clear, a pending commit is cancelled, and a clone in progress stops, which leaves the shadow
undefined. -/
def bankOpenOp (t : TableId) (s : State) : State :=
  let b := s.bank t
  let b1 := { b with pending := false, allMarked := false, marks := [], refuse := 0, cloning := false }
  if b.cloning then
    if t = .map then (hazeHbm false s.shadowBase mapBytes s).setBank t b1
    else
      let (g, s1) := s.fresh
      s1.setBank t { b1 with hazy := some g, sure := [] }
  else s.setBank t b1

/-- CRW_MAP_SHADOW written (R144): it acts as OPEN, and the shadow area moves; ignored while a commit is pending. -/
def shadowBaseWrite (high : Bool) (v : Word) (s : State) : State :=
  if s.banks.map.pending then s.raise F.CRW_EVENTS_MAP_IGNORED
  else
    let s1 := bankOpenOp .map s
    let s2 := if high then s1.setReg R.CRW_MAP_SHADOW_HI v else s1.fset F.CRW_MAP_SHADOW_LO_ADDR (bits 23 9 v.toNat)
    { s2 with crw := { s2.crw with invalid := [] } }

/-- CLONE (R131): ignored while a commit is pending; otherwise the copy begins. -/
def bankCloneOp (t : TableId) (s : State) : State :=
  let b := s.bank t
  if b.pending then tableIgnored t s else s.setBank t { b with cloning := true }

/-- The copy of a clone ends (R131, R143): the shadow holds the active bank and every mark is set. -/
def cloneDoneOp (t : TableId) (s : State) : State :=
  let b := s.bank t
  if !b.cloning then s
  else
    let b1 := { b with cloning := false, allMarked := true, marks := [], hazy := none, sure := [] }
    if t = .map then
      let s1 := s.hbmWrite 9 s.shadowBase ((List.range 1048576).flatMap (fun i => leBytes 8 (s.mapEntryFull i)))
      let inv := (List.range 1048576).filter (fun i => !entryValid (s.mapEntryFull i))
      ({ s1 with crw := { s1.crw with invalid := inv } }).setBank t b1
    else
      let p := bankPlace t
      let s1 := (bankWords t b.active).foldl (fun u a =>
        u.setReg (if b.active = 0 then a + p.2 else a - p.2) (s.reg a)) s
      s1.setBank t b1

/-- COMMIT (R132). A clone in progress is the first reason looked for (log entry 20). -/
def bankCommitOp (t : TableId) (s : State) : State :=
  let b := s.bank t
  if b.pending then s
  else if b.cloning then tableRefused t 3 s
  else if !bankComplete t b then tableRefused t 1 s
  else if !shadowValid s t then tableRefused t 2 s
  else s.setBank t { b with pending := true, refuse := 0 }

/-- A write of a bank control register (R132): OPEN acts first, then CLONE, then COMMIT; the IGNORED bit clears by W1C. -/
def bankControl (t : TableId) (w : Nat) (s : State) : State :=
  let s1 := if bitAt 0 w then bankOpenOp t s else s
  let s2 := if bitAt 1 w then bankCloneOp t s1 else s1
  if bitAt 2 w then bankCommitOp t s2 else s2

/-- A host write that lands in a table bank (R130, R131): it marks a unit of the shadow, or is ignored. The fields of the register
take the value; its reserved bits stay 0 (R7). -/
def tableWriteOp (a : Nat) (v : Word) (s : State) : State :=
  match tableAt a with
  | none => s
  | some (t, b, _) =>
    let k := s.bank t
    if t = .map ∨ b = k.active ∨ k.pending ∨ k.cloning then tableIgnored t s
    else
      let mask := match descOf a with
        | none => 0
        | some d => (d.fields.map (fun f => (2 ^ f.width - 1) * 2 ^ f.lo)).sum
      let s1 := s.setReg a (v &&& BitVec.ofNat 32 mask)
      s1.setBank t { k with
        marks := if k.allMarked then k.marks else insertKey a k.marks
        sure := if k.hazy.isSome then insertKey a k.sure else k.sure }

/-- A pending shadow becomes the active bank (R132). -/
def bankSwap (t : TableId) (s : State) : State :=
  let b := s.bank t
  if b.pending then
    s.setBank t { b with active := 1 - b.active, pending := false, allMarked := false, marks := [], hazy := none, sure := [] }
  else s

/-- MAP_EXCHANGE_START (R143): no course runs and a commit of the beam map is pending. -/
def mapExchangeStartOp (s : State) : State :=
  if s.banks.map.pending && s.running.isNone then
    { s with crw := { s.crw with exchanging := true } }
  else s

/-- MAP_EXCHANGED (R143): the two banks have exchanged contents, Q, L and CREW_ON computed (R141); an uncorrectable shadow entry is
taken as EXCLUDED (R315). -/
def mapExchangedOp (s : State) : State :=
  if !s.crw.exchanging then s
  else
    let old := fun i => s.mapEntryFull i
    let new := (List.range 1048576).map (fun i =>
      if s.hbmBad 9 (s.shadowBase + 8 * i) 8 then (i, 3) else (i, entryHostBits (leNat (s.readBytes (s.shadowBase + 8 * i) 8))))
    let bad := s.hbmBad 9 s.shadowBase mapBytes
    let s1 := (readHbm 9 s.shadowBase mapBytes s).hbmWrite 9 s.shadowBase ((List.range 1048576).flatMap (fun i => leBytes 8 (old i)))
    let b := s1.banks.map
    let s2 := { s1 with crw := { s1.crw with
      map := sparsePutAll (fun _ => 0) [] new, exchanging := false, invalid := [] } }
    let s3 := s2.setBank .map { b with pending := false, allMarked := false, marks := [] }
    (State.raiseIf bad F.SRM_EVENTS_BAD s3).raise F.CRW_EVENTS_MAP_EXCHANGED

/-- A probe of the split (R147, CRW_PROBE): the code that track, seat and dose would get in row CRW_PROBE_ROW. -/
def crwProbeOp (t seat p : Nat) (s : State) : State :=
  let c := s.shape
  let y := s.fget F.CRW_PROBE_ROW_ROW
  let perm := s.flag F.CRW_CTL_PERM_EN
  let w := crewOf c s.mapEntryRaw t
  let live := inCrew c t seat && entryState (s.mapEntryRaw (128 * t + seat)) == 0
  let code := seatCode c s.mapEntryRaw perm t seat y p
  let off := if w.live = 0 then 0 else splitOff perm t y w.live
  let rank := if live then (seatQ c s.mapEntryRaw t seat + off) % w.live else 0
  let (under, over') := match unwritable p w with | .no => (false, false) | .under _ => (true, false) | .over _ => (false, true)
  s.setReg R.CRW_PROBE_OUT (BitVec.ofNat 32 (code + rank * 2 ^ 4 + off * 2 ^ 12 + w.live * 2 ^ 20 + bitOf under * 2 ^ 28
    + bitOf over' * 2 ^ 29 + bitOf (!live) * 2 ^ 30 + 2 ^ 31))

end Sys2Proof.Machine
end

