-- ==== Sys2Proof/Machine/Codec.lean ====
section
/-! DEFINITION. The SLZ job engine (R74 to R82). -/

namespace Sys2Proof.Machine

/-- One entry of a job table as the host wrote it (R74). -/
structure JobEntry where
  src : Nat
  len : Nat
  limit : Nat
deriving DecidableEq, Repr

/-- Entry i of the job table at an address (R74). -/
def jobEntry (s : State) (table i : Nat) : JobEntry :=
  let bs := s.readBytes (table + 32 * i) 16
  { src := leAt 0 8 bs, len := leAt 8 4 bs, limit := leAt 12 4 bs }

/-- Whether a length lies in 1 to 16,777,215 (R74). -/
def jobLen (n : Nat) : Bool := decide (1 ≤ n ∧ n ≤ 16777215)

/-- The conditions that refuse a job before any byte is written (R77, R81): the CODE and the entry it names. A table or a range past
96 GiB is refused as BAD_JOB, an uncorrectable table as BUS (log entry 21); where several conditions hold, the first one in this order
gives the code (log entry 100). -/
def jobRefusal (s : State) (j : SlzJob) : Option (Nat × Nat) :=
  if j.count < 1 ∨ 4096 < j.count ∨ j.table % 32 ≠ 0 ∨ j.dst % 8 ≠ 0 ∨ j.cap % 8 ≠ 0 then some (5, 0)
  else if hbmSize < j.table + 32 * j.count ∨ hbmSize < j.dst + j.cap then some (5, 0)
  else if s.hbmBad 12 j.table (32 * j.count) then some (6, 0)
  else
    let es := (List.range j.count).map (jobEntry s j.table)
    if !es.all (fun e => jobLen e.len && (if j.decompress then jobLen e.limit else e.limit == 0)
        && decide (e.src + e.len ≤ hbmSize)) then some (5, 0)
    else
      let rs := (j.table, 32 * j.count) :: (j.dst, j.cap) :: es.map (fun e => (e.src, e.len))
      let clash := (List.range rs.length).any (fun a => (List.range a).any (fun b =>
        overlaps (rs.getD a (0, 0)) (rs.getD b (0, 0))))
      if clash then some (3, 0)
      else if s.fencedRange j.table (32 * j.count) || s.fencedRange j.dst j.cap then some (4, 0)
      else if j.decompress then
        let sums := (List.range j.count).map (fun i => ((es.take (i + 1)).map (fun e => roundUp 8 e.limit)).sum)
        match (List.range j.count).find? (fun i => decide (j.cap < sums.getD i 0)) with
        | some i => some (2, i)
        | none => none
      else none

/-- GO (R82): the job registers are copied, or the GO is ignored while a job runs. -/
def slzGoOp (decompress : Bool) (s : State) : State :=
  if s.slz.isSome then s.raise F.SLZ_EVENTS_GO_REFUSED
  else
    let j : SlzJob := {
      decompress := decompress
      table := s.pair F.SLZ_JOB_TABLE_LO_ADDR F.SLZ_JOB_TABLE_HI_ADDR
      count := s.fget F.SLZ_JOB_COUNT_COUNT
      dst := s.pair F.SLZ_JOB_DST_LO_ADDR F.SLZ_JOB_DST_HI_ADDR
      cap := s.pair F.SLZ_JOB_CAP_LO_CAP F.SLZ_JOB_CAP_HI_CAP
      level := s.fget F.SLZ_CTL_LEVEL
      refused := none
      abort := false }
    let s1 := if j.count ≤ 4096 ∧ j.table + 32 * j.count ≤ hbmSize then readHbm 12 j.table (32 * j.count) s else s
    { s1 with slz := some { j with refused := (jobRefusal s j).map (fun r => r.1 + 8 * r.2) } }

/-- ABORT (R81): the running job ends with ABORTED. -/
def slzAbortOp (s : State) : State := { s with slz := s.slz.map (fun j => { j with abort := true }) }

/-- What a job has done so far: the end of the last output, qwords 2 and 3 of the entries done, the first CODEC entry, and how it
was stopped, if it was: CODE and entry. -/
structure JobRun where
  st : State
  tail : Nat
  rows : List (Nat × Nat)
  codec : Option Nat
  stop : Option (Nat × Nat)

/-- An output of an entry written at the next multiple of 8, the gap before it 0 (R75): a write into a fenced range is discarded and
ends the job (R81). The output of one entry is one write: a failing one has its bytes outside the fence written (log entry 101). -/
def jobPut (j : SlzJob) (r : JobRun) (bs : List Byte) : JobRun :=
  let off := roundUp 8 r.tail
  let all := List.replicate (off - r.tail) 0#8 ++ bs
  if r.st.fencedRange (j.dst + r.tail) all.length then { r with st := fencedWrite 12 (j.dst + r.tail) all r.st, stop := some (4, 0) }
  else { r with st := clientWrite 12 (j.dst + r.tail) all r.st, tail := off + bs.length }

/-- Entry i of a job (R76 to R79). A stream that is no gain is NO_GAIN, also where it would have passed CAP before (log entry 99). -/
def jobStep (j : SlzJob) (r : JobRun) (i : Nat) : JobRun :=
  if r.stop.isSome then r
  else
    let e := jobEntry r.st j.table i
    let st0 := readHbm 12 e.src e.len r.st
    match r.st.hbmRead 12 e.src e.len with
    | none => { r with st := st0, stop := some (6, 0) }
    | some src =>
      let off := roundUp 8 r.tail
      if j.decompress then
        let z := slzDecode src e.limit
        let row := (off + z.bytes.length * 2 ^ 40,
          (if z.name = .none then 0 else 2 + slzNameCode z.name * 4) + (crc32c z.bytes).toNat * 2 ^ 32)
        let r1 := if z.bytes.isEmpty then { r with st := st0 } else jobPut j { r with st := st0 } z.bytes
        { r1 with rows := r1.rows ++ [row], codec := if z.name = .none ∨ r.codec.isSome then r.codec else some i }
      else
        let out := slzEncode src j.level
        let crc := (crc32c src).toNat * 2 ^ 32
        if e.len ≤ out.length then { r with st := st0, rows := r.rows ++ [(off, 1 + crc)] }
        else if j.cap < off + out.length then { r with st := st0, stop := some (2, i) }
        else
          let r1 := jobPut j { r with st := st0 } out
          { r1 with rows := r1.rows ++ [(off + out.length * 2 ^ 40, crc)] }

/-- The result of a job (R77, R78, R300). -/
def slzResult (code entry used : Nat) (s : State) : State :=
  let (_, s1) := s.postResult R.SLZ_RESULT [(R.SLZ_RESULT, BitVec.ofNat 32 (code * 16 + entry % 4096 * 1024)),
    (R.SLZ_RESULT_USED_LO, BitVec.ofNat 32 used), (R.SLZ_RESULT_USED_HI, BitVec.ofNat 32 (used / 2 ^ 32))]
  { s1.raise F.SLZ_EVENTS_JOB_DONE with slz := none }

/-- The destination of a job that has been stopped is undefined (R77, R82). -/
def scrambleJob (s : State) : State :=
  match s.slz with
  | some j => if j.refused.isNone then scramble j.dst j.cap s else s
  | none => s

/-- SLZ_JOB_END (R77 to R81): the job ends with its result; the table is written back only where the job is complete. After
NO_SPACE and ABORTED `SLZ_RESULT_USED` reads 0 (log entry 102). -/
def slzJobEndOp (s : State) : State :=
  match s.slz with
  | none => s
  | some j =>
    match j.refused with
    | some c => slzResult (c % 8) (c / 8) 0 s
    | none =>
      if j.abort then slzResult 7 0 0 (scrambleJob s)
      else
        let r := (List.range j.count).foldl (jobStep j) { st := s, tail := 0, rows := [], codec := none, stop := none }
        match r.stop with
        | some (2, i) => slzResult 2 i 0 (scrambleJob s)
        | some (c, _) => slzResult c 0 r.tail r.st
        | none =>
          if r.st.fencedRange j.table (32 * j.count) then slzResult 4 0 r.tail (fenceHit r.st)
          else
            let s1 := ((List.range j.count).zip r.rows).foldl (fun t p =>
              clientWrite 12 (j.table + 32 * p.1 + 16) (leBytes 8 p.2.1 ++ leBytes 8 p.2.2) t) r.st
            match r.codec with
            | some i => slzResult 1 i r.tail s1
            | none => slzResult 0 0 r.tail s1

end Sys2Proof.Machine
end

