-- ==== Sys2Proof/Machine/Raster.lean ====
section
/-! DEFINITION. The islets: roles and service (R83, R84), eligibility and dispatch (R103 to R107), the backscatter engine's place in
them (R117 to R126), fault and slow limits (R109, R110). -/

namespace Sys2Proof.Machine

/-- The role of an islet: 0 RASTER, 1 RESERVE, 2 ADMIT, 3 OFF (R83). -/
def State.role (s : State) (i : Nat) : Nat := s.shape.roles.getD i 3

/-- Whether an islet is in service (R84). -/
def State.inService (s : State) (i : Nat) : Bool := s.role i != 3 && s.gov (F.RAS_ISLET_CTL_DISABLE i) == 0

/-- Whether an islet will be in service at the next course start (R108, R456). -/
def State.willServe (s : State) (i : Nat) : Bool := s.role i != 3 && s.fget (F.RAS_ISLET_CTL_DISABLE i) == 0

/-- The islets whose roles compute, in service at the next start (R108). -/
def State.willServeCount (s : State) : Nat := ((List.range 128).filter (fun i => s.willServe i && decide (s.role i < 2))).length

/-- What a slot holds. -/
def State.slotWork (s : State) (i j : Nat) : Option IsletWork := (s.ras.slots.find? (fun p => p.1 == 2 * i + j)).map Prod.snd

/-- A free slot of an islet: slot 0 where both are free (log entry 103). -/
def State.freeSlot (s : State) (i : Nat) : Option Nat := [0, 1].find? (fun j => (s.slotWork i j).isNone)

/-- Work put into a slot; the rotating pointer moves past the islet (R104). -/
def takeSlot (i j : Nat) (w : IsletWork) (s : State) : State :=
  { s with ras := { s.ras with slots := s.ras.slots ++ [(2 * i + j, w)], pointer := (i + 1) % 128 } }

/-- A slot emptied. -/
def dropSlot (i j : Nat) (s : State) : State :=
  { s with ras := { s.ras with slots := s.ras.slots.filter (fun p => p.1 != 2 * i + j) } }

/-- The islets at or after the rotating pointer that meet a condition, with their free slot (R104). The pointer starts at islet 0 at a reset
and keeps its place between courses (log entry 104). -/
def takers (s : State) (ok : Nat → Bool) : List (Nat × Nat) :=
  ((List.range 128).map (fun d => (s.ras.pointer + d) % 128)).filterMap (fun i =>
    if s.inService i && ok i then (s.freeSlot i).map (fun j => (i, j)) else none)

/-- The tile index entry of a tile of the running course. -/
def State.tileEntry (s : State) (e : Entry) (h : StreamHead) (b k : Nat) : TileEntry :=
  tileEntryAt (s.stream e) s.shape h b k

/-- Tiles of a band in dispatch order (R104): descending DCLASS and then ascending k, or ascending k. -/
def bandOrder (s : State) (e : Entry) (h : StreamHead) (b : Nat) : List Nat :=
  let ks := List.range s.shape.tilesPerBand
  if s.govFlag F.RAS_CTL_DCLASS_ORDER then
    [3, 2, 1, 0].flatMap (fun d => ks.filter (fun k => (s.tileEntry e h b k).dclass == d))
  else ks

/-! ### The backscatter map -/

/-- Density rows in a band. -/
def Shape.bandRows (c : Shape) : Nat := c.tile / 64

/-- The kernel radius in service. -/
def State.radius (s : State) : Nat := (s.kernel s.banks.krn.active).radius

/-- Bands that the map covers (R124): all of them while the engine is off. -/
def State.covered (s : State) : Nat :=
  if !s.govFlag F.DOS_CTL_BSX_EN then s.bands
  else
    let p := s.bsx.next / s.shape.tilesPerBand
    if s.bands ≤ p then s.bands else p - 1 - s.radius / s.shape.bandRows

/-- d of a cell (R120); a cell outside the grid has density 0 (R117). -/
def State.density (s : State) (x y : Int) : Nat :=
  let w : Int := (s.shape.tracks / 64 : Nat)
  let n : Int := densityRows s.lengthPx
  if x < -150 ∨ w + 149 < x ∨ y < -151 ∨ n + 150 < y then 0
  else densityOf (sparseGet (fun _ => 0) (cellKey x y) s.bsx.sums) (s.gov F.DOS_BSE_REF_REF)

/-- F of a cell (R123). -/
def State.cellF (s : State) (x y : Int) : Nat :=
  cellFactor (s.kernel s.banks.krn.active) s.density (-151) ((densityRows s.lengthPx : Nat) + 150) x y

/-- The density rows that are final once `p` bands are processed, counted from row -151 (R124). -/
def finalRows (s : State) (p : Nat) : Int :=
  if s.bands ≤ p then (densityRows s.lengthPx : Nat) + 151 else (s.shape.bandRows * p : Nat)

/-- The bytes of d of a work area row (R127). -/
def densityRowBytes (s : State) (y : Int) : List Byte :=
  (intRange (-150) 277).flatMap (fun x => leBytes 2 (s.density x y)) ++ List.replicate 168 0#8

/-- The bytes of F of a work area row (R127). -/
def factorRowBytes (s : State) (y : Int) : List Byte :=
  (intRange (-1) 128).flatMap (fun x => leBytes 2 (if ((s.shape.tracks / 64 : Nat) : Int) < x then 0 else s.cellF x y))
    ++ List.replicate 252 0#8

/-- Whether the next band would be eligible but for the map (R103, R125). -/
def wouldBeEligible (s : State) : Bool :=
  s.running.isSome && !s.ras.stopped && !s.flag F.RAS_CTL_HOLD && decide (s.ras.eligible < s.bands)
    && decide (s.shape.tile * s.ras.eligible + s.shape.tile - 1 < s.readPoint + s.shape.leadLimit)
    && s.ras.dispBand == s.ras.eligible

/-- BSX_WAIT and BSX_LATE (R125). -/
def checkLate (s : State) : State :=
  if wouldBeEligible s && decide (s.covered ≤ s.ras.eligible) then
    if s.flag F.DOS_STATUS_BSX_WAIT then s else (s.raise F.DOS_STATUS_BSX_WAIT).raise F.DOS_EVENTS_BSX_LATE
  else s.clear F.DOS_STATUS_BSX_WAIT

/-- BAND_ELIGIBLE (R103, R154): the band takes its wake slot. -/
def bandEligibleOp (s : State) : State :=
  if wouldBeEligible s && decide (s.ras.eligible < s.covered) then
    let b := s.ras.eligible
    let slots := sparsePut (fun _ => { band := 0, held := false, mask := [] }) (b % s.shape.wakeSlots)
      { band := b, held := true, mask := [] } s.wak.slots
    let s1 := { s with ras := { s.ras with eligible := b + 1 }, wak := { s.wak with slots := slots } }
    s1.clear F.DOS_STATUS_BSX_WAIT
  else checkLate s

/-! ### Dispatch -/

/-- Whether a queued computation waits for a resend (R289). -/
def heldByLoss (s : State) (r : Recompute) : Bool :=
  match s.int.loss with
  | some l => !l.atAdmission && l.band == r.band && l.tile == r.tile
  | none => false

/-- A queued computation placed in band-major order of its tile (R104). -/
def insertRedo (t : Nat) (r : Recompute) : List Recompute → List Recompute
  | [] => [r]
  | x :: rest => if r.band * t + r.tile < x.band * t + x.tile then r :: x :: rest else x :: insertRedo t r rest

/-- The queued computations that may go, in band-major order (R104, R289, R319). -/
def waitingRedos (s : State) : List Recompute :=
  (s.ras.redo.filter (fun r => !heldByLoss s r && !(r.bad && !s.mem.bad.isEmpty))).foldl (fun l r => insertRedo s.shape.tilesPerBand r l) []

/-- The first-computation tile that goes next (R104). -/
def nextFirst (s : State) : Option (Nat × Nat) :=
  match s.running with
  | none => none
  | some e =>
    match e.head with
    | none => none
    | some h =>
      if s.flag F.RAS_CTL_HOLD || s.ras.eligible ≤ s.ras.dispBand then none
      else ((bandOrder s e h s.ras.dispBand).find? (fun k => !s.ras.dispTiles.contains k)).map (fun k => (s.ras.dispBand, k))

/-- A first-computation tile noted as dispatched (R103). -/
def noteDispatched (k : Nat) (s : State) : State :=
  let ts := k :: s.ras.dispTiles
  if ts.length = s.shape.tilesPerBand then
    { s with ras := { s.ras with dispTiles := [], dispBand := s.ras.dispBand + 1 } }
  else { s with ras := { s.ras with dispTiles := ts } }

/-- Whether an islet may take a queued computation at all (R83, R295). -/
def mayRedo (s : State) (r : Recompute) (i : Nat) : Bool := decide (s.role i < 2) && !(r.never && r.avoid.contains i)

/-- The slot that a queued computation goes to: those islets it should avoid only where no other can take it (R104, R295). -/
def redoTaker (s : State) (r : Recompute) : Option (Nat × Nat) :=
  let all := takers s (mayRedo s r)
  (all.find? (fun p => !r.avoid.contains p.1)).or all.head?

/-- An admission decode abandoned for waiting work that an islet meeting `ok` takes (R106): the one dispatched first (log entry 105). -/
def abandonAdmission (ok : Nat → Bool) (s : State) : Option State :=
  (s.ras.slots.find? (fun p => p.2.kind == 3 && s.role (p.1 / 2) == 0 && s.inService (p.1 / 2) && ok (p.1 / 2))).map (fun p =>
    admitTileLost p.2.band p.2.tile (dropSlot (p.1 / 2) (p.1 % 2) s))

/-- Work for a slot. -/
def newWork (s : State) (kind b k entry : Nat) : IsletWork :=
  { kind := kind, band := b, tile := k, entry := entry, since := s.clock.toNat, overrun := false }

/-- A waiting recomputation dispatched, or an admission decode in its way abandoned (R104, R106); none where no slot can take one. -/
def dispatchRedo (e : Entry) (s : State) : Option State :=
  (waitingRedos s).findSome? (fun r =>
    match redoTaker s r with
    | some (i, j) =>
      some (takeSlot i j (newWork s r.kind r.band r.tile e.idx) { s with ras := { s.ras with redo := s.ras.redo.erase r } })
    | none => abandonAdmission (mayRedo s r) s)

/-- The next first computation dispatched, or an admission decode in its way abandoned (R104, R106); a RESERVE islet takes none while a
recomputation waits (R83). -/
def dispatchFirst (e : Entry) (s : State) : Option State :=
  let ok := fun (i : Nat) => s.role i == 0 || (s.role i == 1 && (waitingRedos s).isEmpty)
  (nextFirst s).bind (fun (b, k) =>
    match takers s ok with
    | (i, j) :: _ => some (checkLate (noteDispatched k (takeSlot i j (newWork s 1 b k e.idx) s)))
    | [] => abandonAdmission ok s)

/-- An admission decode dispatched: to an ADMIT islet, or to a RASTER islet where no other work waits (R83, R104). -/
def dispatchAdmission (others : Bool) (s : State) : Option State :=
  match s.ing.adm with
  | none => none
  | some a =>
    match a.todo, takers s (fun i => s.role i == 2 || (s.role i == 0 && !others)) with
    | (b, k) :: rest, (i, j) :: _ =>
      if a.paused then none
      else some (takeSlot i j (newWork s 3 b k a.idx)
        { s with ing := { s.ing with adm := some { a with todo := rest, flight := (b, k) :: a.flight } } })
    | _, _ => none

/-- TILE_DISPATCH (R104): one item of waiting work goes to a slot, in the order recomputation, first computation, admission decode. -/
def tileDispatchOp (s : State) : State :=
  let run := if s.ras.stopped then none else s.running
  let others := run.isSome && (!(waitingRedos s).isEmpty || (nextFirst s).isSome)
  (((run.bind (fun e => dispatchRedo e s)).or (run.bind (fun e => dispatchFirst e s))).or (dispatchAdmission others s)).getD s

/-- The mask bit of a tile cleared where its band is held (R160). -/
def clearMask (b k : Nat) (s : State) : State :=
  { s with wak := { s.wak with slots := s.wak.slots.map (fun p =>
      if p.2.held && p.2.band == b then (p.1, { p.2 with mask := p.2.mask.filter (fun j => j != k) }) else p) } }

/-- What the integrity unit keeps about a tile. -/
def State.note (s : State) (b k : Nat) : TileNote :=
  (s.ras.notes.find? (fun n => n.band == b && n.tile == k)).getD
    { band := b, tile := k, checksum := none, rival := none, lastIslet := 0, fails := 0, holdsResume := false, was := [] }

/-- The note of a tile replaced. -/
def State.setNote (s : State) (n : TileNote) : State :=
  { s with ras := { s.ras with notes := n :: s.ras.notes.filter (fun m => !(m.band == n.band && m.tile == n.tile)) } }

/-- Whether a tile of the running course has been dispatched (R107). -/
def State.dispatched (s : State) (b k : Nat) : Bool :=
  decide (b < s.ras.dispBand) || (b == s.ras.dispBand && s.ras.dispTiles.contains k)

/-- A computation of a tile to be queued: it avoids the islet whose result it replaces (R104) and further ones, and must avoid every islet
that computed the tile where two results differ (R295). -/
def recomputeOf (s : State) (b k kind : Nat) (avoid : List Nat) : Recompute :=
  let n := s.note b k
  { band := b, tile := k, kind := kind
    avoid := if n.rival.isSome then n.was else (if n.checksum.isSome then [n.lastIslet] else []) ++ avoid
    never := n.rival.isSome, bad := false }

/-- A tile whose computation was put off is queued again, with the KIND it had: after a source loss (R289), or after a read of a BAD word,
once no word is BAD (R319). -/
def putBack (b k kind : Nat) (bad : Bool) (s : State) : State :=
  { s with ras := { s.ras with redo := s.ras.redo ++ [{ recomputeOf s b k kind [] with bad := bad }] } }

/-- A recomputation requested (R107, R160): merged where one waits, not needed before the first dispatch, and restarting a tile in
flight. `hold` says that the resume waits for it (R288). -/
def queueRedo (b k : Nat) (avoid : List Nat) (hold : Bool) (s : State) : State :=
  let n := s.note b k
  let s1 := clearMask b k (if hold then s.setNote { n with holdsResume := true } else s)
  if !s1.dispatched b k then s1
  else if s1.ras.redo.any (fun r => r.band == b && r.tile == k) then s1
  else
    let flying := s1.ras.slots.any (fun p => p.2.kind != 3 && p.2.band == b && p.2.tile == k)
    let s2 := { s1 with ras := { s1.ras with
      slots := s1.ras.slots.filter (fun p => p.2.kind == 3 || !(p.2.band == b && p.2.tile == k))
      redo := s1.ras.redo ++ [recomputeOf s1 b k 2 avoid] } }
    State.raiseIf flying F.RAS_EVENTS_RESTART s2

/-- A result of an islet counted as failed (R109): at the limit the islet is to leave service. -/
def countFault (i : Nat) (s : State) : State :=
  let s1 := (s.bump (F.RAS_ISLET_FAULTS_IN_COURSE i)).bump (F.RAS_ISLET_FAULTS_TOTAL i)
  let lim := s1.gov F.RAS_CTL_FAULT_LIMIT
  if lim ≠ 0 ∧ s1.fget (F.RAS_ISLET_FAULTS_IN_COURSE i) = lim then
    ((s1.raise (F.RAS_ISLET_CTL_DISABLE i)).raise (F.RAS_ISLET_STATUS_AUTO_DISABLED i)).raise F.RAS_EVENTS_AUTO_DISABLE
  else s1

/-- SLOW_TILE (R110): a slot's work passes the limit. -/
def slowTileOp (i j : Nat) (s : State) : State :=
  let lim := s.fget F.RAS_SLOW_LIMIT_LIMIT
  match s.slotWork i j with
  | some w =>
    if lim = 0 ∨ w.overrun then s
    else
      let s1 := s.until (w.since + lim * ticksPerUs)
      let s2 := { s1 with ras := { s1.ras with slots := s1.ras.slots.map (fun (p : Nat × IsletWork) =>
        if p.1 = 2 * i + j then (p.1, { p.2 with overrun := true }) else p) } }
      (s2.bump (F.RAS_ISLET_SLOW_COUNT i)).raise F.RAS_EVENTS_SLOW_TILE
  | none => s

/-- RAS_PROBE (R91): the coefficients of a named tile are to be computed. -/
def rasProbeOp (b k e : Nat) (s : State) : State :=
  { s.clear F.RAS_PROBE_STATUS_VALID with ras := { s.ras with probe := some (b, k, e) } }

/-- RAS_PROBE_DONE (R91): the coefficients become VALID, or ERROR where the entry has no admitted header. -/
def rasProbeDoneOp (s : State) : State :=
  match s.ras.probe with
  | none => s
  | some (b, k, e) =>
    let head := (s.entry e).bind (fun x => if x.state = .admitting then none else x.head)
    let p : Placement := match head with
      | some h => tilePlacement h.poly s.shape.tile b k
      | none => { a0 := 0, a1 := 0, a2 := 0, b0 := 0, b1 := 0, b2 := 0, xc := 0, yc := 0 }
    let s1 := (s.setPair F.RAS_PROBE_A0_LO_A0 F.RAS_PROBE_A0_HI_A0 (unsignedOf 64 p.a0)).setPair
      F.RAS_PROBE_B0_LO_B0 F.RAS_PROBE_B0_HI_B0 (unsignedOf 64 p.b0)
    let s2 := (((s1.fsetI F.RAS_PROBE_A1_A1 p.a1).fsetI F.RAS_PROBE_A2_A2 p.a2).fsetI F.RAS_PROBE_B1_B1 p.b1).fsetI
      F.RAS_PROBE_B2_B2 p.b2
    let s3 := (s2.fset F.RAS_PROBE_STATUS_ERROR (bitOf head.isNone)).fset F.RAS_PROBE_STATUS_VALID 1
    { s3 with ras := { s3.ras with probe := none } }

end Sys2Proof.Machine
end

