-- ==== Sys2Proof/Machine/Window.lean ====
section
/-! DEFINITION. Reads of tile sources (R289), tile decode errors in a running course (R54, R73), and the backscatter engine's window and
work area (R126, R127) with the check bits of table words written (R317, R327). -/

namespace Sys2Proof.Machine

/-- Table bytes written: their check bits are fresh but for an armed FLIP (R317, R327). -/
def freshTable (hit : Nat → Bool) (s : State) : State :=
  let s1 := { s with mem := { s.mem with flips := s.mem.flips.filter (fun p => !hit p.1) } }
  match s.armedFlip 0 hit with
  | none => s1
  | some (a, m) =>
    ({ s1 with mem := { s1.mem with flips := sparsePut (fun _ => 0) a (m % 32) s1.mem.flips } }).fset F.SRM_CHK_CTL_MODE 0

/-! ### Reads of the stream -/

/-- The range of a tile's stream bytes that a port cannot read (R289): the index entry or the segment. -/
def lossOf (s : State) (port : Nat) (e : Entry) (h : StreamHead) (b k : Nat) : Option (Nat × Nat × Bool) :=
  let ia := e.base + h.indexAt + 16 + 16 * (s.shape.tilesPerBand * b + k)
  if s.hbmBad port ia 16 then some (ia, 16, true)
  else
    let te := s.tileEntry e h b k
    if te.segStored ≠ 0 ∧ s.hbmBad port (e.base + te.segOffset) te.segStored then some (e.base + te.segOffset, te.segStored, false)
    else none

/-- The words that the read of a tile's stream bytes counts (R314). -/
def readTileSource (port : Nat) (e : Entry) (h : StreamHead) (b k : Nat) (s : State) : State :=
  let ia := e.base + h.indexAt + 16 + 16 * (s.shape.tilesPerBand * b + k)
  let te := s.tileEntry e h b k
  let s1 := readHbm port ia 16 s
  if s.hbmBad port ia 16 ∨ te.segStored = 0 then s1 else readHbm port (e.base + te.segOffset) te.segStored s1

/-- A tile whose decode fails: its place, the islet that decodes it, or the backscatter engine (R72). -/
structure FailedTile where
  band : Nat
  tile : Nat
  islet : Nat
  byEngine : Bool
  dec : TileDecode
deriving DecidableEq, Repr

/-- The tiles in flight whose decode fails (R73), the backscatter engine's among them. -/
def failingInFlight (e : Entry) (h : StreamHead) (s : State) : List FailedTile :=
  let fails := fun (port b k islet : Nat) (byEngine : Bool) =>
    let d := decodeTileAt (s.stream e) s.shape h b k
    if d.err.isNone || (lossOf s port e h b k).isSome then none
    else some { band := b, tile := k, islet := islet, byEngine := byEngine, dec := d : FailedTile }
  let t := s.shape.tilesPerBand
  (s.ras.slots.filter (fun p => p.2.kind != 3)).filterMap (fun p => fails (p.1 / 32) p.2.band p.2.tile (p.1 / 2) false)
    ++ (if s.bsx.busy then (fails 8 (s.bsx.next / t) (s.bsx.next % t) 0 true).toList else [])

/-- The failing tile that comes first in band-major order (R73). -/
def firstFailed (t : Nat) (f : FailedTile) (fs : List FailedTile) : FailedTile :=
  fs.foldl (fun x y => if y.band * t + y.tile < x.band * t + x.tile then y else x) f

/-- A tile decode error in a running course (R54, R72): the course ends, and reports the first in band-major order of the tiles then in flight
whose decode fails (R73; log entry 110). -/
def layoutAbort (e : Entry) (h : StreamHead) (f : FailedTile) (s : State) : State :=
  let x := firstFailed s.shape.tilesPerBand f (failingInFlight e h s)
  let s1 := (setTileErr e.idx x.islet x.byEngine x.dec s).raise F.ING_EVENTS_LAYOUT_ABORT
  endEarly 1 (tileFailure x.dec x.band x.tile) (requestHalt 10 false s1)

/-! ### The window -/

/-- The byte address that stands here for the F of cell (x, y) in the backscatter window: the spec gives the window's words none (log entry
109). A row takes 512 bytes. -/
def windowAt (x y : Int) : Nat := 0x1000000 + 512 * ((y + 1) % 128).toNat + 2 * (x + 1).toNat

/-- The F rows that the on-chip window holds, from the first to the last (R127; log entry 109): those of the bands covered last, the wake
buffer's span and one more. -/
def State.windowRows (s : State) : Int × Int :=
  let c := s.covered
  ((s.shape.bandRows * (c - (s.shape.wakeSlots + 1)) : Nat) - 1,
   if c = 0 then -2 else min (densityRows s.lengthPx : Nat) (s.shape.bandRows * c : Nat))

/-- Whether the window holds an F row. -/
def State.inWindow (s : State) (y : Int) : Bool := decide (s.windowRows.1 ≤ y ∧ y ≤ s.windowRows.2)

/-- The F row of a window address, where the window holds it. -/
def State.windowRow (s : State) (a : Nat) : Option Int :=
  (intRange s.windowRows.1 s.windowRows.2).find? (fun y => decide (windowAt (-1) y ≤ a ∧ a < windowAt (-1) y + 512))

/-- Where the work area holds a density row, followed by the F row 1,024 bytes on (R127). -/
def Entry.rowAt (e : Entry) (y : Int) : Nat := e.bsxBase + 1536 * (y + 151).toNat

/-- F of a cell as the dose stage reads it (R127): from the window, or from the work area for a row that the window does not hold. -/
def State.storedF (s : State) (e : Entry) (x y : Int) : Nat :=
  if s.inWindow y then
    let a := windowAt x y
    s.cellF x y ^^^ (sparseGet (fun _ => 0) a s.bsx.bits + sparseGet (fun _ => 0) (a + 1) s.bsx.bits * 256)
  else leNat (s.readBytes (e.rowAt y + 1024 + 2 * (x + 1).toNat) 2)

/-- F of a pixel (R115, R128). -/
def State.pixelF (s : State) (e : Entry) (x y : Nat) : Nat :=
  if s.govFlag F.DOS_CTL_BSX_EN then interpolate (s.storedF e) x y else 0x4000

/-- Words of the window written afresh: nothing of what they held is left (R319). -/
def freshWindow (hit : Nat → Bool) (s : State) : State :=
  let s1 := freshTable hit s
  { s1 with bsx := { s1.bsx with bits := s1.bsx.bits.filter (fun p => !hit p.1) }
            mem := { s1.mem with bad := s1.mem.bad.filter (fun a => !hit a) } }

/-- The addresses of a window row. -/
def inWindowRow (y : Int) (a : Nat) : Bool := decide (windowAt (-1) y ≤ a ∧ a < windowAt (-1) y + 260)

/-- The work area of the running course left undefined: no row of it is final yet (R127), or a reset stops the engine (R135). -/
def scrambleArea (s : State) : State :=
  match s.running.bind Entry.workRange with
  | some r => scramble r.1 r.2 s
  | none => s

/-- The density rows lo to hi written to the work area (R127). -/
def writeDensity (e : Entry) (ys : List Int) (s : State) : State :=
  ys.foldl (fun t y => clientWrite 8 (e.rowAt y) (densityRowBytes s y) t) s

/-- F rows written to the work area and to the window (R127). -/
def writeFactors (e : Entry) (ys : List Int) (s : State) : State :=
  ys.foldl (fun t y => freshWindow (inWindowRow y) (clientWrite 8 (e.rowAt y + 1024) (factorRowBytes s y) t)) s

/-- The rows that became final when the bands processed went from p to p' (R124, R127). -/
def writeRows (e : Entry) (p p' : Nat) (s : State) : State :=
  let r : Int := s.radius
  let lo := if p = 0 then -151 else finalRows s p
  let n : Int := densityRows s.lengthPx
  let flo := if p = 0 then -1 else finalRows s p - r
  let fhi := if s.bands ≤ p' then n else finalRows s p' - r - 1
  writeFactors e (intRange (max (-1) flo) (min n fhi)) (writeDensity e (intRange lo (finalRows s p' - 1)) s)

/-! ### Rebuilding rows -/

/-- The tiles of some bands decoded again by the engine (R126): their contributions, or none where one is lost or malformed. -/
def decodeAgain (e : Entry) (h : StreamHead) : List (Nat × Nat) → List (Nat × Nat) → State → Option (List (Nat × Nat)) × State
  | [], acc, s => (some acc, s)
  | (b, k) :: rest, acc, s =>
    let s1 := readTileSource 8 e h b k s
    match lossOf s 8 e h b k with
    | some r => (none, foundLoss e b k r false s1)
    | none =>
      let d := decodeTileAt (s.stream e) s.shape h b k
      if d.err.isSome then (none, layoutAbort e h { band := b, tile := k, islet := 0, byEngine := true, dec := d } s1)
      else decodeAgain e h rest (acc ++ tileDensity s.shape h.classes h.lengthPx b k d.items) s1

/-- The bands whose tiles make the density rows lo to hi (R118, R124). -/
def bandsOfRows (s : State) (lo hi : Int) : List Nat :=
  let at' := fun (y : Int) => min (y.toNat / s.shape.bandRows) (s.bands - 1)
  (List.range (at' hi + 1 - at' lo)).map (fun i => at' lo + i)

/-- F rows rebuilt after a failed read (R126): the density rows within RADIUS of them are formed again from the stream, and the rows written
afresh where a word of them fails. Nothing is rebuilt while the stream is not whole. -/
def rebuildRows (e : Entry) (h : StreamHead) (ys : List Int) (s : State) : State :=
  match ys with
  | [] => s
  | y0 :: rest =>
    let n : Int := densityRows s.lengthPx
    let lo := max (-151) (rest.foldl min y0 - s.radius)
    let hi := min (n + 150) (rest.foldl max y0 + s.radius)
    let tiles := (bandsOfRows s lo hi).flatMap (fun b => (List.range s.shape.tilesPerBand).map (fun k => (b, k)))
    match decodeAgain e h tiles [] s with
    | (none, s1) => s1
    | (some parts, s1) =>
      let within := fun (key : Nat) => decide (lo ≤ (key / 1024 : Nat) - 151 ∧ ((key / 1024 : Nat) : Int) - 151 ≤ hi)
      let sums := (parts.filter (fun p => within p.1)).foldl
        (fun m p => sparsePut (fun _ => 0) p.1 (sparseGet (fun _ => 0) p.1 m + p.2) m) (s1.bsx.sums.filter (fun p => !within p.1))
      let s2 := ({ s1 with bsx := { s1.bsx with sums := sums } }).raise F.DOS_EVENTS_BSX_REBUILD
      writeFactors e (ys.filter (fun y => decide (-1 ≤ y ∧ y ≤ n)))
        (writeDensity e ((intRange lo hi).filter (fun y => s2.hbmBad 8 (e.rowAt y) 1024)) s2)

/-- The rows of the work area that a range touches with a word that the engine cannot read. -/
def badRows (s : State) (e : Entry) (a n : Nat) : List Int :=
  (intRange (-151) ((densityRows s.lengthPx : Nat) + 150)).filter (fun y =>
    let lo := max a (e.rowAt y)
    s.hbmBad 8 lo (min (a + n) (e.rowAt y + 1536) - lo))

/-- The engine's read of a range of its work area (R126): rows that fail are rebuilt. -/
def readArea (e : Entry) (h : StreamHead) (a n : Nat) (s : State) : State := rebuildRows e h (badRows s e a n) (readHbm 8 a n s)

/-- The F rows that a tile's pixels read (R128). -/
def factorRows (s : State) (b : Nat) : List Int :=
  intRange ((s.shape.tile * b / 64 : Nat) - 1) (min (densityRows s.lengthPx : Nat) (s.shape.tile * (b + 1) / 64 : Nat))

/-- The bytes of F that a tile reads of the work area (R127, R128): address and length in each row that the window does not hold. -/
def factorRange (s : State) (e : Entry) (b k : Nat) : List (Nat × Nat) :=
  let n := s.shape.tile
  ((factorRows s b).filter (fun y => !s.inWindow y)).map (fun y => (e.rowAt y + 1024 + 2 * (n * k / 64), 2 * (n / 64 + 2)))

/-- The table words that a tile reads: its tracks' gains, the kernel (R115, R116) and its F in the window (R127). -/
def State.tileReads (s : State) (b k a : Nat) : Bool :=
  if a < 0x1000000 then
    match tableAt a with
    | some (.tgn, bk, off) => s.govFlag F.DOS_CTL_TGN_EN && bk == s.banks.tgn.active &&
        decide (s.shape.tile * k ≤ off / 4 * 2 + 1 ∧ off / 4 * 2 < s.shape.tile * k + s.shape.tile)
    | some (.krn, bk, _) => s.govFlag F.DOS_CTL_BSX_EN && bk == s.banks.krn.active
    | _ => false
  else
    let lo : Int := (s.shape.tile * k / 64 : Nat) - 1
    let hi : Int := (s.shape.tile * (k + 1) / 64 : Nat)
    s.govFlag F.DOS_CTL_BSX_EN && (factorRows s b).any (fun y =>
      s.inWindow y && decide (windowAt lo y ≤ a ∧ a < windowAt hi y + 2))

/-- Whether a tile reads a BAD word (R319). -/
def State.heldByBad (s : State) (b k : Nat) : Bool := s.mem.bad.any (s.tileReads b k)

end Sys2Proof.Machine
end

