-- ==== Sys2Proof/Machine/Protect.lean ====
section
/-! DEFINITION. Protection of on-chip memory (R316 to R320). -/

namespace Sys2Proof.Machine

/-! ### Table words read -/

/-- What a stored byte reads as under the mask on its check bits (R317): bits c0 to c3 of the mask are the syndrome. -/
def byteClass (m : Nat) : WordClass :=
  let synd := m % 16
  let p := (List.range 5).countP (fun i => bitAt i m) % 2
  if p = 0 then (if synd = 0 then .clean else .uncorrectable)
  else if synd = 0 ∨ synd = 1 ∨ synd = 2 ∨ synd = 4 ∨ synd = 8 then .corrected none
  else match ([3, 5, 6, 7, 9, 10, 11, 12] : List Nat).findIdx? (fun x => x == synd) with
    | some d => .corrected (some d)
    | none => .uncorrectable

/-- Whether a table address lies in a bank in service (R319). -/
def State.inServiceWord (s : State) (a : Nat) : Bool :=
  match tableAt a with
  | some (t, b, _) => t == .map || b == (s.bank t).active
  | none => false

/-- Whether a word in service is BAD (R319). -/
def State.badInService (s : State) : Bool := s.mem.bad.any s.inServiceWord

/-- A data bit of a table byte inverted, as a miscorrection does. -/
def flipTableBit (a d : Nat) (s : State) : State :=
  if 0x1000000 ≤ a then
    let v := sparseGet (fun _ => 0) a s.bsx.bits ^^^ 2 ^ d
    { s with bsx := { s.bsx with bits := sparsePut (fun _ => 0) a v s.bsx.bits } }
  else
  match tableAt a with
  | some (.map, _, off) =>
    let i := off / 8
    let v := entryHostBits (s.mapEntryRaw i ^^^ 2 ^ (off % 8 * 8 + d))
    { s with crw := { s.crw with map := sparsePut (fun _ => 0) i v s.crw.map } }
  | _ =>
    let w := a / 4 * 4
    s.setReg w (s.reg w ^^^ BitVec.ofNat 32 (2 ^ (a % 4 * 8 + d)))

/-- A word of the backscatter window is BAD (R319): F is rebuilt as under R126 and the word written afresh. -/
def rebuildWindow (a : Nat) (s : State) : State :=
  match s.windowRow a, s.running with
  | some y, some e => match e.head with
    | some h => rebuildRows e h [y] s
    | none => freshWindow (fun x => x / 4 == a / 4) s
  | _, _ => freshWindow (fun x => x / 4 == a / 4) s

/-- A word found BAD (R319). -/
def markBad (a : Nat) (s : State) : State :=
  if 0x1000000 ≤ a then
    rebuildWindow a (if s.mem.bad.contains a then s
      else proposeRow 2 0 a (({ s with mem := { s.mem with bad := insertKey a s.mem.bad } }).raise F.SRM_EVENTS_BAD))
  else if s.mem.bad.contains a then s
  else
    let s1 := ({ s with mem := { s.mem with bad := insertKey a s.mem.bad } }).raise F.SRM_EVENTS_BAD
    let s2 := proposeRow 2 0 a s1
    if s.inServiceWord a then
      if s.running.isSome then (requestHalt 7 false s2).fset F.COX_CTL_HOLD 1 else s2
    else match tableAt a with
      | some (t, b, _) =>
        let k := s2.bank t
        let marks := if k.allMarked then (bankWords t b).filter (fun x => x != a) else k.marks.filter (fun x => x != a)
        s2.setBank t { k with allMarked := false, marks := marks }
      | none => s2

/-- One byte of a table word read (R317, R318): a correction is written back; a word corrected twice in a lap is proposed (R326). -/
def readTableByte (a : Nat) (s : State) : State :=
  match byteClass (sparseGet (fun _ => 0) a s.mem.flips) with
  | .clean => s
  | .uncorrectable => markBad (a / 4 * 4) s
  | .corrected d =>
    let s1 := ({ s with mem := { s.mem with flips := sparsePut (fun _ => 0) a 0 s.mem.flips, sramCe := s.mem.sramCe + 1 } })
    let s2 := (s1.bump F.SRM_CE_COUNT_COUNT).raise F.SRM_EVENTS_CE
    let s3 := match d with | some b => flipTableBit a b s2 | none => s2
    let w := a / 4 * 4
    if s.mem.ceLap.contains w then proposeRow 3 0 w s3
    else { s3 with mem := { s3.mem with ceLap := insertKey w s3.mem.ceLap } }

/-- The table words a unit reads, given as a set of addresses: only bytes whose check bits differ matter. -/
def readTables (hit : Nat → Bool) (s : State) : State :=
  ((s.mem.flips.map Prod.fst).filter hit).foldl (fun t a => readTableByte a t) s

/-- Whether the words of a set hold a BAD one in service. -/
def State.badAmong (s : State) (hit : Nat → Bool) : Bool := s.mem.bad.any (fun a => hit a && s.inServiceWord a)

/-- The addresses of a bank. -/
def inBank (t : TableId) (b a : Nat) : Bool :=
  let p := bankPlace t
  decide (p.1 + b * p.2 ≤ a ∧ a < p.1 + (b + 1) * p.2)

/-- TABLE_WRITE (R130, R131) with its check bits (R317, R327); a host write of a whole shadow word clears BAD (R319). -/
def tableStore (a : Nat) (v : Word) (s : State) : State :=
  let s1 := tableWriteOp a v s
  match tableAt a with
  | some (t, b, _) =>
    let k := s.bank t
    if t = .map ∨ b = k.active ∨ k.pending ∨ k.cloning then s1
    else
      let s2 := freshTable (fun x => decide (a ≤ x ∧ x < a + 4)) s1
      { s2 with mem := { s2.mem with bad := s2.mem.bad.filter (fun x => x != a) } }
  | none => s1

/-- CLONE_DONE with the reads of the active bank and the fresh words of the shadow (R131, R317). -/
def cloneDone (t : TableId) (s : State) : State :=
  let b := s.bank t
  if !b.cloning then s
  else
    let s1 := cloneDoneOp t (readTables (inBank t b.active) s)
    if t = .map then s1
    else
      let sh := inBank t (1 - b.active)
      let s2 := freshTable sh s1
      { s2 with mem := { s2.mem with bad := s2.mem.bad.filter (fun x => !sh x) } }

/-- MAP_EXCHANGED with the reads of the bank in service and its fresh words (R143, R317). A word already BAD stays so (R330). -/
def mapExchanged (s : State) : State :=
  if !s.crw.exchanging then s
  else freshTable (inBank .map 0) (mapExchangedOp (readTables (inBank .map 0) s))

end Sys2Proof.Machine
end

