-- ==== Sys2Proof/Machine/Tiles.lean ====
section
/-! DEFINITION. Tile computations and what follows them: the integrity checks (R276 to R283), release (R281, R114), replay (R294,
R295), source loss and resend (R289 to R291), and the backscatter engine's tiles (R117 to R126). -/

namespace Sys2Proof.Machine

/-! ### The area check -/

/-- Qcol of an edge over a column (R279), H being the tile's height in 1/64 px. -/
def edgeQcol (e : CoverEdge) (h xa xb : Int) : Int :=
  let d := e.x1 - e.x0
  let dy := e.y1 - e.y0
  if dy = 0 then 4096 * clampInt 0 h e.y0 * (xb - xa)
  else
    let na := e.y0 * d + (xa - e.x0) * dy
    let nb := e.y0 * d + (xb - e.x0) * dy
    let nlo := min na nb
    let nhi := max na nb
    let m := h * d
    let clo := clampInt 0 m nlo
    let chi := clampInt 0 m nhi
    let x := max (nhi - m) 0 - max (nlo - m) 0
    roundHalfEven (2048 * (chi * chi - clo * clo + 2 * h * d * x)) (d * dy.natAbs)

/-- Z of a tile of edge n px (R279). -/
def shadowArea (n : Nat) (shapes : List PlacedShape) : Int :=
  (shapes.flatMap PlacedShape.edges |>.map (fun e => ((List.range n).map (fun i =>
    match edgeSpan e i with
    | none => 0
    | some (xa, xb) => let q := edgeQcol e (64 * (n : Int)) xa xb; if e.neg then -q else q)).sum)).sum

/-- Σ of a tile (R279). -/
def isletArea (n : Nat) (shapes : List PlacedShape) : Int :=
  (shapes.map (fun p => ((List.range n).map (fun j => ((List.range n).map (fun i => pixelS p.edges i j)).sum)).sum)).sum

/-- Pairs of an edge and a pixel that round (R280, N_x). -/
def roundedPixels (n : Nat) (e : CoverEdge) : Nat :=
  let d := e.x1 - e.x0
  let dy := e.y1 - e.y0
  ((List.range n).map (fun i => match edgeSpan e i with
    | none => 0
    | some (xa, xb) => ((List.range n).filter (fun (j : Nat) =>
        let yb := 64 * (j : Int)
        let na := (e.y0 - yb) * d + (xa - e.x0) * dy
        let nb := (e.y0 - yb) * d + (xb - e.x0) * dy
        decide (0 < max na nb ∧ min na nb < 64 * d))).length)).sum

/-- The tolerance of R280: half of N_x + K, rounded down. -/
def areaTolerance (n : Nat) (shapes : List PlacedShape) : Nat :=
  let es := (shapes.flatMap PlacedShape.edges).filter (fun e => e.y0 != e.y1)
  ((es.map (roundedPixels n)).sum + (es.map (fun e => ((List.range n).filter (fun i => (edgeSpan e i).isSome)).length)).sum) / 2

/-- δ of R280: the difference modulo 2^40 as a signed number. -/
def areaDelta (sigma z : Int) : Int := signedOf 40 (unsignedOf 40 (sigma - z))

/-! ### The computation -/

/-- The cells of tile (b, k) in row order: DOSE and SAT (R111 to R116); a row at or beyond LENGTH_PX has no coverage (R96). -/
def tileCells (s : State) (e : Entry) (h : StreamHead) (b k : Nat) (shapes : List PlacedShape) : List (Nat × Bool) :=
  let n := s.shape.tile
  let scale := (h.blocks.getD e.pass { offX := 0, offY := 0, scale := 0 }).scale
  (List.range n).flatMap (fun j => (List.range n).map (fun i =>
    let g := if s.govFlag F.DOS_CTL_TGN_EN then s.trackGain s.banks.tgn.active (n * k + i) else 0x8000
    let a := if n * b + j < h.lengthPx then pixelA h.classes shapes i j else 0
    pixelDose a (s.pixelF e (n * k + i) (n * b + j)) g scale (s.gov F.DOS_PIX_MAX_MAX)))

/-- The dose checksum of a tile (R294). -/
def doseChecksum (cells : List (Nat × Bool)) : Nat :=
  (crc32c (cells.flatMap (fun c => leBytes 2 (c.1 + bitOf c.2 * 2048)))).toNat

/-- The wake cells written from a list of cells in tile row order: each number is a cell's 16 bits and its two parity faults (R152,
R153, R316); an armed FLIP acts on its target (R327). -/
def writeTile (b k : Nat) (words : List Nat) (s : State) : State :=
  let n := s.shape.tile
  let at' := fun (p : Nat) => cellIndex s.shape (n * k + p % n) (n * b + p / n)
  let ps := ((List.range words.length).zip words).map (fun q => (at' q.1, some q.2))
  let s1 := { s with wak := { s.wak with cells := sparsePutAll (fun _ => none) s.wak.cells ps } }
  match s.armedFlip 2 (fun a => ps.any (fun q => q.1 == a / 2)) with
  | none => s1
  | some (a, m) =>
    let old := (sparseGet (fun _ => none) (a / 2) s1.wak.cells).getD 0
    let v := if m % 2 = 1 then old ^^^ 2 ^ (16 + a % 2) else old
    ({ s1 with wak := { s1.wak with cells := sparsePut (fun _ => none) (a / 2) (some v) s1.wak.cells } }).fset
      F.SRM_CHK_CTL_MODE 0

/-- The cells that a computation which fails leaves: nothing says what they hold (log entry 2). -/
def freeCells (b k : Nat) (s : State) : State :=
  let (g, s1) := s.fresh
  let n := s.shape.tile
  writeTile b k ((List.range (n * n)).map (fun i => (Config.freeCell (2 ^ 26 * g + i)).toNat)) s1

/-- A completed tile's counts (R99 to R102). -/
def countTile (b k dclass : Nat) (shapes : List PlacedShape) (s : State) : State :=
  let e := tileIncidences s.shape.tile shapes
  let d := densityClass e
  let s1 := s.bump (F.RAS_CLASS_COUNT_COUNT d)
  let s2 := if dclass < d then (s1.bump F.RAS_UNDERSTATED_COUNT).raise F.RAS_EVENTS_UNDERSTATED else s1
  if s2.fget F.RAS_E_MAX_E < e then
    ((s2.raiseTo F.RAS_E_MAX_E e).fset F.RAS_E_MAX_AT_BAND b).fset F.RAS_E_MAX_AT_TILE k
  else s2

/-! ### Faults -/

/-- The band, tile and islet of a journal record (R293). -/
def tileWord (b k islet : Nat) : Nat := b % 65536 + k % 32 * 2 ^ 16 + islet % 128 * 2 ^ 21

/-- A tile fault counted and reported (R282 steps 2 and 3), with KIND `code`, for the course of an entry. -/
def reportFault (ids : Nat × Nat) (islet b k code : Nat) (delta : Int) (injected : Bool) (s : State) : State :=
  let s1 := (countFault islet s).bump F.INT_TILE_FAULTS_COUNT
  let s2 := s1.setReg R.INT_FAULT_LAST (BitVec.ofNat 32 (tileWord b k islet + code * 2 ^ 28 + 2 ^ 31))
  let s3 := if code = 2 then s2.fset F.INT_AREA_DIFF_DELTA (unsignedOf 32 (clampInt (-2 ^ 31) (2 ^ 31 - 1) delta)) else s2
  journal 3 ids (tileWord b k islet + code * 2 ^ 28) (if code = 2 then unsignedOf 40 delta else 0) injected
    (s3.raise F.INT_EVENTS_TILE_FAULT)

/-- A computation that fails (R282, R283): not released, counted, queued again on another islet unless the limit ends the course. -/
def tileFault (islet b k code : Nat) (delta : Int) (injected : Bool) (s : State) : State :=
  let n := s.note b k
  let s1 := reportFault s.courseIds islet b k code delta injected (s.setNote { n with fails := n.fails + 1 })
  let s2 := queueRedo b k [islet] false s1
  if s.gov F.INT_CTL_TILE_LIMIT ≤ n.fails + 1 then
    endEarly 3 none (requestHalt 7 false (s2.raise F.INT_EVENTS_TILE_LIMIT))
  else s2

/-- A parity failure of local memory counted per row, and the proposal of R326 at the second in a course. -/
def localFault (islet row : Nat) (s : State) : State :=
  let s1 := { s with mem := { s.mem with localRows := (islet, row) :: s.mem.localRows } }
  if s.mem.localRows.contains (islet, row) then proposeRow 4 1 (131072 * islet + row) s1 else s1

/-! ### Release -/

/-- The saturated pixels of a first release (R114). -/
def countSaturated (b k : Nat) (cells : List (Nat × Bool)) (s : State) : State :=
  let n := s.shape.tile
  let sats := ((List.range cells.length).zip cells).filterMap (fun p => if p.2.2 then some p.1 else none)
  match sats with
  | [] => s
  | p :: _ =>
    let row := n * b + p / n
    let track := n * k + p % n
    let held := s.flag F.DOS_SAT_FIRST_VALID
    let s1 := s.add F.DOS_SAT_COUNT_COUNT sats.length
    let s2 := if held then s1 else s1.raise F.DOS_EVENTS_SATURATED
    let r0 := s.fget F.DOS_SAT_FIRST_ROW_ROW
    if !held || row < r0 || (row == r0 && track < s.fget F.DOS_SAT_FIRST_TRACK) then
      ((s2.fset F.DOS_SAT_FIRST_TRACK track).fset F.DOS_SAT_FIRST_VALID 1).fset F.DOS_SAT_FIRST_ROW_ROW row
    else s2

/-- Bands released throughout, moved on over those whose every tile has been released (R105). -/
def advanceDone (s : State) : State :=
  let t := s.shape.tilesPerBand
  let whole := fun (b : Nat) => (List.range t).all (fun k => (s.note b k).checksum.isSome)
  let run := ((List.range (s.bands - s.ras.doneBelow)).map (fun i => s.ras.doneBelow + i)).takeWhile whole
  { s with ras := { s.ras with doneBelow := s.ras.doneBelow + run.length } }

/-- The wake fault of INJECT_WAKE planted in a band that becomes valid (R303). -/
def plantWake (b : Nat) (s : State) : State :=
  let t := s.fget F.INT_INJECT_TRACK
  let y := s.shape.tile * b
  let i := cellIndex s.shape t y
  match s.fget F.INT_INJECT_KIND, sparseGet (fun _ => none) i s.wak.cells with
  | 4, some v =>
    let s1 := { s with
      wak := { s.wak with cells := sparsePut (fun _ => none) i (some (v ^^^ 2 ^ 16)) s.wak.cells }
      int := { s.int with planted := (t, y) :: s.int.planted } }
    s1.fset F.INT_INJECT_KIND 0
  | _, _ => s

/-- A tile released (R281): the mask bit, the checksum kept with the islet of its first release, the journal's record, and what a first or a
repeated release adds. -/
def releaseTile (islet kind b k : Nat) (cells : List (Nat × Bool)) (sigma : Int) (s : State) : State :=
  let n := s.note b k
  let c := doseChecksum cells
  let slots := s.wak.slots.map (fun p =>
    if p.2.held && p.2.band == b then (p.1, { p.2 with mask := insertKey k p.2.mask }) else p)
  let valid := slots.any (fun p => p.2.held && p.2.band == b && p.2.mask.length == s.shape.tilesPerBand)
  let s1 := ({ s with wak := { s.wak with slots := slots } }).setNote
    { n with checksum := some c, rival := none, lastIslet := islet, fails := 0, holdsResume := false, was := (if n.checksum = some c then n.was.getLast?.toList else [islet]) }
  let s2 := if n.checksum.isNone then advanceDone (countSaturated b k cells s1) else s1
  let s3 := if kind = 2 then
      { s2.bump F.INT_RECOMPS_COUNT with int := { s2.int with recomps := s2.int.recomps + 1 } }
    else s2
  let s4 := journalRun 2 (tileWord b k islet + (if kind = 2 then 2 else 1) * 2 ^ 28 + c * 2 ^ 32) (unsignedOf 40 sigma) false s3
  checkLate (if valid then plantWake b s4 else s4)

/-- A computation that passed its checks (R281, R295): released, or held against the checksum kept for its first release. -/
def offerTile (islet kind b k : Nat) (cells : List (Nat × Bool)) (sigma : Int) (s : State) : State :=
  let n := s.note b k
  let c := doseChecksum cells
  match n.checksum, n.rival with
  | none, _ => releaseTile islet kind b k cells sigma s
  | some kept, none =>
    if c = kept then releaseTile islet kind b k cells sigma s
    else
      let s1 := journalRun 9 (tileWord b k islet + c * 2 ^ 32) kept false s
      queueRedo b k [] true (s1.setNote { n with rival := some (c, islet), was := islet :: n.was })
  | some kept, some (c2, i2) =>
    if c = kept then releaseTile islet kind b k cells sigma (reportFault s.courseIds i2 b k 5 0 false s)
    else if c = c2 then
      let s1 := journalRun 9 (tileWord b k islet + c * 2 ^ 32) (kept + 2 ^ 32) false s
      let s2 := { s1.raise F.INT_EVENTS_REPLAY_MISMATCH with int := { s1.int with suspect := true } }
      releaseTile islet kind b k cells sigma s2
    else tileFault islet b k 5 0 false (s.setNote { n with was := islet :: n.was })

/-! ### The end of a tile computation -/

/-- The outcome of the checks for a hardware fault: the fault found, or the cells where it is missed (R276 to R280, R299). -/
def checkOutcome (check : TileCheck) (d0 : Int) (sigma z : Int) (tol : Nat) (cells : List (Nat × Bool)) :
    Option (Nat × Int × Option Nat) × List (Nat × Bool) :=
  let area := fun (d : Int) => if (tol : Int) < d.natAbs then some (2, d, none) else none
  let missed := fun (i dose : Nat) => (area d0, cells.set i (dose, (cells.getD i (0, false)).2))
  let residue := (some (1, d0, none), cells)
  match check with
  | .pass => (area d0, cells)
  | .step carried x i dose => if res x = carried then missed i dose else residue
  | .round n d q r i dose => if roundRelation n d q r then missed i dose else residue
  | .write i dose => if res dose = res (cells.getD i (0, false)).1 then missed i dose else residue
  | .area delta => (area (areaDelta (sigma + delta) z), cells)
  | .place => (some (3, d0, none), cells)
  | .localParity row => (some (4, d0, some row), cells)

/-- How a computation ends: the code of its fault, δ, whether it was planted and the row of local memory; a planted one first (R303), then
a flipped parity bit of local memory (R316, R327), then what the checks find. The injection or flip is used up. -/
def tileVerdict (islet : Nat) (check : TileCheck) (sigma z : Int) (tol : Nat) (cells : List (Nat × Bool)) (s : State) :
    Option (Nat × Int × Bool × Option Nat) × List (Nat × Bool) × State :=
  let kind := s.fget F.INT_INJECT_KIND
  let d0 := areaDelta sigma z
  let (f, cells1) := checkOutcome check d0 sigma z tol cells
  let found := f.map (fun p => (p.1, p.2.1, false, p.2.2))
  if 1 ≤ kind ∧ kind ≤ 3 ∧ s.fget F.INT_INJECT_ISLET = islet then
    (some (kind, if kind = 2 then areaDelta sigma (z + 2 ^ 20) else d0, true, none), cells1, s.fset F.INT_INJECT_KIND 0)
  else
    match s.armedFlip 1 (fun a => a / 131072 == islet) with
    | some (a, m) => (if m % 2 = 1 then some (4, d0, false, some (a % 131072)) else found, cells1, s.fset F.SRM_CHK_CTL_MODE 0)
    | none => (found, cells1, s)

/-- The decoded bytes of a segment that goes through the spill buffer (R85), none where it fits the decode window. -/
def spillBytes (s : State) (e : Entry) (te : TileEntry) : Option (List Byte) :=
  if decodeWindow < te.segRaw && !te.empty then
    let seg := s.stream e te.segOffset te.segStored
    some (if te.stored then seg else (slzDecode seg te.segRaw).bytes)
  else none

/-- The spill buffer of a slot (R85). -/
def State.spillBuffer (s : State) (islet slot : Nat) : Nat :=
  (match s.spillRange with | some r => r.1 | none => 0) + (2 * islet + slot) * 2 ^ 24

/-- A segment decoded through the spill buffer, whatever the decode is for (R85): its bytes are written and read back. The answer says that
the read is uncorrectable (R315). -/
def spillThrough (islet slot : Nat) (e : Entry) (te : TileEntry) (s : State) : Bool × State :=
  match spillBytes s e te with
  | none => (false, s)
  | some bs =>
    let a := s.spillBuffer islet slot
    let s1 := clientWrite (islet / 16) a bs s
    (s1.hbmBad (islet / 16) a bs.length, readHbm (islet / 16) a bs.length s1)

/-- A tile of the running course computed (R281, R282): its cells are written, and it is released or fails. -/
def computeTile (islet kind b k : Nat) (check : TileCheck) (e : Entry) (h : StreamHead) (d : TileDecode) (s : State) : State :=
  let n := s.shape.tile
  let blk := h.blocks.getD e.pass { offX := 0, offY := 0, scale := 0 }
  let shapes := placedShapes (tilePlacement h.poly n b k) blk n b k d.items
  let sigma := isletArea n shapes
  let s1 := countTile b k (s.tileEntry e h b k).dclass shapes s
  let (v, cells, s2) := tileVerdict islet check sigma (shadowArea n shapes) (areaTolerance n shapes) (tileCells s e h b k shapes) s1
  let ys := fun (p : Nat) => epochOf (n * b + p / n) (s.fget F.WAK_STATUS_K)
  let words := ((List.range cells.length).zip cells).map (fun p => wakeCell p.2.1 p.2.2 (kind == 2) (ys p.1))
  match v with
  | none => offerTile islet kind b k cells sigma (writeTile b k words s2)
  | some (code, delta, injected, row) =>
    let s3 := if injected && code != 3 then writeTile b k words s2 else freeCells b k s2
    let s4 := match row with | some r => localFault islet r s3 | none => s3
    tileFault islet b k code delta injected s4

/-- The reads of F by a tile (R127): rows that fail are rebuilt (R126). -/
def readFactors (e : Entry) (h : StreamHead) (b k : Nat) (s : State) : State :=
  if s.govFlag F.DOS_CTL_BSX_EN then
    let rs := factorRange s e b k
    rebuildRows e h (rs.flatMap (fun r => badRows s e r.1 r.2)) (rs.foldl (fun t r => readHbm 8 r.1 r.2 t) s)
  else s

/-- Whether F that a tile reads is still to be rebuilt (R126, R319). -/
def State.factorsBad (s : State) (e : Entry) (b k : Nat) : Bool :=
  s.govFlag F.DOS_CTL_BSX_EN && ((factorRange s e b k).any (fun r => s.hbmBad 8 r.1 r.2)
    || s.mem.bad.any (fun a => decide (0x1000000 ≤ a) && s.tileReads b k a))

/-- A slot's work put back as it was. -/
def keepSlot (islet slot : Nat) (w : IsletWork) (s : State) : State :=
  { s with ras := { s.ras with slots := s.ras.slots ++ [(2 * islet + slot, w)] } }

/-- A tile of the running course whose source was read (R126, R281, R315, R319): a spill area or table word that cannot be read puts it off,
and it is not completed before the F it reads is rebuilt. -/
def finishTile (islet slot : Nat) (w : IsletWork) (check : TileCheck) (e : Entry) (h : StreamHead) (d : TileDecode) (s : State) : State :=
  let b := w.band
  let k := w.tile
  let s1 := readFactors e h b k (readTables (s.tileReads b k) s)
  if s1.cox.ending.isSome then s1
  else if s1.factorsBad e b k then keepSlot islet slot w s1
  else
    let s2 := s1.bump (F.RAS_ISLET_TILES_COUNT islet)
    if s2.heldByBad b k then putBack b k w.kind true s2
    else computeTile islet w.kind b k check e h d s2

/-- TILE_COMPUTE_DONE (R85, R105, R61): what the slot holds ends. -/
def tileComputeDoneOp (islet slot : Nat) (check : TileCheck) (s : State) : State :=
  match s.slotWork islet slot with
  | none => s
  | some w =>
    let s1 := dropSlot islet slot s
    match s.entry w.entry with
    | none => s1
    | some e =>
      match e.head with
      | none => s1
      | some h =>
        let port := if w.kind = 3 then 14 else islet / 16
        let s2 := readTileSource port e h w.band w.tile s1
        match lossOf s port e h w.band w.tile with
        | some r =>
          let s3 := foundLoss e w.band w.tile r (w.kind == 3) s2
          if w.kind = 3 then s3 else putBack w.band w.tile w.kind false s3
        | none =>
          let d := decodeTileAt (s.stream e) s.shape h w.band w.tile
          let (lost, s3) := spillThrough islet slot e (s.tileEntry e h w.band w.tile) s2
          let s4 := s3.bump (F.RAS_ISLET_TILES_COUNT islet)
          if w.kind = 3 then
            if lost then admitTileLost w.band w.tile (reportFault (e.seq, e.tag) islet w.band w.tile 4 0 false s4)
            else admitTileDone islet w.band w.tile d s4
          else if lost then tileFault islet w.band w.tile 4 0 false (freeCells w.band w.tile s4)
          else if d.err.isSome then
            layoutAbort e h { band := w.band, tile := w.tile, islet := islet, byEngine := false, dec := d } s4
          else finishTile islet slot w check e h d s3

/-! ### The backscatter engine -/

/-- BSX_TILE_START (R125): the engine takes the next tile while within its run-ahead limit. -/
def bsxTileStartOp (s : State) : State :=
  let b := s.bsx.next / s.shape.tilesPerBand
  let waits := match s.int.loss with | some l => s.bsx.lost && !l.atAdmission | none => false
  if s.bsx.on && !s.bsx.busy && s.running.isSome && !waits && decide (b < s.bands)
      && decide (b ≤ s.doneBand + s.gov F.DOS_BSX_AHEAD_BANDS) then
    { s with bsx := { s.bsx with busy := true, lost := false } }
  else checkLate s

/-- BSX_TILE_DONE (R117 to R120, R124, R126). -/
def bsxTileDoneOp (s : State) : State :=
  match s.bsx.busy, s.running with
  | true, some e =>
    match e.head with
    | none => s
    | some h =>
      let t := s.shape.tilesPerBand
      let b := s.bsx.next / t
      let k := s.bsx.next % t
      let s1 := readTileSource 8 e h b k { s with bsx := { s.bsx with busy := false } }
      match lossOf s 8 e h b k with
      | some r => foundLoss e b k r false { s1 with bsx := { s1.bsx with lost := true } }
      | none =>
        let d := decodeTileAt (s.stream e) s.shape h b k
        if d.err.isSome then layoutAbort e h { band := b, tile := k, islet := 0, byEngine := true, dec := d } s1
        else
          let parts := tileDensity s.shape h.classes h.lengthPx b k d.items
          let sums := parts.foldl (fun m p => sparsePut (fun _ => 0) p.1 (sparseGet (fun _ => 0) p.1 m + p.2) m) s1.bsx.sums
          let s2 := { s1 with bsx := { s1.bsx with next := s1.bsx.next + 1, sums := sums } }
          let p' := s2.bsx.next / t
          checkLate (if s2.bsx.next % t = 0 then writeRows e (p' - 1) p' s2 else s2)
  | _, _ => s

/-! ### Resend -/

/-- RESEND (R291): the held range is to be read again; ignored while no loss is held. -/
def resendOp (s : State) : State := if s.int.loss.isSome then { s with int := { s.int with rereads := true } } else s

/-- The journal's RESEND record (R293). -/
def resendRecord (l : Loss) (code : Nat) (s : State) : State :=
  let ids := match s.entry l.entry with | some e => (e.seq, e.tag) | none => (0, 0)
  journal 8 ids l.addr code false s

/-- The loss is over, and a paused admission goes on (R289, R291). -/
def clearLoss (s : State) : State :=
  { s with
    int := { s.int with loss := none }
    ing := { s.ing with adm := s.ing.adm.map (fun a => { a with paused := false }) } }

/-- How the bytes that a loss asked for now stand (R291): none where they are whole. An index entry is judged by R43, and a segment by
SEG_CRC, SEG_RAW and its codec; an error of a record in whole bytes is left to the tile's own decode. -/
def resendFailure (s : State) (e : Entry) (l : Loss) : Option (AdmitFail × TileDecode) :=
  let none' : TileDecode := { items := [], err := some .index, off := 0, name := .none, inOffset := 0, outCount := 0 }
  let rd := s.stream e
  match e.head with
  | none =>
    (indexPlace rd s.shape e.len).bind (fun p =>
      if tileEntryOk (tileEntry (rd (l.addr - e.base) 16)) (p.1 + 16 * p.2 + 8) e.len then none
      else some (headFail .index (p.1 - 16), none'))
  | some h =>
    let te := s.tileEntry e h l.band l.tile
    if l.index then
      if tileEntryOk te h.headEnd e.len then none else some (headFail .index h.indexAt, none')
    else
      let seg := rd te.segOffset te.segStored
      if te.empty || segmentWhole te seg then none
      else
        let d := decodeTileAt rd s.shape h l.band l.tile
        (tileFailure d l.band l.tile).map (fun f => (f, d))

/-- RESEND_READ_DONE (R291): the range still fails, gives a decode error, or is whole. -/
def resendReadDoneOp (s : State) : State :=
  match s.int.rereads, s.int.loss with
  | true, some l =>
    let s0 := readHbm 9 l.addr l.len { s with int := { s.int with rereads := false } }
    if s.hbmBad 9 l.addr l.len then resendRecord l 1 (s0.raise F.INT_EVENTS_RESEND_FAIL)
    else match s.entry l.entry with
      | none => clearLoss s0
      | some e =>
        match resendFailure s e l with
        | none => checkLate (resendRecord l 0 (clearLoss s0))
        | some (f, d) =>
          let s1 := resendRecord l 2 (clearLoss s0)
          let s2 := if l.index then s1 else setTileErr e.idx 0 false d s1
          if l.atAdmission then
            { s2 with ing := { s2.ing with adm := s2.ing.adm.map (fun a =>
              { a with
                fail := if a.header then a.fail else firstFail s.shape.tilesPerBand a.fail (some f)
                todo := if l.index then [] else a.todo.filter (fun p =>
                  p.1 * s.shape.tilesPerBand + p.2 < l.band * s.shape.tilesPerBand + l.tile) }) } }
          else endEarly 1 (some f) (requestHalt 10 false (s2.raise F.ING_EVENTS_LAYOUT_ABORT))
  | _, _ => s

end Sys2Proof.Machine
end

