-- ==== Sys2Proof/Machine/Wake.lean ====
section
/-! DEFINITION. Reading the wake buffer: row validity (R154), the split of a stroke with its checks (R147 to R161, R284 to R286), and
the host's peek. -/

namespace Sys2Proof.Machine

/-- The wake slot that a band takes. -/
def State.wakeSlot (s : State) (k : Nat) : WakeSlot := sparseGet (fun _ => { band := 0, held := false, mask := [] }) k s.wak.slots

/-- Whether row y is valid (R154). -/
def State.rowValid (s : State) (y : Nat) : Bool :=
  let b := y / s.shape.tile
  let w := s.wakeSlot (b % s.shape.wakeSlots)
  w.held && w.band == b && w.mask.length == s.shape.tilesPerBand

/-- A cell's 16 bits and its two parity faults; one that nothing has written since a reset left it undefined is free (R162). -/
def State.cellAt (s : State) (i : Nat) : Nat :=
  match sparseGet (fun _ => none) i s.wak.cells with
  | some v => v
  | none => (Config.freeCell (2 ^ 26 * s.wak.stamp + i)).toNat

/-- The pixel row that seat s of track t reads at stroke n, where it lies in the course (R136, R137, R147). -/
def State.seatRow (s : State) (n t seat : Nat) : Option Nat :=
  let o := s.shape.offset t seat
  if o ≤ n ∧ n - o < s.lengthPx then some (n - o) else none

/-- The rows that a stroke reads (R158). -/
def State.strokeRows (s : State) (n : Nat) : List Nat :=
  (List.range s.shape.rows).filterMap (fun r =>
    let o := s.shape.rowPitch * r
    if o ≤ n ∧ n - o < s.lengthPx then some (n - o) else none)

/-- A wake fault found at a seat read (R159): its track, seat, row and whether the kind is EPOCH. -/
structure WakeFault where
  track : Nat
  seat : Nat
  row : Nat
  epoch : Bool
deriving DecidableEq, Repr

/-- The check of one seat read (R159). -/
def seatFault (s : State) (n t seat : Nat) : Option WakeFault :=
  match s.seatRow n t seat with
  | none => none
  | some y =>
    let v := s.cellAt (cellIndex s.shape t y)
    if v / 2 ^ 16 % 4 ≠ 0 then some { track := t, seat := seat, row := y, epoch := false }
    else if bits 13 1 v ≠ epochOf y (s.fget F.WAK_STATUS_K) then some { track := t, seat := seat, row := y, epoch := true }
    else none

/-- Every wake fault of a stroke, by track and then seat. -/
def strokeFaults (s : State) (n : Nat) : List WakeFault :=
  (List.range s.shape.tracks).flatMap (fun t => (List.range s.shape.seats).filterMap (fun seat => seatFault s n t seat))

/-- The dose of R147 that a LIVE seat reads at a stroke, less CREW_ON, with its track's LIVE seats and its rank. -/
def State.seatShare (s : State) (n t seat : Nat) : Option (Nat × Nat × Nat) :=
  match s.seatRow n t seat with
  | none => none
  | some y =>
    if inCrew s.shape t seat && entryState (s.mapEntryRaw (128 * t + seat)) == 0 then
      let w := crewOf s.shape s.mapEntryRaw t
      let q := seatQ s.shape s.mapEntryRaw t seat
      some (s.cellAt (cellIndex s.shape t y) % 2048 - w.onDose, w.live, (q + splitOff (s.govFlag F.CRW_CTL_PERM_EN) t y w.live) % w.live)
    else none

/-- Whether the division of a seat's split fails its check (R276); a seat that divides nothing has none. -/
def splitFails (s : State) (n : Nat) (f : SplitCheck) : Bool :=
  match s.seatShare n f.track f.seat with
  | none => false
  | some (pe, l, _) => !splitRelation pe l f.base f.rem

/-- The code of a seat (R147), with what its divider delivers where that is given and passes its check. -/
def State.codeOf (s : State) (n t seat : Nat) (f : Option SplitCheck) (code : Nat) : Nat :=
  match f, s.seatShare n t seat with
  | some f, some (_, _, rank) =>
    if f.track = t ∧ f.seat = seat then (if 15 ≤ f.base then 15 else if rank < f.rem then f.base + 1 else f.base) else code
  | _, _ => code

/-- The code of a seat at a stroke (R147). -/
def State.seatCodeAt (s : State) (n t seat : Nat) : Nat :=
  match s.seatRow n t seat with
  | none => 0
  | some y => seatCode s.shape s.mapEntryRaw (s.govFlag F.CRW_CTL_PERM_EN) t seat y (s.cellAt (cellIndex s.shape t y) % 2048)

/-- One unwritable pixel counted and held (R150, R151). -/
def countUnwritable (t y p : Nat) (s : State) : State :=
  let hold := fun (kind : Nat) (u : State) =>
    let r := u.fget F.CRW_UNW_FIRST_ROW_ROW
    if !u.flag F.CRW_UNW_FIRST_VALID || y < r || (y == r && t < u.fget F.CRW_UNW_FIRST_TRACK) then
      (((u.fset F.CRW_UNW_FIRST_TRACK t).fset F.CRW_UNW_FIRST_KIND kind).fset F.CRW_UNW_FIRST_VALID 1).fset F.CRW_UNW_FIRST_ROW_ROW y
    else u
  match unwritable p (crewOf s.shape s.mapEntryRaw t) with
  | .no => s
  | .under d =>
    let s1 := State.raiseIf (s.fget F.CRW_UNDER_COUNT_COUNT == 0) F.CRW_EVENTS_UNDER s
    hold 0 ((s1.bump F.CRW_UNDER_COUNT_COUNT).add F.CRW_DEFICIT_DU_DU d)
  | .over d =>
    let s1 := State.raiseIf (s.fget F.CRW_OVER_COUNT_COUNT == 0) F.CRW_EVENTS_OVER s
    hold 1 ((s1.bump F.CRW_OVER_COUNT_COUNT).add F.CRW_EXCESS_DU_DU d)

/-- The evaluation of the pixels that seat 0 reads for the first time (R151). -/
def evaluatePixels (n : Nat) (s : State) : State :=
  (List.range s.shape.tracks).foldl (fun u t => match s.seatRow n t 0 with
    | none => u
    | some y => countUnwritable t y (s.cellAt (cellIndex s.shape t y) % 2048) u) s

/-- One wake fault reported and answered (R159, R284, R285). -/
def wakeFault (n : Nat) (f : WakeFault) (s : State) : State :=
  let first := !s.flag F.WAK_FAULT_STROKE_VALID
  let s1 := (s.bump F.WAK_FAULTS_COUNT).raise F.WAK_EVENTS_FAULT
  let s2 := if first then
      ((s1.setReg R.WAK_FAULT_STROKE (BitVec.ofNat 32 (n % 2 ^ 25 + 2 ^ 31))).setReg R.WAK_FAULT_CELL
        (BitVec.ofNat 32 (f.track + bitOf f.epoch * 2 ^ 13 + f.seat * 2 ^ 14))).fset F.WAK_FAULT_ROW_ROW f.row
    else s1
  let planted := s.int.planted.contains (f.track, f.row)
  let s3 := journalRun 6 (n % 2 ^ 25 + f.track * 2 ^ 25 + f.seat * 2 ^ 38 + bitOf f.epoch * 2 ^ 45) (f.row % 2 ^ 24) planted s2
  let cell := (f.track, f.row % 6144)
  let again := s.int.wakeFaults.contains cell
  let s4 := { s3.raise F.INT_EVENTS_WAKE_HALT with int := { s3.int with
    wakeFaults := (cell :: s3.int.wakeFaults).take 16
    planted := s3.int.planted.filter (fun p => p != (f.track, f.row)) } }
  let s5 := queueRedo (f.row / s.shape.tile) (f.track / s.shape.tile) [] true (requestHalt 7 planted s4)
  if again then endEarly 4 none (proposeRow 1 2 (2 * cellIndex s.shape f.track f.row) (s5.raise F.INT_EVENTS_WAKE_HARD)) else s5

/-- A split fault (R286): the halt and its event. -/
def splitFault (injected : Bool) (s : State) : State := requestHalt 7 injected (s.raise F.INT_EVENTS_SPLIT_FAULT)

/-- The frame of a beam lane for stroke n as it enters the lane FIFO (R170, R171). -/
def framed (s : State) (e : Entry) (f : Option SplitCheck) (n b : Nat) : TxFrame where
  head := { beamLane := b, phys := 0, deviceId := s.deviceId, courseSeq := e.seq, stroke := n, gen := s.bln.gen
            replay := decide (n < s.crw.seen), last := n == s.lastStroke, wtBank := s.banks.wave.active
            trimBank := s.gov F.BLN_TRIM_SEL_BANK, tag := e.tag, recatches := s.fget F.COX_RECATCHES_IN_COURSE, pass := e.pass, fseq := 0 }
  payload := payloadWords (fun i => let t := 64 * b + i / 128; s.codeOf n t (i % 128) f (s.seatCodeAt n t (i % 128)))
  badCrc := false
  entered := s.clock
  sentOn := none
  acked := false
  ackAt := 0

/-- Whether the split engine may work on the next stroke (R161, R223). -/
def State.mayFrame (s : State) : Bool :=
  s.running.isSome && !s.crw.stop && s.cox.ending.isNone && !s.stk.aborted && decide (s.crw.split ≤ s.lastStroke)
    && decide (s.crw.split < s.readPoint + s.gov F.STK_DEPTH_DEPTH)

/-- A row is not yet valid (R158): the engine waits, and the wait counts once for the stroke. -/
def splitWaits (n : Nat) (s : State) : State :=
  let s1 := s.raise F.WAK_STATUS_STALLED
  if s.crw.stalled.contains n then s1
  else
    let s2 := State.raiseIf s.crw.stalled.isEmpty F.WAK_EVENTS_STALL (s1.bump F.WAK_STALLS_COUNT)
    { s2 with crw := { s2.crw with stalled := n :: s2.crw.stalled } }

/-- STROKE_SPLIT (R147 to R161): the next stroke is split once every row it reads is valid. `check` is a hardware fault in one seat's
division, which fails the check of R276 or passes it unseen. -/
def strokeSplitOp (check : Option SplitCheck) (s : State) : State :=
  match s.mayFrame, s.running with
  | true, some e =>
    let n := s.crw.split
    if !(s.strokeRows n).all s.rowValid then splitWaits n s
    else
      let s1 := readTables (inBank .map 0) (s.clear F.WAK_STATUS_STALLED)
      let bad := s1.badAmong (inBank .map 0)
      let wf := strokeFaults s1 n
      let inject := s1.fget F.INT_INJECT_KIND == 5
      let injTrack := s1.fget F.INT_INJECT_TRACK
      let fault := check.filter (splitFails s1 n)
      let lost := wf.map (fun f => f.track / 64) ++ fault.toList.map (fun f => f.track / 64) ++ (if inject then [injTrack / 64] else [])
      let lanes := if bad then [] else (List.range s1.shape.beamLanes).filter (fun b => !lost.contains b)
      let frames := lanes.map (framed s1 e check n)
      let s2 := if s1.crw.seen ≤ n then evaluatePixels n s1 else s1
      let s3 := { s2.fset F.CRW_SPLIT_STROKE_STROKE n with
        bln := { s2.bln with frames := s2.bln.frames ++ frames }
        crw := { s2.crw with split := n + 1, seen := max s2.crw.seen (n + 1), stop := bad || !lost.isEmpty } }
      let s4 := if inject then splitFault true (s3.fset F.INT_INJECT_KIND 0) else s3
      let s5 := if bad || fault.isSome then splitFault false s4 else s4
      wf.foldl (fun u f => wakeFault n f u) s5
  | _, _ => s

/-- WAK_PEEK: the read of the cell of a track in row WAK_PEEK_ROW begins. -/
def wakPeekOp (t : Nat) (s : State) : State :=
  { s.clear F.WAK_PEEK_DATA_VALID with wak := { s.wak with peeking := some (s.fget F.WAK_PEEK_ROW_ROW * 8192 + t % 8192) } }

/-- WAK_PEEK_DONE: the cell as stored, whether its parity fails, and whether its slot holds its band. -/
def wakPeekDoneOp (s : State) : State :=
  match s.wak.peeking with
  | none => s
  | some p =>
    let y := p / 8192
    let v := s.cellAt (cellIndex s.shape (p % 8192) y)
    let b := y / s.shape.tile
    let w := s.wakeSlot (b % s.shape.wakeSlots)
    let absent := !(w.held && w.band == b)
    let s1 := s.setReg R.WAK_PEEK_DATA (BitVec.ofNat 32 (v % 65536 + bitOf (v / 2 ^ 16 % 4 != 0) * 2 ^ 16 + bitOf absent * 2 ^ 17
      + 2 ^ 31))
    { s1 with wak := { s1.wak with peeking := none } }

end Sys2Proof.Machine
end

