-- ==== Sys2Proof/Machine/Side.lean ====
section
/-! DEFINITION. The transmit lanes' states and units (R163 to R175), the side channel (R182 to R186), and what is left of a course that has
ended (R107, R197, R231, R301). -/

namespace Sys2Proof.Machine

/-! ### Lane states -/

/-- The state of a transmit lane: 0 DOWN, 1 TRAINING, 2 LOW, 3 READY, 4 ACTIVE, 5 FAILED, 6 TEST. -/
def State.laneState (s : State) (l : Nat) : Nat := s.fget (F.BLN_LANE_STATUS_STATE l)

/-- A transmit lane's state set. -/
def setLane (l st : Nat) (s : State) : State := s.fset (F.BLN_LANE_STATUS_STATE l) st

/-- What a lane's training holds before it has trained. -/
def trainNone : LaneTrain :=
  { phase := .idle, ladder := false, rung := 0, tries := 0, began := 0, since := 0, passed := none, fseq := 0, crcArm := false
    missed := [], lockAt := none, quiet := 0, turn := 0 }

/-- The training of a lane. -/
def State.train (s : State) (l : Nat) : LaneTrain := sparseGet (fun _ => trainNone) l s.bln.trains

/-- The training of a lane replaced. -/
def State.setTrain (s : State) (l : Nat) (t : LaneTrain) : State :=
  { s with bln := { s.bln with trains := sparsePut (fun _ => trainNone) l t s.bln.trains } }

/-- The unit of the lane map in service that names a lane (R195). -/
def State.unitOf (s : State) (l : Nat) : Option Nat :=
  (List.range 136).find? (fun u => s.lanePhys s.banks.lanes.active u == l)

/-- The lane that carries a beam lane. -/
def State.laneOf (s : State) (b : Nat) : Nat := s.lanePhys s.banks.lanes.active b

/-- The ACTIVE lanes. -/
def State.activeLanes (s : State) : List Nat := (List.range 136).filter (fun l => s.laneState l == 4)

/-- A control word sent as its series of four on every ACTIVE lane (R168, R175). -/
def sendSeries (op : ControlOp) (cseq : Nat) (s : State) : State :=
  s.emits (s.activeLanes.map (fun l => .series l (controlWord op cseq)))

/-- Usable spares (R199): spare units whose lane is READY and whose NO_USE is 0. -/
def State.spares (s : State) : List Nat :=
  (List.range 8).map (fun i => 128 + i) |>.filter (fun u =>
    s.laneState (s.lanePhys s.banks.lanes.active u) == 3 && !s.laneNoUse s.banks.lanes.active u)

/-- The pattern that a lane in stage A sends: PRBS13 at L0, PRBS13Q above (R187). -/
def stagePattern (rung : Nat) : Nat := if rung = 0 then 6 else 4

/-- The oldest frame that a lane has not sent. -/
def State.nextFrame (s : State) (l : Nat) : Option TxFrame :=
  match s.unitOf l with
  | none => none
  | some u => s.bln.frames.find? (fun f => f.head.beamLane == u && f.sentOn.isNone)

/-- The lane map in service read through its check bits (R195, R318). -/
def readLaneMap (s : State) : State := readTables (inBank .lanes s.banks.lanes.active) s

/-- Whether a word of the lane map in service is BAD: a read of it discards its result (R319). -/
def State.laneMapBad (s : State) : Bool := s.badAmong (inBank .lanes s.banks.lanes.active)

/-- The tap weights of TX_PRESET 0 to 7 in 1/64, c(-2) to c(+1) (R447). -/
def presetTaps : List (List Int) :=
  [[0, 0, 64, 0], [0, -3, 61, 0], [0, -6, 58, 0], [0, -10, 51, -3], [3, -13, 45, -3], [3, -16, 38, -6], [0, 0, 58, -6], [6, -19, 32, -6]]

/-- The tap weights of a lane's TX_PRESET (R447): presets 8 to 15 come from the keel store's calibration area, and one that fails its check
acts as preset 0. -/
def State.taps (s : State) (l : Nat) : List Int :=
  let p := s.fget (F.BLN_LANE_CTL_TX_PRESET l)
  let base := presetTaps.getD 0 []
  if p < 8 then presetTaps.getD p base
  else (Config.calibratedTaps (s.keel.bytes.filter (fun q => decide (0x1C10000 ≤ q.1 ∧ q.1 < 0x1D00000))) l p).getD base

/-- The training of a lane begins in its mode (R189), with the settings of its transmitter read now (R188). -/
def startTrain (l : Nat) (s : State) : State :=
  let ladder := s.flag (F.BLN_LANE_CTL_LADDER l)
  let rung := if ladder then 0 else 3
  let s1 := s.setTrain l { (s.train l) with
    phase := .stageA, ladder := ladder, rung := rung, tries := 0, began := s.clock, since := s.clock, passed := none, lockAt := none }
  let setup : Output := .laneSetup l (s.flag (F.BLN_LANE_CTL_TX_INVERT l)) (s.flag (F.BLN_LANE_CTL_PRECODE l))
    (s.taps l)
  ((setLane l 1 s1).fset (F.BLN_LANE_STATUS_RUNG l) rung).emits [setup, .laneDrive l (stagePattern rung) false]

/-- The CRC injection that the next frame of a lane uses up (R194). -/
def takeCrc (l : Nat) (s : State) : Bool × State :=
  let t := s.train l
  if t.crcArm then
    let s1 := s.setTrain l { t with crcArm := false }
    (true, if s.flag (F.BLN_LANE_INJECT_PERIODIC l) then s1 else s1.clear (F.BLN_LANE_INJECT_KIND l))
  else (false, s)

/-- A unit of an echo lane that fails its CRC (R178, R316). -/
def echoCrcError (k : Nat) (s : State) : State := (s.bump (F.BLN_ECHO_CRC_ERRS_COUNT k)).raise (F.BLN_ECHO_EVENTS_CRC_ERR k)

/-- A framing error on an echo lane is counted and its words are skipped (R167). -/
def framingError (k : Nat) (s : State) : State :=
  { s with bln := { s.bln with framings := s.bln.framings.set k (s.bln.framings.getD k 0 + 1) } }.raise (F.BLN_ECHO_EVENTS_FRAMING k)

/-- Words that form no good unit of a KIND: another KIND in the first word is a framing error (R167), the rest a CRC error. -/
def echoUnitError (kind k : Nat) (ws : List DWord) (s : State) : State :=
  if kindOf ws = kind then echoCrcError k s else framingError k s

/-- A word that is not filler thaws a receiver's adaptation (R192). -/
def thaw (k : Nat) (s : State) : State := s.clear (F.BLN_ECHO_STATUS_FROZEN k)

/-! ### The side channel -/

/-- The words of a side space (R183). -/
def sideWords (space : Nat) : Nat := if space = 0 then 32 else if space = 1 then 4096 else if space = 2 then 2097152 else 0

/-- The result of a side job (R185): the host's is posted, a waveform load's decides the course start (R226). -/
def sideEnd (code beam addr : Nat) (j : SideJob) (s : State) : State :=
  let s1 := { s with bln := { s.bln with side := none } }
  if j.wave then
    if code = 0 then { s1 with stk := { s1.stk with loadDue := false } }
    else { s1.raise F.STK_EVENTS_WAVE_LOAD with stk := { s1.stk with loadTried := true } }
  else
    let (lost, s2) := s1.postResult R.BLN_SIDE_RESULT [(R.BLN_SIDE_RESULT, BitVec.ofNat 32 (code * 2 ^ 4 + beam % 256 * 2 ^ 8)),
      (R.BLN_SIDE_RESULT_AT, BitVec.ofNat 32 (addr % 2 ^ 21))]
    if lost then s2 else s2.raise F.BLN_EVENTS_SIDE_DONE

/-- The lane that carries a side frame for a target (R182): none where the lane cannot. -/
def State.sideLane (s : State) (target : Nat) : Option Nat :=
  if target = 255 then (List.range 136).find? (fun l => s.laneState l == 3 || s.laneState l == 4)
  else
    let l := s.laneOf target
    if s.laneState l = 2 ∨ s.laneState l = 3 ∨ s.laneState l = 4 then some l else none

/-- The data of a job's words from its source: HBM, or the active waveform bank (R185, R226). -/
def State.sideData (s : State) (j : SideJob) (n : Nat) : Option (List DWord) :=
  if j.wave then
    some ((List.range n).map (fun i => BitVec.ofNat 64 (s.waveMask s.banks.wave.active (j.donewords + i))))
  else if j.read then some []
  else
    let a := j.src + 8 * j.donewords
    if s.hbmBad 13 a (8 * n) then none
    else some ((List.range n).map (fun i => BitVec.ofNat 64 (leNat (s.readBytes (a + 8 * i) 8))))

/-- Whether a lane may start a side frame (R173, R186): in a course not while a complete stroke frame waits, nor twice between two stroke
frames; no word of the lane map is BAD (R319). -/
def State.sideSlot (s : State) (l : Nat) : Bool :=
  !s.laneMapBad && (s.running.isNone || s.laneState l != 4 || ((s.nextFrame l).isNone && (s.train l).turn != 2))

/-- A side frame sent on a lane, or held until the lane has a slot for it (R173, R182, R194). -/
def sendSide (f : SideFlight) (l : Nat) (j : SideJob) (s0 : State) : State :=
  let s := readLaneMap s0
  let fly := fun (w : Bool) (u : State) =>
    { u with bln := { u.bln with side := some { j with flight := some { f with sentAt := s.clock, lane := l, waiting := w } } } }
  if s.sideSlot l then
    let (bad, s1) := takeCrc l s
    let t := s1.train l
    let s2 := s1.setTrain l { t with quiet := s.clock, turn := if t.turn = 0 then 0 else 2 }
    (fly false s2).emit (.laneWords l (spaced (sideFrame f.head f.data bad)))
  else fly true s

/-- A side frame that waits is sent where its lane has a slot now (R173). -/
def releaseSide (s : State) : State :=
  match s.bln.side with
  | some j =>
    match j.flight with
    | some f => if f.waiting && s.sideSlot f.lane then sendSide f f.lane j s else s
    | none => s
  | none => s

/-- The next frame of a side job, or its end (R185). -/
def sideNext (j : SideJob) (s : State) : State :=
  match j.targets with
  | [] => sideEnd 0 0 0 j s
  | b :: _ =>
    let n := min 64 (j.words - j.donewords)
    if j.abort then sideEnd 8 b (j.addr + j.donewords) j s
    else match s.sideLane b with
      | none => sideEnd 6 b (j.addr + j.donewords) j s
      | some l =>
        let wave := inBank .wave s.banks.wave.active
        let s0 := if j.wave then readTables wave s else if j.read then s else readHbm 13 (j.src + 8 * j.donewords) (8 * n) s
        match if j.wave && s0.badAmong wave then none else s0.sideData j n with
        | none => sideEnd 7 b (j.addr + j.donewords) j s0
        | some data =>
          let tag := s0.bln.sideTag
          let h : SideHead := { space := j.space, read := j.read, beamLane := b, len := n, tag := tag, address := j.addr + j.donewords }
          let s1 := { s0 with bln := { s0.bln with sideTag := (tag + 1) % 256 } }
          sendSide { head := h, data := data, tries := 0, sentAt := s1.clock, lane := l, waiting := false } l j s1

/-- The waveform load of R226 begins. -/
def startWaveLoad (s : State) : State :=
  sideNext { wave := true, src := 0, space := 0, read := false, addr := 16 * s.banks.wave.active, words := 16, targets := [255]
             donewords := 0, flight := none, abort := false, tag := 0 } s

/-- SIDE_GO (R185): ignored while a job runs. -/
def sideGoOp (s : State) : State :=
  if s.bln.side.isSome then s
  else
    let beam := s.fget F.BLN_SIDE_COUNT_BEAM_LANE
    let space := s.fget F.BLN_SIDE_ADDR_SPACE
    let j : SideJob := { wave := false, src := s.pair F.BLN_SIDE_SRC_LO_ADDR F.BLN_SIDE_SRC_HI_ADDR, space := space
                         read := s.flag F.BLN_SIDE_ADDR_READ, addr := s.fget F.BLN_SIDE_ADDR_ADDRESS
                         words := s.fget F.BLN_SIDE_COUNT_WORDS
                         targets := if beam < 255 then [beam] else if space = 0 then [255] else List.range 128
                         donewords := 0, flight := none, abort := false, tag := 0 }
    if j.words = 0 ∨ sideWords space < j.addr + j.words ∨ 2 < space ∨ j.src % 8 ≠ 0 ∨ (127 < beam ∧ beam ≠ 255) then
      sideEnd 5 beam j.addr j s
    else sideNext j s

/-- SIDE_ABORT (R185): the job ends once the outstanding frame answers. -/
def sideAbortOp (s : State) : State :=
  match s.bln.side with
  | none => s
  | some j =>
    if j.wave then s
    else if j.flight.all SideFlight.waiting then sideNext { j with abort := true, flight := none } s
    else { s with bln := { s.bln with side := some { j with abort := true } } }

/-- An outstanding side frame sent again, up to 3 times (R185); after that the job ends with the code given. -/
def sideAgain (code : Nat) (f : SideFlight) (j : SideJob) (s : State) : State :=
  if f.tries < 3 then
    match s.sideLane f.head.beamLane with
    | none => sideEnd 6 f.head.beamLane f.head.address j s
    | some l => sendSide { f with tries := f.tries + 1 } l j s
  else sideEnd code f.head.beamLane f.head.address j s

/-- SIDE_RESPONSE (R184, R185). -/
def sideResponseOp (k : Nat) (ws : List DWord) (s0 : State) : State :=
  let s := thaw k s0
  if s.fget (F.BLN_ECHO_STATUS_STATE k) ≠ 2 then s
  else match sideResponse ws with
    | none => echoUnitError 0xD2 k ws s
    | some (tag, beam, status, data) =>
      match s.bln.side with
      | none => s
      | some j =>
        match j.flight with
        | none => s
        | some f =>
          if tag ≠ f.head.tag ∨ beam ≠ f.head.beamLane ∨ (f.waiting ∧ f.tries = 0) then s
          else if status = 0 then
            let s1 := if f.head.read then clientWrite 13 (j.src + 8 * j.donewords) (wordBytes (data.take f.head.len)) s else s
            let done := j.donewords + f.head.len
            let j1 := { j with flight := none, donewords := done }
            if done < j.words then sideNext j1 s1
            else match j.targets.tail with
              | [] => sideEnd 0 0 0 j s1
              | rest => sideNext { j1 with targets := rest, donewords := 0 } s1
          else if status = 1 then sideAgain 1 f j s
          else if status = 4 then sideAgain 4 f j s
          else sideEnd (if status = 2 then 2 else if status = 3 then 3 else 4) f.head.beamLane f.head.address j s

/-- SIDE_TIMEOUT (R185): no response within 20 µs. -/
def sideTimeoutOp (s : State) : State :=
  match s.bln.side with
  | none => s
  | some j =>
    match j.flight with
    | none => s
    | some f => if f.waiting then s else sideAgain 4 f j (s.until (f.sentAt + 20 * ticksPerUs))

/-- An outstanding side frame whose lane has been substituted is sent again on the new one; on a lane that is FAILED with no spare the job
ends with LANE (R202). -/
def sideMoved (s : State) : State :=
  match s.bln.side with
  | some j =>
    match j.flight with
    | some f =>
      match s.sideLane f.head.beamLane with
      | some l => if l = f.lane then s else sendSide f l j s
      | none =>
        if f.head.beamLane ≠ 255 ∧ s.laneState (s.laneOf f.head.beamLane) = 5 then sideEnd 6 f.head.beamLane f.head.address j s else s
    | none => s
  | none => s

/-! ### A course that has ended -/

/-- What is left of a course that has ended is put away: its entry, wake slots, computations and recomputations. -/
def putAway (s : State) : State :=
  { s with
    ras := { s.ras with stopped := true, slots := s.ras.slots.filter (fun p => p.2.kind == 3), redo := [] }
    bsx := { s.bsx with on := false, busy := false }
    crw := { s.crw with stop := true }
    bln := { s.bln with frames := [] }
    stk := { s.stk with pred := none, fire := false }
    int := { s.int with loss := s.int.loss.bind (fun l => if l.atAdmission then some l else none), rereads := false } }

/-- The ACTIVE lanes return to READY (R197), where a side frame that waited has its slot. -/
def lanesReady (s : State) : State := releaseSide (s.activeLanes.foldl (fun t l => setLane l 3 t) s)

/-- A course that a course-abort reset ended posts its result (R231, R302), and its entry becomes FAILED. -/
def abortFinish (s : State) : State :=
  match s.running with
  | none => s
  | some e =>
    let s1 := courseEvent 4 (s.stk.lastFired.getD 0) 0 (postCourseResult 5 e s)
    lanesReady (putAway (s1.mapEntry e.idx (fun x => { x with state := .failed, err := 0 })))

end Sys2Proof.Machine
end

