-- ==== Sys2Proof/Machine/Demand.lean ====
section
/-! DEFINITION. The safety lock (R11, R401, R402) and the latching of a demand (R391 to R394, R407). -/

namespace Sys2Proof.Machine

/-! ### The lock -/

/-- Whether the safety lock is open (R401). -/
def State.lockOpen (s : State) : Bool := s.flag F.SAF_STATUS_LOCK_OPEN

/-- The safety parameters: the LCK settings of the SAF block. -/
def State.safetyParams (s : State) : List Nat :=
  (R.SAF_STOP_FILTER :: [0, 1].flatMap (fun a => [R.SAF_ENV_MIN_LO a, R.SAF_ENV_MIN_HI a, R.SAF_ENV_MAX_LO a, R.SAF_ENV_MAX_HI a,
    R.SAF_VLIM a, R.SAF_FOLLOW a, R.SAF_DECEL_CHK a, R.SAF_FILT a])).map (fun r => (s.reg r).toNat)

/-- The lock closes (R401), and the reference CRC is computed. -/
def closeLock (s : State) : State :=
  if s.lockOpen then
    let s1 := (s.clear F.SAF_STATUS_LOCK_OPEN).setReg R.SAF_PARAM_CRC (Config.paramCrc s.safetyParams)
    { s1 with saf := { s1.saf with openedAt := none, keyed := false } }
  else s

/-- A write to an LCK field while the lock is closed (R402). -/
def lockViolation (s : State) : State := (s.bump F.SAF_LOCK_VIOL_COUNT).raise F.SAF_EVENTS_LOCK_VIOLATION

/-- An effect that needs the open lock (R11). -/
def locked (f : State → State) (s : State) : State := if s.lockOpen then f s else lockViolation s

/-! ### The beam -/

/-- Whether a demand is in force (R391). -/
def State.demanded (s : State) : Bool := s.fget F.SAF_CAUSE_CAUSES != 0

/-- Both inhibit lines driven (R388). -/
def driveLines (a b : Bool) (s : State) : State :=
  let s1 := if s.flag F.SAF_STATUS_LINE_A == a then s else (s.fset F.SAF_STATUS_LINE_A (bitOf a)).emit (.inhibit false a)
  if s1.flag F.SAF_STATUS_LINE_B == b then s1 else (s1.fset F.SAF_STATUS_LINE_B (bitOf b)).emit (.inhibit true b)

/-- The lines asserted and the permit withdrawn (R392). -/
def assertLines (s : State) : State := driveLines false false (s.clear F.SAF_STATUS_BEAM_PERMIT)

/-- The gates that a train of gate length g, begun at t0, has issued at an instant; none where it has ended (R394). -/
def gatesAt (t0 g now : Int) : Option Nat :=
  if now < t0 ∨ 64 * g ≤ now - t0 then none else some (min 63 ((now - t0) / g + 1).toNat)

/-- FIRE driven low and the gate clock held low at an instant (R393, R394, R406): strokes committed with FIRE high go out with FIRE low,
and a train in progress is cut: its stroke counts as issued with FIRE low. -/
def quench (now : Int) (s : State) : Option (Nat × Nat) × State :=
  let s1 := { s with stk := { s.stk with fire := false, commits := s.stk.commits.map (fun c => { c with fire := false }) } }
  match s.stk.train with
  | none => (none, s1)
  | some (n, t0) =>
    match gatesAt t0 (s.gov F.STK_GATE_GATE) now with
    | none => (none, s1)
    | some k =>
      let s2 := (s1.bump F.STK_FIRE_LOW_COUNT).raise F.SAF_EVENTS_CUT
      (some (n, k), { s2.setReg R.SAF_CUT (BitVec.ofNat 32 (n % 2 ^ 25 + k * 2 ^ 25 + 2 ^ 31)) with
        stk := { s2.stk with train := none, fireCatch := if n = 0 then none else some (n - 1) } })

/-- A demand's halt at stroke m, whose catch was or will be at regatta time t: it takes the place of a later halt stroke (R231, R248, R394). -/
def moveHalt (m : Nat) (t : Int) (s : State) : State :=
  let start := t - (s.rtime - s.clock)
  let s1 := if s.stk.halted then
      let u := (s.setReg R.STK_HALT_AT (BitVec.ofNat 32 (m % 2 ^ 25 + 2 ^ 31))).raise (causeBit 11)
      { u with
        stk := { u.stk with commits := u.stk.commits.filter (fun c => decide (c.n ≤ m)) }
        cox := { u.cox with resume := m, lastHalt := some m, pauseFrom := some start }
        bln := { u.bln with unacked := [], judged := none } }
    else setHalt m 11 start false s
  { s1 with bln := { s1.bln with haltCatch := some t } }

/-- The halt that a demand makes (R220, R231, R394): at the cut stroke, at the first committed stroke whose FIRE it has lowered, or at the
lowest stroke not yet committed. -/
def demandHalt (cut : Option (Nat × Nat)) (low : Option Committed) (s : State) : State :=
  if !s.haltable then s
  else match cut, low with
  | some (n, _), _ => moveHalt n ((s.stk.lastCatch.map Prod.snd).getD s.rtime) s
  | none, some c => moveHalt c.n c.t s
  | none, none => requestHalt 11 false s

/-- A course that was only waiting for a gate train now cut has ended (R297, R301). -/
def afterCut (s : State) : State := if s.stk.aborted && s.stk.train.isNone then abortFinish s else tryFinish s

/-! ### The demand -/

/-- Whether a cause demands SF-STAGE, and whether with category 2 (R391). -/
def causeStage (c : Nat) : Option Bool := if c = 2 ∨ c = 3 then none else some (decide (c = 15 ∨ c = 16))

/-- The payload of a SAFETY record (R407). -/
def safetyPayload (r : SafRec) (amps : Nat) : List Byte :=
  leBytes 8 r.detected ++ leBytes 4 r.causes ++ leBytes 4 r.kinds ++ leBytes 4 r.stroke ++ leBytes 4 r.react ++ leBytes 4 r.cut
    ++ leBytes 1 r.gates ++ leBytes 1 amps

/-- The SAFETY records that waited for byte 45 are made (R407). -/
def flushSafRecs (amps : Nat) (s : State) : State :=
  s.saf.records.foldl (fun t r => makeRec 3 6 0 (safetyPayload r amps) t) { s with saf := { s.saf with records := [] } }

/-- A cause detected (R391 to R395, R401, R407). The device acts within the bound of R393, at an instant that the spec leaves free. -/
def demand (c : Nat) (s : State) : State :=
  if bitAt c (s.fget F.SAF_CAUSE_CAUSES) then s
  else
    let (g, s0) := s.fresh
    let react := (Config.freeWord g 0).toNat % 1001
    let acts := (Config.freeWord g 1).toNat % (react + 1)
    let s1 := closeLock (s0.fset F.SAF_CAUSE_CAUSES (s0.fget F.SAF_CAUSE_CAUSES + 2 ^ c))
    let (cut, s2) := quench (s1.rtime + ticksPerNs * acts) (s1.raise F.SAF_EVENTS_BEAM_DEMAND)
    let s3 := ((assertLines s2).fset F.SAF_REACT_NS react).raiseTo F.SAF_REACT_MAX react
    let s4 := afterCut (demandHalt cut (s1.stk.commits.find? Committed.fire) s3)
    let stage := causeStage c
    let s5 := match stage with
      | none => s4
      | some cat2 =>
        let st : StageStop := match s4.saf.stop with
          | none => { cat2 := cat2, begun := none, checked := false }
          | some x => { x with cat2 := x.cat2 && cat2 }
        { s4.raise F.SAF_EVENTS_STAGE_DEMAND with saf := { s4.saf with stop := some st } }
    let running := s.running.isSome
    let r : SafRec := {
      detected := s.rt64, causes := 2 ^ c, kinds := 1 + bitOf stage.isSome * 2 + bitOf (stage == some true) * 4
      stroke := (if running then s5.fget F.STK_HALT_AT_STROKE else 0) + bitOf running * 2 ^ 31, react := react
      cut := match cut with | some (n, _) => n % 2 ^ 25 + 2 ^ 31 | none => 0
      gates := match cut with | some (_, k) => k | none => 0 }
    let s6 := { s5 with saf := { s5.saf with records := s5.saf.records ++ [r] } }
    if s6.saf.stop.isSome then s6 else flushSafRecs 0 s6

/-- A demand on a condition. -/
def demandIf (b : Bool) (c : Nat) (s : State) : State := if b then demand c s else s

/-- A failing diagnostic (R400): its bit, and the cause that the table gives it. -/
def diagFail (bit : Nat) (s : State) : State :=
  demand (if bit = 6 then 4 else if bit = 9 then 6 else 5) (s.raise (.mk R.SAF_DIAG bit 1))

end Sys2Proof.Machine
end

