-- ==== Sys2Proof/Machine/Lanes.lean ====
section
/-! DEFINITION. Beam lanes and echo lanes (R163 to R202): sparing, sending, training, tests and injections, and the echo stream. -/

namespace Sys2Proof.Machine

/-! ### Sparing -/

/-- One beam lane substituted by the first usable spare (R199, R201), or left as it is where there is none. Outside a course the spare stays
READY, since no lane is ACTIVE then (R197, log entry 32). -/
def substituteOne (course : Bool) (b : Nat) (s : State) : State :=
  match s.spares with
  | [] => s
  | u :: _ =>
    let bank := s.banks.lanes.active
    let p := s.lanePhys bank b
    let q := s.lanePhys bank u
    let s1 := (s.fset (F.BLN_MAP_PHYS bank b) q).fset (F.BLN_MAP_PHYS bank u) p
    let s2 := ((setLane p 5 s1).setTrain p { (s1.train p) with phase := .idle }).raise (F.BLN_LANE_EVENTS_SUB_OUT p)
    let s3 := (if course then setLane q 4 s2 else s2).raise (F.BLN_LANE_EVENTS_SUB_IN q)
    let s3' := (s3.raise F.BLN_EVENTS_SUBSTITUTION).bump F.BLN_SUBS_TOTAL
    let s4 := if course then s3'.bump F.BLN_SUBS_IN_COURSE else s3'
    let s5 := s4.setReg R.BLN_SUB_LAST (BitVec.ofNat 32 (b + p * 2 ^ 8 + q * 2 ^ 16 + 2 ^ 31))
    let s6 := { s5 with bln := { s5.bln with marked := s5.bln.marked.filter (fun x => x != b) } }
    if s6.flag F.BLN_CTL_AUTO_RETRAIN && s6.flag (F.BLN_LANE_CTL_ENABLE p) then startTrain p s6 else s6

/-- The marked beam lanes substituted in ascending order where AUTO_SPARE is 1; one left marked sets NO_SPARE (R199, R200). -/
def substitute (s : State) : State :=
  let s1 := if s.govFlag F.BLN_CTL_AUTO_SPARE then
      ((List.range 128).filter (fun b => s.bln.marked.contains b)).foldl (fun t b => substituteOne true b t) s
    else s
  State.raiseIf (!s1.bln.marked.isEmpty) F.BLN_EVENTS_NO_SPARE s1

/-- A beam lane marked for substitution (R198). -/
def markLane (b : Nat) (s : State) : State :=
  if s.bln.marked.contains b then s else { s with bln := { s.bln with marked := b :: s.bln.marked } }

/-- The beam lanes whose frame of the halt stroke went unacknowledged (R198): at its commit, or by now. -/
def State.unackedLanes (s : State) : List Nat :=
  (List.range s.shape.beamLanes).filter (fun b => s.bln.unacked.contains b
    || !s.bln.frames.any (fun f => f.head.beamLane == b && f.head.stroke == s.cox.resume && f.acked))

/-- The marking of R198. -/
def markUnacked (s : State) : State :=
  let lim := s.gov F.BLN_CTL_MISS_LIMIT
  let m := s.cox.resume
  s.unackedLanes.foldl (fun t b =>
    let p := t.laneOf b
    let missed := ((t.train p).missed.filter (fun k => decide (m ≤ k + 1024 ∧ k < m))).length
    if t.laneState p ≠ 4 ∨ (lim ≠ 0 ∧ lim ≤ missed) ∨ (s.bln.judged.getD []).contains p then markLane b t else t) s

/-- The FLUSH of a halt (R175, R242): the next generation, the series, frames from the halt stroke discarded, and the split set back. -/
def flushHalt (s : State) : State :=
  let m := s.cox.resume
  let gen := (s.bln.gen + 1) % 4
  let s1 := sendSeries (.flush m gen) s.courseIds.1 s
  { s1 with
    bln := { s1.bln with gen := gen, frames := s1.bln.frames.filter (fun f => f.head.stroke < m) }
    crw := { s1.crw with split := m, stop := false }
    stk := { s1.stk with next := m, pred := none, lastCommit := none }
    cox := { s1.cox with flushDue := false } }

/-- Whether a halt still waits for the status message that condition 2 of R198 judges (log entry 111). -/
def State.judgeWaits (s : State) : Bool := s.bln.judged.isNone && s.bln.haltCatch.isSome && !s.unackedLanes.isEmpty

/-- The halt is complete (R242): marked lanes are substituted, and the FLUSH follows once none is left. -/
def completeHalt (s : State) : State :=
  let due := { s with cox := { s.cox with flushDue := true } }
  if s.judgeWaits then due
  else
    let s1 := sideMoved (substitute (markUnacked due))
    if s1.bln.marked.isEmpty then releaseSide (flushHalt s1) else s1

/-- A lane has become READY (R190, R200, R226): a substitution that waited is tried again, and so may a waveform load be. -/
def laneReady (s : State) : State :=
  let s1 := { s with stk := { s.stk with loadTried := false } }
  if s1.cox.flushDue then completeHalt s1 else s1

/-! ### Transmit lanes -/

/-- LANE_ENABLE (R197): a lane powered, or taken DOWN. -/
def laneEnableOp (l : Nat) (on : Bool) (s : State) : State :=
  let s1 := s.fset (F.BLN_LANE_CTL_ENABLE l) (bitOf on)
  if on then s1 else (setLane l 0 s1).setTrain l { (s1.train l) with phase := .idle }

/-- TRAIN (R189, R202): ignored on a lane that is ACTIVE or not enabled. -/
def trainOp (l : Nat) (s : State) : State :=
  if s.flag (F.BLN_LANE_CTL_ENABLE l) && s.laneState l != 4 then startTrain l s else s

/-- A lane enters TEST and sends its pattern, raw or as the word stream (R193). -/
def enterTest (l : Nat) (s : State) : State :=
  (setLane l 6 s).emit (.laneDrive l (s.fget (F.BLN_LANE_PRBS_PATTERN l)) (s.flag (F.BLN_LANE_PRBS_FRAMED l)))

/-- The test pattern of a lane has been written (R193): a lane in TEST sends it from now on. -/
def testPattern (l : Nat) (s : State) : State := if s.laneState l = 6 then enterTest l s else s

/-- LANE_TEST (R193): a lane in READY, LOW or FAILED enters TEST; ignored on an ACTIVE lane; clearing retrains. -/
def laneTestOp (l : Nat) (on : Bool) (s : State) : State :=
  let st := s.laneState l
  if on then
    if st = 4 then s
    else
      let s1 := s.fset (F.BLN_LANE_CTL_TEST l) 1
      if st = 2 ∨ st = 3 ∨ st = 5 then enterTest l s1 else s1
  else
    let s1 := s.clear (F.BLN_LANE_CTL_TEST l)
    if st = 6 then startTrain l s1 else s1

/-- The training word of a lane (R187). -/
def laneWord (s : State) (l rung next countdown : Nat) : DWord :=
  trainingWord { laneId := l, rung := rung, nextRung := next, countdown := countdown, deviceId := s.deviceId
                 echoReady := ((List.range 4).map (fun k => if s.fget (F.BLN_ECHO_STATUS_STATE k) = 2 then 2 ^ k else 0)).sum }

/-- STAGE_A_END (R187): after 1 ms the lane sends training words. -/
def stageAEndOp (l : Nat) (s : State) : State :=
  let t := s.train l
  if t.phase = .stageA then
    let s1 := s.until (t.since + ticksPerMs)
    (s1.setTrain l { t with phase := .stageB, since := s1.clock, lockAt := none }).emit (.laneWords l [laneWord s1 l t.rung t.rung 255])
  else s

/-- The end of a training (R190): its state, report and time in µs. -/
def trainEnd (l st : Nat) (ok : Bool) (s : State) : State :=
  let t := s.train l
  let top := t.passed.getD 0
  let us := min 65535 (((s.clock - t.began) / ticksPerUs).toNat)
  let s1 := ((setLane l st s).fset (F.BLN_LANE_STATUS_RUNG l) (if st = 5 then t.rung else top)).setReg (R.BLN_LANE_TRAIN l)
    (BitVec.ofNat 32 (us + top * 2 ^ 16 + bitOf ok * 2 ^ 18))
  let s2 := s1.setTrain l { t with phase := .idle, fseq := 0, missed := [], quiet := s.clock, turn := 0 }
  let s3 := State.raiseIf (st != 5) (F.BLN_LANE_EVENTS_TRAINED l) s2
  let s4 := if ok then s3 else (s3.raise (F.BLN_LANE_EVENTS_TRAIN_FAIL l)).bump (F.BLN_LANE_STATUS_FAILS l)
  if s4.flag (F.BLN_LANE_CTL_TEST l) then enterTest l s4
  else if ok then laneReady s4
  else if st = 5 then sideMoved s4
  else s4

/-- A number of groups of 16 codewords at a rung, in ticks rounded up: 87,040 line bits each at 26.5625 Gb/s, twice that rate for every rung
above L0 (R163, R165, log entry 112). -/
def groupTicks (n rung : Nat) : Nat := (n * 2097152 / 2 ^ rung + 9) / 10

/-- When the lock of a rung appeared, where that was within 10 ms of the start of stage B and it has held since (R190). -/
def lockInTime (t : LaneTrain) : Option Int :=
  t.lockAt.bind (fun a => if a ≤ t.since + 10 * ticksPerMs then some a else none)

/-- RUNG_PASS (R189, R190): lock has held for 1 ms; below L3 the words of the next 256 groups count down to the switch, one shown for each
group. -/
def rungPassOp (l : Nat) (s : State) : State :=
  let t := s.train l
  match if t.phase = .stageB then lockInTime t else none with
  | some a =>
    let s1 := s.until (a + ticksPerMs)
    let t1 := { t with passed := some t.rung }
    if t.rung = 3 then (trainEnd l 3 true (s1.setTrain l t1)).emit (.laneWords l [fillerWord])
    else (s1.setTrain l { t1 with phase := .announce, since := s1.clock }).emit
      (.laneWords l ((List.range 256).map (fun i => laneWord s1 l t.rung (t.rung + 1) (255 - i))))
  | none => s

/-- RUNG_TIMEOUT (R190): no lock within 10 ms of stage B. -/
def rungTimeoutOp (l : Nat) (s : State) : State :=
  let t := s.train l
  if t.phase = .stageB ∧ (lockInTime t).isNone then
    let s1 := s.until (t.since + 10 * ticksPerMs)
    let tries := if t.ladder then 2 else 4
    if t.tries + 1 < tries then
      (s1.setTrain l { t with phase := .stageA, tries := t.tries + 1, since := s1.clock }).emit (.laneDrive l (stagePattern t.rung) false)
    else trainEnd l (if t.ladder ∧ t.passed.isSome then 2 else 5) false s1
  else s

/-- RUNG_SWITCH (R189): at the end of the group whose COUNTDOWN is 0 the next rung starts at stage A. -/
def rungSwitchOp (l : Nat) (s : State) : State :=
  let t := s.train l
  if t.phase = .announce then
    let s0 := s.until (t.since + groupTicks 256 t.rung)
    let s1 := s0.setTrain l { t with phase := .stageA, rung := t.rung + 1, tries := 0, since := s0.clock }
    (s1.fset (F.BLN_LANE_STATUS_RUNG l) (t.rung + 1)).emit (.laneDrive l (stagePattern (t.rung + 1)) false)
  else s

/-- TRAINING_BURST (R190, R192): after 10 ms of filler, 4 groups of training words at the lane's rung; never while a course runs. -/
def trainingBurstOp (l : Nat) (s : State) : State :=
  let st := s.laneState l
  if s.running.isNone && (st == 2 || st == 3 || st == 4) then
    let t := s.train l
    let rung := s.fget (F.BLN_LANE_STATUS_RUNG l)
    let s1 := s.until (t.quiet + 10 * ticksPerMs)
    let s2 := (s1.emit (.laneWords l (List.replicate 5140 (laneWord s1 l rung rung 255)))).after (groupTicks 4 rung)
    s2.setTrain l { t with quiet := s2.clock }
  else s

/-- An injection into a lane (R194), the register written: KIND reads 0 once a one-shot has acted; a CRC injection acts on the next
frame. -/
def injectOp (l kind nsym : Nat) (periodic : Bool) (period : Nat) (s : State) : State :=
  let once := kind != 3 && !periodic
  let s1 := s.setReg (R.BLN_LANE_INJECT l)
    (BitVec.ofNat 32 ((if once then 0 else kind) + nsym * 2 ^ 2 + bitOf periodic * 2 ^ 7 + period % 2 ^ 24 * 2 ^ 8))
  s1.setTrain l { (s1.train l) with crcArm := kind == 3 }

/-- An injection of a KIND that uses no NSYM, which keeps the value held (R194). -/
def injectKind (l kind : Nat) (periodic : Bool) (period : Nat) (s : State) : State :=
  injectOp l kind (s.fget (F.BLN_LANE_INJECT_NSYM l)) periodic period s

/-- INJECT_PERIOD (R194): a periodic injection acts again. -/
def injectPeriodOp (l : Nat) (s : State) : State :=
  if s.fget (F.BLN_LANE_INJECT_KIND l) = 3 ∧ s.flag (F.BLN_LANE_INJECT_PERIODIC l) then
    s.setTrain l { (s.train l) with crcArm := true }
  else s

/-- FRAME_SEND (R170, R173): an ACTIVE lane sends its oldest whole frame, and then a side frame that waited where it has a slot. -/
def frameSendOp (l : Nat) (s0 : State) : State :=
  let s := if s0.laneState l = 4 then readLaneMap s0 else s0
  if s.laneState l ≠ 4 ∨ s.laneMapBad then s
  else match s.nextFrame l with
    | none => s
    | some f =>
      let (bad, s1) := takeCrc l s
      let t := s1.train l
      let h := { f.head with phys := l, fseq := t.fseq }
      let crc := f.badCrc || bad
      let g := { f with head := h, badCrc := crc, sentOn := some l }
      let s2 := { s1 with bln := { s1.bln with frames := s1.bln.frames.map (fun x => if x = f then g else x) } }
      releaseSide (((s2.setTrain l { t with fseq := (t.fseq + 1) % 2 ^ 32, quiet := s.clock, turn := 1 }).bump
        (F.BLN_LANE_FRAMES_COUNT l)).emit (.laneWords l (spaced (frameWords h f.payload crc))))

/-! ### Echo lanes -/

/-- Echo lanes locked (R180). -/
def State.echoLocked (s : State) : Nat := ((List.range 4).filter (fun k => s.fget (F.BLN_ECHO_STATUS_STATE k) == 2)).length

/-- ECHO_MIN that governs: the running course's, or the value written. -/
def State.echoMin (s : State) : Nat := if s.running.isSome then s.gov F.BLN_CTL_ECHO_MIN else s.fget F.BLN_CTL_ECHO_MIN

/-- Too few echo lanes are locked (R180). -/
def checkEcho (s : State) : State :=
  if s.echoLocked < s.echoMin then requestHalt 9 false (s.raise F.BLN_EVENTS_ECHO_LOW) else s

/-- Whether an earlier echo lane reports the ID of lane k (R188). -/
def State.idClash (s : State) (k : Nat) : Bool :=
  (s.bln.echoKnown.takeWhile (fun j => j != k)).any (fun j =>
    s.fget (F.BLN_ECHO_STATUS_ECHO_ID j) == s.fget (F.BLN_ECHO_STATUS_ECHO_ID k))

/-- An enabled echo lane that holds lock and alignment counts as locked once its ID is known and no earlier lane reports it (R180, R188,
R191). -/
def countEcho (k : Nat) (s : State) : State :=
  if s.flag (F.BLN_ECHO_CTL_ENABLE k) && !s.flag (F.BLN_ECHO_CTL_TEST k) && s.bln.echoHeld.contains k && s.bln.echoKnown.contains k then
    if s.idClash k then
      let s1 := s.raise (F.BLN_ECHO_EVENTS_ID_CONFLICT k)
      if s.fget (F.BLN_ECHO_STATUS_STATE k) = 2 then checkEcho (s1.fset (F.BLN_ECHO_STATUS_STATE k) 1) else s1
    else if s.fget (F.BLN_ECHO_STATUS_STATE k) = 2 then s
    else (s.fset (F.BLN_ECHO_STATUS_STATE k) 2).raise (F.BLN_ECHO_EVENTS_LOCKED k)
  else s

/-- TRAINING_WORD on an echo lane (R187, R188, R191): it gives the lane's ECHO_ID, and the polarity found is shown. -/
def echoTraining (k : Nat) (w : DWord) (inverted : Bool) (s0 : State) : State :=
  let s := thaw k s0
  match readTrainingWord w with
  | none => if kindOf [w] = 0x96 then s else framingError k s
  | some t =>
    let id := t.laneId % 4
    let same := s.bln.echoKnown.contains k && s.fget (F.BLN_ECHO_STATUS_ECHO_ID k) == id
    let s1 := (s.fset (F.BLN_ECHO_STATUS_ECHO_ID k) id).fset (F.BLN_ECHO_STATUS_POL_INV k) (bitOf inverted)
    countEcho k (if same then s1
      else { s1 with bln := { s1.bln with echoKnown := s1.bln.echoKnown.filter (fun j => j != k) ++ [k] } })

/-- ECHO_LOCKED (R180, R191): the lane holds codeword lock and group alignment. -/
def echoLockedOp (k : Nat) (s : State) : State :=
  if s.flag (F.BLN_ECHO_CTL_ENABLE k) && !s.flag (F.BLN_ECHO_CTL_TEST k) then
    countEcho k { s with bln := { s.bln with echoHeld := insertKey k s.bln.echoHeld } }
  else s

/-- What an echo lane's receiver has found is gone (R180, R191). -/
def forgetEcho (k : Nat) (s : State) : State :=
  { s with bln := { s.bln with echoHeld := s.bln.echoHeld.filter (fun j => j != k)
                               echoKnown := s.bln.echoKnown.filter (fun j => j != k) } }

/-- ECHO_LOCK_LOST (R180): four uncorrectable codewords in a row. -/
def echoLockLostOp (k : Nat) (s : State) : State :=
  let s1 := forgetEcho k s
  if s.fget (F.BLN_ECHO_STATUS_STATE k) = 2 then
    checkEcho (((s1.fset (F.BLN_ECHO_STATUS_STATE k) 1).raise (F.BLN_ECHO_EVENTS_LOCK_LOST k)).add (F.BLN_ECHO_FEC_UNCORR_COUNT k) 4)
  else s1

/-- One ack entry (R178): the frame in flight that it matches is acknowledged and its round trip measured (R224). -/
def ackOne (a : AckEntry) (s : State) : State :=
  if !a.valid then s
  else
    let hit := fun (f : TxFrame) => f.head.beamLane == a.beamLane && f.head.stroke % 64 == a.stroke6 && f.sentOn.isSome
    match if a.gen = s.bln.gen then s.bln.frames.find? hit else none with
    | none => (s.bump F.BLN_STRAY_COUNT).raise F.BLN_EVENTS_STRAY
    | some f =>
      if f.acked then s
      else
        let ns := ((s.clock - f.entered) / ticksPerNs).toNat
        let s1 := { s with
          bln := { s.bln with frames := s.bln.frames.map (fun x => if x = f then { x with acked := true, ackAt := s.clock } else x) }
          stk := { s.stk with rttMax := max s.stk.rttMax ns } }
        s1.raiseTo F.STK_RTT_MAX_NS ns

/-- ACK_BLOCK (R176 to R178) on a locked echo lane. -/
def ackBlockOp (k : Nat) (ws : List DWord) (s0 : State) : State :=
  let s := thaw k s0
  if s.fget (F.BLN_ECHO_STATUS_STATE k) ≠ 2 then s
  else match ackBlock ws with
    | none => echoUnitError 0xA6 k ws s
    | some es => es.foldl (fun t a => ackOne a t) s

/-- The lock bits of a status message (R179). -/
def remoteLocks (locks : List Bool) (s : State) : State :=
  ((List.range 136).zip locks).foldl (fun t p =>
    let was := t.flag (F.BLN_LANE_STATUS_REMOTE_LOCK p.1)
    let r := t.train p.1
    let u := if r.phase = .stageB ∧ r.lockAt.isSome ≠ p.2 then t.setTrain p.1 { r with lockAt := if p.2 then some t.clock else none } else t
    State.raiseIf (was && !p.2) (F.BLN_LANE_EVENTS_LOCK_LOST p.1) (u.fset (F.BLN_LANE_STATUS_REMOTE_LOCK p.1) (bitOf p.2))) s

/-- The judging of R198 condition 2: the first good message at least 20 µs after the halt stroke's catch. -/
def judgeHalt (s : State) : State :=
  match s.bln.haltCatch with
  | some t =>
    if !s.stk.halted || s.bln.judged.isSome || decide (s.rtime < t + 20 * ticksPerUs) then s
    else
      let dark := (List.range 136).filter (fun l => !s.flag (F.BLN_LANE_STATUS_REMOTE_LOCK l))
      let s1 := { s with bln := { s.bln with judged := some dark } }
      if s1.cox.flushDue then completeHalt s1 else s1
  | none => s

/-- STATUS_MESSAGE (R179, R198, R391): a good message updates what it reports; FAULT is a safety cause. -/
def statusMessageOp (k : Nat) (ws : List DWord) (s0 : State) : State :=
  let s := thaw k s0
  if s.fget (F.BLN_ECHO_STATUS_STATE k) ≠ 2 then s
  else match statusMsg ws with
    | none => echoUnitError 0xB4 k ws s
    | some m =>
      let s1 := s.setReg R.BLN_TEMP (BitVec.ofNat 32 (unsignedOf 16 m.temp + bitOf m.tempValid * 2 ^ 16))
      let s2 := ((s1.fset F.BLN_BLANKER_FLAGS_FAULT (bitOf m.fault)).fset F.BLN_BLANKER_FLAGS_MISMATCH (bitOf m.mismatch)).fset
        F.BLN_BLANKER_FLAGS_OVERFLOW (bitOf m.overflow)
      let s3 := { (remoteLocks m.locks s2).clear F.BLN_STATUS_TEMP_STALE with bln := { s2.bln with
        statusAt := some s.clock, stale := false
        temp := if m.tempValid then some (m.temp, s.clock) else s2.bln.temp } }
      let s4 := State.raiseIf m.overflow F.BLN_EVENTS_OVERFLOW (State.raiseIf m.mismatch F.BLN_EVENTS_MISMATCH
        (State.raiseIf m.fault F.BLN_EVENTS_BLANKER_FAULT s3))
      let s5 := judgeHalt s4
      let s6 := if m.mismatch || m.overflow then requestHalt 9 false s5 else s5
      demandIf m.fault 2 s6

/-- TEMP_STALE (R179): 100 µs without a good status message, from the last one or from the release of reset. -/
def tempStaleOp (s : State) : State :=
  if s.bln.stale then s
  else
    let s1 := s.until (s.bln.statusAt.getD s.pwr.releasedAt + 100 * ticksPerUs)
    { (s1.raise F.BLN_STATUS_TEMP_STALE).raise F.BLN_EVENTS_TEMP_STALE with bln := { s1.bln with stale := true } }

/-- FRAMING_ERROR (R167, R168). -/
def framingErrorOp (k : Nat) (s : State) : State := framingError k (thaw k s)

end Sys2Proof.Machine
end

