-- ==== Sys2Proof/Machine/Stroke.lean ====
section
/-! DEFINITION. Position, the stroke loop, commits, catches and fired strokes (R204 to R231), and the safety controller's checks of position
samples (R391). -/

namespace Sys2Proof.Machine

/-- The clock moved on to a regatta time (R361, log entry 4). -/
def State.untilR (s : State) (t : Int) : State := s.until (t - (s.rtime - s.clock))

/-- The tracking loop of an axis: 0 X, 1 Y. -/
def State.loop (s : State) (a : Nat) : AxisLoop := if a = 0 then s.stk.loopX else s.stk.loopY

/-- A tracking loop replaced. -/
def State.setLoop (s : State) (a : Nat) (l : AxisLoop) : State :=
  if a = 0 then { s with stk := { s.stk with loopX := l } } else { s with stk := { s.stk with loopY := l } }

/-- The motion unit's axis a. -/
def State.axis (s : State) (a : Nat) : Axis := if a = 0 then s.mot.x else s.mot.y

/-- An axis replaced. -/
def State.setAxis (s : State) (a : Nat) (x : Axis) : State :=
  if a = 0 then { s with mot := { s.mot with x := x } } else { s with mot := { s.mot with y := x } }

/-- What the safety controller follows of axis a. -/
def State.safAxis (s : State) (a : Nat) : SafAxis := if a = 0 then s.saf.x else s.saf.y

/-- It replaced. -/
def State.setSafAxis (s : State) (a : Nat) (x : SafAxis) : State :=
  if a = 0 then { s with saf := { s.saf with x := x } } else { s with saf := { s.saf with y := x } }

/-! ### Sample frames -/

/-- A position sample frame (R205). -/
structure PosFrame where
  pos : Int
  seq : Nat
  valid : Bool
  error : Bool
  reserved : Nat
  crcOk : Bool
deriving DecidableEq, Repr

/-- A sample frame read (R205). -/
def posFrame (w : DWord) : PosFrame where
  pos := signedOf 48 (bits 0 48 w.toNat)
  seq := bits 48 4 w.toNat
  valid := bitAt 52 w.toNat
  error := bitAt 53 w.toNat
  reserved := bits 54 2 w.toNat
  crcOk := crc8 (leBytes 7 w.toNat) == BitVec.ofNat 8 (bits 56 8 w.toNat)

/-- Whether a sample is good (R206). -/
def sampleGood (l : AxisLoop) (f : PosFrame) : Bool :=
  f.crcOk && f.valid && !f.error && f.reserved == 0 && (l.expect.isNone || l.expect == some f.seq)

/-- The expected SEQ after a frame (R206). -/
def nextExpect (l : AxisLoop) (f : PosFrame) : Option Nat :=
  if f.crcOk then some ((f.seq + 1) % 16) else l.expect.map (fun q => (q + 1) % 16)

/-- Whether a value fits a signed width. -/
def fits (w : Nat) (v : Int) : Bool := decide (-(2 ^ (w - 1)) ≤ v ∧ v < 2 ^ (w - 1))

/-- A value in a signed format: one outside it has no result that R209 states, so it is free (log entry 56). -/
def inFormat (g i w : Nat) (v : Int) : Int :=
  if fits w v then v else signedOf w (((Config.freeWord g i).toNat + (Config.freeWord g (i + 1)).toNat * 2 ^ 32) % 2 ^ w)

/-- Whether a loop's variables fit their widths of R209. -/
def AxisLoop.fits (l : AxisLoop) : Bool := Machine.fits 64 l.x && Machine.fits 48 l.v && Machine.fits 40 l.a

/-- A loop's variables in the widths of R209. -/
def AxisLoop.format (g : Nat) (l : AxisLoop) : AxisLoop :=
  { l with x := inFormat g 0 64 l.x, v := inFormat g 2 48 l.v, a := inFormat g 4 40 l.a }

/-- The loop's state after a sample with error e (R209). -/
def loopStep (ka kv kc : Nat) (e : Int) (l : AxisLoop) : AxisLoop :=
  let xp := l.x + l.v + roundHalfEven l.a 2
  let vp := l.v + l.a
  { l with x := xp + roundHalfEven (ka * e) 65536, v := vp + roundHalfEven (kv * e) 65536, a := l.a + roundHalfEven (kc * e) 65536 }

/-- e of R209 for a sample. -/
def loopError (l : AxisLoop) (z : Int) : Int := z * 65536 - (l.x + l.v + roundHalfEven l.a 2)

/-- The feed-forward velocity in the loop's unit (R211, R257). -/
def feedForward (vel : Int) : Int := roundHalfEven (vel * 64) 5

/-- The loop after a sample (R206, R209, R211, R212). -/
def loopSample (s : State) (a : Nat) (f : PosFrame) (ts : Int) : AxisLoop :=
  let l := s.loop a
  let good := sampleGood l f
  let ka := s.gov F.STK_LOOP_KA_KA
  let kv := s.gov F.STK_LOOP_KV_KV
  let kc := s.gov F.STK_LOOP_KC_KC
  let l0 := { l with expect := nextExpect l f, ts := ts }
  if !good then { loopStep ka kv kc 0 l0 with lastBad := true, badRun := l.badRun + 1, nearRun := 0, farRun := 0 }
  else
    let l1 := { l0 with lastBad := false, badRun := 0, posOk := true }
    if !l.init then
      { l1 with x := f.pos * 65536, v := feedForward (s.axis a).now.vel, a := 0, init := true, locked := false, nearRun := 0
                farRun := 0 }
    else
      let e := loopError l f.pos
      let near := e.natAbs ≤ 65536 * s.gov F.STK_LOCK_TOL_TOL
      let far := 65536 * s.gov F.STK_UNLOCK_TOL_TOL < e.natAbs
      { loopStep ka kv kc e l1 with nearRun := if near then l.nearRun + 1 else 0, farRun := if far then l.farRun + 1 else 0 }

/-! ### Armed, due and predicted -/

/-- X_n of R208. -/
def strokeX (s : State) (e : Entry) (n : Nat) : Int := e.originX + e.sgn * (n : Int) * (s.shape.pitch : Int)

/-- Whether the device is armed (R213); VMIN is compared exactly. -/
def State.armed (s : State) : Bool :=
  match s.running with
  | none => false
  | some e => s.stk.loopX.locked && s.stk.loopY.locked
      && decide ((s.gov F.STK_VMIN_VMIN : Int) * 33554432 ≤ s.stk.loopX.v * e.sgn * 10000)

/-- Twice 3200² times the distance that a state covers in h half ticks, times 4: v and a in the units of R209. -/
def covers (v a h : Int) : Int := 4 * 3200 * v * h + a * h * h

/-- The least h in lo .. lo + 2^n, but not above top, with covers ≥ d, where covers reaches d once and stays there up to top. -/
def leastHalf (v a d top : Int) : Nat → Int → Int
  | 0, lo => if d ≤ covers v a (min lo top) then min lo top else min (lo + 1) top
  | n + 1, lo => if d ≤ covers v a (min (lo + 2 ^ n) top) then leastHalf v a d top n lo else leastHalf v a d top n (lo + 2 ^ n)

/-- Half ticks h, the least with the target reached, rounded to a tick: the exact solution lies in (h − 1, h]. -/
def halfToTick (h : Int) (exact : Bool) : Int := if h % 2 = 0 then h / 2 else if exact then roundHalfEven h 2 else h / 2

/-- The solution of R214 in ticks from the state's instant: the smallest τ ≥ 0 with x + vτ + aτ²/2 at the target, rounded to a tick;
none where the state never reaches it. `dist` is the distance in the direction of travel, v and a are taken along it. -/
def solveCatch (dist v a : Int) : Option Int :=
  let d := 8 * 3200 * 3200 * dist
  if dist = 0 then some 0
  else if v ≤ 0 ∧ a ≤ 0 then none
  else if a < 0 then
    let top := (2 * 3200 * v) / (-a)
    if (4 * 3200 * v) * (4 * 3200 * v) < 4 * d * (-a) then none
    else if covers v a top < d then some (halfToTick (top + 1) false)
    else
      let h := leastHalf v a d top 64 0
      some (halfToTick h (covers v a h == d))
  else
    let h := leastHalf v a d (2 ^ 64) 64 0
    some (halfToTick h (covers v a h == d))

/-- The prediction for the next uncommitted stroke, or the halt of a crossing that has been missed (R214, R220): `lost` says that X had lost
its position. -/
def predict (lost : Bool) (s : State) : State :=
  match s.running with
  | none => s
  | some e =>
    let st := s.coxState
    let n := s.stk.next
    if (st != 2 && st != 3) || s.stk.halted || decide (s.lastStroke < n) || s.cox.ending.isSome || s.stk.aborted then
      { s with stk := { s.stk with pred := none } }
    else
      let l := s.stk.loopX
      let dist := (65536 * strokeX s e n - l.x) * e.sgn
      if dist < 0 then setHalt n (if lost then 5 else 4) s.clock false s
      else if s.armed then
        { s with stk := { s.stk with pred := (solveCatch dist (l.v * e.sgn) (l.a * e.sgn)).map (fun q => l.ts + q) } }
      else { s with stk := { s.stk with pred := none } }

/-! ### The safety controller's checks -/

/-- A signed 48-bit position held in a low and a high register. -/
def State.pos48 (s : State) (lo hi : Fld) : Int := signedOf 48 (s.fget lo + s.fget hi % 65536 * 2 ^ 32)

/-- Whether an axis holds its reference (R274). -/
def State.ref (s : State) (a : Nat) : Bool := s.flag (F.MOT_AX_STATUS_REF a)

/-- Whether an axis is at rest (R259). -/
def State.atRest (s : State) (a : Nat) : Bool := s.flag (F.MOT_AX_STATUS_AT_REST a)

/-- Whether a position lies inside the safety envelope of an axis. -/
def insideEnvelope (s : State) (a : Nat) (z : Int) : Bool :=
  decide (s.pos48 (F.SAF_ENV_MIN_LO_POS a) (F.SAF_ENV_MIN_HI_POS a) ≤ z ∧ z ≤ s.pos48 (F.SAF_ENV_MAX_LO_POS a) (F.SAF_ENV_MAX_HI_POS a))

/-- The envelope, velocity and follow checks of a good sample (R391). -/
def safetySample (a : Nat) (z ts : Int) (s : State) : State :=
  let x := s.safAxis a
  let old := x.track.filter (fun p => p.2 ≤ ts - 64000)
  let track := (z, ts) :: x.track.filter (fun p => decide (ts - 64000 < p.2)) ++ old.take 1
  if !s.ref a then s.setSafAxis a { x with envRun := 0, velRun := 0, followSince := none, track := track, envHold := false }
  else
    let inside := insideEnvelope s a z
    let hold := x.envHold && !inside
    let env := if inside || hold then 0 else x.envRun + 1
    let fast := match old with
      | p :: _ => decide ((s.fget (F.SAF_VLIM_V a) : Int) * 1024 < (z - p.1).natAbs * 1000)
      | [] => false
    let vel := if fast then x.velRun + 1 else 0
    let off := decide ((s.fget (F.SAF_FOLLOW_NM a) : Int) * 1024 < (z - (s.axis a).now.pos).natAbs)
    let follow := if off then (match x.followSince with | some t => some t | none => some s.clock) else none
    let n := max 1 (s.fget (F.SAF_FILT_N a))
    let trip := decide (n ≤ env)
    let s1 := s.setSafAxis a { envRun := env, velRun := vel, followSince := follow, track := track, wordAt := x.wordAt, moved := x.moved, v0 := x.v0
                               envHold := hold || trip }
    demandIf (decide (n ≤ vel)) (9 + a) (demandIf trip (7 + a) s1)

/-- POSITION_SAMPLE (R205 to R214, R220, R391): a frame whose UI 0 began at regatta time tf. -/
def positionSampleOp (a : Nat) (w : DWord) (tf : Int) (s0 : State) : State :=
  let s := s0.untilR tf
  let f := posFrame w
  let l := s.loop a
  let ts := tf - s.fget (if a = 0 then F.STK_POS_LAT_X_LAT else F.STK_POS_LAT_Y_LAT)
  let good := sampleGood l f
  let l1 := loopSample s a f ts
  let s1 := if l1.fits then s.setLoop a l1 else ({ s with free := s.free + 1 }).setLoop a (l1.format s.free)
  let s2 := if good then s1
    else State.raiseIf (!l.lastBad) F.STK_EVENTS_POS_BAD
      (s1.bump (if a = 0 then F.STK_POS_BAD_X_COUNT else F.STK_POS_BAD_Y_COUNT))
  let s3 := if good then safetySample a f.pos ts s2 else s2
  if a = 0 then predict (!l.posOk) s3 else s3

/-- LOCKED (R212): a loop whose last STK_LOCK_COUNT good samples were near. -/
def lockedOp (a : Nat) (s : State) : State :=
  let l := s.loop a
  if !l.locked && l.init && decide (s.gov F.STK_LOCK_COUNT_COUNT ≤ l.nearRun) then
    predict (!s.stk.loopX.posOk) ((s.setLoop a { l with locked := true }).raise F.STK_EVENTS_LOCKED)
  else s

/-- A loop unlocked, with its event. -/
def unlock (a : Nat) (s : State) : State :=
  let l := s.loop a
  if l.locked then (s.setLoop a { l with locked := false, nearRun := 0 }).raise F.STK_EVENTS_UNLOCKED else s

/-- UNLOCKED (R212): four good samples in a row beyond the unlock tolerance. -/
def unlockedOp (a : Nat) (s : State) : State := if 4 ≤ (s.loop a).farRun then predict (!s.stk.loopX.posOk) (unlock a s) else s

/-! ### Commit -/

/-- T_min in ticks for a gate length (R216, R425). -/
def tminOf (c : Shape) (gate : Nat) : Nat := max (max 12800 c.tminFloor) (64 * gate + 512)

/-- T_min of the running course. -/
def State.tmin (s : State) : Nat := tminOf s.shape (s.gov F.STK_GATE_GATE)

/-- The age of the blanker temperature in force in ticks, none where none is (R230). -/
def State.tempAge (s : State) : Option Int := s.bln.temp.map (fun p => s.clock - p.2)

/-- A signed 16-bit setting of the cox that governs. -/
def State.tempLevel (s : State) (f : Fld) : Int := s.govI f

/-- DERATED brought up to date (R237). -/
def updateDerate (s : State) : State :=
  let fresh := match s.tempAge with | some g => decide (g ≤ 100 * 64000) | none => false
  let temp := (s.bln.temp.map Prod.fst).getD 0
  let hot := s.bln.temp.isSome && decide (s.tempLevel F.COX_TEMP_WARN_T ≤ temp)
  if hot || !fresh then
    if s.flag F.COX_STATUS_DERATED then s else (s.raise F.COX_STATUS_DERATED).raise F.COX_EVENTS_TEMP_WARN
  else if temp < s.tempLevel F.COX_TEMP_RESUME_T then s.clear F.COX_STATUS_DERATED
  else s

/-- The cox's reasons to halt at a commit (R236, R238): 0 LEAD, 2 TEMP_HARD, 3 TEMP_STALE. -/
def commitReasons (s : State) : List Nat :=
  let stale := s.gov F.COX_STALE_HALT_US
  (if s.leadL < s.gov F.COX_LEAD_HALT_PX then [0] else [])
    ++ (if s.bln.temp.isSome && decide (s.tempLevel F.COX_TEMP_HARD_T ≤ (s.bln.temp.map Prod.fst).getD 0) then [2] else [])
    ++ (if stale != 0 && (match s.tempAge with | some g => decide ((stale : Int) * 64000 ≤ g) | none => true) then [3] else [])

/-- The event of a reason. -/
def reasonEvent : Nat → Fld
  | 0 => F.COX_EVENTS_LEAD_HALT
  | 1 => F.COX_EVENTS_SUPPLY
  | 2 => F.COX_EVENTS_TEMP_HARD
  | 3 => F.COX_EVENTS_TEMP_STALE
  | _ => F.COX_EVENTS_HALT_REQ

/-- The frames of a stroke at its commit: beam lanes whose frame has not been sent, and those whose frame was sent and whose ack was not
registered before this tick (R218, R231). -/
def frameState (s : State) (n : Nat) : List Nat × List Nat :=
  let frame := fun (b : Nat) => s.bln.frames.find? (fun f => f.head.beamLane == b && f.head.stroke == n)
  let lanes := List.range s.shape.beamLanes
  (lanes.filter (fun b => match frame b with | some f => f.sentOn.isNone | none => true),
   lanes.filter (fun b => match frame b with | some f => f.sentOn.isSome && !(f.acked && decide (f.ackAt < s.clock)) | none => false))

/-- A missed ack of a beam lane (R218, R198). -/
def ackMiss (n b : Nat) (s : State) : State :=
  let l := s.laneOf b
  let t := s.train l
  ((s.setTrain l { t with missed := n :: t.missed.filter (fun k => decide (n ≤ k + 1024)) }).raise (F.BLN_LANE_EVENTS_ACK_MISS l)).bump
    (F.BLN_LANE_ACK_MISS_COUNT l)

/-- The Y deviation δ of R228 as a fraction in 2^-16 length units. -/
def yDeviation (s : State) (e : Entry) (t : Int) : Int × Int :=
  let l := s.stk.loopY
  let q := t + 32 * (s.gov F.STK_GATE_GATE : Int) - l.ts
  (2 * 3200 * 3200 * (l.x - 65536 * e.originY) + 2 * 3200 * l.v * q + l.a * q * q, 2 * 3200 * 3200)

/-- The trim value and whether the clamp acted (R228). -/
def trimValue (s : State) (e : Entry) (t : Int) : Int × Bool :=
  let ofs := s.govI F.STK_TRIM_OFS_OFS
  let (n, d) := yDeviation s e t
  if s.govFlag F.STK_CTL_TRIM_EN then
    let v := ofs - roundHalfEven n (d * 2 ^ 18)
    let c := clampInt (-8388607) 8388607 v
    (c, c != v)
  else (ofs, false)

/-- Condition 6 of R218. -/
def trimOk (s : State) (e : Entry) (t : Int) : Bool :=
  let lim : Int := s.gov F.STK_TRIM_LIMIT_LIMIT
  let (n, d) := yDeviation s e t
  !s.govFlag F.STK_CTL_TRIM_EN || lim == 0 || decide ((n.natAbs : Int) ≤ 65536 * lim * d)

/-- The trim word of a stroke (R229). -/
def trimWord (v : Int) (sat fire : Bool) (n : Nat) : Word :=
  let w := unsignedOf 24 v + bitOf sat * 2 ^ 24 + bitOf fire * 2 ^ 25 + n % 16 * 2 ^ 26
  BitVec.ofNat 32 (w + parityOf 31 w * 2 ^ 31)

/-- t_p of R217: the commit before in this run, or the last catch of the course. -/
def State.beforeCatch (s : State) : Option Int :=
  match s.stk.lastCommit with
  | some (_, t) => some t
  | none => s.stk.lastCatch.map Prod.snd

/-- STROKE_COMMIT (R214, R217, R218, R228 to R230, R236 to R238). -/
def strokeCommitOp (s0 : State) : State :=
  match s0.stk.pred, s0.running with
  | some t, some e =>
    let n := s0.stk.next
    let st := s0.coxState
    if s0.stk.halted || (st != 2 && st != 3) || decide (s0.lastStroke < n) then s0
    else
      let s := updateDerate (s0.untilR (t - s0.gov F.STK_COMMIT_LEAD * ticksPerNs))
      let s1 := s.setReg R.STK_BTEMP_USED (match s.bln.temp with
        | some (v, _) => BitVec.ofNat 32 (unsignedOf 16 v + 2 ^ 16)
        | none => 0#32)
      let reasons := commitReasons s1
      let s2 := reasons.foldl (fun u r => u.raise (reasonEvent r)) (setReasons reasons s1)
      let ovr := match s2.beforeCatch with | some p => decide (t < p + s2.tmin) | none => false
      let tc := if ovr then (s2.beforeCatch.getD t) + s2.tmin else t
      let (late, unacked) := frameState s2 n
      let trimBad := !trimOk s2 e t
      let causes := (if reasons.isEmpty then [] else [8]) ++ (if s2.armed then [] else [4]) ++ (if ovr then [3] else [])
        ++ (if late.isEmpty then [] else [2]) ++ (if unacked.isEmpty then [] else [1]) ++ (if trimBad then [6] else [])
      let fire := causes.isEmpty
      let s3 := State.raiseIf trimBad F.STK_EVENTS_TRIM_LIMIT (State.raiseIf (!unacked.isEmpty) F.STK_EVENTS_ACK_LATE
        (State.raiseIf (!late.isEmpty) F.STK_EVENTS_FRAME_LATE s2))
      let s4 := (late ++ unacked).foldl (fun u b => ackMiss n b u) s3
      let s5 := if ovr then (s4.bump F.STK_OVERRUNS_COUNT).raise F.STK_EVENTS_OVERRUN else s4
      let (v, sat) := trimValue s5 e t
      let s6 := (State.raiseIf sat F.STK_EVENTS_TRIM_SAT s5).emit (.trim (s5.rtime + 4 * ticksPerNs) (portUis 16 (trimWord v sat fire n).toNat))
      let period := match s6.stk.lastCommit with | some (_, p) => some (t - p).toNat | none => none
      let s7 := match period with
        | some p => s6.fset F.STK_PERIOD_MIN_TICKS (min p (s6.fget F.STK_PERIOD_MIN_TICKS))
        | none => s6
      let s8 := { s7.fset F.STK_STROKE_STROKE n with stk := { s7.stk with
        next := n + 1, pred := none, fire := fire, lastCommit := some (n, tc)
        commits := s7.stk.commits ++ [{ n := n, t := tc, fire := fire }]
        periodMin := match period, s7.stk.periodMin with
          | some p, some q => some (min p q)
          | some p, none => some p
          | none, m => m } }
      if fire then s8
      else
        let s9 := setHaltAll n causes (tc - (s8.rtime - s8.clock)) false s8
        { s9 with bln := { s9.bln with unacked := late ++ unacked, haltCatch := some tc } }
  | _, _ => s0

/-! ### Catch and fired -/

/-- CATCH (R219, R221, R156, R175): the catch of the oldest committed stroke. -/
def catchStrobeOp (s0 : State) : State :=
  match s0.stk.commits with
  | [] => s0
  | c :: rest =>
    let s := s0.untilR c.t
    let s1 := { s with stk := { s.stk with
      commits := rest, lastCatch := some (c.n, c.t), fireCatch := if c.fire then some c.n else s.stk.fireCatch
      train := if c.fire then some (c.n, c.t) else s.stk.train } }
    let s2 := s1.emit (.catchEdge c.n c.t c.fire)
    let s3 := if c.fire then
        { s2.emit (.gateTrain c.t (s2.gov F.STK_GATE_GATE)) with
          saf := { s2.saf with trainEnd := some (c.t + 64 * s2.gov F.STK_GATE_GATE) } }
      else s2.bump F.STK_FIRE_LOW_COUNT
    let s4 := if s3.stk.fireCatch.isSome then s3.fset F.WAK_LEAD_MIN (min s3.lead (s3.fget F.WAK_LEAD_MIN)) else s3
    let s5 := if c.fire ∧ c.n = s4.lastStroke then sendSeries .courseEnd s4.courseIds.1 s4 else s4
    tryFinish s5

/-- The masked frame of a beam lane folded into its signature (R296, R297). -/
def foldSignature (f : TxFrame) (s : State) : State :=
  let d := fun (_ : Nat) => 0xFFFFFFFFFFFFFFFF#64
  let b := f.head.beamLane
  let v := crc64Fold (sparseGet d b s.int.sigs) (wordBytes (maskedFrame f.head f.payload))
  { s with int := { s.int with sigs := sparsePut d b v s.int.sigs } }

/-- The LAST stroke has fired (R62, R64, R297, R301): the course signs off. Only here does STOP_AFTER clear RUN (log entry 97). -/
def signOff (e : Entry) (s : State) : State :=
  let s1 := courseEvent 4 s.lastStroke 0 (postCourseResult 0 e s)
  let s2 := lanesReady (putAway s1)
  let s3 := { s2 with ing := { s2.ing with queue := s2.ing.queue.filter (fun x => x.idx != e.idx) } }
  (if e.stopAfter then s3.clear F.ING_CTL_RUN else s3).raise F.ING_EVENTS_COURSE_END

/-- STROKE_FIRED (R156, R219, R296, R297): gate 63 has ended. -/
def strokeFiredOp (s0 : State) : State :=
  match s0.stk.train, s0.running with
  | some (n, t), some e =>
    let s := s0.untilR (t + 64 * s0.gov F.STK_GATE_GATE)
    let fs := s.bln.frames.filter (fun f => f.head.stroke == n)
    let s1 := fs.foldl (fun u f => foldSignature f u) s
    let s2 := { s1.fset F.STK_FIRED_STROKE n with
      stk := { s1.stk with train := none, lastFired := some n }
      bln := { s1.bln with frames := s1.bln.frames.filter (fun f => f.head.stroke != n) }
      cox := { s1.cox with firedSince := true } }
    if s2.stk.aborted then abortFinish s2
    else if n = s2.lastStroke ∧ s2.cox.ending.isNone then signOff e s2
    else checkLate (tryFinish s2)
  | _, _ => s0

end Sys2Proof.Machine
end

