-- ==== Sys2Proof/Machine/Planner.lean ====
section
/-! DEFINITION. The motion planner (R260, R261, R270): jerk-limited profiles in whole servo periods, exact in the units of Profile, and the
curve of a segment table (R267, R268). The spec fixes the limits and the aim of a profile and leaves its steps open: the greedy choice
here is the model's own (log entry 8). -/

namespace Sys2Proof.Machine

/-- Counts of Profile in a length unit. -/
def unitP : Int := 6 * 2 ^ 40 * 5 ^ 9

/-- Counts of Profile in 1 µm/s. -/
def unitV : Int := 6 * 2 ^ 47 * 5 ^ 6

/-- Counts of Profile in 1 mm/s². -/
def unitA : Int := 6 * 2 ^ 44 * 5 ^ 3

/-- Counts of Profile in 1 m/s³. -/
def unitJ : Int := 12 * 2 ^ 40

/-- Below this a difference of position (in length units) or of velocity (in length units per µs) counts as none: 2^-16. -/
def snap : Int := 6 * 2 ^ 24 * 5 ^ 9

/-- The limits that a plan keeps: the servo period in µs, and jerk and acceleration in the counts of Profile. -/
structure Limits where
  t : Int
  j : Int
  a : Int
deriving DecidableEq, Repr

/-- A profile after one period at constant jerk (R260). -/
def advance (t j : Int) (f : Profile) : Profile where
  p := f.p + f.v * t + f.a * t * t / 2 + j * t * t * t / 6
  v := f.v + f.a * t + j * t * t / 2
  a := f.a + j * t

/-- The velocity gained while an acceleration a ≥ 0 is brought to 0 at the jerk limit. -/
def rampGain (l : Limits) (a : Int) : Int :=
  let d := l.j * l.t
  let m := a / d
  l.t * m * a - m * m * d * l.t / 2 + (a - m * d) * l.t / 2

/-- The velocity that the axis has once its acceleration is 0, brought there at the jerk limit. -/
def rampEnd (l : Limits) (v a : Int) : Int := if 0 ≤ a then v + rampGain l a else v - rampGain l (-a)

/-- The jerk that brings an acceleration toward 0. -/
def rampJerk (l : Limits) (a : Int) : Int := if 0 ≤ a then -(min l.j (a / l.t)) else min l.j (-a / l.t)

/-- The largest k below 2^b that meets a condition which holds up to some point. -/
def largestOk (ok : Nat → Bool) : Nat → Nat → Nat
  | 0, lo => lo
  | b + 1, lo => largestOk ok b (if ok (lo + 2 ^ b) then lo + 2 ^ b else lo)

/-- A profile seen along a direction. -/
def Profile.along (d : Int) (f : Profile) : Profile := { p := d * f.p, v := d * f.v, a := d * f.a }

/-- The largest jerk of `lo` to `hi` in steps of 6 that meets a condition, `lo` where none does. -/
def largestJerk (lo hi : Int) (ok : Int → Bool) : Int :=
  if hi ≤ lo then lo
  else if ok hi then hi
  else lo + 6 * (largestOk (fun k => decide (lo + 6 * k ≤ hi) && ok (lo + 6 * k)) 72 0 : Nat)

/-- The jerk of the coming period toward a velocity. -/
def velJerk (l : Limits) (w : Int) (f : Profile) : Int :=
  let e := rampEnd l f.v f.a
  if (e - w).natAbs ≤ snap.natAbs then rampJerk l f.a
  else
    let d : Int := if e < w then 1 else -1
    let g := f.along d
    let lo := if l.a < g.a then -l.j else rampJerk l g.a
    let hi := min l.j ((l.a - g.a) / l.t / 6 * 6)
    d * largestJerk lo hi (fun j => let h := advance l.t j g; decide (rampEnd l h.v h.a ≤ d * w))

/-- One period toward a velocity. -/
def velStep (l : Limits) (w : Int) (f : Profile) : Profile :=
  let g := advance l.t (velJerk l w f) f
  if g.a = 0 ∧ (g.v - w).natAbs ≤ snap.natAbs then { g with v := w } else g

/-- Whether a profile stands still. -/
def Profile.stopped (f : Profile) : Bool := f.v == 0 && f.a == 0

/-- Where a stop begun now ends; none where the limits never end it. -/
def stopEndIn (l : Limits) : Nat → Profile → Option Int
  | 0, _ => none
  | n + 1, f => if f.stopped then some f.p else stopEndIn l n (velStep l 0 f)

/-- Where a stop begun now ends (R263). -/
def stopEnd (l : Limits) (f : Profile) : Option Int :=
  if l.j ≤ 0 ∨ l.a ≤ 0 then (if f.stopped then some f.p else none) else stopEndIn l 1048576 f

/-- The jerk of the coming period of a MOVE to x under a velocity limit. -/
def moveJerk (l : Limits) (lim x : Int) (f : Profile) : Int :=
  match stopEnd l f with
  | none => velJerk l 0 f
  | some e =>
    if (x - e).natAbs ≤ snap.natAbs then velJerk l 0 f
    else
      let d : Int := if e < x then 1 else -1
      let g := f.along d
      d * largestJerk (velJerk l 0 g) (velJerk l lim g) (fun j =>
        match stopEnd l (advance l.t j g) with | some q => decide (q ≤ d * x) | none => false)

/-- One period of a MOVE to x. -/
def moveStep (l : Limits) (lim x : Int) (f : Profile) : Profile :=
  let g0 := advance l.t (moveJerk l lim x f) f
  let g := if g0.a = 0 ∧ g0.v.natAbs ≤ snap.natAbs then { g0 with v := 0 } else g0
  if g.stopped && decide ((g.p - x).natAbs ≤ snap.natAbs) then { g with p := x } else g

/-- One period of a stop at a fixed deceleration without a jerk limit (R270, R395). -/
def quickStep (t q : Int) (f : Profile) : Profile :=
  if f.v.natAbs ≤ (q * t).natAbs then { p := f.p + f.v * t / 2, v := 0, a := 0 }
  else
    let a := if 0 < f.v then -q else q
    { p := f.p + f.v * t + a * t * t / 2, v := f.v + a * t, a := a }

/-- A profile with its acceleration cut to one that whole periods at whole jerks bring to 0. -/
def Profile.normal (t : Int) (f : Profile) : Profile := { f with a := f.a.tdiv (6 * t) * (6 * t) }

/-- The distance from rest to a velocity (R261), in the counts of Profile; none where the limits never reach it. -/
def runUpIn (l : Limits) (w : Int) : Nat → Profile → Option Int
  | 0, _ => none
  | n + 1, f => if f.v = w ∧ f.a = 0 then some f.p else runUpIn l w n (velStep l w f)

/-- A(V) (R261). -/
def runUp (l : Limits) (w : Int) : Option Int :=
  if l.j ≤ 0 ∨ l.a ≤ 0 then (if w = 0 then some 0 else none) else runUpIn l w 1048576 { p := 0, v := 0, a := 0 }

/-- A profile as a set-point frame carries it (R256, R260). -/
def setPointOf (f : Profile) : SetPoint where
  pos := roundHalfEven f.p unitP
  vel := roundHalfEven (f.v * 256) unitP
  acc := roundHalfEven (f.a * 65536) unitP

/-- A profile begun from a set-point. -/
def profileOf (t : Int) (q : SetPoint) : Profile :=
  Profile.normal t { p := q.pos * unitP, v := q.vel * (unitP / 256), a := q.acc * (unitP / 65536) }

/-! ### Segment tables -/

/-- A point of a table read from its 32 bytes (R265), and whether a reserved bit is set. -/
def readPoint (bs : List Byte) : Point × Bool :=
  ({ x := leAtS 0 6 bs, y := leAtS 16 6 bs, vx := leAtS 8 4 bs, vy := leAtS 12 4 bs, dt := leAt 6 2 bs },
   decide (leAt 22 2 bs ≠ 0 ∨ leAt 24 8 bs ≠ 0))

/-- Position and velocity of an axis of a point. -/
def Point.on (a : Nat) (q : Point) : Int × Int := if a = 0 then (q.x, q.vx) else (q.y, q.vy)

/-- Position and velocity in a segment (R267): D, P_s, the two points' values, and i. -/
def hermite (d ps : Int) (p0 v0 p1 v1 i : Int) : Int × Int :=
  (roundHalfEven ((2 * i ^ 3 - 3 * i ^ 2 * d + d ^ 3) * p0 * 256 + (i ^ 3 - 2 * i ^ 2 * d + i * d ^ 2) * d * ps * v0
      + (3 * i ^ 2 * d - 2 * i ^ 3) * p1 * 256 + (i ^ 3 - i ^ 2 * d) * d * ps * v1) (256 * d ^ 3),
   roundHalfEven ((6 * i ^ 2 - 6 * i * d) * p0 * 256 + (3 * i ^ 2 - 4 * i * d + d ^ 2) * d * ps * v0
      + (6 * i * d - 6 * i ^ 2) * p1 * 256 + (3 * i ^ 2 - 2 * i * d) * d * ps * v1) (d ^ 3 * ps))

/-- Position and velocity of an axis on a table's curve at boundary i after its first point, and the point at the segment's end; past
the last point the curve goes on at the last velocity. `k` is the number of the list's second point. -/
def curveAt (a : Nat) (ps : Int) : List Point → Nat → Nat → (Int × Int) × Nat
  | [], k, _ => ((0, 0), k)
  | [q], k, i => let (p, v) := q.on a; ((p + roundHalfEven (v * ps * i) 256, v), k - 1)
  | q :: r :: rest, k, i =>
    if i ≤ r.dt then
      let (p0, v0) := q.on a
      let (p1, v1) := r.on a
      (hermite r.dt ps p0 v0 p1 v1 i, k)
    else curveAt a ps (r :: rest) (k + 1) (i - r.dt)

/-- The length of a table in boundaries. -/
def tableLength (ps : List Point) : Nat := (ps.map Point.dt).sum

/-- The set-point of an axis on a table at boundary i (R267). -/
def tableSetPoint (a : Nat) (ps : Int) (pts : List Point) (i : Nat) : SetPoint :=
  let (p, v) := (curveAt a ps pts 1 i).1
  let before := if i = 0 then v else (curveAt a ps pts 1 (i - 1)).1.2
  { pos := p, vel := v, acc := roundHalfEven ((v - before) * 256) ps }

/-- The weight of a blend at boundary b of n, in 2^-16 (R268). -/
def blendWeight (b n : Nat) : Int :=
  if n ≤ b then 65536 else roundHalfEven (65536 * (3 * (b : Int) ^ 2 * n - 2 * (b : Int) ^ 3)) ((n : Int) ^ 3)

/-- A value between two trajectories (R268). -/
def blendOne (w p q : Int) : Int := p + roundHalfEven ((q - p) * w) 65536

/-- A set-point between two trajectories (R268). -/
def blendSp (w : Int) (p q : SetPoint) : SetPoint where
  pos := blendOne w p.pos q.pos
  vel := blendOne w p.vel q.vel
  acc := blendOne w p.acc q.acc

end Sys2Proof.Machine
end

