-- ==== Sys2Proof/Machine/Motion.lean ====
section
/-! DEFINITION. The motion unit (R254 to R275): orders, inputs, homing, driver status, segment tables, references, and the loss of a
position (R206, R274). -/

namespace Sys2Proof.Machine

/-! ### Axis states -/

/-- The state of an axis: 0 DISABLED, 1 REST, 2 MOVING, 3 HOMING, 4 TABLE, 5 STOPPING, 6 FAULT. -/
def State.axisState (s : State) (a : Nat) : Nat := s.fget (F.MOT_AX_STATUS_STATE a)

/-- The state of an axis set. -/
def setAxisState (a st : Nat) (s : State) : State := s.fset (F.MOT_AX_STATUS_STATE a) st

/-- Whether an axis is enabled (R259). -/
def State.enabled (s : State) (a : Nat) : Bool := s.flag (F.MOT_AX_STATUS_ENABLED a)

/-- Whether the harbour image is loaded (R429). -/
def State.harbour (s : State) : Bool := s.flag F.CFG_STATUS_HARBOUR

/-- Whether an amplifier enable is asserted (R389). -/
def State.ampOn (s : State) (a : Nat) : Bool := if a = 0 then s.saf.ampX else s.saf.ampY

/-- What an axis needs to be enabled beside a STATE that is not FAULT (R259). -/
def State.driveReady (s : State) (a : Nat) : Bool :=
  s.flag (F.MOT_AX_CTL_ENABLE a) && s.ampOn a && s.flag (F.MOT_AX_STATUS_DRV_READY a) && s.flag (F.MOT_AX_STATUS_DRV_POWER a) && !s.harbour

/-- Whether a limit trip put an axis in FAULT (codes LIMIT and HOME_FAIL) and an input is still tripped: it takes orders that move it away
(R270, R275; log entry 116). -/
def State.backingOff (s : State) (a : Nat) : Bool :=
  s.axisState a == 6 && (s.fget (F.MOT_AX_STATUS_FAULT a) == 1 || s.fget (F.MOT_AX_STATUS_FAULT a) == 2)
    && (s.flag (F.MOT_AX_STATUS_LIM_POS a) || s.flag (F.MOT_AX_STATUS_LIM_NEG a)) && s.driveReady a

/-- Whether the planner moves an axis under an order. -/
def State.drives (s : State) (a : Nat) : Bool := s.enabled a || s.backingOff a

/-- The state that a stop or an order puts an axis in; FAULT stays. -/
def moveState (a st : Nat) (s : State) : State := if s.axisState a = 6 then s else setAxisState a st s

/-- Whether an axis is still to come to rest. -/
def Axis.moving (x : Axis) : Bool := !x.prof.stopped || x.sp.vel != 0 || x.sp.acc != 0

/-- The limits that the planner of an axis keeps. -/
def Axis.limits (x : Axis) (t : Nat) : Limits := { t := t, j := x.jmax * unitJ, a := x.amax * unitA }

/-- The order of a stop: the quick stop of SF-STAGE gives way to none (R395). -/
def State.stopOrder (s : State) (o : AxisOrder) : AxisOrder :=
  match s.saf.stop with
  | some st => if st.begun.isSome then .quick else o
  | none => o

/-- An axis begins a stop at the next boundary. -/
def stopAxis (a : Nat) (o : AxisOrder) (s : State) : State :=
  let x := s.axis a
  let s1 := s.setAxis a { x with order := s.stopOrder o, next := none, homing := none }
  let st := s.axisState a
  if x.moving ∨ st = 2 ∨ st = 3 ∨ st = 4 then moveState a 5 s1 else s1

/-- The segment table ends (R268): its axes go on under a stop begun from the set-point in force, blended where asked. -/
def endTable (blended : Bool) (s : State) : State :=
  if s.mot.table.isNone || !s.flag F.MOT_TBL_STATUS_RUNNING then s
  else
    let n := s.fget F.MOT_TBL_BLEND_N
    let leave := fun (a : Nat) (u : State) =>
      let x := u.axis a
      let u1 := u.setAxis a { x with prof := profileOf u.mot.period x.sp, order := .stop, next := none }
      if u.axisState a = 4 then setAxisState a 5 u1 else u1
    let s1 := ((leave 1 (leave 0 s)).clear F.MOT_TBL_STATUS_RUNNING).raise F.MOT_EVENTS_TBL_DONE
    if blended && n != 0 then
      { s1.raise F.MOT_TBL_STATUS_BLENDING with mot := { s1.mot with blend := some { b := 0, n := n, toTable := false } } }
    else { s1.clear F.MOT_TBL_STATUS_BLENDING with mot := { s1.mot with table := none, blend := none } }

/-- An axis enters FAULT with a code (R259): it comes to rest, and a table ends under the blend. -/
def faultAxis (a code : Nat) (s : State) : State :=
  let s1 := endTable true s
  let x := s1.axis a
  let s2 := s1.setAxis a { x with order := s.stopOrder .stop, next := none, homing := none }
  ((setAxisState a 6 s2).fset (F.MOT_AX_STATUS_FAULT a) code).clear (F.MOT_AX_STATUS_ENABLED a)

/-- ENABLED brought up to date (R259): an axis that loses its enabling keeps its set-point where it stands, and a stop in progress goes
on. -/
def refreshEnable (a : Nat) (s : State) : State :=
  let st := s.axisState a
  let on := s.driveReady a && st != 6
  let s1 := s.fset (F.MOT_AX_STATUS_ENABLED a) (bitOf on)
  if on then (if st = 0 then setAxisState a 1 s1 else s1)
  else if st = 0 ∨ st = 5 ∨ st = 6 then s1
  else
    let s2 := if st = 4 then endTable false s1 else s1
    let x := s2.axis a
    setAxisState a 0 (s2.setAxis a { x with
      prof := { p := x.sp.pos * unitP, v := 0, a := 0 }, order := .hold, next := none, homing := none })

/-- Both axes' enabling brought up to date. -/
def refreshEnables (s : State) : State := refreshEnable 1 (refreshEnable 0 s)

/-- The reference of an axis is lost (R274); a loss during a course abandons it at the next boundary (R248). -/
def loseRef (a : Nat) (s : State) : State :=
  if s.ref a then
    let s1 := (s.clear (F.MOT_AX_STATUS_REF a)).raise (F.MOT_AX_EVENTS_REF_LOST a)
    if s.running.isSome then { s1 with mot := { s1.mot with refLost := true } } else s1
  else s

/-- Homing ends without a reference (R273): the axis comes to rest. -/
def endHoming (a : Nat) (s : State) : State :=
  if (s.axis a).homing.isSome then stopAxis a .stop s else s

/-! ### Position -/

/-- POS_LOST (R206, R212, R231, R274, R275): BAD_LIMIT bad samples in a row. -/
def posLostOp (a : Nat) (s : State) : State :=
  let l := s.loop a
  if l.posOk && decide (max 1 (s.fget F.STK_POS_CTL_BAD_LIMIT) ≤ l.badRun) then
    let s1 := s.setLoop a { l with posOk := false, init := false, expect := none }
    let s2 := (unlock a s1).raise F.STK_EVENTS_POS_LOST
    let s3 := endHoming a (loseRef a s2)
    let s4 := demandIf (!s.atRest a) (13 + a) s3
    if a = 0 then predict true s4 else s4
  else s

/-- The stroke loop's estimate of an axis now, in length units (R209, R214, R257, R271): its state brought from its last sample to this
instant, τ in ticks of a sample period of 3,200. -/
def State.estimate (s : State) (a : Nat) : Int :=
  let l := s.loop a
  let τ := s.rtime - l.ts
  roundHalfEven (2 * 3200 * 3200 * l.x + 2 * 3200 * l.v * τ + l.a * τ * τ) (2 * 3200 * 3200 * 65536)

/-! ### Orders -/

/-- The direction an order moves an axis in: +1, -1, or 0 where it moves nowhere. HOME first moves off an asserted switch in −S (R272). -/
def orderDir (s : State) (a : Nat) : NewOrder → Int
  | .order (.move p) => (p * unitP - (s.axis a).prof.p).sign
  | .order (.velocity v) => v.sign
  | .order _ => 0
  | .home => if s.flag (F.MOT_AX_CTL_HOME_DIR a) == s.flag (F.MOT_AX_STATUS_HOME a) then 1 else -1

/-- Whether a direction is shut to an axis: only the one away is open at a tripped limit (R270), and only the one back outside the envelope
after an ENV cause (R398) or outside the soft limits (R263). -/
def blockedDir (s : State) (a : Nat) (home : Bool) (d : Int) : Bool :=
  let p := roundHalfEven (s.axis a).prof.p unitP
  let lo := s.pos48 (F.MOT_AX_SOFT_MIN_LO_POS a) (F.MOT_AX_SOFT_MIN_HI_POS a)
  let hi := s.pos48 (F.MOT_AX_SOFT_MAX_LO_POS a) (F.MOT_AX_SOFT_MAX_HI_POS a)
  let held := (s.safAxis a).envHold
  let soft := s.ref a && !home
  (s.flag (F.MOT_AX_STATUS_LIM_POS a) && decide (0 ≤ d)) || (s.flag (F.MOT_AX_STATUS_LIM_NEG a) && decide (d ≤ 0))
    || (held && decide (s.pos48 (F.SAF_ENV_MAX_LO_POS a) (F.SAF_ENV_MAX_HI_POS a) < p ∧ 0 ≤ d))
    || (held && decide (p < s.pos48 (F.SAF_ENV_MIN_LO_POS a) (F.SAF_ENV_MIN_HI_POS a) ∧ d ≤ 0))
    || (soft && decide (hi < p ∧ 0 ≤ d)) || (soft && decide (p < lo ∧ d ≤ 0))

/-- Whether a MOVE's target lies outside the soft limits of a referenced axis (R263). -/
def moveOutside (s : State) (a : Nat) : NewOrder → Bool
  | .order (.move p) => s.ref a
      && decide (p < s.pos48 (F.MOT_AX_SOFT_MIN_LO_POS a) (F.MOT_AX_SOFT_MIN_HI_POS a)
        ∨ s.pos48 (F.MOT_AX_SOFT_MAX_LO_POS a) (F.MOT_AX_SOFT_MAX_HI_POS a) < p)
  | _ => false

/-- Whether an axis may take an order that moves it (R262, R263, R270); one backing off a limit does not home (log entry 116). -/
def mayTake (s : State) (a : Nat) (o : NewOrder) : Bool :=
  let home := o == .home
  s.drives a && !(home && s.axisState a == 6) && s.axisState a != 4 && s.saf.stop.isNone && !moveOutside s a o
    && !blockedDir s a home (orderDir s a o)

/-- An order refused (R262). -/
def cmdRefused (s : State) : State := s.raise F.MOT_EVENTS_CMD_REFUSED

/-- VEL_CLAMPED where a VELOCITY order taken, or held against a new VMAX, lies above VMAX (R260). -/
def noteClamp (a : Nat) (s : State) : State :=
  let x := s.axis a
  let above := match x.order with | .velocity v => decide (x.vmax < v.natAbs) | _ => false
  State.raiseIf (x.ordered && above) (F.MOT_AX_EVENTS_VEL_CLAMPED a) (s.setAxis a { x with ordered := false })

/-- A host order that moves an axis, for the next boundary (R262, R275). -/
def hostOrder (a : Nat) (o : NewOrder) (s : State) : State :=
  let x := s.axis a
  if s.coxState ≠ 0 ∨ x.next = some (.order .stop) ∨ !mayTake s a o then cmdRefused s else s.setAxis a { x with next := some o }

/-- MOVE (R262). -/
def moveOp (a : Nat) (s : State) : State :=
  hostOrder a (.order (.move (s.pos48 (F.MOT_AX_TARGET_LO_POS a) (F.MOT_AX_TARGET_HI_POS a)))) s

/-- VELOCITY (R262, R260). -/
def velocityOp (a : Nat) (s : State) : State := hostOrder a (.order (.velocity (s.sget (F.MOT_AX_JOG_V a)))) s

/-- STOP (R262, R268, R273, R275): always taken while the cox is IDLE. -/
def stopOp (a : Nat) (s : State) : State :=
  if s.coxState ≠ 0 then cmdRefused s
  else
    let x := s.axis a
    let s1 := match x.next with
      | some (.order .stop) => s
      | some _ => cmdRefused s
      | none => s
    s1.setAxis a { x with next := some (.order .stop) }

/-- HOME (R272, R274): the reference clears at its start. -/
def homeOp (a : Nat) (s : State) : State :=
  let s1 := hostOrder a .home s
  if (s1.axis a).next = some .home ∧ (s.axis a).next ≠ some .home then loseRef a s1 else s1

/-- CLEAR (R259, R270): an axis leaves FAULT for REST where it is then enabled, else for DISABLED with its set-point as it stands, unless a
cause of the fault still stands. -/
def clearOp (a : Nat) (s : State) : State :=
  let stands := s.flag (F.MOT_AX_STATUS_LIM_POS a) || s.flag (F.MOT_AX_STATUS_LIM_NEG a) || s.flag (F.MOT_AX_STATUS_DRV_FAULT a)
    || decide (max 1 (s.fget F.MOT_DRV_CTL_STS_LIMIT) ≤ (s.axis a).badRun)
  if s.axisState a = 6 ∧ !stands then
    let s1 := refreshEnable a ((setAxisState a 0 s).clear (F.MOT_AX_STATUS_FAULT a))
    if s1.enabled a then s1
    else
      let x := s1.axis a
      s1.setAxis a { x with prof := { p := x.sp.pos * unitP, v := 0, a := 0 }, order := .hold, next := none }
  else s

/-- AXIS_POWER_WRITE (R274): POWER written; 0 on a moving axis first stops it. -/
def axisPowerOp (a : Nat) (on : Bool) (s : State) : State :=
  let s1 := s.fset (F.MOT_AX_CTL_POWER a) (bitOf on)
  if !on && (s.axis a).moving then stopAxis a .stop (if s.axisState a = 4 then endTable true s1 else s1) else s1

/-- A(V) of ADIST_V in nm under the limits in force, rounded up; above VMAX the distance to VMAX (R261). -/
def State.adist (s : State) (a : Nat) : Nat :=
  let x := s.axis a
  let nm := match runUp (x.limits s.mot.period) (min (s.fget (F.MOT_AX_ADIST_V_V a)) x.vmax * unitV) with
    | some d => (-((-d) / (1024 * unitP))).toNat
    | none => 2 ^ 32 - 1
  min nm (2 ^ 32 - 1)

/-- ADIST_QUERY (R261): V written; MOT_AX_ADIST then reads as its A(V). -/
def adistOp (a v : Nat) (s : State) : State := s.fset (F.MOT_AX_ADIST_V_V a) v

/-- SERVO_PERIOD_WRITE (R254): refused while a course runs or an axis is not at rest; in force from the next boundary. -/
def servoPeriodOp (v : Nat) (s : State) : State :=
  if s.running.isSome || !s.atRest 0 || !s.atRest 1 then s.raise F.MOT_EVENTS_SERVO_REFUSED
  else s.fset F.MOT_SERVO_PERIOD (max 10 (min 100 v))

/-! ### Driver status -/

/-- The CRC of a status word (R258). -/
def statusCrcOk (w : Word) : Bool := crc8 (leBytes 3 w.toNat) == BitVec.ofNat 8 (bits 24 8 w.toNat)

/-- A bad status word (R258). -/
def badStatus (a : Nat) (s : State) : State :=
  let x := s.axis a
  (s.setAxis a { x with awaiting := none, badRun := x.badRun + 1 }).bump (F.MOT_AX_DRV_BAD_COUNT a)

/-- STATUS_WORD (R258, R274, R391): the word that answers an axis's frame; a late one is bad, and one that nothing awaits is ignored. -/
def statusWordOp (a : Nat) (w : Word) (s : State) : State :=
  let x := s.axis a
  match x.awaiting with
  | none => s
  | some (q, due) =>
    let n := w.toNat
    if decide (due < s.clock) || !statusCrcOk w || bits 3 1 n != a || bits 4 4 n != q then badStatus a s
    else
      let ready := bitAt 0 n
      let power := bitAt 1 n
      let fault := bitAt 2 n
      let s1 := s.setAxis a { x with awaiting := none, badRun := 0 }
      let s2 := s1.setSafAxis a { s1.safAxis a with wordAt := some s.clock }
      let s3 := ((s2.fset (F.MOT_AX_STATUS_DRV_READY a) (bitOf ready)).fset (F.MOT_AX_STATUS_DRV_POWER a) (bitOf power)).fset
        (F.MOT_AX_STATUS_DRV_FAULT a) (bitOf fault)
      let lost := !power && !s.atRest a
      let s4 := if lost then requestHalt 11 false (faultAxis a 6 (loseRef a s3)) else s3
      let s5 := if fault then (faultAxis a 5 s4).raise (F.MOT_AX_EVENTS_DRIVER a) else s4
      demandIf fault (17 + a) (refreshEnable a s5)

/-- STATUS_WORD_MISSING (R258): 5 µs have passed since the frame. -/
def statusMissingOp (a : Nat) (s : State) : State :=
  match (s.axis a).awaiting with
  | some (_, due) => badStatus a (s.until due)
  | none => s

/-- DRIVER_LOST (R258): STS_LIMIT bad words in a row. -/
def driverLostOp (a : Nat) (s : State) : State :=
  if max 1 (s.fget F.MOT_DRV_CTL_STS_LIMIT) ≤ (s.axis a).badRun then (faultAxis a 4 s).raise (F.MOT_AX_EVENTS_DRIVER a) else s

/-! ### Tables -/

/-- The byte address that stands here for a point's 32 bytes in the segment store (R266, R316): the spec gives the store none (log entry
109). -/
def segmentAt (i : Nat) : Nat := 0x2000000 + 32 * i

/-- The 32 bytes of a point (R265). -/
def Point.bytes (q : Point) : List Byte :=
  leBytes 6 (unsignedOf 48 q.x) ++ leBytes 2 q.dt ++ leBytes 4 (unsignedOf 32 q.vx) ++ leBytes 4 (unsignedOf 32 q.vy)
    ++ leBytes 6 (unsignedOf 48 q.y) ++ leBytes 10 0

/-- A data bit of a byte of the segment store inverted, as a miscorrection does (R316, R317). -/
def flipSegment (off d : Nat) (s : State) : State :=
  let bend := fun (q : Point) =>
    let bs := q.bytes
    (readPoint (bs.set (off % 32) (bs.getD (off % 32) 0#8 ^^^ BitVec.ofNat 8 (2 ^ d)))).1
  { s with mot := { s.mot with store := ((List.range s.mot.store.length).zip s.mot.store).map (fun p =>
    if p.1 = off / 32 then bend p.2 else p.2) } }

/-- One byte of the segment store read (R316 to R318): whether it can be read, with a correction written back. -/
def readSegment (a : Nat) (p : Bool × State) : Bool × State :=
  match byteClass (sparseGet (fun _ => 0) a p.2.mem.flips) with
  | .clean => p
  | .uncorrectable => (false, p.2)
  | .corrected d =>
    let s1 := { p.2 with mem := { p.2.mem with flips := sparsePut (fun _ => 0) a 0 p.2.mem.flips } }
    let s2 := (s1.bump F.SRM_CE_COUNT_COUNT).raise F.SRM_EVENTS_CE
    (p.1, match d with | some b => flipSegment (a - segmentAt 0) b s2 | none => s2)

/-- The points of a segment read from the store (R267, R316). -/
def readSegments (lo hi : Nat) (s : State) : Bool × State :=
  ((s.mem.flips.map Prod.fst).filter (fun a => decide (segmentAt lo ≤ a ∧ a < segmentAt hi))).foldl (fun p a => readSegment a p) (true, s)

/-- A table refused (R266). -/
def tableError (code : Nat) (s : State) : State := (s.fset F.MOT_TBL_STATUS_ERROR code).raise F.MOT_EVENTS_TBL_REFUSED

/-- TBL_LOAD (R262, R266): the copy begins. -/
def tblLoadOp (s : State) : State :=
  if s.coxState ≠ 0 then cmdRefused s
  else if s.flag F.MOT_TBL_STATUS_RUNNING then tableError 7 s
  else { s.clear F.MOT_TBL_STATUS_LOADED with mot := { s.mot with loading := true } }

/-- Whether a point's velocity lies above VMAX of its axis (R266). -/
def pointFast (s : State) (a : Nat) (q : Point) : Bool := decide ((s.axis a).vmax * 32768 < (q.on a).2.natAbs * 125)

/-- Whether a point lies outside the soft limits of a referenced axis (R266). -/
def pointOut (s : State) (a : Nat) (q : Point) : Bool := moveOutside s a (.order (.move (q.on a).1))

/-- The first reason to refuse a table, in the order of R266; none where it passes, with its points. -/
def tableCheck (s : State) : Option Nat × List Point :=
  let n := s.fget F.MOT_TBL_COUNT_COUNT
  let base := s.pair F.MOT_TBL_BASE_LO_ADDR F.MOT_TBL_BASE_HI_ADDR
  if n < 2 ∨ 4096 < n ∨ base % 32 ≠ 0 then (some 1, [])
  else if hbmSize < base + 32 * n ∨ s.hbmBad 13 base (32 * n) then (some 6, [])
  else
    let rs := (List.range n).map (fun i => readPoint (s.readBytes (base + 32 * i) 32))
    let ps := rs.map Prod.fst
    let dts := ps.map Point.dt
    (if dts.headD 0 ≠ 0 ∨ dts.tail.any (fun d => d == 0) then some 2
      else if rs.any Prod.snd then some 3
      else if ps.any (fun q => pointFast s 0 q || pointFast s 1 q) then some 4
      else if ps.any (fun q => pointOut s 0 q || pointOut s 1 q) then some 5
      else none, ps)

/-- TBL_LOAD_DONE (R266). -/
def tblLoadDoneOp (s : State) : State :=
  if !s.mot.loading then s
  else
    let s0 := { s with mot := { s.mot with loading := false } }
    let (err, ps) := tableCheck s
    let n := s.fget F.MOT_TBL_COUNT_COUNT
    let s1 := if err = some 1 then s0
      else readHbm 13 (s.pair F.MOT_TBL_BASE_LO_ADDR F.MOT_TBL_BASE_HI_ADDR) (32 * n) s0
    match err with
    | some code => tableError code s1
    | none =>
      let s2 := freshTable (fun x => decide (segmentAt 0 ≤ x)) { s1 with mot := { s1.mot with store := ps } }
      (s2.fset F.MOT_TBL_STATUS_ERROR 0).raise F.MOT_TBL_STATUS_LOADED

/-- Whether a stop of SF-STAGE is in progress: it overrides every order and table (R395). -/
def State.stageStopping (s : State) : Bool :=
  match s.saf.stop with
  | some st => st.begun.isSome
  | none => false

/-- The order of an axis in a table ends with the blend to it (R268): the table alone moves it then. -/
def dropOrder (a : Nat) (s : State) : State :=
  let x := s.axis a
  s.setAxis a { x with order := .hold, prof := { x.prof with v := 0, a := 0 } }

/-- TBL_RUN (R262, R266, R268): the table's clock starts. A homing sequence ends with it (log entry 115). -/
def tblRunOp (s : State) : State :=
  if s.coxState ≠ 0 then cmdRefused s
  else if s.flag F.MOT_TBL_STATUS_RUNNING then tableError 7 s
  else if !s.flag F.MOT_TBL_STATUS_LOADED || !s.enabled 0 || !s.enabled 1 || s.stageStopping then tableError 8 s
  else
    let n := s.fget F.MOT_TBL_BLEND_N
    let enter := fun (u : State) (a : Nat) =>
      let v := setAxisState a 4 (u.setAxis a { u.axis a with homing := none })
      if n = 0 then dropOrder a v else v
    let s1 := [0, 1].foldl enter s
    let s2 := ((s1.raise F.MOT_TBL_STATUS_RUNNING).fset F.MOT_TBL_STATUS_BLENDING (bitOf (n != 0))).fset F.MOT_TBL_STATUS_POINT 1
    { s2 with mot := { s2.mot with
      table := some { ticks := 0 }, blend := if n = 0 then none else some { b := 0, n := n, toTable := true } } }

/-- TBL_ABORT (R262, R268). -/
def tblAbortOp (s : State) : State := if s.coxState ≠ 0 then cmdRefused s else endTable true s

/-! ### Inputs and homing -/

/-- An input of an axis: 0 the positive limit, 1 the negative limit, 2 HOME. -/
def Axis.input (x : Axis) (i : Nat) : Debounced := if i = 0 then x.limPos else if i = 1 then x.limNeg else x.home

/-- An input replaced. -/
def Axis.setInput (x : Axis) (i : Nat) (d : Debounced) : Axis :=
  if i = 0 then { x with limPos := d } else if i = 1 then { x with limNeg := d } else { x with home := d }

/-- Whether the sense of an input pair is inverted (R269). -/
def State.inverted (s : State) (a i : Nat) : Bool :=
  s.flag (if i = 2 then F.MOT_AX_CTL_HOME_INV a else F.MOT_AX_CTL_LIM_INV a)

/-- INPUT_EDGE (R269): a raw edge to a land level. -/
def inputEdgeOp (a i : Nat) (level : Bool) (s : State) : State :=
  let x := s.axis a
  let d := x.input i
  if d.raw = level then s
  else
    let eff := level != s.inverted a i
    let since := if eff = d.level then none else some s.clock
    let s1 := s.setAxis a (x.setInput i { d with raw := level, since := since })
    if d.since.isSome then
      (s1.bump (if i = 2 then F.MOT_AX_CHATTER_HOME a else F.MOT_AX_CHATTER_LIMIT a)).raise (F.MOT_AX_EVENTS_CHATTER a)
    else s1

/-- An inversion bit has been written: the levels are looked at again (R269). -/
def recheckInputs (a : Nat) (s : State) : State :=
  [0, 1, 2].foldl (fun u i =>
    let x := u.axis a
    let d := x.input i
    let eff := d.raw != u.inverted a i
    u.setAxis a (x.setInput i { d with since := if eff = d.level then none else match d.since with
      | some t => some t
      | none => some u.clock })) s

/-- A filtered input takes the level it has held for DEBOUNCE (R269): the state with the clock moved on, or none where no change is
pending to that level. -/
def filtered (a i : Nat) (level : Bool) (s : State) : Option State :=
  let x := s.axis a
  let d := x.input i
  match d.since with
  | some t =>
    if d.level = level then none
    else
      let s1 := s.until (t + s.fget (F.MOT_AX_DEBOUNCE_US a) * ticksPerUs)
      some (s1.setAxis a (x.setInput i { d with level := level, since := none }))
  | none => none

/-- The status bit of a limit. -/
def limBit (a i : Nat) : Fld := if i = 0 then F.MOT_AX_STATUS_LIM_POS a else F.MOT_AX_STATUS_LIM_NEG a

/-- A homing order: the velocity of a phase along S. -/
def homeOrder (s : State) (a : Nat) (h : Homing) : AxisOrder :=
  let vel : Int := s.fget (F.MOT_AX_HOME_VEL_V a)
  let creep : Int := s.fget (F.MOT_AX_HOME_CREEP_V a)
  let d : Int := if h.neg then -1 else 1
  match h.phase with
  | .clearing => .velocity (-d * vel)
  | .search => .velocity (d * vel)
  | .creep => .velocity (d * creep)
  | _ => .stop

/-- A homing sequence moved to a phase. -/
def setPhase (a : Nat) (h : Homing) (s : State) : State :=
  s.setAxis a { s.axis a with homing := some h, order := homeOrder s a h }

/-- LIMIT_TRIP (R270, R273, R391). -/
def limitTripOp (a i : Nat) (s : State) : State :=
  match filtered a i true s with
  | none => s
  | some s0 =>
    let s1 := (((s0.raise (limBit a i)).raise (F.MOT_AX_STATUS_AWAY_ONLY a)).bump (F.MOT_AX_LIM_TRIPS_COUNT a)).raise
      (F.MOT_AX_EVENTS_LIMIT_TRIP a)
    let quick := s.flag (F.MOT_AX_CTL_STOP_MODE a)
    let o := s.stopOrder (if quick then .quick else .stop)
    let s2 := endTable false s1
    let x := s2.axis a
    let s3 := match x.homing with
      | some h =>
        if h.trips = 0 then
          (s2.setAxis a { x with order := o, next := none, homing := some { h with phase := .reversing, trips := 1 } }).raise
            (F.MOT_AX_EVENTS_REVERSED a)
        else ((faultAxis a 2 s2).setAxis a { x with order := o, next := none, homing := none }).raise (F.MOT_AX_EVENTS_HOME_FAIL a)
      | none => (faultAxis a 1 s2).setAxis a { x with order := o, next := none }
    let s4 := requestHalt 11 false s3
    demandIf (s.ref a && x.homing.isNone) (15 + a) s4

/-- LIMIT_CLEAR (R270): the filtered level returns. -/
def limitClearOp (a i : Nat) (s : State) : State :=
  match filtered a i false s with
  | none => s
  | some s0 =>
    let s1 := s0.clear (limBit a i)
    if s1.flag (limBit a (1 - i)) then s1 else s1.clear (F.MOT_AX_STATUS_AWAY_ONLY a)

/-- HOME_CHANGE (R269, R272): the filtered level of HOME changes and the homing sequence goes on. -/
def homeChangeOp (a : Nat) (s : State) : State :=
  let up := !((s.axis a).home).level
  match filtered a 2 up s with
  | none => s
  | some s0 =>
    let s1 := s0.fset (F.MOT_AX_STATUS_HOME a) (bitOf up)
    let x := s1.axis a
    match x.homing with
    | none => s1
    | some h =>
      let along := if h.neg then -x.prof.v else x.prof.v
      match h.phase, up with
      | .clearing, false => setPhase a { h with phase := .clearStop } s1
      | .search, true =>
        if along < 0 then setPhase a { h with phase := .clearing } s1
        else setPhase a { h with phase := .creep, from4 := roundHalfEven x.prof.p unitP } s1
      | _, _ => s1

/-- INDEX_EDGE (R269, R271, R272): an edge to a level of the index land; the first that rises, under IDX_INV, while the index is armed
latches the estimate of this instant. -/
def indexEdgeOp (a : Nat) (level : Bool) (s0 : State) : State :=
  let rises := (s0.axis a).index != level && level != s0.flag (F.MOT_AX_CTL_IDX_INV a)
  let s := s0.setAxis a { s0.axis a with index := level }
  match (s.axis a).homing with
  | some h =>
    if rises ∧ h.phase = .creep then
      let p := unsignedOf 48 (s.estimate a)
      let s1 := (s.setReg (R.MOT_AX_INDEX_POS_LO a) (BitVec.ofNat 32 p)).fset (F.MOT_AX_INDEX_POS_HI_POS a) (p / 2 ^ 32)
      ((stopAxis a .stop s1).raise (F.MOT_AX_STATUS_REF a)).raise (F.MOT_AX_EVENTS_HOMED a)
    else s
  | none => s

end Sys2Proof.Machine
end

