-- ==== Sys2Proof/Machine/Cox.lean ====
section
/-! DEFINITION. The cox (R232 to R253), the beam permit with its line test (R392, R400), and what every servo boundary does (R232, R254 to
R275, R395 to R397). -/

namespace Sys2Proof.Machine

/-! ### The beam permit -/

/-- Whether the beam may be permitted (R392). -/
def State.mayPermit (s : State) : Bool :=
  !s.demanded && !s.flag F.SAF_CTL_INHIBIT && !s.harbour && s.saf.startupOk && s.cox.tested && (s.coxState == 2 || s.coxState == 3)

/-- The permit brought up to date (R392): where the cox has left RUNUP or WRITING the lines wait for the last gate train. -/
def updatePermit (s : State) : State :=
  if s.mayPermit then
    let s1 := if s.flag F.SAF_STATUS_BEAM_PERMIT then s else { s with saf := { s.saf with permitAt := some s.clock } }
    driveLines true true (s1.raise F.SAF_STATUS_BEAM_PERMIT)
  else if s.demanded || s.flag F.SAF_CTL_INHIBIT || s.harbour then assertLines s
  else s.clear F.SAF_STATUS_BEAM_PERMIT

/-- INHIBIT_DELAY_END (R392): 1 µs after the last gate train the lines are asserted. -/
def inhibitDelayOp (s : State) : State :=
  if s.flag F.SAF_STATUS_BEAM_PERMIT || s.saf.lineStep.isSome || s.saf.testing.isSome then s
  else
    let s1 := match s.saf.trainEnd with | some t => s.untilR (t + ticksPerUs) | none => s
    driveLines false false s1

/-- LINE_TEST_STEP_END (R400): the first step has A released alone, the second B; after the second the run-up is permitted. -/
def lineTestOp (ok : Bool) (s : State) : State :=
  match s.saf.lineStep with
  | none => s
  | some k =>
    let s0 := s.after ticksPerUs
    let s1 := { s0 with saf := { s0.saf with lineStep := none } }
    if s1.demanded || (s1.coxState != 2 && s1.coxState != 3) then driveLines false false s1
    else if !ok then diagFail 2 (driveLines false false s1)
    else if k = 0 then { driveLines false true s1 with saf := { s1.saf with lineStep := some 1 } }
    else
      let s2 := driveLines false false s1
      updatePermit { s2 with cox := { s2.cox with tested := true } }

/-! ### The governor -/

/-- Vcap of R234: one pixel per T_min. -/
def vcapOf (s : State) : Nat := s.shape.pitch * 62500 / s.tmin

/-- Vtop of R234. -/
def vtopOf (s : State) : Nat := min (s.gov F.COX_VMAX_V) (vcapOf s * 1024 / (1024 + s.gov F.COX_MARGIN_CAP))

/-- Vm of R234. -/
def vmOf (s : State) : Nat := min (s.gov F.COX_VMIN_RUN_V) (vtopOf s)

/-- Vt of R234. -/
def vtOf (s : State) : Nat :=
  if s.flag F.COX_STATUS_DERATED then vtopOf s * s.gov F.COX_TEMP_DERATE_F / 256 else vtopOf s

/-- Vl of R234. -/
def vlOf (s : State) (l : Nat) : Nat :=
  let target := s.gov F.COX_LEAD_TARGET_PX
  let floor := s.gov F.COX_LEAD_FLOOR_PX
  if target ≤ l then vtopOf s
  else if floor ≤ l then vmOf s + (vtopOf s - vmOf s) * (l - floor) / (target - floor)
  else vmOf s

/-- Vn of R234 for the longest round trip R in ns. -/
def vnOf (s : State) (r : Nat) : Nat :=
  if r = 0 then vtopOf s
  else
    let d := s.gov F.STK_DEPTH_DEPTH
    let pn := ((r + s.gov F.STK_COMMIT_LEAD + s.gov F.COX_RTT_GUARD_NS) * 64 + d - 1) / d
    if s.tmin < pn then s.shape.pitch * 62500 / pn else vtopOf s

/-- Ts of R234, in ticks. -/
def softThreshold (s : State) : Nat := (s.tmin * (1024 + s.gov F.COX_MARGIN_SOFT) + 1023) / 1024

/-- What the governor law gives (R234): Vcmd, the limiter's code, and whether the soft threshold tripped. -/
def governorLaw (s : State) (l pmin r vprev : Nat) : Nat × Nat × Bool :=
  let vtop := vtopOf s
  let vm := vmOf s
  let vl := vlOf s l
  let vt := vtOf s
  let vn := vnOf s r
  let soft := decide (pmin < softThreshold s)
  let vs := if soft then vprev - s.gov F.COX_DROP_V else vtop
  let low := min vtop (min vl (min vt (min vn vs)))
  let vg := max vm low
  let vcmd := min vg (vprev + s.gov F.COX_UP_STEP_V)
  let lim := if vcmd < vg then 5 else if low < vm then 6 else if low = vtop then 0
    else if vl = low then 1 else if vt = low then 2 else if vn = low then 3 else 4
  (vcmd, lim, soft)

/-- All ones of R215. -/
def noPeriod : Nat := 2 ^ 32 - 1

/-- The predicted period of R215. -/
def State.predicted (s : State) : Nat :=
  match s.stk.pred, s.beforeCatch with
  | some t, some p => if (s.coxState == 2 || s.coxState == 3) && s.armed && !s.stk.halted then (t - p).toNat else noPeriod
  | _, _ => noPeriod

/-! ### Orders to the axes -/

/-- An order of the cox, taken at this boundary (R232, R262). -/
def coxOrder (a : Nat) (o : AxisOrder) (s : State) : State :=
  if mayTake s a (.order o) then
    moveState a 2 (s.setAxis a { s.axis a with order := o, ordered := true, next := none, homing := none })
  else cmdRefused s

/-- The sign of travel of the running course. -/
def State.travel (s : State) : Int := match s.running with | some e => e.sgn | none => 1

/-- The velocity commanded (R232). -/
def command (v : Nat) (s : State) : State :=
  let s1 := { s.fset F.COX_VCMD_V v with cox := { s.cox with vprev := v } }
  coxOrder 0 (.velocity (s.travel * v)) s1

/-- min(Pp, Pm) at this boundary (R233). -/
def State.shortest (s : State) : Nat := min s.predicted (s.stk.periodMin.getD noPeriod)

/-- RAISE_OK and the soft threshold at a boundary in WRITING (R234, R235), whatever the cox does at it. -/
def soften (s : State) : State :=
  let s1 := if decide (s.gov F.COX_LEAD_TARGET_PX ≤ s.leadL) then s.raise F.COX_STATUS_RAISE_OK else s
  let soft := s1.flag F.COX_STATUS_RAISE_OK && decide (s1.shortest < softThreshold s1)
  let s2 := s1.fset F.COX_STATUS_SOFT (bitOf soft)
  if soft then (s2.bump F.COX_SOFT_TRIPS_COUNT).raise F.COX_EVENTS_SOFT else s2

/-- The velocity of R234 and R235 at a boundary in WRITING. -/
def govern (s : State) : State :=
  if s.flag F.COX_STATUS_RAISE_OK then
    let (v, lim, _) := governorLaw s s.leadL s.shortest s.stk.rttMax s.cox.vprev
    command v ((s.fset F.COX_STATUS_LIMITER lim).fset F.COX_VTOP_V (vtopOf s))
  else command (vmOf s) (s.fset F.COX_STATUS_LIMITER 7)

/-! ### Halts, abandonment and the end -/

/-- The state of the cox set. -/
def setCox (st : Nat) (s : State) : State := s.fset F.COX_STATUS_STATE st

/-- A course is abandoned (R249): 1 PAUSE_LIMIT, 2 RECATCH_LIMIT, 3 SAME_LIMIT, 4 REF_LOST, 5 NO_ROOM. -/
def abandon (r : Nat) (s : State) : State :=
  if s.running.isNone || s.cox.ending.isSome then s
  else
    let s1 := ((s.fset F.COX_ABANDON_REASON r).raise F.COX_ABANDON_VALID).raise F.COX_EVENTS_ABANDONED
    endEarly 2 none (setCox 4 (stopAxis 0 .stop s1))

/-- COX_HALT (R252): HOLD is set and a halt requested with reason HOST. -/
def coxHaltOp (s : State) : State :=
  let s1 := s.raise F.COX_CTL_HOLD
  if s1.haltable then coxRequest 4 s1 else s1

/-- A pause has reached a limit in ms: the clock moved on to it. -/
def pauseReach (ms : Nat) (s : State) : State :=
  match s.cox.pauseFrom with
  | some t => s.until (t + ms * ticksPerMs)
  | none => s

/-- PAUSE_WARN (R248). -/
def pauseWarnOp (s : State) : State :=
  let lim := s.gov F.COX_PAUSE_WARN_MS
  if s.cox.pauseFrom.isNone || lim == 0 || s.cox.warned then s
  else
    let s1 := (pauseReach lim s).raise F.COX_EVENTS_PAUSE_WARN
    { s1 with cox := { s1.cox with warned := true } }

/-- PAUSE_LIMIT (R248, R252). -/
def pauseLimitOp (s : State) : State :=
  let lim := s.gov F.COX_PAUSE_LIMIT_MS
  if s.cox.pauseFrom.isNone || lim == 0 || s.cox.limited then s
  else
    let s1 := (pauseReach lim s).raise F.COX_EVENTS_PAUSE_LIMIT
    let s2 := { s1 with cox := { s1.cox with limited := true } }
    if s2.govFlag F.COX_CTL_PAUSE_ACTION then s2 else abandon 1 s2

/-- The halt request that the supply warning makes (R239). -/
def supplyHalt (s : State) : State :=
  let st := s.coxState
  let told := s.stk.halted && bitAt 1 (s.fget F.COX_REASON_REASONS)
  if s.flag F.PWR_STATUS_SUPPLY_WARN && (st == 1 || st == 2 || st == 3) && s.haltable && !told then
    coxRequest 1 (s.raise F.COX_EVENTS_SUPPLY)
  else s

/-- SUPPLY_HOLD_END (R239): the condition has been clear for COX_SUPPLY_HOLD. -/
def supplyHoldOp (s : State) : State :=
  match s.cox.supplyClear with
  | none => s
  | some t =>
    let s1 := s.until (t + s.gov F.COX_SUPPLY_HOLD_US * ticksPerUs)
    { s1.clear F.COX_STATUS_SUPPLY_WARN with cox := { s1.cox with supplyClear := none } }

/-- The cox comes to rest in IDLE (R241, R251): a course that ended early signs off here. -/
def coxIdle (s : State) : State :=
  let early := s.cox.ending.isSome
  let s1 := (setCox 0 s).setReg R.COX_RESUME_WAIT 0#32
  let s2 := { s1 with
    stk := { s1.stk with halted := false, pred := none }
    cox := { s1.cox with ending := none, pauseFrom := none, tested := false, flushDue := false } }
  let s3 := updatePermit (lanesReady s2)
  State.raiseIf early F.ING_EVENTS_COURSE_END s3

/-! ### The re-catch -/

/-- The run-up point of stroke m at velocity v (R243): X_m − sgn × (A + B + C); none where the limits never reach v. -/
def runPoint (s : State) (e : Entry) (m v : Nat) : Option Int :=
  (runUp (s.mot.x.limits s.mot.period) (min v s.mot.x.vmax * unitV)).map (fun d =>
    strokeX s e m - e.sgn * (roundHalfEven d unitP + roundHalfEven (v * s.gov F.COX_SETTLE_US * 128) 125
      + s.gov F.COX_RETREAT_MARGIN_UM * 1024000))

/-- Whether a point lies inside the soft limits of a referenced axis (R263). -/
def insideSoft (s : State) (a : Nat) (p : Int) : Bool := !moveOutside s a (.order (.move p))

/-- V_r and X_r (R243): the velocity halved until the point lies inside the soft limits, with the count of halvings; none where there is
no room at Vm. `n` bounds the halvings. -/
def resumePoint (s : State) (e : Entry) (m vm : Nat) : Nat → Nat → Nat → Option (Nat × Int) × Nat
  | 0, _, k => (none, k)
  | n + 1, v, k =>
    match runPoint s e m v with
    | some p =>
      if insideSoft s 0 p then (some (v, p), k)
      else if v ≤ vm then (none, k)
      else resumePoint s e m vm n (max vm (v / 2)) (k + 1)
    | none => (none, k)

/-- The end of STOPPING (R241 to R243): the halt is complete, and the stage moves back to the re-approach point. -/
def leaveStopping (e : Entry) (s : State) : State :=
  let s1 := completeHalt s
  let m := s1.cox.resume
  let vm := vmOf s1
  let (r, k) := resumePoint s1 e m vm 25 (min s1.mot.x.vmax (max vm (min (s1.gov F.COX_VRESUME_V) (vtOf s1)))) 0
  let s2 := State.raiseIf (decide (0 < k)) F.COX_EVENTS_RETREAT_SHORT s1
  match r with
  | none => abandon 5 s2
  | some (v, x) =>
    coxOrder 0 (.move x) { setCox 5 s2 with cox := { s2.cox with vr := v, xr := x } }

/-- Whether an axis is at rest at a position (R241). -/
def restsAt (s : State) (a : Nat) (p : Int) : Bool := s.atRest a && (s.axis a).prof.stopped && (s.axis a).now.pos == p

/-- Whether Y is at rest, as the stage must be for a resume (R245). -/
def yRests (s : State) : Bool := s.atRest 1 && s.mot.y.prof.stopped

/-- Whether the frames of the strokes from n on are sent and acknowledged (R245 FRAMES). -/
def framesReady (s : State) (n : Nat) : Bool :=
  let last := min (n + s.gov F.STK_DEPTH_DEPTH - 1) s.lastStroke
  (List.range (last + 1 - n)).all (fun i => (List.range s.shape.beamLanes).all (fun b =>
    s.bln.frames.any (fun f => f.head.beamLane == b && f.head.stroke == n + i && f.sentOn.isSome && f.acked
      && f.head.gen == s.bln.gen)))

/-- Whether the integrity unit permits a resume (R288). -/
def State.resumePermitted (s : State) : Bool :=
  s.int.loss.isNone && !s.ras.notes.any TileNote.holdsResume

/-- Whether the regatta permits a resume at this boundary (R363, R367). -/
def State.regattaReady (s : State) : Bool :=
  !s.govFlag F.STR_CTL_ENABLE || (s.timeLocked && (s.gov F.STR_GROUP_SIZE_N == 1
    || (match s.str.fixed with | some t => decide (t ≤ s.rtime) | none => false)))

/-- The unmet conditions of R245 for stroke n, with the axes' targets; a BAD word in service holds a start too (R319). -/
def unmet (s : State) (n : Nat) (atTarget : Bool) : Nat :=
  let reasons := s.fget F.COX_REASON_REASONS
  let hot := s.bln.temp.isSome && decide (s.tempLevel F.COX_TEMP_HARD_T ≤ (s.bln.temp.map Prod.fst).getD 0)
  let bad : List Bool := [
    s.flag F.COX_CTL_HOLD,
    !(decide (s.gov F.COX_LEAD_TARGET_PX ≤ s.leadL) || s.frontUnbounded),
    !framesReady s n,
    decide (s.echoLocked < s.gov F.BLN_CTL_ECHO_MIN) || !s.bln.marked.isEmpty,
    !(s.stk.loopX.posOk && s.stk.loopY.posOk && s.ref 0 && s.ref 1),
    ((bitAt 2 reasons || bitAt 3 reasons) && s.flag F.COX_STATUS_DERATED) || hot,
    s.flag F.COX_STATUS_SUPPLY_WARN,
    !s.resumePermitted || (s.coxState == 1 && s.badInService),
    s.demanded || s.lockOpen,
    !s.regattaReady,
    !(atTarget && s.enabled 0 && s.enabled 1)]
  ((List.range 11).zip bad).foldl (fun n p => n + bitOf p.2 * 2 ^ p.1) 0

/-- The first servo boundary at or after an instant of regatta time (R254). -/
def boundaryFrom (s : State) (t : Int) : Int :=
  let p : Int := s.mot.period * 64000
  let q := (-t) / p
  0 - q * p

/-- The device's READY is broadcast once every other row holds, and the resume boundary fixed once the group's are held (R367). -/
def offerReady (others : Bool) (s : State) : State :=
  if !others || !s.govFlag F.STR_CTL_ENABLE || s.gov F.STR_GROUP_SIZE_N == 1 then s
  else
    let s1 := if s.str.own.isSome then s
      else
        let p := boundaryFrom s (s.rtime + s.gov F.STR_RESUME_LEAD_US * ticksPerUs)
        let (q, u) := s.nextSeq 5
        let v := sendTree (ownPacket u 5 2 true 0 q u.courseIds.2 (p % 2 ^ 64).toNat []) none u
        { v with str := { v.str with own := some p } }
    fixResume s1

/-- The run-up begins (R241, R244, R250), with the line test of R400. -/
def beginRunUp (v : Nat) (s : State) : State :=
  let s1 := setCox 2 (s.setReg R.COX_RESUME_WAIT 0#32)
  let s2 := { s1 with
    cox := { s1.cox with tested := false }
    saf := { s1.saf with lineStep := some 0 }
    str := { s1.str with readys := [], own := none, fixed := none } }
  driveLines true false (command v (s2.clear F.STR_STATUS_RESUME_FIXED))

/-- The pause of a halt ends (R248). -/
def endPause (s : State) : Nat × State :=
  match s.cox.pauseFrom with
  | none => (0, s)
  | some t =>
    let p := (s.clock - t).toNat
    let ms := p / ticksPerMs
    let s1 := (s.raiseTo F.COX_PAUSE_MAX_MS ms).add F.COX_PAUSE_TOTAL_MS ms
    (p / ticksPerUs, { s1 with cox := { s1.cox with pauseFrom := none } })

/-- The resume at stroke m (R244). -/
def resume (s : State) : State :=
  let m := s.cox.resume
  let (us, s1) := endPause s
  let s2 := { (s1.fset F.STK_HALT_CAUSE_CAUSES 0).raise F.COX_EVENTS_RESUMED with stk := { s1.stk with halted := false } }
  let s3 := journalRun 5 (m % 2 ^ 25 + s2.bln.gen * 2 ^ 25) (min us (2 ^ 32 - 1)) false s2
  beginRunUp s3.cox.vr (courseEvent 3 m 0 s3)

/-- R245 checked for stroke n: COX_RESUME_WAIT, the READY of R367, and the start or resume where every row holds. -/
def checkResume (n : Nat) (atTarget : Bool) (go : State → State) (s : State) : State :=
  let u := unmet s n atTarget
  let s1 := offerReady (u == 0 || u == 512) s
  let u1 := unmet s1 n atTarget
  if u1 = 0 then go s1 else s1.fset F.COX_RESUME_WAIT_UNMET u1

/-- The order STOP to X and the state that comes to rest with it (R241). -/
def coxStop (st : Nat) (s : State) : State := updatePermit (setCox st (stopAxis 0 .stop s))

/-- A course that has ended is brought to rest (R241, R251): RUNOUT after LAST, STOPPING after an early end, and IDLE at rest. -/
def coxRunOut (rest : Bool) (s : State) : State :=
  match s.coxState with
  | 0 => s
  | 4 | 7 => if rest then coxIdle s else s
  | _ => coxStop (if s.cox.ending.isSome then 4 else 7) s

/-- A fault has stopped the split again before the resume (R286, R302, log entry 114): once the integrity unit permits it, the frames are
flushed and split anew from m. -/
def splitAgain (s : State) : State :=
  if s.crw.stop && !s.cox.flushDue && s.resumePermitted && !s.badInService then releaseSide (flushHalt s) else s

/-- The state machine of R241 at a boundary. -/
def coxMachine (s0 : State) : State :=
  let st := s0.coxState
  let s := if st = 3 ∧ s0.running.isSome then soften s0 else s0.clear F.COX_STATUS_SOFT
  let rest := s.atRest 0 && s.mot.x.prof.stopped
  match s.running with
  | none => coxRunOut rest s
  | some e =>
    if s.cox.ending.isSome then
      if st = 4 then s else if st = 0 then s else coxStop 4 s
    else if s.stk.halted && (st == 1 || st == 2 || st == 3) then coxStop 4 s
    else match st with
      | 1 =>
        let at0 := restsAt s 0 s.cox.xr && restsAt s 1 e.originY
        let s1 := if s.axisState 0 = 1 ∧ !restsAt s 0 s.cox.xr then coxOrder 0 (.move s.cox.xr) s else s
        let s2 := if s1.axisState 1 = 1 ∧ !restsAt s1 1 e.originY then coxOrder 1 (.move e.originY) s1 else s1
        checkResume 0 at0 (fun u => beginRunUp (vmOf u) u) s2
      | 2 =>
        match s.stk.fireCatch with
        | some n => if s.cox.resume ≤ n then govern (soften (setCox 3 s)) else s
        | none => s
      | 3 =>
        if s.stk.fireCatch = some s.lastStroke then coxStop 7 s else govern s
      | 4 => if rest then leaveStopping e s else s
      | 5 =>
        if restsAt s 0 s.cox.xr then checkResume s.cox.resume (yRests s) resume (splitAgain (setCox 6 s))
        else if s.axisState 0 = 1 then coxOrder 0 (.move s.cox.xr) (splitAgain s) else splitAgain s
      | 6 => checkResume s.cox.resume (restsAt s 0 s.cox.xr && yRests s) resume (splitAgain s)
      | _ => s

/-- What the cox looks at before its state machine (R236, R237, R239, R248, R252). -/
def coxWatch (s : State) : State :=
  let st := s.coxState
  let s1 := updateDerate s
  let s2 := if s1.running.isSome && s1.flag F.COX_STATUS_DERATED then s1.bump F.COX_DERATED_PERIODS_COUNT else s1
  let low := (st == 2 || st == 3) && decide (s2.leadL < s2.gov F.COX_LEAD_FLOOR_PX) && !s2.cox.floorSeen && s2.running.isSome
  let s3 := if low then { s2.raise F.COX_EVENTS_LEAD_FLOOR with cox := { s2.cox with floorSeen := true } } else s2
  let hot := s3.bln.temp.isSome && decide (s3.tempLevel F.COX_TEMP_HARD_T ≤ (s3.bln.temp.map Prod.fst).getD 0)
  let s4 := if st = 6 ∧ hot then (s3.raise (.mk R.COX_REASON 2 1)).raise F.COX_REASON_VALID else s3
  let s5 := supplyHalt s4
  let lim := s5.gov F.COX_RECATCH_LIMIT_COURSE
  let same := s5.gov F.COX_RECATCH_LIMIT_SAME
  if s5.running.isNone then s5
  else if s5.mot.refLost then abandon 4 s5
  else if lim ≠ 0 ∧ lim ≤ s5.fget F.COX_RECATCHES_IN_COURSE then abandon 2 s5
  else if same ≠ 0 ∧ same ≤ s5.fget F.COX_RECATCHES_SAME then abandon 3 s5
  else s5

/-- The values that the timing island passes at a boundary (R215, R224, R233) begin anew. -/
def newPeriod (s : State) : State :=
  let s1 := s.fset F.STK_PERIOD_TICKS (min s.predicted (2 ^ 20 - 1))
  { s1 with stk := { s1.stk with periodMin := none, rttMax := 0 } }

/-! ### The planner's boundary -/

/-- The set-point of an axis comes into force (R257, R259). -/
def applySetPoint (a : Nat) (s : State) : State :=
  let x := s.axis a
  let still := if x.sp.vel ≠ 0 ∨ x.sp.acc ≠ 0 then 0 else min 2 (x.still + 1)
  (s.setAxis a { x with now := x.sp, still := still }).fset (F.MOT_AX_STATUS_AT_REST a) (bitOf (decide (2 ≤ still)))

/-- What follows from rest (R259, R272, R273): a stop, a MOVE or a phase of homing has ended. -/
def axisAtRest (a : Nat) (s : State) : State :=
  let x := s.axis a
  if s.atRest a && x.prof.stopped then
    let idle := fun (u : State) => u.setAxis a { u.axis a with order := .hold }
    match s.axisState a with
    | 5 => refreshEnable a (setAxisState a 0 (idle s))
    | 2 =>
      match x.order with
      | .move p => if x.prof.p = p * unitP then setAxisState a 1 (idle s) else s
      | _ => s
    | 3 =>
      match x.homing with
      | some h =>
        match h.phase with
        | .clearStop => setPhase a { h with phase := .search } s
        | .reversing => setPhase a { h with phase := .search, neg := !h.neg } s
        | _ => s
      | none => s
    | 6 =>
      match x.order with
      | .move p => if x.prof.p = p * unitP then idle s else s
      | .velocity _ => s
      | _ => idle s
    | _ => s
  else s

/-- NO_INDEX (R272): the travel of step 4 has been used up. -/
def checkIndex (a : Nat) (s : State) : State :=
  match (s.axis a).homing with
  | some h =>
    let gone := (roundHalfEven (s.axis a).prof.p unitP - h.from4).natAbs
    if h.phase = .creep ∧ s.fget (F.MOT_AX_INDEX_DIST_UM a) * 1024000 < gone then faultAxis a 3 s else s
  | none => s

/-- The first orders of the host since the last boundary come into force (R262, R268, R272, R275). -/
def takeOrder (a : Nat) (s : State) : State :=
  let x := s.axis a
  if s.saf.stop.isSome then s.setAxis a { x with next := none }
  else match x.next with
  | none => s
  | some (.order .stop) =>
    let s1 := if s.axisState a = 4 then endTable true s else s
    stopAxis a .stop (s1.setAxis a { s1.axis a with next := none })
  | some (.order o) =>
    let s1 := s.setAxis a { x with next := none }
    if s.drives a then
      moveState a 2 (s1.setAxis a { s1.axis a with order := o, ordered := true, prof := x.prof.normal s.mot.period, homing := none })
    else s1
  | some .home =>
    let s1 := s.setAxis a { x with next := none, prof := x.prof.normal s.mot.period }
    if s.enabled a then
      setPhase a { phase := if s.flag (F.MOT_AX_STATUS_HOME a) then .clearing else .search
                   neg := s.flag (F.MOT_AX_CTL_HOME_DIR a), trips := 0, from4 := 0 } (setAxisState a 3 s1)
    else s1

/-- An axis leaves DISABLED frames (R257). -/
def leaveDisabled (a : Nat) (s : State) : State :=
  let x := s.axis a
  if !x.left && s.flag (F.MOT_AX_CTL_ENABLE a) && !s.harbour && (s.loop a).posOk then
    let p := s.estimate a
    s.setAxis a { x with left := true, prof := { p := p * unitP, v := 0, a := 0 }, order := .hold }
  else s

/-- VMAX, AMAX and JMAX as written reach the planner where a stop under them ends inside the soft limits (R264). -/
def adoptLimits (a : Nat) (s : State) : State :=
  let x := s.axis a
  let v := s.fget (F.MOT_AX_VMAX_V a)
  let acc := s.fget (F.MOT_AX_AMAX_A a)
  let j := s.fget (F.MOT_AX_JMAX_J a)
  if v = x.vmax ∧ acc = x.amax ∧ j = x.jmax then s
  else
    let y := { x with vmax := v, amax := acc, jmax := j }
    let inside := match stopEnd (y.limits s.mot.period) (x.prof.normal s.mot.period) with
      | some e => insideSoft s a (roundHalfEven e unitP)
      | none => false
    if !s.ref a || s.atRest a || inside then s.setAxis a { y with ordered := x.ordered || v != x.vmax }
    else s.raise (F.MOT_AX_EVENTS_LIMIT_REFUSED a)

/-- One period of an axis's profile under its order (R260, R263, R270). -/
def profileStep (s : State) (a : Nat) (x : Axis) : Profile :=
  let l := x.limits s.mot.period
  let cap : Nat := if s.ref a then x.vmax else min x.vmax (s.fget (F.MOT_AX_HOME_VEL_V a))
  match x.order with
  | .hold => x.prof
  | .stop => velStep l 0 x.prof
  | .velocity v => velStep l (clampInt (-(cap : Int)) cap v * unitV) x.prof
  | .move p => moveStep l (cap * unitV) (p * unitP) x.prof
  | .quick => quickStep s.mot.period (s.fget (F.MOT_AX_QUICK_AMAX_A a) * unitA) x.prof

/-- Whether a stop begun from a motion of an axis would no longer end inside the soft limits of its reference (R263). -/
def pastSoft (s : State) (a : Nat) (f : Profile) : Bool :=
  s.ref a && (match stopEnd ((s.axis a).limits s.mot.period) f with
    | some e =>
      let p := roundHalfEven e unitP
      decide (0 < f.v ∧ s.pos48 (F.MOT_AX_SOFT_MAX_LO_POS a) (F.MOT_AX_SOFT_MAX_HI_POS a) < p)
        || decide (f.v < 0 ∧ p < s.pos48 (F.MOT_AX_SOFT_MIN_LO_POS a) (F.MOT_AX_SOFT_MIN_HI_POS a))
    | none => false)

/-- Whether the soft limits end an order: after the period a stop would no longer end inside them (R263). A table judges its own curve. -/
def softStopDue (s : State) (a : Nat) (x : Axis) (f : Profile) : Bool :=
  match x.order with
  | .hold | .stop | .quick => false
  | _ => x.homing.isNone && s.axisState a != 4 && pastSoft s a f

/-- The stop of the soft limits (R263); during a course it requests a halt with cause SAFETY. -/
def softStop (a : Nat) (s : State) : State :=
  let x := s.axis a
  let y := { x with order := .stop }
  let s1 := (moveState a 5 (s.setAxis a { y with prof := profileStep s a y })).raise (F.MOT_AX_EVENTS_SOFT_STOP a)
  requestHalt 11 false s1

/-- The profile of an axis planned for the next boundary (R260, R263). -/
def planProfile (a : Nat) (s : State) : State :=
  let x := s.axis a
  let f := profileStep s a x
  if softStopDue s a x f then softStop a s else s.setAxis a { x with prof := f }

/-- The set-point of an axis for the next boundary under its profile, its table and the blend between them (R257, R267, R268). -/
def nextSetPoint (s : State) (a : Nat) : SetPoint :=
  let own := setPointOf (s.axis a).prof
  match s.mot.table with
  | none => own
  | some t =>
    let curve := tableSetPoint a s.mot.period s.mot.store t.ticks
    match s.mot.blend with
    | none => if s.axisState a = 4 then curve else own
    | some b => if b.toTable then blendSp (blendWeight b.b b.n) own curve else blendSp (blendWeight b.b b.n) curve own

/-- Whether the soft limits end the table at this boundary: a stop from an axis's next point of it would end outside them (R263; log entry
115). -/
def tableSoft (s : State) (a : Nat) : Bool := s.axisState a == 4 && pastSoft s a (profileOf s.mot.period (nextSetPoint s a))

/-- The set-point of an axis planned for the next boundary. Where a table would carry the axis past the soft limits, it ends without a blend
(R263). -/
def planSetPoint (a : Nat) (s : State) : State :=
  let s1 := if tableSoft s a then softStop a (endTable false s) else s
  s1.setAxis a { s1.axis a with sp := nextSetPoint s1 a }

/-- The table's points of this boundary are read; one that cannot be read ends the table as ABORT does, with ERROR 6 (R316). -/
def readTable (s : State) : State :=
  match s.mot.table with
  | none => s
  | some t =>
    let k := (curveAt 0 s.mot.period s.mot.store 1 t.ticks).2
    let (ok, s1) := readSegments (k - 1) (k + 1) s
    if ok then s1 else endTable true (if s1.flag F.MOT_TBL_STATUS_RUNNING then s1.fset F.MOT_TBL_STATUS_ERROR 6 else s1)

/-- Whether a table's last point is at rest (R268). -/
def Motion.endsAtRest (m : Motion) : Bool :=
  match m.store.getLast? with
  | some q => q.vx == 0 && q.vy == 0
  | none => true

/-- The table and its blend move on by a boundary (R267, R268). -/
def tableTick (s : State) : State :=
  match s.mot.table with
  | none => s
  | some t =>
    let s1 := { s with mot := { s.mot with table := some { ticks := t.ticks + 1 } } }
    let s2 := match s1.mot.blend with
      | none => s1
      | some b =>
        if b.n ≤ b.b + 1 then
          let u := s1.clear F.MOT_TBL_STATUS_BLENDING
          let v := if b.toTable then dropOrder 1 (dropOrder 0 u) else u
          { v with mot := { v.mot with blend := none, table := if b.toTable then v.mot.table else none } }
        else { s1 with mot := { s1.mot with blend := some { b with b := b.b + 1 } } }
    let s3 := s2.fset F.MOT_TBL_STATUS_POINT (curveAt 0 s.mot.period s.mot.store 1 (t.ticks + 1)).2
    if s.flag F.MOT_TBL_STATUS_RUNNING && decide (tableLength s.mot.store ≤ t.ticks) then endTable (!s.mot.endsAtRest) s3 else s3

/-- The frame of an axis (R256, R257): MODE, and the set-point planned. -/
def frameOf (s : State) (a : Nat) : BitVec 128 :=
  let x := s.axis a
  let st := s.axisState a
  let coming := (st == 5 || st == 6) && (x.moving || !s.atRest a)
  let power := s.flag (F.MOT_AX_CTL_POWER a) || x.moving || !s.atRest a
  let mode := if !x.left || s.harbour then 0
    else if coming || (s.enabled a && s.flag (F.MOT_AX_CTL_POWER a)) then 1 else 2
  let body := unsignedOf 48 x.sp.pos + (if mode = 1 then unsignedOf 32 x.sp.vel else 0) * 2 ^ 48
    + (if mode = 1 then unsignedOf 24 x.sp.acc else 0) * 2 ^ 80 + x.seq % 16 * 2 ^ 104 + a % 2 * 2 ^ 108 + mode * 2 ^ 109
    + (if mode = 0 then 0 else bitOf power) * 2 ^ 111
  BitVec.ofNat 128 (body + (crc8 (leBytes 15 body)).toNat * 2 ^ 120)

/-- How long after a boundary the frame of an axis starts, in ticks (R255): 1 µs for X, 1.5 µs for Y. -/
def frameDelay (a : Nat) : Nat := if a = 0 then ticksPerUs else 3 * ticksPerUs / 2

/-- The frame of an axis sent (R255 to R258): its status word is due 5 µs after its 256 ns. A word still awaited of the frame before is
missing. -/
def sendFrame (a : Nat) (s : State) : State :=
  let s1 := if (s.axis a).awaiting.isSome then badStatus a s else s
  let x := s1.axis a
  let due := s1.clock + frameDelay a + 256 * ticksPerNs + 5 * ticksPerUs
  (s1.setAxis a { x with seq := (x.seq + 1) % 16, awaiting := some (x.seq % 16, due) }).emit
    (.setPoint a (s1.rtime + frameDelay a) (portUis 64 (frameOf s1 a).toNat))

/-- One axis planned for the next boundary. -/
def planAxis (a : Nat) (s : State) : State :=
  checkIndex a (planSetPoint a (planProfile a (noteClamp a (adoptLimits a (leaveDisabled a (takeOrder a s))))))

/-! ### The safety controller's part of a boundary -/

/-- The speed of an axis from the position samples in µm/s (R396). -/
def State.speed (s : State) (a : Nat) : Nat := ((s.loop a).v.natAbs * 625) / 2097152

/-- An axis under the quick stop of R395: homing ends, and any order gives way. -/
def quickAxis (a : Nat) (s : State) : State :=
  let s1 := stopAxis a .quick s
  s1.setSafAxis a { s1.safAxis a with moved := (s.axis a).moving || !s.atRest a, v0 := s.speed a }

/-- The stop of SF-STAGE begins at the first boundary after its demand (R395). -/
def beginStageStop (s : State) : State :=
  match s.saf.stop with
  | some st =>
    if st.begun.isSome then s
    else
      let s1 := quickAxis 1 (quickAxis 0 (endTable false s))
      { s1 with saf := { s1.saf with stop := some { st with begun := some s.clock } } }
  | none => s

/-- An amplifier enable driven (R389). -/
def driveAmp (a : Nat) (on : Bool) (s : State) : State :=
  if s.ampOn a = on then s
  else
    let s1 := if a = 0 then { s with saf := { s.saf with ampX := on } } else { s with saf := { s.saf with ampY := on } }
    refreshEnable a (s1.emit (.ampEnable a on))

/-- Both amplifier enables asserted, where the start-up test has passed and the image is no harbour image (R398, R403). -/
def assertAmps (s : State) : State :=
  if s.saf.startupOk && !s.harbour then driveAmp 1 true (driveAmp 0 true s) else s

/-- The stop of SF-STAGE ends with both axes at rest (R397, R398, R406): category 1 removes both enables while its demand stands. -/
def endStageStop (s : State) : State :=
  match s.saf.stop with
  | some st =>
    if st.begun.isSome && s.atRest 0 && s.atRest 1 && s.mot.x.prof.stopped && s.mot.y.prof.stopped then
      let s1 := { s with saf := { s.saf with stop := none } }
      if !s1.demanded then flushSafRecs 0 (assertAmps s1)
      else if st.cat2 then flushSafRecs 0 s1
      else flushSafRecs 3 (driveAmp 1 false (driveAmp 0 false s1))
    else s
  | none => s

/-- STOP_CHECK (R396): 200 µs after the stop began each axis that was moving is judged. -/
def stopCheckOp (s : State) : State :=
  match s.saf.stop with
  | some st =>
    match st.begun, st.checked with
    | some t, false =>
      let s1 := s.until (t + 200 * ticksPerUs)
      let s2 := { s1 with saf := { s1.saf with stop := some { st with checked := true } } }
      let fails := fun (a : Nat) (u : State) =>
        let v0 := (u.safAxis a).v0
        let v := u.speed a
        let drop := u.fget (F.SAF_DECEL_CHK_A a) * 200 / 1000
        (u.safAxis a).moved && (!(u.loop a).posOk || (decide (v0 < v + drop) && decide (1000 ≤ v)))
      let cut := fun (a : Nat) (u : State) => if fails a u then (driveAmp a false u).raise F.SAF_EVENTS_AMP_CUT else u
      let s3 := cut 1 (cut 0 s2)
      if fails 0 s2 || fails 1 s2 then flushSafRecs (bitOf (fails 0 s2) + 2 * bitOf (fails 1 s2)) s3 else s3
    | _, _ => s
  | none => s

/-- SERVO_BOUNDARY (R232, R254 to R275, R395 to R397). -/
def servoBoundaryOp (s : State) : State :=
  let s1 := s.untilR (boundaryFrom s (s.rtime + 1))
  let s2 := { s1 with mot := { s1.mot with period := s1.fget F.MOT_SERVO_PERIOD } }
  let s3 := axisAtRest 1 (axisAtRest 0 (applySetPoint 1 (applySetPoint 0 s2)))
  let s4 := beginStageStop (endStageStop s3)
  let s5 := coxMachine (coxWatch s4)
  let s6 := newPeriod s5
  let s7 := tableTick (planAxis 1 (planAxis 0 (readTable s6)))
  updatePermit (sendFrame 1 (sendFrame 0 s7))

end Sys2Proof.Machine
end

