-- ==== Sys2Proof/Machine/Regatta.lean ====
section
/-! DEFINITION. Regattas: strait training, failover, packets and their resends, routing, regatta time, messages, tokens and READYs (R353 to
R368). -/

namespace Sys2Proof.Machine

/-! ### Links -/

/-- No slot is owed to a link any longer. -/
def forgive (k : Nat) (l : StraitLink) : StraitLink :=
  { l with queue := l.queue.map (fun p => if (p.owed.map Prod.fst) = some k then { p with owed := none } else p) }

/-- A link goes DOWN: what is queued for it or not yet acknowledged is discarded and counted, and the slots it held are returned (R355,
R357). -/
def dropLink (k state : Nat) (s : State) : State :=
  let l := s.link k
  let s1 := s.add F.STR_DROPS_COUNT (l.queue.length + l.unacked.length)
  let s2 := s1.setLink k { linkReset with beaconAt := l.beaconAt }
  let s3 := ((s2.fset (F.STR_LINK_STATUS_STATE k) state).fset (F.STR_LINK_STATUS_ON_STANDBY k) 0)
  let s4 := l.queue.foldl (fun t p => returnSlot p.owed t) s3
  { s4 with str := { s4.str with links := s4.str.links.map (forgive k) } }

/-- The training of a strait lane begins at the bottom rung with stage A (R187, R189, R354). -/
def driveStrait (lane : Nat) (s : State) : State :=
  if s.govFlag F.STR_CTL_ENABLE && (neighbour s (lane / 2)).isSome then s.emit (.straitDrive lane 6) else s

/-- A new value of ENABLE governs (R354, R355): at 1 the lanes of every link train; at 0 none is locked any longer. -/
def straitsGovern (was : Bool) (s : State) : State :=
  let now := s.govFlag F.STR_CTL_ENABLE
  if now && !was then
    (List.range 8).foldl (fun t j =>
      driveStrait j (if (neighbour s (j / 2)).isSome then t.fset (F.STR_LINK_STATUS_STATE (j / 2)) 1 else t)) s
  else if was && !now then
    (List.range 4).foldl (fun t k =>
      if t.linkUp k then (dropLink k 0 t).raise F.STR_EVENTS_LINK_DOWN
      else (t.setLink k { t.link k with lock0 := false, lock1 := false }).fset (F.STR_LINK_STATUS_STATE k) 0) s
  else s

/-- A lane of a link is locked: a link that was not UP starts, its lower-numbered lane primary where it is locked (R355). -/
def lockStrait (k : Nat) (upper : Bool) (s : State) : State :=
  let l := s.link k
  let l1 := if upper then { l with lock1 := true } else { l with lock0 := true }
  if s.linkUp k then
    s.setLink k { l1 with idleAt := if (if upper then l.lock1 else l.lock0) then l.idleAt else s.clock }
  else
    let p := if l1.lock0 then 0 else 1
    let s1 := s.setLink k { linkReset with primary := p, lock0 := l1.lock0, lock1 := l1.lock1, beaconAt := s.clock, idleAt := s.clock }
    (s1.fset (F.STR_LINK_STATUS_STATE k) 2).fset (F.STR_LINK_STATUS_ON_STANDBY k) p

/-- The unacknowledged packets of a link are resent from the first one, T_TX set anew (R356, R357). -/
def resendFrom (k : Nat) (s : State) : State :=
  let l := s.link k
  let again := l.unacked.map (fun p => { p with ttx := BitVec.ofNat 64 s.rt64 })
  let s1 := s.setLink k { l with unacked := again, ackAt := s.clock }
  pumpLink k 16 ((s1.add (F.STR_LINK_RESENDS_COUNT k) again.length).emits (again.map (fun p => .straitWords k (packetWords p))))

/-- A lane of a link is not locked, or not used: its traffic goes to a locked standby, the unacknowledged packets resent (R355, R357);
with neither lane locked the link is DOWN. `state` is what STATE then shows. -/
def unlockStrait (k : Nat) (upper : Bool) (state : Nat) (s : State) : State :=
  let l := s.link k
  let l1 := if upper then { l with lock1 := false } else { l with lock0 := false }
  let was := s.linkUp k
  if !l1.lock0 && !l1.lock1 then
    if was then (dropLink k state s).raise F.STR_EVENTS_LINK_DOWN
    else (s.setLink k l1).fset (F.STR_LINK_STATUS_STATE k) state
  else
    let mine := if upper then 1 else 0
    if was && l.primary == mine then
      let s1 := (s.setLink k { l1 with primary := 1 - mine }).fset (F.STR_LINK_STATUS_ON_STANDBY k) (1 - mine)
      resendFrom k (s1.raise F.STR_EVENTS_FAILOVER)
    else s.setLink k l1

/-- FAILOVER (R355): four consecutive uncorrectable codewords lose a strait lane's lock; the lane trains again. -/
def failoverOp (lane : Nat) (s : State) : State := driveStrait lane (unlockStrait (lane / 2) (lane % 2 == 1) 0 s)

/-- Whether a strait lane is locked. -/
def State.straitLocked (s : State) (lane : Nat) : Bool :=
  if lane % 2 = 1 then (s.link (lane / 2)).lock1 else (s.link (lane / 2)).lock0

/-- The training word of a strait lane, with the device's own ID (R187, R354). -/
def straitWord (s : State) (lane rung next countdown : Nat) : DWord :=
  trainingWord { laneId := lane, rung := rung, nextRung := next, countdown := countdown, deviceId := s.deviceId, echoReady := 0 }

/-- A strait lane that is not locked answers a training word with its own, at the same rung and with the same change due (R189, R354,
log entry 76). -/
def answerTraining (lane : Nat) (t : TrainingWord) (s : State) : State :=
  if s.straitLocked lane || decide (2 < t.rung ∨ 2 < t.nextRung) then s
  else s.emit (.straitLane lane [straitWord s lane t.rung t.nextRung t.countdown])

/-- TRAINING_WORD on a strait lane (R187, R354): a lane whose far end is the neighbour of R353 is locked once it runs at L2 with no
change due; another far end is not used. -/
def straitTraining (lane : Nat) (w : DWord) (s : State) : State :=
  let k := lane / 2
  match readTrainingWord w, neighbour s k with
  | some t, some id =>
    if !s.govFlag F.STR_CTL_ENABLE then s
    else
      let s1 := s.fset (F.STR_LINK_STATUS_PEER k) t.deviceId
      if t.deviceId ≠ id then unlockStrait k (lane % 2 == 1) 3 (s1.raise F.STR_EVENTS_WIRING)
      else
        let s2 := answerTraining lane t s1
        if t.rung = 2 ∧ t.nextRung = 2 then lockStrait k (lane % 2 == 1) s2
        else if s.linkUp k then s2
        else s2.fset (F.STR_LINK_STATUS_STATE k) 1
  | _, _ => s

/-- TRAINING_WORD (R187, R188): on an echo lane, with whether its pair is inverted, or on a strait lane. -/
def trainingWordOp (src : LinkEnd) (w : DWord) (inverted : Bool) (s : State) : State :=
  match src with
  | .echo k => echoTraining k w inverted s
  | .strait lane => straitTraining lane w s

/-- TRAINING_BURST (R192, R355): on a transmit lane, or on a strait lane numbered from 136, where the locked standby of a link sends it
after 10 ms of filler; never while a course runs. -/
def burstOp (l : Nat) (s : State) : State :=
  let j := l - 136
  let k := j / 2
  if l < 136 then trainingBurstOp l s
  else if s.running.isNone && s.linkUp k && s.straitLocked j && (s.link k).primary != j % 2 then
    let s1 := s.until ((s.link k).idleAt + 10 * ticksPerMs)
    let s2 := (s1.emit (.straitLane j (List.replicate 5140 (straitWord s1 j 2 2 255)))).after (groupTicks 4 2)
    s2.setLink k { s2.link k with idleAt := s2.clock }
  else s

/-- LINK_WORD (R356, R357): the acknowledgment advances and credits return. -/
def linkWordOp (k : Nat) (w : DWord) (s : State) : State :=
  let v := w.toNat
  if !s.linkUp k || bits 0 8 v != 0x78 then s
  else
    let l := s.link k
    let n := bits 8 8 v
    let hit := l.unacked.any (fun p => p.lseq == n)
    let rest := if hit then (l.unacked.dropWhile (fun p => p.lseq != n)).drop 1 else l.unacked
    let cr := (List.range 3).map (fun c => min 8 (l.credits.getD c 0 + bits (16 + 8 * c) 8 v))
    pumpLink k 16 (s.setLink k { l with unacked := rest, credits := cr, ackAt := if hit then s.clock else l.ackAt })

/-- PACKET_RESEND_TIMEOUT (R357): 2 µs without the acknowledgment advancing. -/
def packetResendOp (k : Nat) (s : State) : State :=
  if s.linkUp k && !(s.link k).unacked.isEmpty then resendFrom k (s.until ((s.link k).ackAt + 2 * ticksPerUs)) else s

/-- VC_STALL (R359): a packet of a VC has not advanced for STR_STALL_US. -/
def vcStallOp (k vc : Nat) (s : State) : State :=
  let l := s.link k
  if l.queue.any (fun p => p.vc == vc) && !l.stalled.contains vc then
    let s1 := s.until (l.movedAt.getD vc 0 + s.gov F.STR_STALL_US_US * ticksPerUs)
    let s2 := (s1.raise F.STR_EVENTS_STALL).bump F.STR_STALLS_COUNT
    let s3 := (s2.fset F.STR_STALL_AT_LINK k).fset F.STR_STALL_AT_VC vc
    s3.setLink k { l with stalled := vc :: l.stalled }
  else s

/-! ### Regatta time -/

/-- Loss of TIME_LOCKED (R361), which halts a running course (R363). -/
def loseLock (s : State) : State :=
  if s.flag F.STR_STATUS_TIME_LOCKED then
    let s1 := (s.clear F.STR_STATUS_TIME_LOCKED).raise F.STR_EVENTS_UNLOCK
    if s1.govFlag F.STR_CTL_MASTER then s1
    else requestHalt 12 false { s1 with str := { s1.str with nearRun := 0 } }
  else s

/-- The upstream link by R360 for a master: the last hop of the path of R358 from the master, before any switch. -/
def baseUpstream (s : State) (master : Nat) : Option Nat :=
  let me := s.deviceId
  if posOf master ≠ posOf me then some (if ringNorth s.divSize (posOf master) (posOf me) then 1 else 0)
  else if divOf master ≠ divOf me then some (if ringNorth s.regSize (divOf master) (divOf me) then 3 else 2)
  else none

/-- The other neighbour of the same ring. -/
def otherWay (k : Nat) : Nat := if k % 2 = 0 then k + 1 else k - 1

/-- The upstream link in force (R360); none while no master is followed. -/
def upstream (s : State) : Option Nat :=
  if s.fget F.STR_STATUS_DIST = 0 then none
  else (baseUpstream s (s.fget F.STR_STATUS_MASTER_ID)).map (fun k => if s.str.swapped then otherWay k else k)

/-- The slew's ticks so far taken into the offset, and a new slew begun (R361). -/
def slewTo (theta : Int) (s : State) : State :=
  { s with rtOfs := s.rtOfs + s.slewed, str := { s.str with slew := theta, slewFrom := s.clock } }

/-- A time error beyond STR_HALT_NS halts a course that runs (R363). -/
def thetaHalt (theta : Int) (s : State) : State :=
  if s.running.isSome ∧ s.gov F.STR_HALT_NS_NS * ticksPerNs < theta.natAbs then requestHalt 12 false s else s

/-- The own time error applied: a step while the cox is IDLE and the error is beyond STR_STEP_NS, else a slew (R361, R363). -/
def applyTheta (theta : Int) (s : State) : State :=
  thetaHalt theta <| if s.coxState = 0 ∧ s.gov F.STR_STEP_NS_NS * ticksPerNs < theta.natAbs then
    let s1 := slewTo 0 s
    let s2 := ({ s1 with rtOfs := s1.rtOfs + theta }).raise F.GEN_EVENTS_TIME_STEP
    loseLock { s2 with str := { s2.str with nearRun := 0, farRun := 0 } }
  else
    let near := if theta.natAbs ≤ 32 then s.str.nearRun + 1 else 0
    let far := if 128 < theta.natAbs then s.str.farRun + 1 else 0
    let s1 := slewTo theta s
    let s2 := { s1 with str := { s1.str with nearRun := min near 16, farRun := min far 4 } }
    if 4 ≤ far then loseLock s2 else if 16 ≤ near then s2.raise F.STR_STATUS_TIME_LOCKED else s2

/-- A beacon of the upstream measures the link and corrects the time (R361). `rx` is its arrival by regatta time. -/
def measure (k : Nat) (p : Packet) (rx : Int) (s : State) : State :=
  let wrap := fun (x : Int) => signedOf 64 (unsignedOf 64 x)
  let echoTx : Int := (p.payload.getD 0 0#64).toNat
  let echoRx : Int := (p.payload.getD 1 0#64).toNat
  let tx : Int := p.ttx.toNat
  let d := (wrap (rx - echoTx) - wrap (tx - echoRx)) / 2 + s.sget (F.STR_LINK_ASYM_TICKS k)
  let theta := wrap (tx + d - rx)
  let s1 := (s.fsetI (F.STR_LINK_DELAY_TICKS k) d).fsetI F.STR_THETA_TICKS theta
  let s2 := { s1.clear F.STR_STATUS_HOLDOVER with str := { s1.str with holdFrom := none } }
  applyTheta theta s2

/-- A beacon names the master followed, a lower one, or another that is not followed (R360). -/
def followMaster (master dist : Nat) (s : State) : Bool × State :=
  let known := s.fget F.STR_STATUS_DIST ≠ 0 && !s.flag F.STR_STATUS_HOLDOVER
  let cur := s.fget F.STR_STATUS_MASTER_ID
  let s1 := State.raiseIf (known && cur != master) F.STR_EVENTS_MASTER_CONFLICT s
  if known && decide (cur < master) then (false, s1)
  else
    let s2 := if cur = master then s1 else { s1 with str := { s1.str with swapped := false, nearRun := 0, farRun := 0 } }
    let d := if known && cur == master then s2.fget F.STR_STATUS_DIST else min 255 (dist + 1)
    (true, (s2.fset F.STR_STATUS_MASTER_ID master).fset F.STR_STATUS_DIST d)

/-- A received beacon (R360, R361). -/
def takeBeacon (k : Nat) (p : Packet) (s : State) : State :=
  let l := s.link k
  let rx := s.rt64
  let s1 := s.setLink k { l with echoTx := p.ttx.toNat, echoRx := rx, beaconAt := s.clock }
  let master := bits 0 12 p.p3.toNat
  let dist := bits 12 8 p.p3.toNat
  if s1.govFlag F.STR_CTL_MASTER then State.raiseIf (master != s1.deviceId) F.STR_EVENTS_MASTER_CONFLICT s1
  else if master = s1.deviceId then s1
  else
    let (mine, s2) := followMaster master dist s1
    if !mine then s2
    else
      let s3 := match baseUpstream s2 master with
        | some b =>
          if s2.flag F.STR_STATUS_HOLDOVER && b / 2 == k / 2 then { s2 with str := { s2.str with swapped := b != k } } else s2
        | none => s2
      if upstream s3 = some k then measure k p rx (s3.fset F.STR_STATUS_DIST (min 255 (dist + 1))) else s3

/-- BEACON_SEND (R361): a beacon on each link that is UP, at the next multiple of the beacon period. -/
def beaconSendOp (s : State) : State :=
  if !s.govFlag F.STR_CTL_ENABLE then s
  else
    let per : Int := max 1 (s.gov F.STR_BEACON_US_US) * ticksPerUs
    let s1 := s.until ((s.clock / per + 1) * per)
    let own := s1.govFlag F.STR_CTL_MASTER
    let p3 := (if own then s1.deviceId else s1.fget F.STR_STATUS_MASTER_ID)
      + (if own then 0 else s1.fget F.STR_STATUS_DIST) * 2 ^ 12 + bitOf s1.timeLocked * 2 ^ 20
    (List.range 4).foldl (fun t k =>
      if t.linkUp k then
        let (q, u) := t.nextSeq 3
        let l := u.link k
        sendOn k (ownPacket u 3 2 false ((neighbour u k).getD 0) q u.courseIds.2 p3
          [BitVec.ofNat 64 l.echoTx, BitVec.ofNat 64 l.echoRx]) u
      else t) s1

/-- UPSTREAM_SILENT (R360): no beacon of the upstream for four beacon periods. The other neighbour is followed next, and with that
one silent too the device holds over. -/
def upstreamSilentOp (s : State) : State :=
  match upstream s with
  | none => s
  | some k =>
    if !s.govFlag F.STR_CTL_ENABLE || s.govFlag F.STR_CTL_MASTER || s.flag F.STR_STATUS_HOLDOVER then s
    else
      let s1 := s.until ((s.link k).beaconAt + 4 * (max 1 (s.gov F.STR_BEACON_US_US)) * ticksPerUs)
      if s1.str.swapped then
        { s1.raise F.STR_STATUS_HOLDOVER with str := { s1.str with holdFrom := some s1.clock } }
      else { s1 with str := { s1.str with swapped := true } }

/-- HOLDOVER_TIMEOUT (R361): 10 ms in HOLDOVER. -/
def holdoverTimeoutOp (s : State) : State :=
  match s.str.holdFrom with
  | none => s
  | some t => loseLock (s.until (t + 10 * ticksPerMs))

/-! ### Packets for this device -/

/-- A packet written whole into the next free receive slot (R364). -/
def deliver (p : Packet) (s : State) : State :=
  if 16 ≤ s.str.used then (s.bump F.STR_RX_DROPS_COUNT).raise F.STR_EVENTS_RX_FULL
  else
    let i := s.fget F.STR_RX_HEAD_INDEX
    let ws := packetWords p
    let s1 := ((List.range ws.length).zip ws).foldl (fun t (iw : Nat × DWord) =>
      (t.setReg (R.STR_RX_SLOT i (2 * iw.1)) (BitVec.setWidth 32 iw.2)).setReg (R.STR_RX_SLOT i (2 * iw.1 + 1))
        (BitVec.ofNat 32 (iw.2.toNat / 2 ^ 32))) s
    let s2 := (s1.fset F.STR_RX_HEAD_INDEX ((i + 1) % 16)).raise F.STR_EVENTS_RX
    { s2 with str := { s2.str with used := s2.str.used + 1 } }

/-- A write of STR_RX_TAIL frees the slots that it passes (R364). -/
def freeSlots (v : Nat) (s : State) : State :=
  let n := (v % 16 + 16 - s.fget F.STR_RX_TAIL_INDEX) % 16
  { s.fset F.STR_RX_TAIL_INDEX v with str := { s.str with used := s.str.used - min n s.str.used } }

/-- A packet for another device goes on in dimension order (R358). -/
def transit (k : Nat) (p : Packet) (s : State) : State :=
  match routeOf s p.dest p.vc (some (k / 2)) with
  | none => s
  | some (out, vc) => sendOn out { p with vc := vc } s

/-- Whether a broadcast is for this device's group (R356, R364). -/
def inGroup (p : Packet) (s : State) : Bool := p.group == s.gov F.STR_CTL_GROUP

/-- A MESSAGE or COURSE_EVENT (R364, R365). -/
def takeMessage (k : Nat) (p : Packet) (s : State) : State :=
  if p.bcast then
    let s1 := sendTree p (some k) s
    if inGroup p s1 then deliver p s1 else s1
  else if p.dest = s.deviceId then deliver p s
  else transit k p s

/-- The READYs collected are cleared (R367). -/
def clearReadys (s : State) : State :=
  { s.clear F.STR_STATUS_RESUME_FIXED with str := { s.str with readys := [], own := none, fixed := none } }

/-- A STOP_TOKEN (R366): one not seen before is sent on, clears the READYs and halts a course in APPROACH, RUNUP or WRITING. -/
def takeToken (k : Nat) (p : Packet) (s : State) : State :=
  if p.src = s.deviceId ∨ s.str.seen.contains (p.src, p.seq) then s
  else
    let s1 := flood p (some k) { s with str := { s.str with seen := (p.src, p.seq) :: s.str.seen } }
    if !inGroup p s1 then s1
    else
      let s2 := clearReadys s1
      if s2.running.isSome ∧ 1 ≤ s2.coxState ∧ s2.coxState ≤ 3 then
        let s3 := requestHalt 12 false s2
        State.raiseIf (!s2.stk.halted && s3.stk.halted) F.STR_EVENTS_TOKEN s3
      else s2

/-- A RESUME_READY of a member (R367): its proposal is held, and the boundary fixed once all are. -/
def takeReady (k : Nat) (p : Packet) (s : State) : State :=
  let s1 := if p.bcast then sendTree p (some k) s else s
  if inGroup p s1 && p.src != s1.deviceId then
    let b := signedOf 64 p.p3.toNat
    fixResume { s1 with str := { s1.str with readys := (p.src, b) :: s1.str.readys.filter (fun r => r.1 != p.src) } }
  else s1

/-- What a packet accepted on link k does, by its TYPE (R356). -/
def takePacket (k : Nat) (p : Packet) (s : State) : State :=
  match p.typ with
  | 1 => takeMessage k p s
  | 2 => takeMessage k p s
  | 3 => takeBeacon k p s
  | 4 => takeToken k p s
  | 5 => takeReady k p s
  | _ => s

/-- The words of a packet arrive on a link (R357); a link that is not UP carries none. -/
def packetArrives (k : Nat) (ws : List DWord) (s : State) : State :=
  if s.linkUp k then
    match arrive k ws s with
    | (none, s1) => s1
    | (some p, s1) => takePacket k p s1
  else s

/-- Whether words are a packet of a TYPE, or none at all. -/
def wordsOfType (typ : Nat) (ws : List DWord) : Bool :=
  match readPacket ws with
  | none => true
  | some p => p.typ == typ

/-! ### Messages of the host -/

/-- Whether a message waits to be sent (R364). -/
def State.txBusy (s : State) : Bool :=
  s.str.links.any (fun l => l.queue.any (fun p => p.typ == 1 && p.src == s.deviceId))

/-- GO of STR_TX_CTL (R364): ignored while a message is being sent. -/
def txGo (s : State) : State :=
  if s.txBusy then s
  else
    let n := min 128 (s.fget F.STR_TX_CTL_LEN)
    let word := fun (i : Nat) => BitVec.ofNat 64 ((s.reg (R.STR_TX_DATA (2 * i))).toNat
      + (s.reg (R.STR_TX_DATA (2 * i + 1))).toNat * 2 ^ 32)
    let (q, s1) := s.nextSeq 1
    let dest := s.fget F.STR_TX_CTL_DEST
    let bc := s.flag F.STR_TX_CTL_BCAST
    let p := ownPacket s1 1 0 bc (if bc then 0 else dest) q (s.fget F.STR_TX_TAG_TAG) 0 ((List.range n).map word)
    if bc then sendTree p none s1
    else match routeOf s1 dest 0 none with
      | none => s1
      | some (out, vc) => sendOn out { p with vc := vc } s1

/-- SEND_MESSAGE (R364): STR_TX_CTL written with GO and BCAST 0. -/
def sendMessageOp (dest len : Nat) (s : State) : State :=
  txGo (s.setReg R.STR_TX_CTL (BitVec.ofNat 32 (dest % 4096 + len % 256 * 2 ^ 13)))

/-- BROADCAST_MESSAGE (R364): STR_TX_CTL written with GO and BCAST 1. -/
def broadcastMessageOp (dest len : Nat) (s : State) : State :=
  txGo (s.setReg R.STR_TX_CTL (BitVec.ofNat 32 (dest % 4096 + 2 ^ 12 + len % 256 * 2 ^ 13)))

end Sys2Proof.Machine
end

