-- ==== Sys2Proof/WellFormed.lean ====
section
/-! DEFINITION. Well-formed commands: every operand lies in the range that the interface it comes over can carry. -/

namespace Sys2Proof

/-- The cell of a tile and the dose that a hardware fault names, with the residue its check carries (R276, R277). -/
def checkWf : Machine.TileCheck → Bool
  | .step carried _ cell dose => decide (carried < 1023 ∧ cell < 262144 ∧ dose < 2048)
  | .round _ d _ _ cell dose => decide (0 < d ∧ cell < 262144 ∧ dose < 2048)
  | .write cell dose => decide (cell < 262144 ∧ dose < 2048)
  | .localParity row => decide (row < 131072)
  | _ => true

/-- The seat whose split a hardware fault names, with what its divider delivers (R147, R276). -/
def splitWf (c : Machine.SplitCheck) : Bool := decide (c.track < 8192 ∧ c.seat < 128 ∧ c.base < 2048 ∧ c.rem < 128)

/-- A request waiting at a pseudo-channel (R345, R347). -/
def requestWf (r : Machine.HbmRequest) : Bool := decide (r.port < 16)

/-- The FIFO that a parity error names (R316). -/
def siteWf : Machine.FifoSite → Bool
  | .toLane lane => decide (lane < 136)
  | .fromEcho k => decide (k < 4)
  | .toHbm addr _ => decide (addr < 96 * 2 ^ 30)
  | .fromHbm port addr len => decide (port < 16 ∧ 0 < len ∧ addr + len ≤ 96 * 2 ^ 30)

/-- The lane on which a training word arrives (R187, R355). -/
def endWf : Machine.LinkEnd → Bool
  | .echo k => decide (k < 4)
  | .strait lane => decide (lane < 8)

/-- How training ended on each of the four stacks, with the lane repairs of each (R307). -/
def trainEndsWf (ends : List (Bool × Nat)) : Bool := ends.length == 4 && ends.all (fun p => decide (p.2 < 16))

/-- A speed code and a width of the PCIe link (R331). -/
def linkWf (speed width : Nat) : Bool := decide (1 ≤ speed ∧ speed ≤ 6) && [1, 2, 4, 8, 16].contains width

/-- A host read lies in BAR0 and asks for 1 to 1,024 words (R7). -/
def readWf (r : Machine.HostRead) : Bool :=
  r.addr % 4 == 0 && decide (0 < r.words ∧ r.words ≤ 1024 ∧ r.addr + 4 * r.words ≤ 0x1000000)

/-- Whether a command is well-formed. -/
def Instr.wf : Instr → Bool
  | .registerWrite addr lanes => addr % 4 == 0 && decide (addr + 4 * lanes.length ≤ 0x1000000) && lanes.all (fun l => decide (l.be < 16))
  | .lowWordRead read => readWf read
  | .rcRead read => readWf read
  | .resultRead read => readWf read
  | .resultAck addr => addr % 4 == 0 && decide (addr < 0x1000000)
  | .post => true
  | .ingRun _ => true
  | .flush => true
  | .skip => true
  | .admissionStart => true
  | .admissionDone => true
  | .courseStart => true
  | .slzCompress => true
  | .slzDecompress => true
  | .slzAbort => true
  | .slzJobEnd => true
  | .bandEligible => true
  | .tileDispatch => true
  | .tileComputeDone islet slot check => decide (islet < 128 ∧ slot < 2) && checkWf check
  | .slowTile islet slot => decide (islet < 128 ∧ slot < 2)
  | .rasProbe band tile entry => decide (band < 65536 ∧ tile < 32 ∧ entry < 8)
  | .rasProbeDone => true
  | .bsxTileStart => true
  | .bsxTileDone => true
  | .bankOpen _ => true
  | .bankClone _ => true
  | .cloneDone _ => true
  | .bankCommit _ => true
  | .tableWrite addr _ => addr % 4 == 0 && decide (addr < 0x1000000)
  | .mapShadowBaseWrite _ _ => true
  | .mapExchangeStart => true
  | .mapExchanged => true
  | .strokeSplit check => check.all splitWf
  | .crwProbe track seat p => decide (track < 8192 ∧ seat < 128 ∧ p < 2048)
  | .wakPeek track => decide (track < 8192)
  | .wakPeekDone => true
  | .frameSend lane => decide (lane < 136)
  | .fifoParityError site => siteWf site
  | .laneEnable lane _ => decide (lane < 136)
  | .train lane => decide (lane < 136)
  | .laneTest lane _ => decide (lane < 136)
  | .stageAEnd lane => decide (lane < 136)
  | .rungPass lane => decide (lane < 136)
  | .rungTimeout lane => decide (lane < 136)
  | .rungSwitch lane => decide (lane < 136)
  | .trainingWord src _ => endWf src
  | .echoLocked k => decide (k < 4)
  | .echoLockLost k => decide (k < 4)
  | .ackBlock k _ => decide (k < 4)
  | .statusMessage k _ => decide (k < 4)
  | .tempStale => true
  | .framingError k => decide (k < 4)
  | .sideGo => true
  | .sideAbort => true
  | .sideResponse k _ => decide (k < 4)
  | .sideTimeout => true
  | .trainingBurst lane => decide (lane < 144)
  | .eqFreeze k => decide (k < 4)
  | .eqThaw k => decide (k < 4)
  | .injectBit lane _ period => decide (lane < 136 ∧ period < 2 ^ 24)
  | .injectSymbols lane nsym _ period => decide (lane < 136 ∧ nsym < 32 ∧ period < 2 ^ 24)
  | .injectCrc lane _ period => decide (lane < 136 ∧ period < 2 ^ 24)
  | .injectPeriod lane => decide (lane < 136)
  | .positionSample axis _ _ => decide (axis < 2)
  | .posLost axis => decide (axis < 2)
  | .locked axis => decide (axis < 2)
  | .unlocked axis => decide (axis < 2)
  | .strokeCommit => true
  | .catchStrobe => true
  | .strokeFired => true
  | .servoBoundary => true
  | .lineTestStepEnd _ => true
  | .coxHalt => true
  | .pauseWarn => true
  | .pauseLimit => true
  | .supplyHoldEnd => true
  | .servoPeriodWrite value => decide (value < 128)
  | .statusWord axis _ => decide (axis < 2)
  | .statusWordMissing axis => decide (axis < 2)
  | .driverLost axis => decide (axis < 2)
  | .move axis => decide (axis < 2)
  | .velocity axis => decide (axis < 2)
  | .stop axis => decide (axis < 2)
  | .home axis => decide (axis < 2)
  | .clear axis => decide (axis < 2)
  | .axisPowerWrite axis _ => decide (axis < 2)
  | .adistQuery axis v => decide (axis < 2 ∧ v < 2 ^ 24)
  | .tblLoad => true
  | .tblLoadDone => true
  | .tblRun => true
  | .tblAbort => true
  | .inputEdge axis input _ => decide (axis < 2 ∧ input < 3)
  | .limitTrip axis side => decide (axis < 2 ∧ side < 2)
  | .homeChange axis => decide (axis < 2)
  | .indexEdge edge => decide (edge.axis < 2)
  | .resend => true
  | .resendReadDone => true
  | .injectResidue islet => decide (islet < 128)
  | .injectArea islet => decide (islet < 128)
  | .injectPlace islet => decide (islet < 128)
  | .injectWake track => decide (track < 8192)
  | .injectSplit track => decide (track < 8192)
  | .hbmReadDone port addr answer => decide (port < 16 ∧ 0 < answer.len ∧ addr + answer.len ≤ 96 * 2 ^ 30 ∧ answer.stack < 3)
  | .hbmTrainDone ends => trainEndsWf ends
  | .retrain => true
  | .stackTempRead stack temp => decide (stack < 4 ∧ -128 ≤ temp ∧ temp < 128)
  | .refreshIssue q _ => decide (q < 128)
  | .urgent q => decide (q < 128)
  | .hbmScrubStep _ => true
  | .sramScrubStep _ => true
  | .restore => true
  | .repairSave => true
  | .repairDiscard => true
  | .flip target mask => decide (target < 4 ∧ mask < 256)
  | .selftest => true
  | .selftestDone failed => decide (failed < 65536)
  | .hbmInitGo => true
  | .initDone => true
  | .bar2Read addr len => decide (0 < len ∧ addr + len ≤ 2 ^ 37)
  | .bar2Write addr bytes _ => decide (0 < bytes.length ∧ addr + bytes.length ≤ 2 ^ 37)
  | .configRequest offset _ => offset % 4 == 0 && decide (offset < 4096)
  | .msixUnmask vector => decide (vector < 128)
  | .pendClear word _ => decide (word < 4)
  | .evtForce word _ => decide (word < 4)
  | .perstAsserted => true
  | .perstDeasserted => true
  | .hotReset => true
  | .dataLinkDown => true
  | .flr => true
  | .degraded speed width => linkWf speed width
  | .dmaRun channel => decide (channel < 32)
  | .doorbell channel => decide (channel < 32)
  | .dmaResume channel => decide (channel < 32)
  | .dmaReset channel => decide (channel < 32)
  | .dmaRestart => true
  | .abortAll => true
  | .descriptorFetch channel words => decide (channel < 32 ∧ words.length = 4)
  | .descriptorDone channel _ _ => decide (channel < 32)
  | .dmaTimeout => true
  | .arbiterRound q waiting _ => decide (q < 128) && waiting.all requestWf
  | .tdmSlotStart waiting => waiting.all (fun p => decide (p.1 < 128 ∧ p.2 < 16))
  | .message link words => decide (link < 4) && Machine.wordsOfType 1 words
  | .courseEvent link words => decide (link < 4) && Machine.wordsOfType 2 words
  | .beacon link words => decide (link < 4) && Machine.wordsOfType 3 words
  | .stopToken link words => decide (link < 4) && Machine.wordsOfType 4 words
  | .resumeReady link words => decide (link < 4) && Machine.wordsOfType 5 words
  | .linkWord link _ => decide (link < 4)
  | .packetResendTimeout link => decide (link < 4)
  | .beaconSend => true
  | .upstreamSilent => true
  | .holdoverTimeout => true
  | .failover lane => decide (lane < 8)
  | .sendMessage dest len => decide (dest < 4096 ∧ len < 256)
  | .broadcastMessage dest len => decide (dest < 4096 ∧ len < 256)
  | .recordWriteDone _ => true
  | .optimeTick => true
  | .wallGo => true
  | .noteGo => true
  | .erase => true
  | .erased => true
  | .auditGo => true
  | .exportGo => true
  | .exportDone => true
  | .safeStop => true
  | .hostStop => true
  | .safClear => true
  | .lockKey key => decide (key < 65536)
  | .lockClose => true
  | .lockTimeout => true
  | .echoSilent => true
  | .clock => true
  | .diag bit _ => decide (bit < 10)
  | .follow axis => decide (axis < 2)
  | .driver axis => decide (axis < 2)
  | .stopCheck => true
  | .inhibitDelayEnd => true
  | .testLines => true
  | .testAmps => true
  | .testDiag => true
  | .testDone _ step => decide (step < 256)
  | .powerOn => true
  | .railEnRelease => true
  | .railsGood => true
  | .rstN => true
  | .supplySample rails => decide (rails.length = 8)
  | .tjRead temp => decide (-128 ≤ temp ∧ temp < 128)
  | .warm value => value.getLsbD 16
  | .cold value => value.getLsbD 17
  | .courseAbort value => value.getLsbD 18
  | .standby key _ _ => decide (key < 65536)
  | .wake => true
  | .coldBoot _ ends ms => trainEndsWf ends && decide (ms ≤ 155)
  | .warmBoot _ ms => decide (ms ≤ 120)
  | .cfgWriteSlot slot => decide (slot < 2)
  | .cfgCheckImage slot => decide (slot < 2)
  | .cfgJobDone _ => true
  | .jtagBypass => true
  | .jtagIdcode => true
  | .jtagSamplePreload lands cells => decide (lands.length = 62 ∧ cells.length = 62)
  | .jtagExtest => true
  | .jtagHighz => true
  | .jtagClamp => true
  | .vcStall link vc => decide (link < 4 ∧ vc < 3)
  | .transitPacket link _ => decide (link < 4)
  | .limitClear axis side => decide (axis < 2 ∧ side < 2)
  | .safeStopRelease => true
  | .rstNHigh => true
  | .powerLost => true
  | .linkUp speed width _ => linkWf speed width
  | .aerError _ => true
  | .auditDone => true

end Sys2Proof
end

