-- ==== Sys2Proof/Machine/CmdAxes.lean ====
section
/-! DEFINITION. The meanings of the commands of stage motion (R254 to R275). -/

namespace Sys2Proof.Machine

/-- SERVO_PERIOD_WRITE (R254). -/
def execServoPeriodWrite (value : Nat) (s : State) : Host.Outcome State Fault Refusal := done (Instr.servoPeriodWrite value).wf (servoPeriodOp value) s

/-- STATUS_WORD (R258). -/
def execStatusWord (axis : Nat) (word : Word) (s : State) : Host.Outcome State Fault Refusal := done (Instr.statusWord axis word).wf (statusWordOp axis word) s

/-- STATUS_WORD_MISSING (R258). -/
def execStatusWordMissing (axis : Nat) (s : State) : Host.Outcome State Fault Refusal := done (Instr.statusWordMissing axis).wf (statusMissingOp axis) s

/-- DRIVER_LOST (R258). -/
def execDriverLost (axis : Nat) (s : State) : Host.Outcome State Fault Refusal := done (Instr.driverLost axis).wf (driverLostOp axis) s

/-- MOVE (R262). -/
def execMove (axis : Nat) (s : State) : Host.Outcome State Fault Refusal := done (Instr.move axis).wf (moveOp axis) s

/-- VELOCITY (R262). -/
def execVelocity (axis : Nat) (s : State) : Host.Outcome State Fault Refusal := done (Instr.velocity axis).wf (velocityOp axis) s

/-- STOP (R262). -/
def execStop (axis : Nat) (s : State) : Host.Outcome State Fault Refusal := done (Instr.stop axis).wf (stopOp axis) s

/-- HOME (R272). -/
def execHome (axis : Nat) (s : State) : Host.Outcome State Fault Refusal := done (Instr.home axis).wf (homeOp axis) s

/-- CLEAR (R259). -/
def execClear (axis : Nat) (s : State) : Host.Outcome State Fault Refusal := done (Instr.clear axis).wf (clearOp axis) s

/-- AXIS_POWER_WRITE (R274). -/
def execAxisPowerWrite (axis : Nat) (on : Bool) (s : State) : Host.Outcome State Fault Refusal := done (Instr.axisPowerWrite axis on).wf (axisPowerOp axis on) s

/-- ADIST_QUERY (R261). -/
def execAdistQuery (axis : Nat) (v : Nat) (s : State) : Host.Outcome State Fault Refusal := done (Instr.adistQuery axis v).wf (adistOp axis v) s

/-- TBL_LOAD (R266). -/
def execTblLoad (s : State) : Host.Outcome State Fault Refusal := done true tblLoadOp s

/-- TBL_LOAD_DONE (R266). -/
def execTblLoadDone (s : State) : Host.Outcome State Fault Refusal := done true tblLoadDoneOp s

/-- TBL_RUN (R266). -/
def execTblRun (s : State) : Host.Outcome State Fault Refusal := done true tblRunOp s

/-- TBL_ABORT (R268). -/
def execTblAbort (s : State) : Host.Outcome State Fault Refusal := done true tblAbortOp s

/-- INPUT_EDGE (R269). -/
def execInputEdge (axis : Nat) (input : Nat) (level : Bool) (s : State) : Host.Outcome State Fault Refusal := done (Instr.inputEdge axis input level).wf (inputEdgeOp axis input level) s

/-- LIMIT_TRIP (R270). -/
def execLimitTrip (axis : Nat) (side : Nat) (s : State) : Host.Outcome State Fault Refusal := done (Instr.limitTrip axis side).wf (limitTripOp axis side) s

/-- HOME_CHANGE (R272). -/
def execHomeChange (axis : Nat) (s : State) : Host.Outcome State Fault Refusal := done (Instr.homeChange axis).wf (homeChangeOp axis) s

/-- INDEX_EDGE (R271). -/
def execIndexEdge (edge : IndexEdge) (s : State) : Host.Outcome State Fault Refusal := done (Instr.indexEdge edge).wf (indexEdgeOp edge.axis edge.level) s

/-- LIMIT_CLEAR (R270). -/
def execLimitClear (axis : Nat) (side : Nat) (s : State) : Host.Outcome State Fault Refusal := done (Instr.limitClear axis side).wf (limitClearOp axis side) s

end Sys2Proof.Machine
end

