-- ==== Sys2Proof/Machine/Export.lean ====
section
/-! DEFINITION. The export of log records to HBM (R384). -/

namespace Sys2Proof.Machine

/-- EXPORT_GO (R384): the newest SEQ is noted; BUSY, BAD and FENCED end the job at once with nothing written. -/
def exportGo (s : State) : State :=
  let base := s.pair F.LOG_EXP_BASE_LO_ADDR F.LOG_EXP_BASE_HI_ADDR
  let cap := s.fget F.LOG_EXP_CAP_RECORDS
  if s.log.exporting.isSome || s.log.erasing.isSome then exportResult 4 0 0 0 s
  else if base % 64 ≠ 0 ∨ cap = 0 then exportResult 3 0 0 0 s
  else if s.fencedRange base (64 * cap) then exportResult 2 0 0 0 s
  else
    let first := s.pair F.LOG_EXP_FROM_LO_SEQ F.LOG_EXP_FROM_HI_SEQ
    { s with log := { s.log with
      exporting := some { seq := first, upto := newestSeq s.log, base := base, cap := cap, start := first } } }

/-- A record inserted in ascending SEQ order. -/
def insertRec (r : LogRec) : List LogRec → List LogRec
  | [] => [r]
  | q :: t => if r.seq ≤ q.seq then r :: q :: t else q :: insertRec r t

/-- The records that an export finds, in ascending SEQ order (R384). -/
def exportRecs (l : Recorder) (x : ExportRun) : List LogRec :=
  (l.slots.filterMap Prod.snd).foldl (fun t r => if x.seq ≤ r.seq ∧ r.seq ≤ x.upto then insertRec r t else t) []

/-- EXPORT_DONE (R384): the records found are copied, as many as the capacity takes; the SEQs passed that hold none are gaps. -/
def exportDone (s : State) : State :=
  match s.log.exporting with
  | none => s
  | some x =>
    let recs := (exportRecs s.log x).take x.cap
    let full := decide (x.cap ≤ recs.length)
    let last := (recs.getLast?.map LogRec.seq).getD 0
    let top := if full then last else x.upto
    let gaps := if x.start ≤ top then top + 1 - x.start - recs.length else 0
    let s1 := fencedWrite 13 x.base (recs.flatMap LogRec.bytes) { s with log := { s.log with exporting := none } }
    exportResult (if full then 1 else 0) recs.length (min gaps (2 ^ 32 - 1)) last s1

end Sys2Proof.Machine
end

