-- ==== Sys2Proof/Machine/Guard.lean ====
section
/-! DEFINITION. The safety controller's commands (R387 to R407): the stop input, causes, CLEAR, the lock, diagnostics and the proof test. -/

namespace Sys2Proof.Machine

/-! ### Causes -/

/-- SAFE_STOP (R390, R391): both filtered levels are low. -/
def safeStopOp (s : State) : State := demand 0 (s.raise F.SAF_STATUS_STOP_IN)

/-- SAFE_STOP_RELEASE (R390): the filtered levels have returned high. -/
def safeStopReleaseOp (s : State) : State := s.clear F.SAF_STATUS_STOP_IN

/-- HOST_STOP (R391). -/
def hostStopOp (s : State) : State := demand 1 s

/-- ECHO_SILENT (R391): 50 µs without a good status message while the beam is permitted. -/
def echoSilentOp (s : State) : State :=
  if s.flag F.SAF_STATUS_BEAM_PERMIT then
    demand 3 (s.until (max (s.bln.statusAt.getD 0) (s.saf.permitAt.getD 0) + 50 * ticksPerUs))
  else s

/-- CLOCK (R391, R400): the cross-monitor finds a clock lost or off frequency. -/
def clockOp (s : State) : State := diagFail 6 s

/-- DIAG (R400): a periodic diagnostic runs; one that fails latches its cause. A supply monitor that fails leaves its rail's state unknown,
so it counts as low until a sample says otherwise. -/
def diagOp (bit : Nat) (failed : Bool) (s : State) : State :=
  if !failed then s
  else
    let s1 := diagFail bit s
    if bit = 9 then { s1 with saf := { s1.saf with supplyLow := true } } else s1

/-- FOLLOW (R391): the following error has stood for 20 µs. -/
def followOp (a : Nat) (s : State) : State :=
  match (s.safAxis a).followSince with
  | some t => if s.ref a then demand (11 + a) (s.until (t + 20 * ticksPerUs)) else s
  | none => s

/-- DRIVER (R391): 100 µs without a good status word. -/
def driverOp (a : Nat) (s : State) : State :=
  demand (17 + a) (s.until ((((s.safAxis a).wordAt).getD s.pwr.releasedAt) + 100 * ticksPerUs))

/-! ### CLEAR -/

/-- Whether the condition of a latched cause still holds (R398). -/
def causeHolds (s : State) (c : Nat) : Bool :=
  let wordOld := fun (a : Nat) => match (s.safAxis a).wordAt with | some t => decide (100 * ticksPerUs < s.clock - t) | none => true
  match c with
  | 0 => s.flag F.SAF_STATUS_STOP_IN
  | 2 => s.flag F.BLN_BLANKER_FLAGS_FAULT
  | 4 | 5 => true
  | 6 => s.saf.supplyLow
  | 7 | 8 =>
    let a := c - 7
    !s.atRest a && (match (s.safAxis a).track with | p :: _ => !insideEnvelope s a p.1 | [] => false)
  | 9 | 10 => (s.safAxis (c - 9)).velRun != 0
  | 11 | 12 => (s.safAxis (c - 11)).followSince.isSome
  | 13 | 14 => !(s.loop (c - 13)).posOk && !s.atRest (c - 13)
  | 15 | 16 => s.flag (F.MOT_AX_STATUS_LIM_POS (c - 15)) || s.flag (F.MOT_AX_STATUS_LIM_NEG (c - 15))
  | 17 | 18 => s.flag (F.MOT_AX_STATUS_DRV_FAULT (c - 17)) || wordOld (c - 17)
  | _ => false

/-- SAF_CLEAR (R398). -/
def safClearOp (s : State) : State :=
  if !s.demanded then s
  else
    let left := ((List.range 19).filter (fun c => bitAt c (s.fget F.SAF_CAUSE_CAUSES) && causeHolds s c)).map (fun c => 2 ^ c)
    let s1 := s.fset F.SAF_CAUSE_CAUSES left.sum
    if s1.demanded then s1
    else
      let s2 := (s1.clear F.SAF_CUT_VALID).raise F.SAF_EVENTS_CLEARED
      updatePermit (if s2.saf.stop.isSome then s2 else assertAmps s2)

/-! ### The lock -/

/-- LOCK_KEY (R401): a write of SAF_LOCK.KEY. -/
def lockKeyOp (key : Nat) (s : State) : State :=
  let keep := fun (b : Bool) (u : State) => { u with saf := { u.saf with keyed := b } }
  if s.coxState ≠ 0 ∨ s.demanded then keep false (s.raise F.SAF_EVENTS_LOCK_REFUSED)
  else if key = 0x0A5F then keep true s
  else if key = 0xF5A0 ∧ s.saf.keyed then
    let s1 := keep false s
    if s1.lockOpen then s1
    else { s1.raise F.SAF_STATUS_LOCK_OPEN with saf := { s1.saf with openedAt := some s.clock } }
  else keep false (s.raise F.SAF_EVENTS_LOCK_REFUSED)

/-- LOCK_CLOSE (R401). -/
def lockCloseOp (s : State) : State := closeLock { s with saf := { s.saf with keyed := false } }

/-- LOCK_TIMEOUT (R401): 60 s after opening. -/
def lockTimeoutOp (s : State) : State :=
  match s.saf.openedAt with
  | some t => if s.lockOpen then closeLock (s.until (t + 60000 * ticksPerMs)) else s
  | none => s

/-! ### The proof test -/

/-- The result of a proof test step (R405): 0 PASS, 1 FAIL, 2 REFUSED. -/
def testResult (code step : Nat) (s : State) : State :=
  let (_, s1) := s.postResult R.SAF_TEST_RESULT [(R.SAF_TEST_RESULT, BitVec.ofNat 32 (code * 2 ^ 4 + step % 256 * 2 ^ 8))]
  s1.raise F.SAF_EVENTS_TEST_DONE

/-- A proof test step begins (R405): only with the cox IDLE and no step running. -/
def beginTest (k : Nat) (f : State → State) (s : State) : State :=
  if s.coxState ≠ 0 ∨ s.saf.testing.isSome then testResult 2 0 s
  else f { s with saf := { s.saf with testing := some k } }

/-- TEST_LINES (R405 step 1): each line toggled singly. -/
def testLinesOp (s : State) : State :=
  locked (beginTest 1 (fun u => driveLines false false (driveLines false true (driveLines true false u)))) s

/-- TEST_AMPS (R405 step 2): each enable dropped for 10 µs. -/
def testAmpsOp (s : State) : State :=
  let drop := fun (a : Nat) (u : State) => if u.ampOn a then driveAmp a true ((driveAmp a false u).after (10 * ticksPerUs)) else u
  locked (beginTest 2 (fun u => drop 1 (drop 0 u))) s

/-- The diagnostics that step 3 forces: 0, 1, 3, 7 and 8. -/
def forcedDiags : Nat := 0x18B

/-- TEST_DIAG (R400, R405 step 3): each forced diagnostic sets its bit while it is forced. -/
def testDiagOp (s : State) : State :=
  locked (beginTest 3 (fun u =>
    let old := u.fget F.SAF_DIAG_FAILED
    { u.fset F.SAF_DIAG_FAILED (old ||| forcedDiags) with saf := { u.saf with testDiag := old } })) s

/-- TEST_DONE (R405): the step's result; forced diagnostics are released. -/
def testDoneOp (ok : Bool) (step : Nat) (s : State) : State :=
  match s.saf.testing with
  | none => s
  | some k =>
    let s1 := { s with saf := { s.saf with testing := none, testDiag := 0 } }
    let s2 := if k = 3 then
        let now := s1.fget F.SAF_DIAG_FAILED
        s1.fset F.SAF_DIAG_FAILED (s.saf.testDiag ||| (now &&& (0x3FF ^^^ forcedDiags)))
      else s1
    testResult (if ok then 0 else 1) (if ok then 0 else step) s2

end Sys2Proof.Machine
end

