-- ==== Sys2Proof/Machine/Memory.lean ====
section
/-! DEFINITION. HBM and on-chip memory (R304 to R330): training, refresh, the scrubber's walks, restore, repair, the checker test mode and
initialisation. -/

namespace Sys2Proof.Machine

/-! ### Training -/

/-- A stack's state: 0 DOWN, 1 TRAINING, 2 READY, 3 FAILED, 4 SELF_REFRESH. -/
def setStack (k st : Nat) (s : State) : State := s.fset (F.HBM_STK_STATUS_STATE k) st

/-- Training begins on all four stacks (R307). -/
def beginTraining (s : State) : State :=
  let s1 := (List.range 4).foldl (fun u k => setStack k 1 u) (s.clear F.HBM_STATUS_READY)
  { s1 with mem := { s1.mem with training := true } }

/-- HBM_TRAIN_DONE (R307): per stack whether it failed and its lane repairs. -/
def hbmTrainDoneOp (ends : List (Bool × Nat)) (s : State) : State :=
  if !s.mem.training then s
  else
    let one := fun (u : State) (k : Nat) =>
      let p := ends.getD k (false, 0)
      (setStack k (if p.1 then 3 else 2) u).fset (F.HBM_STK_STATUS_LANE_REPAIRS k) (min 15 p.2)
    let s1 := (List.range 4).foldl one { s with mem := { s.mem with training := false } }
    if (ends.take 4).any Prod.fst then s1.raise F.HBM_EVENTS_TRAIN_FAIL else s1.raise F.HBM_STATUS_READY

/-- RETRAIN (R307): ignored while a queue entry is not EMPTY. -/
def retrainOp (s : State) : State := if s.ing.queue.isEmpty then beginTraining s else s

/-! ### Refresh -/

/-- The refresh interval in force for a pseudo-channel in ns (R309). -/
def refInterval (s : State) (q : Nat) : Nat := if s.flag (F.HBM_STK_STATUS_HOT (q / 32)) then 1950 else 3900

/-- RD of a pseudo-channel in ns (R309). -/
def refDebt (s : State) (q : Nat) : Nat := min (2 ^ 24 - 1) (((s.clock - s.mem.debtFrom.getD q s.clock) / ticksPerNs).toNat)

/-- The refresh state of a pseudo-channel (R310): 0 none due, 1 DUE, 2 PRESS, 3 URGENT. -/
def refState (s : State) (q : Nat) : Nat :=
  let rd := refDebt s q
  let t := refInterval s q
  if s.mem.urgent.contains q || decide (8 * t ≤ rd) then 3
  else if rd < t then 0
  else if rd < max 1 (s.fget F.HBM_CTL_REF_PRESS) * t then 1
  else 2

/-- Whether a reserved burst holds a pseudo-channel (R311, R346). -/
def State.burstOn (s : State) (q : Nat) : Bool := s.arb.bursts.any (fun b => b.q == q)

/-- The pseudo-channels whose URGENT has ended leave it (R310, R330). -/
def settleUrgent (s : State) : State :=
  let left := s.mem.urgent.filter (fun q => decide (4 * refInterval s q < refDebt s q))
  let s1 := { s with mem := { s.mem with urgent := left } }
  s1.fset F.HBM_STATUS_URGENT (bitOf (!left.isEmpty))

/-- The largest debt so far noted (HBM_REF_DEBT_MAX). -/
def noteDebt (q : Nat) (s : State) : State := s.raiseTo F.HBM_REF_DEBT_MAX_NS (refDebt s q)

/-- A pseudo-channel enters URGENT, and a reserved burst at it is split (R310, R311). -/
def enterUrgent (q : Nat) (s : State) : State :=
  let s1 := noteDebt q { s with mem := { s.mem with urgent := insertKey q s.mem.urgent } }
  let s2 := ((s1.bump F.HBM_REF_URGENT_COUNT_COUNT).raise F.HBM_EVENTS_URGENT).raise F.HBM_STATUS_URGENT
  if s2.burstOn q then (s2.bump F.HBM_REF_SPLITS_COUNT).raise F.HBM_EVENTS_SPLIT else s2

/-- The refresh state at a command decision (R310): a debt at the postponement limit makes the pseudo-channel URGENT. -/
def decideRefresh (q : Nat) (s : State) : State :=
  if refState s q = 3 ∧ !s.mem.urgent.contains q then enterUrgent q s else s

/-- REFRESH_ISSUE (R309 to R311): a pseudo-channel issues an all-bank refresh where its debt's state lets it. -/
def refreshOp (q : Nat) (waiting : Bool) (s0 : State) : State :=
  let s := decideRefresh q s0
  let go := match refState s q with
    | 0 => false
    | 1 => !waiting && !s.burstOn q
    | 2 => !s.burstOn q
    | _ => true
  if go then
    let s1 := noteDebt q s
    let from1 := s1.mem.debtFrom.set q (s1.mem.debtFrom.getD q s1.clock + refInterval s q * ticksPerNs)
    settleUrgent { s1 with mem := { s1.mem with debtFrom := from1 } }
  else s

/-- URGENT (R310, R311): the debt reaches the postponement limit; a reserved burst is split. -/
def urgentOp (q : Nat) (s : State) : State :=
  if s.mem.urgent.contains q then s
  else
    enterUrgent q (s.until (s.mem.debtFrom.getD q s.clock + 8 * refInterval s q * ticksPerNs))

/-- STACK_TEMP_READ (R309, R310): a stack becomes HOT above 85 °C, where its debts are judged against the shorter interval, and normal at
83 °C. -/
def stackTempOp (k : Nat) (temp : Int) (s : State) : State :=
  let was := s.flag (F.HBM_STK_STATUS_HOT k)
  let s1 := s.fsetI (F.HBM_STK_STATUS_TEMP k) temp
  let s2 := s1.fsetI (F.HBM_STK_STATUS_TEMP_MAX k) (max temp (s1.sget (F.HBM_STK_STATUS_TEMP_MAX k)))
  if 85 < temp ∧ !was then
    (List.range 32).foldl (fun u i => decideRefresh (32 * k + i) u) ((s2.raise (F.HBM_STK_STATUS_HOT k)).raise F.HBM_EVENTS_HOT)
  else if temp ≤ 83 ∧ was then settleUrgent ((s2.clear (F.HBM_STK_STATUS_HOT k)).raise F.HBM_EVENTS_COOL)
  else s2

/-- A row activation at a pseudo-channel (R313): its stack's shift register draws whether a neighbour refresh follows. -/
def neighbourDraw (q : Nat) (s : State) : State :=
  if s.flag F.HBM_CTL_NBR_EN then
    let w := s.mem.lfsr.getD (q / 32) 0#32
    let s1 := { s with mem := { s.mem with lfsr := s.mem.lfsr.set (q / 32) (Config.shiftNext w) } }
    if Config.shiftDraws w (max 8 (min 16 (s.fget F.HBM_CTL_NBR_K))) then s1.bump F.HBM_NBR_COUNT_COUNT else s1
  else s

/-! ### Reads -/

/-- A tile's computation under way is put off until its source is whole again (R289). -/
def putOffTile (b k : Nat) (atAdmission : Bool) (s : State) : State :=
  let same := fun (p : Nat × IsletWork) => p.2.band == b && p.2.tile == k && (p.2.kind == 3) == atAdmission
  let s1 := { s with ras := { s.ras with slots := s.ras.slots.filter (fun p => !same p) } }
  if atAdmission then s1 else (s.ras.slots.filter same).foldl (fun u p => putBack b k p.2.kind false u) s1

/-- The tile of a stream whose bytes a port cannot read within a range, with what is lost (R289). -/
def lostIn (s : State) (port : Nat) (e : Entry) (h : StreamHead) (addr len : Nat) : Option ((Nat × Nat) × (Nat × Nat × Bool)) :=
  (allTiles s.shape h).findSome? (fun p =>
    (lossOf s port e h p.1 p.2).bind (fun r => if overlaps (r.1, r.2.1) (addr, len) then some (p, r) else none))

/-- What an uncorrectable read does for a requester of stream bytes (R315, R289), beside its counts; none where the range holds none. -/
def streamLost (port addr len : Nat) (s : State) : Option State :=
  let entry := if port = 14 then s.ing.adm.bind (fun a => s.entry a.idx) else if port ≤ 8 then s.running else none
  entry.bind (fun e => e.head.bind (fun h => (lostIn s port e h addr len).map (fun hit =>
    let (b, k) := hit.1
    let s1 := foundLoss e b k hit.2 (port == 14) (putOffTile b k (port == 14) s)
    if port = 8 then { s1 with bsx := { s1.bsx with busy := false, lost := true } } else s1)))

/-- The running entry whose work area a read of the backscatter engine touches. -/
def areaRead (s : State) (port addr len : Nat) : Option (Entry × StreamHead) :=
  if port = 8 then s.running.bind (fun e => e.workRange.bind (fun w =>
    if overlaps w (addr, len) then e.head.map (fun h => (e, h)) else none)) else none

/-- What an uncorrectable read does for its requester (R315, R126), beside its counts. A word that only its way to the port spoils stays
marked for what the port does with the data next. -/
def readLost (port addr len : Nat) (s : State) : State :=
  match areaRead s port addr len with
  | some (e, h) => rebuildRows e h (badRows s e addr len) s
  | none => (streamLost port addr len s).getD s

/-- A word on its way to a port marked uncorrectable without a fault of the stored word (R305, R316). -/
def markWord (port w : Nat) (s : State) : State := { s with mem := { s.mem with marked := (port, w) :: s.mem.marked } }

/-- The marks of a port's range removed. -/
def clearMarks (port addr len : Nat) (s : State) : State :=
  { s with mem := { s.mem with marked := s.mem.marked.filter (fun p => !(p.1 == port && (wordsOf addr len).contains p.2)) } }

/-- An uncorrectable word that nothing stored shows, and what follows for the requester of the range (R305, R314 to R316). -/
def spoiledRead (port addr len : Nat) (s : State) : State :=
  let s1 := markWord port (addr / 8) s
  if port = 15 then s
  else match areaRead s1 port addr len with
    | some (e, h) => clearMarks port addr len (rebuildRows e h (badRows s1 e addr len) s1)
    | none => match streamLost port addr len s1 with
      | some s2 => clearMarks port addr len s2
      | none => s1

/-- The report of a stack's own ECC on the first word of a read (R305, R314): 1 an error it corrected, 2 an uncorrected error. The severer
of it and the device's own decode stands. -/
def stackReport (port w stack : Nat) (s : State) : State :=
  match stack, s.wordClass w with
  | 1, .clean =>
    spendMark port w ((countRow w (noteCe w s)).storeWord w 0 (s.mergeBytes w []))
  | 2, .uncorrectable => (readHbmWord (port == 15) port w s).raise F.HBM_ERR_INFO_STACK
  | 2, _ =>
    proposeHbm 5 (8 * w) ((noteUe (port == 15) port w s).raise F.HBM_ERR_INFO_STACK)
  | _, _ => readHbmWord (port == 15) port w s

/-- HBM_READ_DONE (R28, R305, R314, R315, R324): a read of a requester port that no other command makes, with the stack's report on its first
word. -/
def hbmReadDoneOp (port addr len stack : Nat) (s : State) : State :=
  let s1 := returnReads port addr len ((wordsOf addr len).drop 1 |>.foldl (fun t w => readHbmWord (port == 15) port w t)
    (stackReport port (addr / 8) stack s))
  if stack = 2 && s.wordClass (addr / 8) != .uncorrectable then spoiledRead port addr len s1
  else if s.hbmBad port addr len then readLost port addr len s1
  else s1

/-- FIFO_PARITY_ERROR (R316). -/
def fifoParityOp (site : FifoSite) (s : State) : State :=
  let s1 := (s.bump F.SRM_PAR_COUNT_COUNT).raise F.SRM_EVENTS_FIFO_PARITY
  match site with
  | .toLane l =>
    match s1.nextFrame l with
    | some f => { s1 with bln := { s1.bln with frames := s1.bln.frames.map (fun x => if x = f then { x with badCrc := true } else x) } }
    | none =>
      match s1.bln.side.bind SideJob.flight with
      | some g => if g.lane = l then s1.setTrain l { (s1.train l) with crcArm := true } else s1
      | none => s1
  | .fromEcho k => echoCrcError k s1
  | .toHbm a d =>
    if s1.hbmReady then
      clientRange (a / 8 * 8) 8 (fun x n u =>
        if n = 8 then (u.storeWord (x / 8) 3 ((List.range 8).map (fun i => (x + i, BitVec.ofNat 8 (d.toNat / 2 ^ (8 * i)))))).raise
          F.HBM_EVENTS_POISON_WRITE
        else u) s1
    else s1
  | .fromHbm port addr len => spoiledRead port addr len (noteUe false port (addr / 8) s1)

/-! ### The tide scrubber -/

/-- HBM_SCRUB_STEP (R321, R323): the walk reads its next word; at the end of a lap it records the lap and starts again. -/
def hbmScrubOp (late : Bool) (s : State) : State :=
  if !s.flag F.HBM_SCRUB_CTL_EN then s
  else
    let rate := max 1 (s.fget F.HBM_SCRUB_CTL_RATE)
    let a := s.pair F.HBM_SCRUB_POS_LO_ADDR F.HBM_SCRUB_POS_HI_ADDR
    let s0 := s.after (8 * 64000000000 / (rate * 1048576))
    let c := s0.wordClass (a / 8)
    let s1 := readHbmWord true 15 (a / 8) s0
    let ce := s1.mem.hbmCe + (match c with | .corrected _ => 1 | _ => 0)
    let ue := s1.mem.hbmUe + (if c = .uncorrectable then 1 else 0)
    let s2 := State.raiseIf late F.HBM_EVENTS_SCRUB_LATE (s1.fset F.HBM_STATUS_SCRUB_LATE (bitOf late))
    if a + 8 < hbmSize then
      ({ s2 with mem := { s2.mem with hbmCe := ce, hbmUe := ue } }).setPair F.HBM_SCRUB_POS_LO_ADDR F.HBM_SCRUB_POS_HI_ADDR (a + 8)
    else
      let ms := ((s2.clock - s2.mem.hbmLapAt) / ticksPerMs).toNat
      let s3 := (s2.bump F.HBM_SCRUB_LAPS_COUNT).fset F.HBM_SCRUB_LAP_TIME_MS (min ms (2 ^ 32 - 1))
      let s4 := s3.setReg R.HBM_SCRUB_LAP_ERRS (BitVec.ofNat 32 (min ce 65535 + min ue 65535 * 65536))
      ({ s4.raise F.HBM_EVENTS_SCRUB_LAP with mem := { s4.mem with hbmCe := 0, hbmUe := 0, hbmLapAt := s4.clock } }).setPair
        F.HBM_SCRUB_POS_LO_ADDR F.HBM_SCRUB_POS_HI_ADDR 0

/-- The i-th word of a table's bank, in the order of the SRAM walk. -/
def walkWord (t : TableId) (b i : Nat) : Nat :=
  match t with
  | .krn => if i = 0 then R.DOS_KRN_RADIUS b else if i < 4 then R.DOS_KRN_ETA b (i - 1)
      else R.DOS_KRN_TAP b ((i - 4) / 151) ((i - 4) % 151)
  | .tgn => R.DOS_TGN b i
  | .map => 0x800000 + 4 * i
  | .wave => if i = 0 then R.STK_WAVE_GPD b else if i % 2 = 1 then R.STK_WAVE_LO b (i / 2) else R.STK_WAVE_HI b (i / 2 - 1)
  | .lanes => R.BLN_MAP b i

/-- The stretches of table words in the order of the SRAM walk (R321). -/
def walkParts : List (TableId × Nat × Nat) :=
  [(.krn, 0, 457), (.krn, 1, 457), (.tgn, 0, 4096), (.tgn, 1, 4096), (.map, 0, 2097152), (.wave, 0, 33), (.wave, 1, 33),
   (.lanes, 0, 136), (.lanes, 1, 136)]

/-- The address of the table word at a position of the walk, none past the last one. -/
def walkAt : List (TableId × Nat × Nat) → Nat → Option Nat
  | [], _ => none
  | (t, b, n) :: rest, i => if i < n then some (walkWord t b i) else walkAt rest (i - n)

/-- Words of the double-banked tables in the walk. -/
def walkBanks : Nat := (walkParts.map (fun p => p.2.2)).sum

/-- Table words in the walk: the banks, then the 128 rows of 65 words of the backscatter window (R316; log entry 109). -/
def walkTables : Nat := walkBanks + 8320

/-- The table word at a position of the walk, none past the last one (R321). -/
def walkTable (p : Nat) : Option Nat :=
  match walkAt walkParts p with
  | some a => some a
  | none =>
    let i := p - walkBanks
    if i < 8320 then some (0x1000000 + 512 * (i / 65) + 4 * (i % 65)) else none

/-- The first position at or after one whose wake slot is valid, none where no slot from there on is. `n` bounds the slots. -/
def walkCell (s : State) : Nat → Nat → Option Nat
  | 0, _ => none
  | n + 1, i =>
    let size := s.shape.tile * s.shape.tracks
    let k := i / size
    if s.shape.wakeSlots ≤ k then none
    else
      let w := s.wakeSlot k
      if w.held && w.mask.length == s.shape.tilesPerBand then some i else walkCell s n ((k + 1) * size)

/-- A wake cell read by the walk (R322). -/
def walkWake (i : Nat) (s : State) : State :=
  let size := s.shape.tile * s.shape.tracks
  let w := s.wakeSlot (i / size)
  let y := w.band * s.shape.tile + i % size / s.shape.tracks
  let t := i % s.shape.tracks
  if s.cellAt (cellIndex s.shape t y) / 2 ^ 16 % 4 ≠ 0 then
    let s1 := (s.bump F.SRM_PAR_COUNT_COUNT).raise F.SRM_EVENTS_PARITY
    queueRedo w.band (t / s.shape.tile) [] false { s1 with mem := { s1.mem with sramPar := s1.mem.sramPar + 1 } }
  else s

/-- The end of a lap of the SRAM walk (R323). -/
def sramLap (s : State) : State :=
  let us := ((s.clock - s.mem.sramLapAt) / ticksPerUs).toNat
  let s1 := (s.bump F.SRM_SCRUB_LAPS_COUNT).fset F.SRM_SCRUB_LAP_TIME_US (min us (2 ^ 32 - 1))
  let s2 := s1.setReg R.SRM_SCRUB_LAP_ERRS (BitVec.ofNat 32 (min s.mem.sramCe 65535 + min s.mem.sramPar 65535 * 65536))
  { s2.raise F.SRM_EVENTS_SCRUB_LAP with mem := { s2.mem with sramPos := 0, sramCe := 0, sramPar := 0, ceLap := [], sramLapAt := s2.clock } }

/-- SRAM_SCRUB_STEP (R321 to R323): the walk reads its next table word, or the next cell of a valid wake row. -/
def sramScrubOp (late : Bool) (s : State) : State :=
  if !s.flag F.SRM_CTL_SCRUB_EN then s
  else
    let rate := max 1 (s.fget F.SRM_CTL_RATE)
    let s0 := s.after (4 * 64000000000 / (rate * 1048576))
    let s1 := State.raiseIf late F.SRM_EVENTS_SCRUB_LATE (s0.fset F.SRM_STATUS_SCRUB_LATE (bitOf late))
    let p := s1.mem.sramPos
    match walkTable p with
    | some a =>
      let s2 := (List.range 4).foldl (fun u i => readTableByte (a + i) u) s1
      let s3 := { s2 with mem := { s2.mem with sramPos := p + 1 } }
      if p + 1 < walkTables || (walkCell s3 25 0).isSome then s3 else sramLap s3
    | none =>
      match walkCell s1 25 (p - walkTables) with
      | none => sramLap s1
      | some i =>
        let s2 := walkWake i s1
        let s3 := { s2 with mem := { s2.mem with sramPos := walkTables + i + 1 } }
        if (walkCell s3 25 (i + 1)).isSome then s3 else sramLap s3

/-! ### Restore and repair -/

/-- A table word written past the bank rules (R320): a beam map word keeps the host's bits only. -/
def putTableWord (a : Nat) (v : Word) (s : State) : State :=
  match tableAt a with
  | some (.map, _, off) =>
    let i := off / 8
    let old := s.mapEntryRaw i
    let new := if off % 8 = 0 then old / 2 ^ 32 * 2 ^ 32 + v.toNat else old % 2 ^ 32 + v.toNat * 2 ^ 32
    { s with crw := { s.crw with map := sparsePut (fun _ => 0) i (entryHostBits new) s.crw.map } }
  | _ =>
    let mask := match descOf a with
      | none => 0
      | some d => (d.fields.map (fun f => (2 ^ f.width - 1) * 2 ^ f.lo)).sum
    s.setReg a (v &&& BitVec.ofNat 32 mask)

/-- RESTORE (R320): a BAD word is written afresh, or the write is refused. -/
def restoreOp (s : State) : State :=
  let a := s.fget F.SRM_RESTORE_ADDR_OFFSET
  if s.mem.bad.contains a then
    let s1 := putTableWord a (s.reg R.SRM_RESTORE_DATA) s
    let s2 := freshTable (fun x => decide (a ≤ x ∧ x < a + 4)) s1
    { s2.raise F.SRM_EVENTS_RESTORED with mem := { s2.mem with bad := s2.mem.bad.filter (fun x => x != a) } }
  else s.raise F.SRM_EVENTS_RESTORE_REFUSED

/-- REPAIR_SAVE (R326). -/
def repairSaveOp (s : State) : State := saveRepair s

/-- REPAIR_DISCARD (R326). -/
def repairDiscardOp (s : State) : State := s.setReg R.SRM_REPAIR_CAND 0#32

/-! ### The checker test mode -/

/-- FLIP (R327): armed for the next write to the target, under the lock. -/
def flipOp (target flip : Nat) (s : State) : State :=
  locked (fun u => ((u.fset F.SRM_CHK_CTL_MODE 1).fset F.SRM_CHK_CTL_TARGET target).fset F.SRM_CHK_CTL_FLIP flip) s

/-- The result of a self-test (R327). -/
def selftestResult (code failed : Nat) (s : State) : State :=
  let (_, s1) := s.postResult R.SRM_CHK_RESULT [(R.SRM_CHK_RESULT, BitVec.ofNat 32 (code * 2 ^ 4 + failed % 65536 * 2 ^ 8))]
  s1.raise F.SRM_EVENTS_SELFTEST_DONE

/-- SELFTEST (R327): only while the cox is IDLE and no entry is RUNNING. -/
def selftestOp (s : State) : State :=
  locked (fun u =>
    if u.coxState ≠ 0 ∨ u.running.isSome ∨ u.mem.selftest.isSome then selftestResult 2 0 u
    else
      let u1 := (u.fset F.SRM_CHK_CTL_MODE 2).raise F.SRM_STATUS_SELFTEST_BUSY
      { u1 with mem := { u1.mem with selftest := some true } }) s

/-- SELFTEST_DONE (R327): with the number of checkers that failed. -/
def selftestDoneOp (failed : Nat) (s : State) : State :=
  if s.mem.selftest.isNone then s
  else
    let s1 := (s.fset F.SRM_CHK_CTL_MODE 0).clear F.SRM_STATUS_SELFTEST_BUSY
    selftestResult (if failed = 0 then 0 else 1) failed { s1 with mem := { s1.mem with selftest := none } }

/-! ### Initialisation -/

/-- HBM_INIT_GO (R329). -/
def hbmInitOp (s : State) : State :=
  let base := s.pair F.HBM_INIT_BASE_LO_ADDR F.HBM_INIT_BASE_HI_ADDR
  let len := s.pair F.HBM_INIT_LEN_LO_LEN F.HBM_INIT_LEN_HI_LEN
  if base % 4096 ≠ 0 ∨ len % 4096 ≠ 0 ∨ len = 0 ∨ hbmSize < base + len ∨ s.fencedRange base len ∨ s.flag F.HBM_STATUS_INIT_BUSY then
    s.raise F.HBM_EVENTS_INIT_REFUSED
  else { s.raise F.HBM_STATUS_INIT_BUSY with mem := { s.mem with init := some (base, len) } }

/-- INIT_DONE (R328, R329): the range is zero; entries of the beam map's shadow in it are marked (R143), or ignored while it is closed. -/
def initDoneOp (s : State) : State :=
  match s.mem.init with
  | none => s
  | some (base, len) =>
    let s2 := ((clientRange base len zeroHbm s).clear F.HBM_STATUS_INIT_BUSY).raise F.HBM_EVENTS_INIT_DONE
    { s2 with mem := { s2.mem with init := none } }

end Sys2Proof.Machine
end

