-- ==== Sys2Proof/Machine/HostLink.lean ====
section
/-! DEFINITION. The host link's windows and configuration space (R331 to R335), the DMA engine (R337 to R344) and the HBM arbiter (R345 to
R349). -/

namespace Sys2Proof.Machine

/-! ### Errors and the link -/

/-- AER_ERROR (R331): a correctable or an uncorrectable error logged. -/
def aerOp (uncorr : Bool) (s : State) : State :=
  if uncorr then (s.raise F.PCI_EVENTS_AER_UNCORR).bump F.PCI_UNCORR_COUNT_COUNT
  else (s.raise F.PCI_EVENTS_AER_CORR).bump F.PCI_CORR_COUNT_COUNT

/-- LINK_UP (R331): the width and rate that both ends support. -/
def linkUpOp (speed width : Nat) (flit : Bool) (s : State) : State :=
  s.setReg R.PCI_STATUS (BitVec.ofNat 32 (speed % 8 + width % 32 * 2 ^ 3 + bitOf flit * 2 ^ 8 + 2 ^ 9))

/-- DEGRADED (R331): a drop in width or rate after training. -/
def degradedOp (speed width : Nat) (s : State) : State :=
  ((s.fset F.PCI_STATUS_SPEED speed).fset F.PCI_STATUS_WIDTH width).raise F.PCI_EVENTS_DEGRADED

/-! ### BAR2 -/

/-- An offset of BAR2 at or above 96 GiB (R335). -/
def bar2Range (a : Nat) (s : State) : State :=
  (s.raise F.PCI_EVENTS_BAR2_RANGE).setPair F.PCI_BAR2_RANGE_ADDR_LO_OFFSET F.PCI_BAR2_RANGE_ADDR_HI_OFFSET a

/-- BAR2_READ (R335): bytes past 96 GiB read as zero; an uncorrectable word poisons or aborts the completion. -/
def bar2ReadOp (a n : Nat) (s : State) : State :=
  let inside := min n (hbmSize - a)
  let s1 := if inside < n then bar2Range (max a hbmSize) s else s
  let s2 := readHbm 11 a inside s1
  if s1.hbmBad 11 a inside then
    let s3 := s2.raise F.PCI_EVENTS_POISON_OUT
    if s3.flag F.PCI_CTL_UE_CA then { s3 with resp := .abort }
    else { s3 with resp := .bytes true (s1.readBytes a inside ++ List.replicate (n - inside) 0#8) }
  else
    { s2 with resp := .bytes false (s1.readBytes a inside ++ List.replicate (n - inside) 0#8) }

/-- BAR2_WRITE (R335): a poisoned write and bytes past 96 GiB are discarded; the fence of R65 holds. -/
def bar2WriteOp (a : Nat) (bs : List Byte) (poisoned : Bool) (s : State) : State :=
  if poisoned then aerOp true s
  else
    let inside := min bs.length (hbmSize - a)
    let s1 := if inside < bs.length then bar2Range (max a hbmSize) s else s
    if inside = 0 then s1 else fencedWrite 11 a (bs.take inside) s1

/-! ### Configuration space -/

/-- The pending messages of unmasked vectors sent once the function may send (R371). -/
def flushPba (s : State) : State :=
  if s.msix.enable && !s.msix.fmask then
    let go := s.evt.pba.filter (fun n => !s.msix.masked.contains n)
    let s1 := { s with evt := { s.evt with pba := s.evt.pba.filter (fun n => s.msix.masked.contains n) } }
    s1.emits ((go.filter s.pend).map Output.msix)
  else s

/-- The listed bytes of the identity record (R431). -/
def State.identity (s : State) : List (Nat × Byte) := s.keel.bytes.filter (fun p => decide (0x1C00000 ≤ p.1 ∧ p.1 < 0x1C01000))

/-- A word of configuration space (R332): IDs, class, subsystem and interrupt pin; the rest is what PCIe and this spec leave open. -/
def configWord (s : State) (off g : Nat) : Word :=
  if off / 4 = 0 then 0x1024C57E#32
  else if off / 4 = 2 then BitVec.ofNat 32 (0x120000 * 2 ^ 8 + (Config.freeWord g 0).toNat % 256)
  else if off / 4 = 11 then Config.subsystem s.identity
  else if off / 4 = 15 then Config.freeWord g 0 &&& 0xFFFF00FF#32
  else Config.freeWord g 0

/-- CONFIG_REQUEST (R332, R336): retried until the boot is complete; then a word is read, or the MSI-X control bits are written. -/
def configRequestOp (off : Nat) (control : Option (Bool × Bool)) (s : State) : State :=
  if !s.flag F.CFG_STATUS_READY then { s with resp := .retry }
  else match control with
    | some (en, fm) => flushPba { s with msix := { s.msix with enable := en, fmask := fm } }
    | none =>
      let (g, s1) := s.fresh
      { s1 with resp := .data [configWord s1 off g] }

/-! ### DMA channels -/

/-- Channel c. -/
def State.chan (s : State) (c : Nat) : DmaChan := s.dma.getD c chanReset

/-- Channel c replaced. -/
def State.setChan (s : State) (c : Nat) (d : DmaChan) : State := { s with dma := s.dma.set c d }

/-- The state of a channel: 0 IDLE, 1 WAIT, 2 ACTIVE, 3 STOPPED, 4 HALTED. -/
def State.chanState (s : State) (c : Nat) : Nat := s.fget (F.DMA_CH_STATUS_STATE c)

/-- The state of a channel set. -/
def setChanState (c st : Nat) (s : State) : State := s.fset (F.DMA_CH_STATUS_STATE c) st

/-- The base of a channel's ring (R338). -/
def ringBase (s : State) (c : Nat) : Nat := s.pair (F.DMA_CH_RING_LO_ADDR c) (F.DMA_CH_RING_HI_ADDR c)

/-- Descriptors of a channel's ring (R338). -/
def ringSize (s : State) (c : Nat) : Nat := 2 ^ max 4 (s.fget (F.DMA_CH_CTL_RING_LOG2 c))

/-- The address of the descriptor at a channel's pointer (R338, R339). -/
def descAddr (s : State) (c : Nat) : Nat :=
  if s.flag (F.DMA_CH_PTR_OFF_RING c) then (s.chan c).offAddr else ringBase s c + 32 * s.fget (F.DMA_CH_PTR_INDEX c)

/-- The pointer of a channel set to a descriptor's address (R339). -/
def pointTo (c a : Nat) (s : State) : State :=
  let b := ringBase s c
  if b ≤ a ∧ a < b + 32 * ringSize s c then (s.fset (F.DMA_CH_PTR_INDEX c) ((a - b) / 32)).clear (F.DMA_CH_PTR_OFF_RING c)
  else (s.raise (F.DMA_CH_PTR_OFF_RING c)).setChan c { s.chan c with offAddr := a }

/-- The pointer of a channel moved to the next descriptor (R338, R339). -/
def pointNext (c : Nat) (s : State) : State :=
  if s.flag (F.DMA_CH_PTR_OFF_RING c) then s.setChan c { s.chan c with offAddr := (s.chan c).offAddr + 32 }
  else s.fset (F.DMA_CH_PTR_INDEX c) ((s.fget (F.DMA_CH_PTR_INDEX c) + 1) % ringSize s c)

/-- Qword 3 of a descriptor written back (R341, R342). -/
def writeBack (c a status bytes : Nat) (s : State) : State :=
  let q3 := leBytes 8 (status % 16 * 2 ^ 4 + bytes % 2 ^ 32 * 2 ^ 32)
  if (s.chan c).ringHbm then fencedWrite 10 (a + 24) q3 s else s.emit (.hostWrite (a + 24) q3)

/-- Whether a channel is ready to move data (R344): it executes a descriptor. -/
def State.chanReady (s : State) (c : Nat) : Bool := s.chanState c == 2 && (s.chan c).desc.isSome

/-- The channels that the movers serve. -/
def State.servedChans (s : State) : List Nat := (List.range 32).filter (fun c => (s.chan c).served)

/-- The channel of lowest PRIO among some. -/
def State.lowestChan (s : State) : List Nat → Option Nat
  | [] => none
  | c :: t => match s.lowestChan t with
    | some d => if s.fget (F.DMA_CH_CTL_PRIO d) < s.fget (F.DMA_CH_CTL_PRIO c) then some d else some c
    | none => some c

/-- A ready channel takes a free one of the 4 movers, or that of a channel of lower PRIO (R344). -/
def takeMover (s : State) (c : Nat) : State :=
  let on := s.servedChans
  if !s.chanReady c || on.contains c then s
  else if on.length < 4 then s.setChan c { s.chan c with served := true }
  else match s.lowestChan on with
    | some d =>
      if s.fget (F.DMA_CH_CTL_PRIO d) < s.fget (F.DMA_CH_CTL_PRIO c) then
        let s1 := s.setChan d { s.chan d with served := false }
        s1.setChan c { s1.chan c with served := true }
      else s
    | none => s

/-- The movers go round (R344): channels that no longer move give theirs up, and ready ones take them by PRIO, those of one PRIO in turn. -/
def shareMovers (s : State) : State :=
  let s1 := { s with dma := (List.range 32).map (fun c => { s.chan c with served := (s.chan c).served && s.chanReady c }) }
  let turn := (List.range 32).map (fun i => (s.moverTurn + i) % 32)
  ((List.range 8).map (fun k => 7 - k)).foldl (fun u p =>
    (turn.filter (fun c => s.fget (F.DMA_CH_CTL_PRIO c) == p)).foldl takeMover u) s1

/-- A channel's mover is given up at a descriptor's end, and the turn moves past it (R344). -/
def leaveMover (c : Nat) (s : State) : State :=
  let d := s.chan c
  shareMovers (if d.served then { s.setChan c { d with served := false } with moverTurn := (c + 1) % 32 } else s)

/-- A channel stops for a reason of its own (R342). -/
def stopChan (c status bytes : Nat) (s : State) : State :=
  let s1 := pointNext c (writeBack c (descAddr s c) status bytes s)
  let s2 := s1.setChan c { s1.chan c with desc := none, fetch := false, parked := false, links := 0 }
  leaveMover c (((setChanState c 3 s2).fset (F.DMA_CH_STATUS_LAST c) status).raise (F.DMA_CH_EVENTS_STOPPED c))

/-- A channel goes on to its next descriptor while RUN is 1 (R338). -/
def nextFetch (c : Nat) (s : State) : State :=
  let run := s.flag (F.DMA_CH_CTL_RUN c)
  setChanState c (if run then 2 else 1) (s.setChan c { s.chan c with desc := none, fetch := run, parked := !run })

/-- DMA_RUN (R338). -/
def dmaRunOp (c : Nat) (s : State) : State :=
  let st := s.chanState c
  let s1 := s.raise (F.DMA_CH_CTL_RUN c)
  if s.flag F.DMA_STATUS_HALTED then s1
  else if st = 0 then nextFetch c (s1.setChan c { s1.chan c with ringHbm := s.flag (F.DMA_CH_CTL_RING_HBM c) })
  else if st = 1 ∧ (s.chan c).parked then nextFetch c s1
  else s1

/-- DOORBELL (R338, R352): a waiting channel fetches again. -/
def doorbellOp (c : Nat) (s : State) : State := if s.chanState c = 1 then nextFetch c s else s

/-- DMA_RESUME (R342, R343): from STOPPED at the pointer; from HALTED the held descriptor again from its first byte. -/
def dmaResumeOp (c : Nat) (s : State) : State :=
  let st := s.chanState c
  if st = 3 then nextFetch c s
  else if st = 4 ∧ !s.flag F.DMA_STATUS_HALTED then
    if (s.chan c).desc.isSome then shareMovers (setChanState c 2 s) else nextFetch c s
  else s

/-- A data descriptor as R337 lays it out. -/
structure DmaDesc where
  src : Nat
  dst : Nat
  len : Nat
  typ : Nat
  srcHbm : Bool
  dstHbm : Bool
  srcFixed : Bool
  dstFixed : Bool
  swap : Nat
  irq : Bool
  reserved : Bool
  own : Bool
deriving DecidableEq, Repr

/-- A descriptor read from its four qwords. -/
def dmaDesc (ws : List DWord) : DmaDesc :=
  let q := fun (i : Nat) => (ws.getD i 0#64).toNat
  { src := q 0, dst := q 1, len := bits 0 32 (q 2), typ := bits 32 3 (q 2), srcHbm := bitAt 35 (q 2), dstHbm := bitAt 36 (q 2)
    srcFixed := bitAt 37 (q 2), dstFixed := bitAt 38 (q 2), swap := bits 39 2 (q 2), irq := bitAt 41 (q 2)
    reserved := decide (bits 42 6 (q 2) ≠ 0 ∨ bits 1 3 (q 3) ≠ 0 ∨ bits 8 24 (q 3) ≠ 0), own := bitAt 0 (q 3) }

/-- The status that the checks of R340 give a data descriptor; 0 where it may run. -/
def descCheck (d : DmaDesc) : Nat :=
  let step := fun (fixed : Bool) => if fixed then 8 else d.len
  if d.typ ≠ 0 ∨ d.reserved ∨ d.len = 0 then 1
  else if (d.srcFixed && d.src % 8 != 0) || (d.dstFixed && d.dst % 8 != 0) || ((d.srcFixed || d.dstFixed) && d.len % 8 != 0) then 1
  else if (d.swap == 1 && d.len % 2 != 0) || (decide (2 ≤ d.swap) && d.len % 4 != 0) then 1
  else if (d.srcHbm && decide (hbmSize < d.src + step d.srcFixed)) || (d.dstHbm && decide (hbmSize < d.dst + step d.dstFixed)) then 4
  else if d.srcHbm == d.dstHbm && !d.srcFixed && !d.dstFixed && decide (d.src < d.dst ∧ d.dst < d.src + d.len) then 3
  else 0

/-- DESCRIPTOR_FETCH (R337 to R340): the words of the descriptor at the pointer, from host memory, or from HBM where the ring lies
there. -/
def descriptorFetchOp (c : Nat) (host : List DWord) (s : State) : State :=
  let ch := s.chan c
  if !ch.fetch || s.chanState c != 2 then s
  else
    let a := descAddr s c
    let s0 := if ch.ringHbm then readHbm 10 a 32 s else s
    if ch.ringHbm && (s.hbmBad 10 a 32 || decide (hbmSize < a + 32)) then stopChan c 7 0 s0
    else
      let ws := if ch.ringHbm then
          (List.range 4).map (fun i => BitVec.ofNat 64 (leNat (s.readBytes (a + 8 * i) 8)))
        else host
      let d := dmaDesc ws
      if !d.own then setChanState c 1 (s0.setChan c { ch with fetch := false })
      else
        let s1 := s0.setPair (F.DMA_CH_DESC_LO_ADDR c) (F.DMA_CH_DESC_HI_ADDR c) a
        if d.typ = 1 then
          if ch.links = 4 then stopChan c 2 0 s1
          else
            let s2 := ((writeBack c a 0 0 s1).bump (F.DMA_CH_DONE_COUNT c)).fset (F.DMA_CH_STATUS_LAST c) 0
            let s3 := pointTo c (d.src / 32 * 32) s2
            nextFetch c (s3.setChan c { s3.chan c with links := ch.links + 1 })
        else
          let st := descCheck d
          if st ≠ 0 then stopChan c st 0 s1
          else shareMovers (s1.setChan c { ch with desc := some ws, fetch := false, links := 0 })

/-- The bytes of a stream in the order that SWAP gives (R340). -/
def swapBytes (m : Nat) : List Byte → List Byte
  | a :: b :: c :: d :: t =>
    (if m = 1 then [b, a, d, c] else if m = 2 then [c, d, a, b] else if m = 3 then [d, c, b, a] else [a, b, c, d]) ++ swapBytes m t
  | [a, b] => if m = 1 then [b, a] else [a, b]
  | l => l

/-- The bytes that a descriptor moves before the first uncorrectable beat of its source in HBM, and whether there is one (R342). -/
def hbmSource (s : State) (d : DmaDesc) : List Byte × Bool :=
  if d.srcFixed then
    if s.hbmBad 10 d.src 8 then ([], true) else ((List.range (d.len / 8)).flatMap (fun _ => s.readBytes d.src 8), false)
  else
    match s.firstBad 10 d.src d.len with
    | none => (s.readBytes d.src d.len, false)
    | some w => (s.readBytes d.src ((8 * w - d.src) / 64 * 64), true)

/-- How many bytes of HBM a descriptor reads: up to the end of the beat that fails. -/
def hbmSourceLen (s : State) (d : DmaDesc) : Nat :=
  if d.srcFixed then 8
  else match s.firstBad 10 d.src d.len with
    | none => d.len
    | some w => min d.len ((8 * w - d.src) / 64 * 64 + 64)

/-- A list cut into pieces of 8. -/
def chunk8 : Nat → List Byte → List (List Byte)
  | 0, _ => []
  | n + 1, l => l.take 8 :: chunk8 n (l.drop 8)

/-- The destination's writes (R340, R341, R344). For `ING_FENCE_HITS` a descriptor's data are one write, or one for each 8 bytes of a FIXED
destination (log entry 98). -/
def dmaWrite (d : DmaDesc) (bs : List Byte) (s : State) : State :=
  let put := fun (a : Nat) (l : List Byte) (u : State) => if d.dstHbm then fencedWrite 10 a l u else u.emit (.hostWrite a l)
  if bs.isEmpty then s
  else if d.dstFixed then (chunk8 (bs.length / 8) bs).foldl (fun u l => put d.dst l u) s
  else put d.dst bs s

/-- DESCRIPTOR_DONE (R341, R342): the data move, and qword 3 is written back. `host` is what host memory gave; `failed` says that a host
completion carried an error after those bytes. -/
def descriptorDoneOp (c : Nat) (host : List Byte) (failed : Bool) (s : State) : State :=
  match (s.chan c).desc with
  | none => s
  | some ws =>
    if !s.chanReady c || !(s.chan c).served then s
    else
      let d := dmaDesc ws
      let (bs, bad) := if d.srcHbm then hbmSource s d else (host.take d.len, failed)
      let s0 := if d.srcHbm then readHbm 10 d.src (hbmSourceLen s d) s else s
      let s1 := dmaWrite d (swapBytes d.swap bs) s0
      if bad then stopChan c (if d.srcHbm then 7 else 5) bs.length s1
      else
        let s2 := ((writeBack c (descAddr s c) 0 d.len s1).bump (F.DMA_CH_DONE_COUNT c)).fset (F.DMA_CH_STATUS_LAST c) 0
        leaveMover c (nextFetch c (pointNext c (State.raiseIf d.irq (F.DMA_CH_EVENTS_DONE c) s2)))

/-- What a channel has moved of its descriptor when it is stopped in the midst of it (R343, R352): whole beats of 64 bytes, how many is free,
and so is what came from host memory; with the bytes moved. -/
def moveSome (c : Nat) (s : State) : Nat × State :=
  match (s.chan c).desc with
  | none => (0, s)
  | some ws =>
    if s.chanState c ≠ 2 then (0, s)
    else
      let d := dmaDesc ws
      let (g, s0) := s.fresh
      let n := min d.len (64 * ((Config.freeWord g 0).toNat % (d.len / 64 + 2)))
      let bs := if d.srcHbm then (hbmSource s d).1.take n else (List.range n).map (fun i => Config.freeByte g i)
      (bs.length, dmaWrite d (swapBytes d.swap bs) (if d.srcHbm then readHbm 10 d.src (min n (hbmSourceLen s d)) s0 else s0))

/-- DMA_RESET (R342, R352): the executing descriptor is written back ABORTED with what it has moved, and the channel is empty at ring entry
0. -/
def dmaResetOp (c : Nat) (s : State) : State :=
  let (n, s0) := moveSome c s
  let s1 := if (s.chan c).desc.isSome then (writeBack c (descAddr s c) 8 n s0).fset (F.DMA_CH_STATUS_LAST c) 8 else s0
  let s2 := (setChanState c 0 s1).setReg (R.DMA_CH_PTR c) 0#32
  leaveMover c (s2.setChan c { chanReset with ringHbm := s.flag (F.DMA_CH_CTL_RING_HBM c), served := (s.chan c).served })

/-- DMA_RESTART (R343): the halt ends, and an IDLE channel whose RUN is 1 begins to fetch. -/
def dmaRestartOp (s : State) : State :=
  if !s.flag F.DMA_STATUS_HALTED then s
  else (List.range 32).foldl (fun u c =>
    if u.chanState c = 0 ∧ u.flag (F.DMA_CH_CTL_RUN c) then dmaRunOp c u else u) (s.clear F.DMA_STATUS_HALTED)

/-- ABORT_ALL (R342). -/
def abortAllOp (s : State) : State := (List.range 32).foldl (fun u c => dmaResetOp c u) s

/-- Every channel's descriptor in progress has moved a part of its data. -/
def moveParts (s : State) : State := (List.range 32).foldl (fun u c => (moveSome c u).2) s

/-- DMA_TIMEOUT (R343): every channel not IDLE halts without a write-back. -/
def dmaTimeoutOp (s : State) : State :=
  let one := fun (u : State) (c : Nat) =>
    if u.chanState c = 0 then u
    else
      let u1 := (setChanState c 4 u).fset (F.DMA_CH_STATUS_LAST c) 6
      u1.setChan c { u1.chan c with fetch := false, served := false }
  aerOp true (((((List.range 32).foldl one (moveParts s)).raise F.DMA_STATUS_HALTED)).raise F.DMA_EVENTS_TIMEOUT_HALT)

/-! ### The arbiter -/

/-- The age of a port at a pseudo-channel (R347). -/
def State.age (s : State) (q p : Nat) : Nat := sparseGet (fun _ => 0) (16 * q + p) s.arb.ages

/-- The age of a port at a pseudo-channel set. -/
def setAge (q p n : Nat) (s : State) : State :=
  { s with arb := { s.arb with ages := sparsePut (fun _ => 0) (16 * q + p) n s.arb.ages } }

/-- Effective priority (R347). -/
def effectivePrio (s : State) (q p : Nat) : Nat := min 15 (s.fget (F.ARB_PORT_PRIO p) + s.age q p)

/-- The port that an unreserved round grants (R347): the highest effective priority, ties to the first at or after the rotating
pointer. -/
def winner (s : State) (q : Nat) (ports : List Nat) : Option Nat :=
  let best := (ports.map (effectivePrio s q)).foldl max 0
  let from0 := sparseGet (fun _ => 0) q s.arb.pointers
  ((List.range 16).map (fun i => (from0 + i) % 16)).find? (fun p => ports.contains p && effectivePrio s q p == best)

/-- Reads outstanding, of all ports together (R28). -/
def State.readsOut (s : State) : Nat := s.arb.reads.sum

/-- Whether a request may be offered (R28, R345): a read waits while its port, or the device, has as many reads outstanding as it may. -/
def mayIssue (s : State) (r : HbmRequest) : Bool :=
  !r.read || decide (s.readsOut < 256 ∧ s.arb.reads.getD r.port 0 < s.fget (F.ARB_PORT_MAX_OUT r.port))

/-- A request granted and issued at a pseudo-channel (R28, R313, R347). -/
def grant (q : Nat) (r : HbmRequest) (s : State) : State :=
  let s1 := ((setAge q r.port 0 s).bump (F.ARB_PORT_GRANTS_COUNT r.port)).raiseTo (F.ARB_PORT_WAIT_MAX_NS r.port) r.wait
  let s2 := if r.read then { s1 with arb := { s1.arb with reads := s1.arb.reads.set r.port (s1.arb.reads.getD r.port 0 + 1) } } else s1
  if r.activates then neighbourDraw q s2 else s2

/-- The losers of a round age (R347). -/
def ageLosers (q : Nat) (losers : List Nat) (s : State) : State := losers.foldl (fun u p => setAge q p (u.age q p + 1) u) s

/-- An unreserved round (R347, R348). -/
def openRound (q : Nat) (waiting : List HbmRequest) (withdraw : Bool) (s : State) : State :=
  let ports := waiting.map HbmRequest.port
  match (winner s q ports).bind (fun p => waiting.find? (fun r => r.port == p)) with
  | none => s
  | some r =>
    if withdraw then (ageLosers q ports.eraseDups s).bump F.ARB_DEAD_COUNT
    else
      let s1 := ageLosers q (ports.eraseDups.filter (fun x => x != r.port)) (grant q r s)
      { s1 with arb := { s1.arb with pointers := sparsePut (fun _ => 0) q ((r.port + 1) % 16) s1.arb.pointers } }

/-- The burst of a pseudo-channel that comes next. -/
def State.burstAt (s : State) (q : Nat) : Option Burst := s.arb.bursts.find? (fun b => b.q == q)

/-- The burst of a pseudo-channel ends; with TDM_EN 0 those still to begin there are dropped with it (R352). -/
def endBurst (q : Nat) (s : State) : State :=
  let rest := s.arb.bursts.eraseP (fun b => b.q == q)
  { s with arb := { s.arb with bursts := if s.flag F.ARB_CTL_TDM_EN then rest else rest.filter (fun b => b.q != q) } }

/-- A reserved burst issues a request of its port (R346, R347): the round that its first takes is lost by every other port waiting (log entry
70). -/
def burstRound (q : Nat) (waiting : List HbmRequest) (b : Burst) (r : HbmRequest) (s : State) : State :=
  let others := (waiting.map HbmRequest.port).eraseDups.filter (fun x => x != b.port)
  let s1 := grant q r (if b.begun then s else ageLosers q others s)
  if b.left ≤ 1 then endBurst q s1
  else
    let next := fun (x : Burst) => if x = b then { x with left := b.left - 1, begun := true } else x
    { s1 with arb := { s1.arb with bursts := s1.arb.bursts.map next } }

/-- ARBITER_ROUND (R28, R310, R346 to R348): the requests waiting at a pseudo-channel. A reserved burst issues its port's request; an
unreserved round gives way to PRESS, and nothing is issued while the pseudo-channel is URGENT. -/
def arbiterRoundOp (q : Nat) (waiting : List HbmRequest) (withdraw : Bool) (s0 : State) : State :=
  let s := decideRefresh q s0
  let ready := waiting.filter (mayIssue s)
  let unreserved := fun (u : State) => if refState u q = 2 then u else openRound q ready withdraw u
  if refState s q = 3 then s
  else match s.burstAt q with
    | some b =>
      match ready.find? (fun r => r.port == b.port) with
      | some r => if withdraw then endBurst q s else burstRound q ready b r s
      | none => unreserved (endBurst q s)
    | none => unreserved s

/-- TDM_SLOT_START (R346, R349): the next slot starts; `waiting` are the pairs of pseudo-channel and port with a request waiting. -/
def tdmSlotOp (waiting : List (Nat × Nat)) (s : State) : State :=
  if !s.flag F.ARB_CTL_TDM_EN then s
  else
    let i := (s.fget F.ARB_STATUS_SLOT + 1) % 64
    let s1 := (s.after (s.arb.slotNs * ticksPerNs)).fset F.ARB_STATUS_SLOT i
    let s2 := if i = 0 then
        { s1 with arb := { s1.arb with slotNs := s1.fget F.ARB_CTL_SLOT_NS, burst := s1.fget F.ARB_CTL_BURST } }
      else s1
    if s2.flag (F.ARB_TDM_VALID i) then
      let p := s2.fget (F.ARB_TDM_PORT i)
      let qs := ((waiting.filter (fun x => x.2 == p)).map Prod.fst).eraseDups
      { s2 with arb := { s2.arb with
        bursts := s2.arb.bursts ++ qs.map (fun q => { q := q, port := p, left := s2.arb.burst, begun := false : Burst }) } }
    else s2

end Sys2Proof.Machine
end

