-- ==== Sys2Proof/Machine/Peek.lean ====
section
/-! DEFINITION. What a register of BAR0 reads as (R1 to R9, R139, R300): stored words, and words that the state of a unit gives. -/

namespace Sys2Proof.Machine

/-- The index of a copy that an address selects among `count` copies a stride apart. -/
def copyOf (base stride count a : Nat) : Option Nat :=
  if base ≤ a ∧ (a - base) % stride = 0 ∧ (a - base) / stride < count then some ((a - base) / stride) else none

/-- Bits packed from bit 0 on. -/
def packBits (bs : List Bool) : Nat := bs.foldr (fun b n => bitOf b + 2 * n) 0

/-- The result block that an address belongs to, by the address of its VALID (R300). -/
def resultBase (a : Nat) : Option Nat :=
  if R.SLZ_RESULT ≤ a ∧ a ≤ R.SLZ_RESULT_USED_HI then some R.SLZ_RESULT
  else if R.BLN_SIDE_RESULT ≤ a ∧ a ≤ R.BLN_SIDE_RESULT_AT then some R.BLN_SIDE_RESULT
  else if R.INT_RESULT ≤ a ∧ a ≤ R.INT_RESULT_COUNTS then some R.INT_RESULT
  else if R.INT_SIG_LO 0 ≤ a ∧ a ≤ R.INT_SIG_HI 127 then some R.INT_RESULT
  else if R.SRM_CHK_RESULT = a then some R.SRM_CHK_RESULT
  else if R.LOG_EXP_RESULT ≤ a ∧ a ≤ R.LOG_EXP_LAST_HI then some R.LOG_EXP_RESULT
  else if R.SAF_TEST_RESULT = a then some R.SAF_TEST_RESULT
  else if R.CFG_JOB_RESULT = a then some R.CFG_JOB_RESULT
  else none

/-- The result block that a write of an ACK register releases from (R300). -/
def ackBase (a : Nat) : Option Nat :=
  if a = R.SLZ_RESULT_ACK then some R.SLZ_RESULT
  else if a = R.BLN_SIDE_RESULT_ACK then some R.BLN_SIDE_RESULT
  else if a = R.INT_RESULT_ACK then some R.INT_RESULT
  else if a = R.SRM_CHK_RESULT_ACK then some R.SRM_CHK_RESULT
  else if a = R.LOG_EXP_ACK then some R.LOG_EXP_RESULT
  else if a = R.SAF_TEST_ACK then some R.SAF_TEST_RESULT
  else if a = R.CFG_JOB_ACK then some R.CFG_JOB_RESULT
  else none

/-! ### The course and the islets -/

/-- ING_STATUS. A FAILED entry freezes the queue wherever it stands (R63). HEAD is the next index where the queue is empty (log entry
25). -/
def peekQueue (s : State) : Nat :=
  let q := s.ing.queue
  let head := match q with | e :: _ => e.idx | [] => s.ing.nextIdx
  let frozen := q.any (fun e => e.state == .failed)
  q.length % 16 + head % 8 * 2 ^ 4 + bitOf (decide (8 ≤ q.length)) * 2 ^ 7 + bitOf frozen * 2 ^ 8
    + bitOf s.running.isSome * 2 ^ 9 + ((s.running.map Entry.idx).getD 0) % 8 * 2 ^ 10

/-- The registers of a queue entry: word 0 STATE, 1 TAG, 2 WHERE, 3 OFFSET (R53, R60). -/
def peekEntry (s : State) (i w : Nat) : Nat :=
  match s.entry i with
  | none => 0
  | some e =>
    if w = 0 then entryStateCode e.state + e.err % 32 * 2 ^ 3 + e.pass * 2 ^ 8 + bitOf e.preparse * 2 ^ 11 + e.seq % 65536 * 2 ^ 16
    else if w = 1 then e.tag
    else if w = 2 then e.band % 65536 + e.tile % 32 * 2 ^ 16
    else e.off % 2 ^ 26 + bitOf e.inHeader * 2 ^ 26

/-- The registers of block ING. -/
def peekIng (s : State) (a : Nat) : Option Nat :=
  if a = R.ING_STATUS then some (peekQueue s)
  else (copyOf (R.ING_CQ_STATE 0) 4 32 a).map (fun n => peekEntry s (n / 4) (n % 4))

/-- SLZ_STATUS: the entry being processed is not stated, so it is free while a job runs (log entry 26). -/
def peekSlz (s : State) (a : Nat) : Option Nat :=
  if a = R.SLZ_STATUS then
    some (match s.slz with
      | none => 0
      | some j => 1 + bitOf j.decompress * 2 + (Config.freeWord s.free a).toNat % 4096 * 2 ^ 2)
  else none

/-- RAS_ISLET_SLOT: what slot j of islet i holds. -/
def peekSlot (s : State) (i j : Nat) : Nat :=
  match s.slotWork i j with
  | none => 0
  | some w => w.band % 65536 + w.tile % 32 * 2 ^ 16 + w.entry % 8 * 2 ^ 21 + w.kind % 4 * 2 ^ 24

/-- The registers of block RAS. -/
def peekRas (s : State) (a : Nat) : Option Nat :=
  if a = R.RAS_STATUS then
    let count := fun (p : Nat → Bool) => ((List.range 128).filter (fun i => s.inService i && p i)).length
    let first := s.ras.slots.any (fun w => w.2.kind == 1)
    some (s.ras.slots.length % 512 + count (fun i => decide (s.role i < 2)) % 256 * 2 ^ 9 + count (fun i => s.role i == 2) % 256 * 2 ^ 17
      + bitOf (s.flag F.RAS_CTL_HOLD && !first) * 2 ^ 25)
  else if a = R.RAS_DISPATCH then some (s.ras.dispBand % 2 ^ 17)
  else if a = R.RAS_DONE then some (s.ras.doneBelow % 2 ^ 17)
  else match copyOf (R.RAS_ISLET_CTL 0) 4 4096 a with
    | none => none
    | some n =>
      let i := n / 32
      let busy := bitOf (s.slotWork i 0).isSome + bitOf (s.slotWork i 1).isSome
      if n % 32 = 1 then some (s.role i % 4 + bitOf (s.inService i) * 2 ^ 2 + busy * 2 ^ 3
        + s.fget (F.RAS_ISLET_STATUS_AUTO_DISABLED i) * 2 ^ 5)
      else if n % 32 = 2 then some (peekSlot s i 0)
      else if n % 32 = 3 then some (peekSlot s i 1)
      else none

/-- A bank control register (R129). -/
def peekBank (t : TableId) (s : State) : Nat :=
  let b := s.bank t
  (if t = .map then 0 else b.active % 2) * 2 ^ 4 + bitOf b.pending * 2 ^ 5 + bitOf (bankComplete t b) * 2 ^ 6 + bitOf b.cloning * 2 ^ 7
    + b.refuse % 4 * 2 ^ 8 + bitOf (s.flag (ignoredBit t)) * 2 ^ 10

/-- The registers of block DOS, tables included (R130). -/
def peekDos (s : State) (a : Nat) : Option Nat :=
  if a = R.DOS_STATUS then some (bitOf (s.bsx.on && s.running.isSome) + s.fget F.DOS_STATUS_BSX_WAIT * 2)
  else if a = R.DOS_BSX_BAND then some (s.covered % 2 ^ 17)
  else if a = R.DOS_KRN_BANK then some (peekBank .krn s)
  else if a = R.DOS_TGN_BANK then some (peekBank .tgn s)
  else none

/-- The entries of the shadow that are marked (R131, R143). -/
def markedCount (t : TableId) (b : Bank) : Nat := if b.allMarked then bankUnits t else b.marks.length

/-- The registers of block CRW. -/
def peekCrw (s : State) (a : Nat) : Option Nat :=
  if a = R.CRW_STATUS then some (bitOf (s.running.isSome && !s.crw.stop) + bitOf s.crw.exchanging * 2)
  else if a = R.CRW_MAP_BANK then some (peekBank .map s)
  else if a = R.CRW_MAP_MARKED then some (markedCount .map s.banks.map)
  else if a = R.CRW_MAP_INVALID then some s.crw.invalid.length
  else if a = R.CRW_MAP_INVALID_AT then
    some (match s.crw.invalid with
      | [] => 0
      | i :: t => t.foldl min i + 2 ^ 31)
  else none

/-- The registers of block WAK (R154, R156). -/
def peekWak (s : State) (a : Nat) : Option Nat :=
  if a = R.WAK_STATUS then
    some ((s.reg a).toNat / 2 % 4 * 2 + bitOf s.running.isSome)
  else if a = R.WAK_READ_POINT then some s.readPoint
  else if a = R.WAK_FRONT then some s.front
  else if a = R.WAK_LEAD then some (s.lead + s.fget F.WAK_LEAD_MIN * 2 ^ 16)
  else match copyOf (R.WAK_SLOT 0) 4 48 a with
    | none => none
    | some n =>
      let w := s.wakeSlot (n / 2)
      if n % 2 = 0 then some (w.band % 65536 + bitOf w.held * 2 ^ 16)
      else some (((List.range s.shape.tilesPerBand).map (fun k => if w.mask.contains k then 2 ^ k else 0)).sum)

/-! ### Lanes, strokes, motion -/

/-- The registers of block BLN. -/
def peekBln (s : State) (a : Nat) : Option Nat :=
  if a = R.BLN_STATUS then
    some (s.activeLanes.length % 256 + s.spares.length % 16 * 2 ^ 8 + s.echoLocked % 8 * 2 ^ 12 + s.fget F.BLN_STATUS_TEMP_STALE * 2 ^ 15
      + bitOf s.bln.side.isSome * 2 ^ 16 + s.bln.gen % 4 * 2 ^ 17)
  else if a = R.BLN_BLANKER_FLAGS then
    let age := match s.bln.statusAt with | none => 255 | some t => min 255 (((s.clock - t) / ticksPerUs).toNat)
    some ((s.reg a).toNat % 8 + age * 2 ^ 8)
  else if a = R.BLN_MAP_BANK then some (peekBank .lanes s)
  else match (copyOf (R.BLN_ECHO_STATUS 0) 4 256 a).bind (fun n => if s.fget (F.BLN_ECHO_STATUS_STATE (n / 64)) = 3 then some n else none) with
  | some n =>
    let g := (Config.freeWord s.free (4 + n / 64)).toNat
    if n % 64 = 0 then some ((s.reg a).toNat % 64 + g % 2 * 2 ^ 6) else if n % 64 = 5 then some g else none
  | none => match copyOf (R.BLN_LANE_STATUS 0) 256 136 a with
    | none => none
    | some l =>
      let v := (s.reg a).toNat
      let unit := s.unitOf l
      let spare := match unit with | some u => decide (128 ≤ u) | none => false
      let beam := match unit with | some u => if u < 128 ∧ s.laneState l = 4 then u else 0 | none => 0
      some (v % 64 + bitOf spare * 2 ^ 6 + beam * 2 ^ 8 + v / 2 ^ 16 % 256 * 2 ^ 16)

/-- A signed value as a register word. -/
def word32 (v : Int) : Nat := unsignedOf 32 v

/-- The high word of a signed 48-bit value, bits [31:16] repeating bit 15. -/
def high48 (v : Int) : Nat := unsignedOf 32 (signedOf 16 (unsignedOf 48 v / 2 ^ 32))

/-- The position of a loop in length units. -/
def loopPos (l : AxisLoop) : Int := l.x / 65536

/-- The velocity of a loop in µm/s, rounded down (log entry 28). -/
def loopVel (l : AxisLoop) : Int := l.v * 625 / 2097152

/-- The registers of block STK. -/
def peekStk (s : State) (a : Nat) : Option Nat :=
  let x := s.stk.loopX
  let y := s.stk.loopY
  if a = R.STK_STATUS then some (packBits [x.locked, y.locked, x.posOk, y.posOk, s.armed, s.stk.halted])
  else if a = R.STK_TMIN then some (tminOf s.shape (s.fget F.STK_GATE_GATE) % 2 ^ 20)
  else if a = R.STK_POS_X_LO then some (word32 (loopPos x))
  else if a = R.STK_POS_X_HI then some (high48 (loopPos x))
  else if a = R.STK_VEL_X then some (word32 (loopVel x))
  else if a = R.STK_POS_Y_LO then some (word32 (loopPos y))
  else if a = R.STK_POS_Y_HI then some (high48 (loopPos y))
  else if a = R.STK_VEL_Y then some (word32 (loopVel y))
  else if a = R.STK_WAVE_BANK then some (peekBank .wave s)
  else none

/-- The registers of block COX. -/
def peekCox (s : State) (a : Nat) : Option Nat :=
  if a = R.COX_LEAD_HIGH then some s.shape.leadLimit
  else if a = R.COX_PAUSE_NOW then
    some (match s.cox.pauseFrom with | none => 0 | some t => min (2 ^ 24 - 1) ((s.clock - t).toNat / ticksPerMs))
  else none

/-- The registers of block MOT (R257); the velocity is rounded down (log entry 28). A high word of a position repeats its bit 15. -/
def peekMot (s : State) (a : Nat) : Option Nat :=
  match copyOf (R.MOT_AX_CTL 0) 4 128 a with
  | none => none
  | some n =>
    let x := s.axis (n / 64)
    let r := n % 64 * 4 + 0x140100
    if r = R.MOT_AX_SP_POS_LO 0 then some (word32 x.now.pos)
    else if r = R.MOT_AX_SP_POS_HI 0 then some (high48 x.now.pos)
    else if r = R.MOT_AX_SP_VEL 0 then some (word32 (x.now.vel * 1000 / 262144))
    else if r = R.MOT_AX_ADIST 0 then some (s.adist (n / 64))
    else if r = R.MOT_AX_SOFT_MIN_HI 0 ∨ r = R.MOT_AX_SOFT_MAX_HI 0 ∨ r = R.MOT_AX_TARGET_HI 0 ∨ r = R.MOT_AX_INDEX_POS_HI 0 then
      some (unsignedOf 32 (signedOf 16 ((s.reg a).toNat % 65536)))
    else none

/-! ### Integrity, memory, the host -/

/-- The registers of block INT. -/
def peekInt (s : State) (a : Nat) : Option Nat :=
  if a = R.INT_STATUS then
    some (bitOf (!s.resumePermitted) + bitOf s.int.loss.isSome * 2 + min 255 s.ras.redo.length * 2 ^ 8)
  else if a = R.INT_LOSS_ADDR_LO then some ((s.int.loss.map Loss.addr).getD 0)
  else if a = R.INT_LOSS_ADDR_HI then some ((s.int.loss.map Loss.addr).getD 0 / 2 ^ 32)
  else if a = R.INT_LOSS_LEN then some ((s.int.loss.map Loss.len).getD 0)
  else if a = R.INT_LOSS_AT then
    some (match s.int.loss with
      | none => 0
      | some l => l.band % 65536 + l.tile % 32 * 2 ^ 16 + l.entry % 8 * 2 ^ 21 + bitOf l.index * 2 ^ 24 + bitOf l.atAdmission * 2 ^ 25 + 2 ^ 31)
  else none

/-- The registers of blocks HBM and SRM. -/
def peekMem (s : State) (a : Nat) : Option Nat :=
  if a = R.HBM_REF_DEBT then
    let q := s.fget F.HBM_REF_SEL_PC
    some (refDebt s q + refState s q * 2 ^ 24)
  else if a = R.HBM_REF_DEBT_MAX then
    some ((List.range 128).foldl (fun m q => max m (refDebt s q)) (s.fget F.HBM_REF_DEBT_MAX_NS))
  else if a = R.SRM_STATUS then some ((s.reg a).toNat / 2 * 2 + bitOf s.badInService)
  else if a = R.SRM_BAD_COUNT then some (min 65535 s.mem.bad.length)
  else if a = R.SRM_BAD_AT then
    some (match s.mem.bad with
      | [] => 0
      | w :: t => t.foldl min w % 2 ^ 24 + 2 ^ 31)
  else if a = R.SRM_REPAIR_USED then some (s.repairUsed + (s.reg a).toNat / 2 ^ 16 % 1024 * 2 ^ 16)
  else none

/-- The registers of blocks DMA and STR. -/
def peekLink (s : State) (a : Nat) : Option Nat :=
  if a = R.DMA_ACTIVE then some (packBits ((List.range 32).map (fun c => s.chanState c != 0)))
  else if a = R.STR_STATUS then
    let own := s.govFlag F.STR_CTL_MASTER
    let v := (s.reg a).toNat
    some (bitOf s.timeLocked + v / 2 % 4 * 2 + (if own then s.deviceId % 4096 * 2 ^ 3 else v / 2 ^ 3 % 2 ^ 20 * 2 ^ 3))
  else if a = R.STR_TX_STATUS then some (bitOf s.txBusy)
  else none

/-- The registers of block EVT (R370, R372). -/
def peekEvt (s : State) (a : Nat) : Option Nat :=
  if a = R.EVT_STATUS then
    let on := (List.range 128).filter s.pend
    some (bitOf s.alert + on.headD 0 % 128 * 2 + on.length % 256 * 2 ^ 8)
  else (copyOf (R.EVT_LEVEL 0) 4 4 a).map (fun w =>
    ((eventSources.filter (fun e => e.src / 32 == w && s.level e)).map (fun e => 2 ^ (e.src % 32))).sum)

/-- The registers of block LOG (R376, R379, R382). An erased slot holds 0xFF in every byte (R375); what a torn one holds is free (log entry
27). -/
def peekLog (s : State) (a : Nat) : Option Nat :=
  let l := s.log
  if a = R.LOG_STATUS then
    some (1 + bitOf l.exporting.isSome * 2 + bitOf l.erasing.isSome * 4 + min 256 l.queue.length * 2 ^ 8)
  else if a = R.LOG_NEWEST_SEQ_LO then some (newestSeq l % 2 ^ 32)
  else if a = R.LOG_NEWEST_SEQ_HI then some (newestSeq l / 2 ^ 32 % 65536)
  else if a = R.LOG_NEWEST_SLOT then some ((l.newest.map Prod.snd).getD 0)
  else if a = R.LOG_OPTIME_LO then some (l.optime % 2 ^ 32)
  else if a = R.LOG_OPTIME_HI then some (l.optime / 2 ^ 32 % 256)
  else if a = R.LOG_CYCLES then some (l.cycle % 2 ^ 24)
  else if a = R.LOG_DROPS_LO then some (l.drops.getD 0 0 + l.drops.getD 1 0 * 2 ^ 16)
  else if a = R.LOG_DROPS_HI then some (l.drops.getD 2 0 + l.drops.getD 3 0 * 2 ^ 16)
  else if a = R.LOG_CRIT_SLOTS then some (l.slots.filter (fun p => match p.2 with | some r => r.sev == 3 | none => false)).length
  else (copyOf (R.LOG_WIN 0) 4 16 a).map (fun w =>
    match slotRec l (s.fget F.LOG_WIN_SLOT_SLOT) with
    | some r => leAt (4 * w) 4 r.bytes
    | none => match l.torn.find? (fun p => p.1 == s.fget F.LOG_WIN_SLOT_SLOT) with
      | some (_, g) => (Config.freeWord g (2 ^ 40 + w)).toNat
      | none => 0xFFFFFFFF)

/-- The registers of block GEN (R453, R454), SAF_STATUS, and the high words of the envelope, which repeat bit 15. -/
def peekGen (s : State) (a : Nat) : Option Nat :=
  if a = R.GEN_TIME_LO then some (s.rt64 % 2 ^ 32)
  else if a = R.GEN_TIME_HI then some (s.rt64 / 2 ^ 32)
  else if a = R.GEN_SERIAL_LO then some (Config.serial s.identity).toNat
  else if a = R.GEN_SERIAL_HI then some ((Config.serial s.identity).toNat / 2 ^ 32)
  else if [0, 1].any (fun x => a == R.SAF_ENV_MIN_HI x || a == R.SAF_ENV_MAX_HI x) then
    some (unsignedOf 32 (signedOf 16 ((s.reg a).toNat % 65536)))
  else if a = R.SAF_STATUS then
    some ((s.reg a).toNat / 64 * 64 % 256 + bitOf s.demanded * 2 ^ 5 + bitOf s.saf.ampY * 2 ^ 4 + bitOf s.saf.ampX * 2 ^ 3
      + (s.reg a).toNat % 8)
  else none

/-- The words that no register stores. -/
def peekUnit (s : State) (a : Nat) : Option Nat :=
  match a / 65536 with
  | 0 => peekGen s a
  | 3 => peekGen s a
  | 4 => peekEvt s a
  | 5 => peekLog s a
  | 7 => peekLink s a
  | 9 => peekMem s a
  | 0xA => peekMem s a
  | 0xB => peekIng s a
  | 0xC => peekSlz s a
  | 0xD => peekRas s a
  | 0xE => peekDos s a
  | 0xF => peekCrw s a
  | 0x10 => peekWak s a
  | 0x11 => peekBln s a
  | 0x12 => peekStk s a
  | 0x13 => peekCox s a
  | 0x14 => peekMot s a
  | 0x15 => peekInt s a
  | 0x16 => peekLink s a
  | _ => none

/-- The mask of the bits that a read shows: every field that is not write-only (R7, R9). -/
def readMask (fs : List FieldDesc) : Nat :=
  ((fs.filter (fun f => f.acc != .wo)).map (fun f => (2 ^ f.width - 1) * 2 ^ f.lo)).sum

/-- The word that a read of an offset of BAR0 returns, side effects apart (R7 to R9); an offset that holds no register reads 0. -/
def peek (s : State) (a : Nat) : Word :=
  if 0x800000 ≤ a then
    let i := (a - 0x800000) / 8
    if a < 0x1000000 ∧ a % 4 = 0 then BitVec.ofNat 32 (s.mapEntryFull i / 2 ^ (32 * (a / 4 % 2))) else 0#32
  else match descOf a with
    | none => 0#32
    | some d =>
      match resultBase a with
      | some base => resultWord (s.result base) a base
      | none =>
        match peekUnit s a with
        | some v => BitVec.ofNat 32 v
        | none =>
          match tableAt a with
          | some (t, b, _) => s.tableWord t b a
          | none => s.reg a &&& BitVec.ofNat 32 (readMask d.fields)

/-! ### Reads and their side effects -/

/-- The low words of the multi-word read-only quantities, each with its stride and count; the high word follows at the next offset
(R4, R5). -/
def lowWords : List (Nat × Nat × Nat) :=
  [(R.GEN_TIME_LO, 4, 1), (R.GEN_SERIAL_LO, 4, 1), (R.CFG_BUILD_LO, 4, 1), (R.CFG_IMAGE_CRC_LO, 4, 1), (R.LOG_NEWEST_SEQ_LO, 4, 1),
   (R.LOG_OPTIME_LO, 4, 1), (R.LOG_EXP_LAST_LO, 4, 1), (R.PCI_BAR2_RANGE_ADDR_LO, 4, 1), (R.DMA_CH_DESC_LO 0, 64, 32),
   (R.HBM_ERR_ADDR_LO, 4, 1), (R.HBM_SCRUB_POS_LO, 4, 1), (R.SLZ_RESULT_USED_LO, 4, 1), (R.RAS_PROBE_A0_LO, 4, 1),
   (R.RAS_PROBE_B0_LO, 4, 1), (R.STK_POS_X_LO, 4, 1), (R.STK_POS_Y_LO, 4, 1), (R.MOT_AX_SP_POS_LO 0, 256, 2),
   (R.MOT_AX_INDEX_POS_LO 0, 256, 2), (R.INT_LOSS_ADDR_LO, 4, 1), (R.INT_JRNL_SEQ_LO, 4, 1), (R.INT_SIG_LO 0, 8, 128),
   (0x800000, 8, 1048576)]

/-- Whether an offset is the low word of a multi-word read-only quantity (R5). -/
def isLowWord (a : Nat) : Bool := lowWords.any (fun p => (copyOf p.1 p.2.1 p.2.2 a).isSome)

/-- The latched value of a higher word, where its low word has been read (R5). -/
def State.latched (s : State) (a : Nat) : Option Word := (s.latch.find? (fun p => p.1 == a)).map Prod.snd

/-- A read of a low word latches the word after it (R5). -/
def latchHigh (a : Nat) (s : State) : State :=
  if isLowWord a then { s with latch := (a + 4, peek s (a + 4)) :: s.latch.filter (fun p => p.1 != a + 4) } else s

/-- The RC fields of a register cleared by its read (R9, R10). -/
def clearRc (a : Nat) (s : State) : State :=
  match descOf a with
  | none => s
  | some d => (d.fields.filter (fun f => f.acc == .rc)).foldl (fun t f => t.fset (.mk a f.lo f.width) 0) s

/-- A read of the register that holds VALID marks the visible result seen (R300). -/
def markSeen (a : Nat) (s : State) : State :=
  if resultBase a = some a then
    let b := s.result a
    s.setResult a { b with vis := b.vis.map (fun v => { v with seen := true }) }
  else s

/-- The table bytes that a host read of a word reads (R5, R318): those of the word, and of the word after it where that is latched with
it; none where the latch answers. -/
def State.readsTable (s : State) (a x : Nat) : Bool :=
  (tableAt a).isSome && (s.latched a).isNone && decide (a ≤ x ∧ x < a + (if isLowWord a then 8 else 4))

/-- A host read of one word of BAR0: its value, and what the read does (R5, R9, R10, R300); a table word is read with its check bits
(R318, R319). -/
def readWord (a : Nat) (s : State) : Word × State :=
  let s0 := readTables (s.readsTable a) s
  ((s0.latched a).getD (peek s0 a), markSeen a (clearRc a (latchHigh a s0)))

/-- The words of one read in ascending offsets. -/
def readWords : Nat → Nat → State → List Word × State
  | 0, _, s => ([], s)
  | n + 1, a, s =>
    let (v, s1) := readWord a s
    let (vs, s2) := readWords n (a + 4) s1
    (v :: vs, s2)

/-- A read of BAR0 (R334): all its words in one completion; one of more than 64 bytes is not supported and has no effect. -/
def readRegOp (a n : Nat) (s : State) : State :=
  if 16 < n then { s with resp := .unsupported }
  else
    let (vs, s1) := readWords n a s
    { s1 with resp := .data vs }

end Sys2Proof.Machine
end

