-- ==== Sys2Proof/Machine/Image.lean ====
section
/-! DEFINITION. The configuration bit-stream (R421 to R429): its header, directory, check word, sections and checks, and the harbour
image. -/

namespace Sys2Proof.Machine

/-- How an image is read: its byte at an offset, and whether a range of it cannot be read. -/
structure ImageRead where
  byte : Nat → Byte
  bad : Nat → Nat → Bool

/-- Bytes of an image. -/
def ImageRead.bytes (r : ImageRead) (off n : Nat) : List Byte := (List.range n).map (fun i => r.byte (off + i))

/-- A little-endian field of an image (R2, R422). -/
def ImageRead.le (r : ImageRead) (off n : Nat) : Nat := leNat (r.bytes off n)

/-- A directory entry (R422): TYPE, OFFSET, SIZE, and whether its reserved bytes are 0. -/
structure DirEntry where
  typ : Nat
  off : Nat
  size : Nat
  clean : Bool
deriving DecidableEq, Repr

/-- What a boot loads (R421 to R429): identity, check word, the shape, its record and the stage descriptors as stored, the tables' words, the
host's bits of the beam map's entries that are not 0, and the presets. -/
structure BootImage where
  deviceId : Nat
  build : Nat
  check : DWord
  shape : Shape
  shapeRec : List Byte
  stageRec : List Byte
  krn : List (Nat × Nat)
  tgn : List Nat
  map : List (Nat × Nat)
  wave : List Nat
  lanes : List Nat
  presets : List (Nat × Nat)
deriving DecidableEq, Repr

/-! ### Header and directory -/

/-- The largest image (R421, R422). -/
def imageMax : Nat := 12582912

/-- LENGTH of an image. -/
def ImageRead.length (r : ImageRead) : Nat := r.le 8 4

/-- SECTIONS of an image. -/
def ImageRead.sections (r : ImageRead) : Nat := r.le 6 2

/-- Whether LENGTH obeys R422; a length without room for a header and a check word does not. -/
def lengthOk (n : Nat) : Bool := n % 8 == 0 && decide (n ≤ imageMax ∧ 40 ≤ n)

/-- The directory of an image. -/
def ImageRead.directory (r : ImageRead) : List DirEntry :=
  (List.range r.sections).map (fun i =>
    let a := 32 + 16 * i
    { typ := r.le a 2, off := r.le (a + 4) 4, size := r.le (a + 8) 4, clean := r.le (a + 2) 2 == 0 && r.le (a + 12) 4 == 0 })

/-- The sizes that R422 gives a section's TYPE. -/
def sizeOk (e : DirEntry) : Bool :=
  match e.typ with
  | 1 => e.size == 128
  | 2 => e.size == 64
  | 3 => e.size == 1828
  | 4 => e.size == 16384
  | 5 => e.size == 8388608
  | 6 => e.size == 132
  | 7 => e.size == 544
  | 8 => e.size % 8 == 0 && decide (8 ≤ e.size ∧ e.size ≤ 8 * 4096)
  | _ => false

/-- Whether two sections lie apart. -/
def apart (a b : DirEntry) : Bool := decide (a.off + a.size ≤ b.off ∨ b.off + b.size ≤ a.off)

/-- Whether every two sections of a directory lie apart. -/
def allApart : List DirEntry → Bool
  | [] => true
  | e :: t => t.all (apart e) && allApart t

/-- Whether the header and directory obey R422. -/
def directoryOk (r : ImageRead) : Bool :=
  let n := r.sections
  let d := r.directory
  (n == 7 || n == 8) && (r.bytes 14 2).all (fun b => b == 0#8) && (r.bytes 24 8).all (fun b => b == 0#8) && decide (r.le 12 2 < 4096)
    && d.all (fun e => e.clean && sizeOk e && e.off % 8 == 0 && decide (32 + 16 * n ≤ e.off ∧ e.off + e.size ≤ r.length - 8))
    && [1, 2, 3, 4, 5, 6, 7].all (fun t => (d.filter (fun e => e.typ == t)).length == 1)
    && decide ((d.filter (fun e => e.typ == 8)).length ≤ 1) && allApart d

/-- The offset of the section of a TYPE; 0 where there is none. -/
def sectionAt (d : List DirEntry) (t : Nat) : Nat := ((d.find? (fun e => e.typ == t)).map DirEntry.off).getD 0

/-! ### The shape record -/

/-- The shape that a record spells (R424). -/
def readShape (bs : List Byte) : Shape :=
  let u := fun (o n : Nat) => leAt o n bs
  { pitch := u 0 4, cols := u 4 2, rows := u 6 2, stagger := u 8 1, rowPitch := u 9 1, tile := u 10 2, leadLimit := u 12 2
    passesMax := u 14 1, depthMax := u 15 1, gateMin := u 16 2, gateMax := u 18 2, tminFloor := u 20 4, regattaMax := u 24 2
    roles := (List.range 128).map (fun i => bits (2 * (i % 4)) 2 (u (32 + i / 4) 1))
    stageOrder := (List.range 8).map (fun i => u (64 + i) 1) }

/-- The record that spells a shape (R424). -/
def writeShape (c : Shape) : List Byte :=
  leBytes 4 c.pitch ++ leBytes 2 c.cols ++ leBytes 2 c.rows ++ leBytes 1 c.stagger ++ leBytes 1 c.rowPitch ++ leBytes 2 c.tile
    ++ leBytes 2 c.leadLimit ++ leBytes 1 c.passesMax ++ leBytes 1 c.depthMax ++ leBytes 2 c.gateMin ++ leBytes 2 c.gateMax
    ++ leBytes 4 c.tminFloor ++ leBytes 2 c.regattaMax ++ List.replicate 6 0#8
    ++ (List.range 32).map (fun i => BitVec.ofNat 8 (((List.range 4).map (fun j => c.roles.getD (4 * i + j) 0 % 4 * 4 ^ j)).sum))
    ++ (List.range 8).map (fun i => BitVec.ofNat 8 (c.stageOrder.getD i 0)) ++ List.replicate 56 0#8

/-- The ranges of R424. -/
def shapeRanges (c : Shape) : Bool :=
  decide (5120 ≤ c.pitch ∧ c.pitch ≤ 20480 ∧ 8 ≤ c.cols ∧ c.cols ≤ 1024 ∧ 8 ≤ c.rows ∧ c.rows ≤ 1024)
    && [1, 2, 4, 8].contains c.stagger && c.rows % c.stagger == 0 && decide (c.rows / c.stagger ≤ 128)
    && decide (1 ≤ c.rowPitch ∧ c.rowPitch ≤ 8) && [256, 512].contains c.tile && c.leadLimit % c.tile == 0
    && decide (2 * c.tile ≤ c.leadLimit ∧ c.leadLimit ≤ 2048 ∧ 1 ≤ c.passesMax ∧ c.passesMax ≤ 8)
    && decide (3 ≤ c.depthMax ∧ c.depthMax ≤ 16 ∧ 96 ≤ c.gateMin ∧ c.gateMin ≤ 1280 ∧ c.gateMin ≤ c.gateMax ∧ c.gateMax ≤ 1280)
    && decide (12800 ≤ c.tminFloor ∧ 1 ≤ c.regattaMax ∧ c.regattaMax ≤ 4096)

/-- What R425 asks of a shape beside its ranges. -/
def shapeDerived (c : Shape) : Bool :=
  c.tracks % 512 == 0 && decide (512 ≤ c.tracks ∧ c.tracks ≤ 8192 ∧ c.crewSpan + c.leadLimit ≤ 6144)
    && decide (64 ≤ (c.roles.filter (fun r => r == 0 || r == 1)).length)

/-- Whether a shape record passes R424 and R425. -/
def shapeOk (bs : List Byte) : Bool :=
  let c := readShape bs
  ((bs.drop 26).take 6).all (fun b => b == 0#8) && ((bs.drop 72).take 56).all (fun b => b == 0#8) && shapeRanges c && shapeDerived c

/-! ### Stages -/

/-- The stages that a stage takes data from (R426). -/
def stageTakes : Nat → List Nat
  | 2 | 3 => [1]
  | 4 | 5 => [3]
  | 6 => [2, 4]
  | 7 => [5, 6]
  | 8 => [7]
  | _ => []

/-- Whether a stage order lists every ID once, each after those it takes from (R426). -/
def stageOrderOk (o : List Nat) : Bool :=
  [1, 2, 3, 4, 5, 6, 7, 8].all (fun i => o.contains i && (stageTakes i).all (fun j => decide (o.idxOf j < o.idxOf i)))

/-- Whether the stage order and the descriptors pass R426. -/
def stageOk (o : List Nat) (bs : List Byte) : Bool :=
  stageOrderOk o && (List.range 8).all (fun i =>
    let b := 8 * i
    leAt b 1 bs == o.getD i 0 && decide (1 ≤ leAt (b + 1) 1 bs ∧ leAt (b + 1) 1 bs ≤ 64)
      && decide (16 ≤ leAt (b + 2) 2 bs ∧ leAt (b + 2) 2 bs ≤ 4096) && leAt (b + 4) 4 bs == 0)
    && decide (((List.range 8).map (fun i => leAt (8 * i + 2) 2 bs)).sum ≤ 16384)

/-! ### Tables and presets -/

/-- The BAR0 address in bank 0 of word i of a KERNEL section (R422). -/
def kernelPlace (i : Nat) : Nat :=
  if i = 0 then R.DOS_KRN_RADIUS 0 else if i < 4 then R.DOS_KRN_ETA 0 (i - 1) else R.DOS_KRN_TAP 0 ((i - 4) / 151) ((i - 4) % 151)

/-- The kernel that the words of a section spell. -/
def sectionKernel (ws : List Nat) : Kernel where
  radius := bits 0 8 (ws.getD 0 0)
  eta := (List.range 3).map (fun g => bits 0 16 (ws.getD (1 + g) 0))
  taps := (List.range 3).map (fun g => (List.range 151).map (fun m => bits 0 16 (ws.getD (4 + 151 * g + m) 0)))

/-- The waveform table's rule on a section (R225, R427). -/
def waveOk (ws : List Nat) : Bool :=
  let g := ws.getD 0 0
  decide (1 ≤ g ∧ g ≤ 4) && (List.range 16).all (fun c => onesOf64 (ws.getD (1 + 2 * c) 0 + ws.getD (2 + 2 * c) 0 * 2 ^ 32) == c * g)

/-- The lane map's rule on a section (R195, R427). -/
def lanesOk (ws : List Nat) : Bool :=
  let ps := ws.map (bits 0 8)
  (List.range 136).all (fun p => ps.contains p) && ws.all (fun w => decide (w < 512)) && (ws.take 128).all (fun w => decide (w < 256))

/-- Whether an entry of REGS may stand (R428). -/
def presetOk (p : Nat × Nat) : Bool :=
  let a := p.1
  let blk := a / 65536
  decide (a < 2 ^ 24) && a % 4 == 0 && blk != 1 && blk != 2 && blk != 3 && decide (a < 0x800000) && (tableAt a).isNone
    && (match descOf a with
      | none => false
      | some d =>
        if d.addr = R.EVT_SRC_CFG 0 then !(decide (8 ≤ (a - d.addr) / 4 ∧ (a - d.addr) / 4 ≤ 15))
        else d.fields.all (fun f => match f.acc with | .wo | .rwc | .lck => false | _ => true))

/-- The words of a section. -/
def ImageRead.words (r : ImageRead) (off n : Nat) : List Nat := (List.range n).map (fun i => r.le (off + 4 * i) 4)

/-- The image that bytes spell, its checks aside. -/
def readImage (r : ImageRead) : BootImage :=
  let d := r.directory
  let o := sectionAt d
  let shapeRec := r.bytes (o 1) 128
  let entry := fun (i : Nat) => entryHostBits (r.le (o 5 + 8 * i) 8)
  let regs := match d.find? (fun e => e.typ == 8) with | none => 0 | some e => e.size / 8
  { deviceId := r.le 12 2 % 4096, build := r.le 16 8, check := BitVec.ofNat 64 (r.le (r.length - 8) 8), shape := readShape shapeRec
    shapeRec := shapeRec, stageRec := r.bytes (o 2) 64
    krn := ((List.range 457).zip (r.words (o 3) 457)).map (fun p => (kernelPlace p.1, p.2))
    tgn := r.words (o 4) 4096
    map := (List.range 1048576).filterMap (fun i => if entry i = 0 then none else some (i, entry i))
    wave := r.words (o 6) 33, lanes := r.words (o 7) 136
    presets := (List.range regs).map (fun i => (r.le (o 8 + 8 * i) 4, r.le (o 8 + 8 * i + 4) 4)) }

/-- The first check of R423 that an image fails, as its code; 0 where it passes them all. -/
def imageCheck (r : ImageRead) : Nat :=
  if r.bad 0 32 then 10
  else if r.le 0 4 ≠ 0x53424B31 then 1
  else if r.le 4 2 ≠ 1 then 2
  else if !lengthOk r.length then 3
  else if r.bad 0 r.length then 10
  else if BitVec.ofNat 64 (r.le (r.length - 8) 8) ≠ crc64 (r.bytes 0 (r.length - 8)) then 4
  else if !directoryOk r then 5
  else
    let im := readImage r
    let mapOff := sectionAt r.directory 5
    if !shapeOk im.shapeRec then 6
    else if !stageOk im.shape.stageOrder im.stageRec then 7
    else if !(kernelValid im.shape.pitch (sectionKernel (im.krn.map Prod.snd)) && waveOk im.wave && lanesOk im.lanes
        && (List.range 1048576).all (fun i => entryValid (r.le (mapOff + 8 * i) 8))) then 8
    else if !im.presets.all presetOk then 9
    else 0

/-! ### The harbour image -/

/-- The descriptors of the harbour image (R429): CREDITS 8 and 1,024 words each. -/
def harbourStages : List Byte := (List.range 8).flatMap (fun i => leBytes 8 (i + 1 + 8 * 2 ^ 8 + 1024 * 2 ^ 16))

/-- The harbour image (R134, R145, R195, R227, R429). Its TAP value of 65,536 does not fit the 16-bit field (log entry 23). -/
def harbourImage : BootImage :=
  { deviceId := 0, build := 0, check := Config.harbourCheck, shape := shapeDefault, shapeRec := writeShape shapeDefault
    stageRec := harbourStages
    krn := (R.DOS_KRN_RADIUS 0, 1) :: (List.range 3).map (fun g => (R.DOS_KRN_TAP 0 g 0, 65536))
    tgn := List.replicate 4096 0x80008000
    map := []
    wave := 4 :: (List.range 16).flatMap (fun c => [(2 ^ (4 * c) - 1) % 2 ^ 32, (2 ^ (4 * c) - 1) / 2 ^ 32])
    lanes := List.range 136
    presets := [] }

/-! ### Slots -/

/-- The keel store address of a bit-stream slot (R421, R431): 0 A, 1 B. -/
def slotBase (slot : Nat) : Nat := if slot = 0 then 0 else 0xC00000

/-- How a slot is read. -/
def slotRead (s : State) (slot : Nat) : ImageRead where
  byte := fun i => s.keelByte (slotBase slot + i)
  bad := fun off n => s.keelBad (slotBase slot + off) n

/-- How an image in HBM is read. -/
def hbmImage (s : State) (src : Nat) : ImageRead where
  byte := fun i => s.readByte (src + i)
  bad := fun off n => s.hbmBad 13 (src + off) n

/-- The check of an image in HBM (R430): 13 BUS in place of 10. -/
def jobCheck (s : State) (src : Nat) : Nat :=
  let c := imageCheck (hbmImage s src)
  if c = 10 then 13 else c

/-- A slot left partly written (R422, R433): its check word does not match (log entry 24). -/
def breakSlot (slot src : Nat) (s : State) : State :=
  let r := hbmImage s src
  let n := r.length
  let body := r.bytes 0 (n - 8)
  keelWrite (slotBase slot) (body ++ leBytes 8 (~~~ (crc64 body)).toNat) s

/-- A configuration job that a reset ends has no result; a write in progress leaves its slot refused with CRC (R433). -/
def jobStopped (s : State) : State :=
  match s.pwr.job with
  | some (false, slot, src) => if jobCheck s src = 0 then breakSlot slot src s else s
  | _ => s

/-- GO of CFG_JOB_CTL (R430): 12 BUSY where a job runs. -/
def cfgResult (code : Nat) (s : State) : State :=
  let (_, s1) := s.postResult R.CFG_JOB_RESULT [(R.CFG_JOB_RESULT, BitVec.ofNat 32 (code * 2 ^ 4))]
  s1.raise F.CFG_EVENTS_JOB_DONE

/-- A configuration job begins with the registers as they stand. -/
def cfgGo (checkOnly : Bool) (s : State) : State :=
  if s.pwr.job.isSome then cfgResult 12 s
  else
    { s with pwr := { s.pwr with
      job := some (checkOnly, s.fget F.CFG_JOB_CTL_SLOT, s.pair F.CFG_JOB_SRC_LO_ADDR F.CFG_JOB_SRC_HI_ADDR) } }

/-- CFG_WRITE_SLOT (R430): GO with CHECK_ONLY 0. -/
def cfgWriteSlotOp (slot : Nat) (s : State) : State :=
  cfgGo false ((s.fset F.CFG_JOB_CTL_SLOT slot).fset F.CFG_JOB_CTL_CHECK_ONLY 0)

/-- CFG_CHECK_IMAGE (R430): GO with CHECK_ONLY 1. -/
def cfgCheckImageOp (slot : Nat) (s : State) : State :=
  cfgGo true ((s.fset F.CFG_JOB_CTL_SLOT slot).fset F.CFG_JOB_CTL_CHECK_ONLY 1)

/-- CFG_JOB_DONE (R430): the check, the write and the read-back; `ok` says whether the slot reads back right. -/
def cfgJobDoneOp (ok : Bool) (s : State) : State :=
  match s.pwr.job with
  | none => s
  | some (checkOnly, slot, src) =>
    let s1 := { s with pwr := { s.pwr with job := none } }
    let r := hbmImage s src
    let c := jobCheck s src
    let s2 := readHbm 13 src (if lengthOk r.length then r.length else 32) s1
    if c = 13 then cfgResult 13 s2
    else if c ≠ 0 then cfgResult c s2
    else if checkOnly then cfgResult 0 s2
    else if ok then cfgResult 0 (keelWrite (slotBase slot) (r.bytes 0 r.length) s2)
    else cfgResult 11 (breakSlot slot src s2)

end Sys2Proof.Machine
end

