-- ==== Sys2Proof/Machine/Reset.lean ====
section
/-! DEFINITION. Power, the supply monitor, deep standby and the resets (R336, R403, R408 to R418, R433, R452, R457). -/

namespace Sys2Proof.Machine

/-! ### The outputs and the log at a reset -/

/-- Both inhibit lines asserted and both amplifier enables removed (R403, R414). -/
def outputsOff (s : State) : State := driveAmp 1 false (driveAmp 0 false (assertLines s))

/-- The recorder's queue drained into the keel store, every record verified (R386, R420). `n` bounds the records. -/
def drainLog : Nat → State → State
  | 0, s => s
  | n + 1, s => if s.log.writing.isSome then drainLog n (recordWritten true s) else s

/-- What the recorder keeps when power or a cold reset takes its queue (R386): a half-written slot fails its CRC and is free. -/
def logKept (stamp : Nat) (l0 : Recorder) : Recorder :=
  let l := match l0.writing with | some (_, i, _) => tearSlot i stamp l0 | none => l0
  { State.reset.log with
    slots := l.slots, torn := l.torn, newest := l.newest, seq := l.seq, optime := l.optime, cycle := l.cycle, prevWall := l.prevWall, drops := l.drops }

/-- An input whose land keeps its level through a reset (R269). -/
def inputKept (d : Debounced) : Debounced := { d with level := d.raw, since := none }

/-- The motion unit after a reset (R257, R275): the inputs keep their levels. -/
def motionReset (m : Motion) (store : List Point) : Motion :=
  let keep := fun (x : Axis) => { axisReset with
    limPos := inputKept x.limPos, limNeg := inputKept x.limNeg, home := inputKept x.home, index := x.index }
  { State.reset.mot with x := keep m.x, y := keep m.y, store := store }

/-- The input levels of an axis shown again after a reset. -/
def showInputs (a : Nat) (s : State) : State :=
  let x := s.axis a
  ((s.fset (F.MOT_AX_STATUS_LIM_POS a) (bitOf x.limPos.level)).fset (F.MOT_AX_STATUS_LIM_NEG a) (bitOf x.limNeg.level)).fset
    (F.MOT_AX_STATUS_HOME a) (bitOf x.home.level)

/-- The levels that a reset does not change shown in their status bits. -/
def showLevels (stopIn : Bool) (s : State) : State := State.raiseIf stopIn F.SAF_STATUS_STOP_IN (showInputs 1 (showInputs 0 s))

/-- A kind of reset joins those since the last boot (R457). -/
def addKind (k : Nat) (ks : List Nat) : List Nat := if ks.contains k then ks else k :: ks

/-! ### The cold reset -/

/-- What a stretch leaves inside an interval. -/
def Haze.clip (lo hi : Nat) (h : Haze) : Option Haze :=
  let b := max lo h.base
  let t := min hi (h.base + h.len)
  if b < t then some { h with base := b, len := t - b } else none

/-- HBM after a cold reset (R308, R417): undefined with its check bits, but for the beam map's shadow area where power stays (R144; log entry
106). -/
def hbmAfterCold (keep : Bool) (s : State) : Hbm :=
  if keep then
    let lo := s.shadowBase
    let hi := lo + mapBytes
    { bytes := s.hbm.bytes.filter (fun p => decide (lo ≤ p.1 ∧ p.1 < hi))
      chk := s.hbm.chk.filter (fun p => decide (lo ≤ 8 * p.1 ∧ 8 * p.1 < hi))
      hazes := { base := 0, len := min lo hbmSize, stamp := s.free, raw := true }
        :: { base := hi, len := hbmSize - hi, stamp := s.free, raw := true } :: s.hbm.hazes.filterMap (Haze.clip lo hi) }
  else { bytes := [], chk := [], hazes := [{ base := 0, len := hbmSize, stamp := s.free, raw := true }] }

/-- The state after a cold reset (R417, R452, R454): the keel store, the keep-alive domain and boundary scan keep theirs. -/
def coldState (kind : Nat) (s : State) : State :=
  let b := State.reset
  let wake := decide (kind = 2)
  let flags := (s.reg R.PWR_KA_FLAGS) &&& (if wake then 0xFFFFFFFF#32 else 0xFFFFFFFE#32)
  let fresh := decide (kind = 1 ∨ kind = 2)
  let s1 := { b with
    clock := s.clock, rtOfs := -s.clock
    wak := { b.wak with stamp := s.free }
    hbm := hbmAfterCold (!fresh) s
    log := { logKept s.free s.log with cycle := min (2 ^ 24 - 1) (s.log.cycle + 1) }
    mot := motionReset s.mot []
    mem := { b.mem with debtFrom := List.replicate 128 s.clock, hbmLapAt := s.clock, sramLapAt := s.clock
                        lfsr := (List.range 4).map (fun k => Config.shiftSeed k (BitVec.ofInt 64 s.rtime)) }
    pwr := { s.pwr with
      phase := .coldHeld, kinds := addKind kind s.pwr.kinds, lowRuns := List.replicate 8 0, deepRuns := List.replicate 8 0
      clearRun := 0, job := none, releasedAt := s.clock
      initAtBoot := if fresh then true else s.flag F.HBM_CTL_INIT_AT_BOOT
      skipA := if fresh then false else s.flag F.CFG_CTL_SKIP_A }
    keel := s.keel, jtag := s.jtag, free := s.free + 1, out := s.out, resp := s.resp, pending := s.pending }
  showLevels (s.flag F.SAF_STATUS_STOP_IN) (s1.setReg R.PWR_KA_FLAGS flags)

/-- A cold reset that nothing holds any longer is released, and the boot is due (R410, R413). -/
def releaseCold (s : State) : State :=
  if s.pwr.phase == .coldHeld && s.pwr.railsGood && s.pwr.rstHigh && !s.pwr.hotHold then
    { s with pwr := { s.pwr with phase := .coldBoot, releasedAt := s.clock } }
  else s

/-- A cold reset of a kind (R417). -/
def coldReset (kind : Nat) (s : State) : State := releaseCold (coldState kind (outputsOff (jobStopped s)))

/-! ### The warm reset -/

/-- The state after a warm reset (R308, R328, R417, R420, R452): HBM, the segment store, the cold and the keep-alive
domain keep theirs; every table is loaded again at the boot. -/
def warmState (kind : Nat) (s : State) : State :=
  let b := State.reset
  let s1 := { b with
    clock := s.clock, rtOfs := s.rtOfs + s.slewed
    shape := s.shape
    wak := { b.wak with stamp := s.free }
    hbm := s.hbm
    log := { logKept s.free s.log with writing := s.log.writing, queue := s.log.queue, erasing := s.log.erasing }
    mot := motionReset s.mot s.mot.store
    msix := if kind = 7 then b.msix else s.msix
    mem := { b.mem with debtFrom := List.replicate 128 s.clock, training := s.mem.training
                        rowCe := s.mem.rowCe, lfsr := s.mem.lfsr, flips := s.mem.flips.filter (fun p => decide (segmentAt 0 ≤ p.1)), hbmLapAt := s.clock, sramLapAt := s.clock }
    pwr := { s.pwr with phase := if s.pwr.perst then .warmHeld else .warmBoot, kinds := addKind kind s.pwr.kinds, job := none
                        releasedAt := s.clock, skipA := s.flag F.CFG_CTL_SKIP_A }
    keel := s.keel, jtag := s.jtag, free := s.free + 1, out := s.out, resp := s.resp, pending := s.pending }
  let s2 := ((s1.setReg R.PWR_KA_FLAGS (s.reg R.PWR_KA_FLAGS)).fset F.HBM_CTL_INIT_AT_BOOT (s.fget F.HBM_CTL_INIT_AT_BOOT)).fset
    F.CFG_CTL_SKIP_A (s.fget F.CFG_CTL_SKIP_A)
  let s3 := if kind = 7 then s2 else s2.setReg R.PCI_STATUS (s.reg R.PCI_STATUS)
  let s4 := (List.range 4).foldl (fun u k =>
    let st := s.fget (F.HBM_STK_STATUS_STATE k)
    (u.fset (F.HBM_STK_STATUS_STATE k) (if st = 2 then 4 else st)).fset (F.HBM_STK_STATUS_TEMP_MAX k)
      (s.fget (F.HBM_STK_STATUS_TEMP_MAX k))) (s3.fset F.PWR_TJ_MAX (s.fget F.PWR_TJ_MAX))
  showLevels (s.flag F.SAF_STATUS_STOP_IN) s4

/-- Whether a trigger of a warm or course-abort reset is absorbed (R433): a cold reset is in progress, or nothing runs. -/
def State.absorbs (s : State) : Bool := s.pwr.phase != .running && s.pwr.phase != .warmHeld && s.pwr.phase != .warmBoot

/-- What a warm reset leaves undefined in HBM (R82, R135, R330): a running job's destination, the running course's work area and the range
of an initialisation that it stops. -/
def leaveUndefined (s : State) : State :=
  let s1 := scrambleArea (scrambleJob (moveParts s))
  match s1.mem.init with
  | some (base, len) => clientRange base len (hazeHbm true) s1
  | none => s1

/-- A warm reset of a kind (R417, R420): the recorder's queue is drained first (R386). -/
def warmReset (kind : Nat) (s : State) : State :=
  if s.absorbs then s else warmState kind (outputsOff (drainLog 1024 (jobStopped (leaveUndefined s))))

/-! ### The course-abort reset -/

/-- STOP on both axes (R241, R275): a table ends under its blend, and homing ends. -/
def stopBoth (s : State) : State :=
  [0, 1].foldl (fun u a => stopAxis a .stop (if u.axisState a = 4 then endTable true u else u)) s

/-- What a course-abort reset does to a running course (R63, R221, R231, R252, R275, R302): no further commit or catch; the stage stops;
the result follows once a gate train in progress has ended. The lanes that a course ended early has left ACTIVE are flushed too (R197,
R202). -/
def abortCourse (s : State) : State :=
  if s.running.isNone then
    if s.activeLanes.isEmpty then s
    else
      let gen := (s.bln.gen + 1) % 4
      let s1 := sendSeries (.flush 0 gen) s.bln.cseq s
      lanesReady { s1 with bln := { s1.bln with gen := gen } }
  else
    let s1 := setCox 4 s
    let gen := (s1.bln.gen + 1) % 4
    let s2 := sendSeries (.flush 0 gen) s1.courseIds.1 s1
    let s3 := { s2 with
      bln := { s2.bln with gen := gen }
      stk := { s2.stk with commits := [], pred := none, aborted := true }
      cox := { s2.cox with ending := some (5, none), flushDue := false } }
    if s3.stk.train.isNone then abortFinish s3 else s3

/-- An admission goes back to the tiles whose decode a reset has dropped (R110). -/
def admissionDropped (s : State) : State :=
  match s.ing.adm with
  | some a => { s with ing := { s.ing with adm := some { a with todo := a.flight ++ a.todo, flight := [] } } }
  | none => s

/-- The course-abort reset (R110, R128, R162, R275, R302, R368, R403, R417): every chapter's own rules; no register returns to its reset
value. -/
def courseAbort (s : State) : State :=
  if s.absorbs || s.pwr.phase != .running then s
  else
    let (g, s1) := (stopWork (admissionDropped (abortCourse (stopBoth (scrambleArea s))))).fresh
    let s2 := clearReadys s1
    updatePermit { s2 with
      ras := { s2.ras with slots := [] }
      wak := { s2.wak with cells := [], stamp := g, slots := s2.wak.slots.map (fun p => (p.1, { p.2 with held := false, mask := [] })) } }

/-! ### PCIe happenings -/

/-- The DMA block at its reset values (R336). -/
def dmaReset (s : State) : State :=
  { s with regs := s.regs.filter (fun p => p.1 / 65536 != 7), dma := State.reset.dma, moverTurn := 0 }

/-- What a hot reset does (R336): the course ends, the DMA block and configuration space are reset. -/
def pcieReset (s : State) : State :=
  let s1 := dmaReset (courseAbort (moveParts s))
  { s1 with msix := State.reset.msix }.raise F.PCI_EVENTS_LINK_RESET

/-- HOT_RESET (R336). -/
def hotResetOp (s : State) : State := if s.absorbs then s else (pcieReset s).clear F.PCI_STATUS_LINK_UP

/-- DATA_LINK_DOWN (R336). -/
def dataLinkDownOp (s : State) : State := if s.absorbs then s else (pcieReset s).setReg R.PCI_STATUS 0#32

/-- FLR (R336): as a hot reset. -/
def flrOp (s : State) : State := if s.absorbs then s else (pcieReset s).raise F.PCI_EVENTS_FLR

/-- PERST_ASSERTED (R336, R433): a warm reset, held; during a cold boot only the endpoint stays in reset. -/
def perstAssertedOp (s : State) : State :=
  let s1 := { s with pwr := { s.pwr with perst := true } }
  warmReset 7 s1

/-- PERST_DEASSERTED (R336). -/
def perstDeassertedOp (s : State) : State :=
  { s with pwr := { s.pwr with perst := false, phase := if s.pwr.phase = .warmHeld then .warmBoot else s.pwr.phase
                               releasedAt := if s.pwr.phase = .warmHeld then s.clock else s.pwr.releasedAt } }

/-! ### PWR_RESET -/

/-- The key of PWR_RESET (R418). -/
def resetKey : Nat := 0x5A3C

/-- A write of PWR_RESET (R418): exactly one action with the key; any other write is refused. -/
def pwrReset (key : Nat) (warm cold abort : Bool) (s : State) : State :=
  if key = resetKey ∧ bitOf warm + bitOf cold + bitOf abort = 1 then
    if warm then warmReset 8 s else if cold then coldReset 6 s else courseAbort s
  else s.raise F.PWR_EVENTS_RESET_REFUSED

/-! ### Power up and down -/

/-- POWER_ON (R409, R417): VKA's power-on reset starts the keep-alive domain and a cold reset. -/
def powerOnOp (s : State) : State :=
  let s1 := coldState 1 s
  { s1.setReg R.PWR_KA_FLAGS 0#32 with
    pwr := { s1.pwr with railEn := false, railsGood := false, hotHold := false, kinds := [1] }
    jtag := State.reset.jtag }

/-- RAIL_EN_RELEASE (R409): 2 ms after VKA's power-on reset. -/
def railEnReleaseOp (s : State) : State :=
  if s.pwr.phase == .coldHeld && !s.pwr.railEn then
    let s1 := s.until (s.pwr.releasedAt + 2 * ticksPerMs)
    { s1 with pwr := { s1.pwr with railEn := true } }.emit (.railEnable true)
  else s

/-- RAILS_GOOD (R410): every rail has been above its good level for 10 ms. -/
def railsGoodOp (s : State) : State :=
  if s.pwr.phase == .coldHeld && s.pwr.railEn then releaseCold { s with pwr := { s.pwr with railsGood := true } } else s

/-- Whether the device has power and is out of deep standby. -/
def State.powered (s : State) : Bool := s.pwr.phase != .off && s.pwr.phase != .standby

/-- RST_N (R417): low for at least 1 µs. -/
def rstNOp (s : State) : State :=
  let s1 := { s with pwr := { s.pwr with rstHigh := false } }
  if s1.powered then coldReset 5 s1 else s1

/-- RST_N_HIGH (R410). -/
def rstNHighOp (s : State) : State := releaseCold { s with pwr := { s.pwr with rstHigh := true } }

/-- POWER_LOST (R386, R403, R433): VKA is lost, and with it everything but the keel store. -/
def powerLostOp (s : State) : State :=
  let s1 := coldState 1 (outputsOff (jobStopped s))
  { s1.setReg R.PWR_KA_FLAGS 0#32 with
    pwr := { s1.pwr with phase := .off, kinds := [], railEn := false, railsGood := false, hotHold := false }
    log := logKept s.free s.log }

/-! ### The supply monitor -/

/-- The nominal voltages of R408 in mV, in table order: VKA, VSAF, VIO, VCORE, VLANE, VPP, VHBM, VHBMQ. -/
def railNominal : List Nat := [1800, 1200, 1800, 700, 800, 1800, 1100, 400]

/-- Whether a sample of rail i is below its warning level (R411). -/
def belowWarn (s : State) (i mv : Nat) : Bool :=
  if i = 3 then decide (mv < s.fget F.PWR_VCORE_WARN_MV) else decide (mv * 100 < railNominal.getD i 0 * 95)

/-- Whether a sample of rail i is below its reset level (R411). -/
def belowReset (i mv : Nat) : Bool := if i = 3 then decide (mv < 520) else decide (mv * 10 < railNominal.getD i 0 * 9)

/-- Whether a sample of rail i is above the level that ends the warning (R411). -/
def aboveClear (s : State) (i mv : Nat) : Bool :=
  if i = 3 then decide (s.fget F.PWR_VCORE_WARN_MV + 10 < mv) else decide (railNominal.getD i 0 * 96 < mv * 100)

/-- A run of samples that stops at 2. -/
def runOn (b : Bool) (n : Nat) : Nat := if b then min 2 (n + 1) else 0

/-- The warning condition starts (R239, R411): the cox halts. -/
def warnStart (s : State) : State :=
  let s1 := ((s.raise F.PWR_STATUS_SUPPLY_WARN).raise F.PWR_EVENTS_SUPPLY_WARN).bump F.PWR_WARN_COUNT_COUNT
  supplyHalt { s1.raise F.COX_STATUS_SUPPLY_WARN with cox := { s1.cox with supplyClear := none } }

/-- The warning condition ends (R239, R411). -/
def warnEnd (s : State) : State :=
  let s1 := (s.clear F.PWR_STATUS_SUPPLY_WARN).raise F.PWR_EVENTS_SUPPLY_CLEAR
  { s1 with cox := { s1.cox with supplyClear := some s1.clock } }

/-- The warning condition brought up to date (R411). -/
def warnUpdate (s : State) : State :=
  let hot := s.flag F.PWR_STATUS_TJ_WARN
  if s.flag F.PWR_STATUS_SUPPLY_WARN then (if !hot && decide (2 ≤ s.pwr.clearRun) then warnEnd s else s)
  else if hot || s.pwr.lowRuns.any (fun n => decide (2 ≤ n)) then warnStart s
  else s

/-- The next multiple of a period in ticks after now. -/
def State.nextMultiple (s : State) (per : Int) : State := s.until ((s.clock / per + 1) * per)

/-- Rails whose fall is the safety cause SUPPLY: VKA, VSAF and VCORE (R391, R412). -/
def safetyRails : List Nat := [0, 1, 3]

/-- SUPPLY_SAMPLE (R391, R410 to R412): the rails in mV. -/
def supplySampleOp (rails : List Nat) (s0 : State) : State :=
  if !s0.powered || s0.pwr.phase == .coldHeld then s0
  else
    let s := s0.nextMultiple (100 * ticksPerNs)
    let mv := fun (i : Nat) => rails.getD i 0
    let low := (List.range 8).map (fun i => runOn (belowWarn s i (mv i)) (s.pwr.lowRuns.getD i 0))
    let deep := (List.range 8).map (fun i => runOn (belowReset i (mv i)) (s.pwr.deepRuns.getD i 0))
    let clr := runOn ((List.range 8).all (fun i => aboveClear s i (mv i))) s.pwr.clearRun
    let bits := ((List.range 8).map (fun i => bitOf (belowWarn s i (mv i)) * 2 ^ i)).sum
    let core := min 1023 (mv 3)
    let s1 := { s with pwr := { s.pwr with lowRuns := low, deepRuns := deep, clearRun := clr } }
    let s2 := ((s1.fset F.PWR_RAIL_LOW_RAILS bits).fset F.PWR_STATUS_RAILS_GOOD (bitOf (bits == 0))).fset F.PWR_VCORE_NOW_MV core
    let s3 := s2.fset F.PWR_VCORE_NOW_MIN (min core (s2.fget F.PWR_VCORE_NOW_MIN))
    let dip := safetyRails.any (fun i => decide (2 ≤ deep.getD i 0))
    let s4 := warnUpdate { s3 with saf := { s3.saf with supplyLow := dip } }
    let s5 := if dip then demand 6 s4 else s4
    if deep.any (fun n => decide (2 ≤ n)) then coldReset 3 { s5 with pwr := { s5.pwr with railsGood := false } } else s5

/-- TJ_READ (R411, R413): the highest junction reading in °C. -/
def tjReadOp (temp : Int) (s0 : State) : State :=
  if !s0.powered then s0
  else
    let s := s0.nextMultiple ticksPerMs
    let s1 := (s.fsetI F.PWR_TJ_NOW temp).fsetI F.PWR_TJ_MAX (max temp (s.sget F.PWR_TJ_MAX))
    if 112 ≤ temp then coldReset 4 { s1 with pwr := { s1.pwr with hotHold := true } }
    else if s1.pwr.phase == .coldHeld then
      if temp < 95 then releaseCold { s1 with pwr := { s1.pwr with hotHold := false } } else s1
    else
      let warm := decide ((s1.fget F.PWR_TJ_WARN_C : Int) ≤ temp)
      let s2 := State.raiseIf warm F.PWR_EVENTS_TJ_WARN s1
      warnUpdate (s2.fset F.PWR_STATUS_TJ_WARN (bitOf warm))

/-! ### Deep standby -/

/-- The key of PWR_STANDBY (R414). -/
def standbyKey : Nat := 0x5B7A

/-- STANDBY (R414): PWR_STANDBY written; `wakeN` is the level of WAKE_N. -/
def standbyOp (key : Nat) (go wakeN : Bool) (s : State) : State :=
  if key ≠ standbyKey ∨ !go then s
  else if s.coxState ≠ 0 ∨ s.running.isSome ∨ s.pwr.job.isSome ∨ !wakeN then s.raise F.PWR_EVENTS_STANDBY_REFUSED
  else
    let s1 := (outputsOff s).emit (.railEnable false)
    let s2 := coldState 2 s1
    { s2 with
      pwr := { s2.pwr with phase := .standby, kinds := [], railEn := false, railsGood := false, hotHold := false }
      log := logKept s.free s.log }

/-- WAKE (R416): WAKE_N low for 100 µs; outside deep standby it is ignored. -/
def wakeOp (s : State) : State :=
  if s.pwr.phase == .standby then
    let s1 := (s.raise F.PWR_KA_FLAGS_FROM_STANDBY).bump F.PWR_KA_FLAGS_WAKES
    let s2 := coldState 2 s1
    { s2 with pwr := { s2.pwr with railEn := true } }.emit (.railEnable true)
  else s

end Sys2Proof.Machine
end

