-- ==== Sys2Proof/Machine/RegAccess.lean ====
section
/-! DEFINITION. Host writes of BAR0 (R1 to R15, R300, R334): the fields a write stores, and what a write makes the units do. The
commands that are one write alone call the same operations. -/

namespace Sys2Proof.Machine

/-! ### Fields -/

/-- The bounds within which a written value is stored: those of the shape record for the gate and the depth (R425). -/
def boundsOf (c : Shape) (a : Nat) (f : FieldDesc) : Nat × Nat :=
  if a = R.STK_GATE then (c.gateMin, c.gateMax)
  else if a = R.STK_DEPTH then (3, c.depthMax)
  else (f.least, f.most)

/-- The access code of a field of the copy at an address: LOG_EN and SEV of sources other than 8 to 15 are RW (R374). -/
def accessOf (d : RegDesc) (a : Nat) (f : FieldDesc) : Access :=
  if d.addr = R.EVT_SRC_CFG 0 ∧ f.acc = .lck ∧ !((d.addr + 32 ≤ a && a < d.addr + 64)) then .rw else f.acc

/-- A field of a register word after a write of `v` (R9). -/
def writeField (s : State) (d : RegDesc) (a : Nat) (v w : Word) (f : FieldDesc) : Word :=
  let x := fieldOf f.lo f.width v
  let (lo, hi) := boundsOf s.shape a f
  let stored := withField f.lo f.width (max lo (min hi x)) w
  match accessOf d a f with
  | .rw | .rwc => stored
  | .lck => if s.lockOpen then stored else w
  | .w1c => withField f.lo f.width (fieldOf f.lo f.width (w &&& ~~~ v)) w
  | .w1s => w ||| (v &&& BitVec.ofNat 32 ((2 ^ f.width - 1) * 2 ^ f.lo))
  | .ro | .wo | .rc => w

/-- The fields of a register stored by a write (R7, R9). -/
def storeFields (d : RegDesc) (a : Nat) (v : Word) (s : State) : State :=
  s.setReg a (d.fields.foldl (writeField s d a v) (s.reg a))

/-- Whether a write meets an LCK field while the lock is closed (R11, R402). -/
def meetsLock (s : State) (d : RegDesc) (a : Nat) : Bool := !s.lockOpen && d.fields.any (fun f => accessOf d a f == .lck)

/-! ### What a write makes a unit do -/

/-- An action on a bit of the written word. -/
def onBit (i : Nat) (v : Nat) (f : State → State) (s : State) : State := if bitAt i v then f s else s

/-- ING_RUN (R62, R226): RUN written; a start that waited is tried again. -/
def ingRunOp (run : Bool) (s : State) : State :=
  let s1 := s.fset F.ING_CTL_RUN (bitOf run)
  { s1 with stk := { s1.stk with loadTried := s1.stk.loadTried && !run } }

/-- A lane's control written (R189, R193, R197); the fields that training reads are stored. -/
def laneControl (l v : Nat) (s : State) : State :=
  onBit 1 v (trainOp l) (laneTestOp l (bitAt 5 v) (laneEnableOp l (bitAt 0 v) s))

/-- The fields of a lane's control that no operation of its own stores. -/
def laneStored (l v : Nat) (s : State) : State :=
  s.setReg (R.BLN_LANE_CTL l) (BitVec.ofNat 32 ((s.reg (R.BLN_LANE_CTL l)).toNat % 64 / 32 * 32
    + (s.reg (R.BLN_LANE_CTL l)).toNat % 2 + bits 2 3 v * 2 ^ 2 + bits 8 4 v * 2 ^ 8))

/-- A test on an echo lane ends (R193): the bit errors its checker has counted are free, since no command carries a test pattern (log
entry 113). -/
def prbsEnd (k : Nat) (s : State) : State :=
  let (g, s1) := s.fresh
  s1.setReg (R.BLN_ECHO_PRBS_ERRS k) (Config.freeWord g k)

/-- An echo lane's control written (R191, R193): the receiver goes DOWN, to TEST, or acquires anew; a lane that was locked has lost its
lock. -/
def echoControl (k : Nat) (s : State) : State :=
  let on := s.flag (F.BLN_ECHO_CTL_ENABLE k)
  let test := s.flag (F.BLN_ECHO_CTL_TEST k)
  let st := s.fget (F.BLN_ECHO_STATUS_STATE k)
  let next := if !on then 0 else if test then 3 else if st = 0 ∨ st = 3 then 1 else st
  if next = st then s
  else
    let s0 := forgetEcho k (s.fset (F.BLN_ECHO_STATUS_STATE k) next)
    let s1 := if st = 3 then prbsEnd k s0 else s0
    if st = 2 then checkEcho (s1.raise (F.BLN_ECHO_EVENTS_LOCK_LOST k)) else s1

/-- The control of an axis written (R259, R269, R274); POWER is stored by its own operation. -/
def axisControl (a v : Nat) (was : Bool) (s : State) : State :=
  let s1 := recheckInputs a s
  let s2 := if bitAt 1 v = was then s1 else axisPowerOp a (bitAt 1 v) (s1.fset (F.MOT_AX_CTL_POWER a) (bitOf was))
  onBit 2 v (clearOp a) (refreshEnable a s2)

/-- ORDER written (R262). -/
def axisCommand (a order : Nat) (s : State) : State :=
  match order with
  | 1 => moveOp a s
  | 2 => velocityOp a s
  | 3 => stopOp a s
  | 4 => homeOp a s
  | _ => if s.coxState ≠ 0 then cmdRefused s else s

/-- INT_INJECT written with the lock open (R303): KIND 6 and 7 plant nothing. -/
def injectFault (kind islet track : Nat) (s : State) : State :=
  s.setReg R.INT_INJECT (BitVec.ofNat 32 ((if 6 ≤ kind then 0 else kind % 8) + islet % 128 * 2 ^ 3 + track % 8192 * 2 ^ 10))

/-- SRM_CHK_CTL written (R327): TARGET and FLIP are stored with every MODE; MODE 3 is reserved and starts nothing. -/
def checkControl (v : Nat) (s : State) : State :=
  let target := bits 2 2 v
  let flip := bits 8 8 v
  let store := fun (u : State) => (u.fset F.SRM_CHK_CTL_TARGET target).fset F.SRM_CHK_CTL_FLIP flip
  match bits 0 2 v with
  | 1 => flipOp target flip s
  | 2 => selftestOp (if s.lockOpen then store s else s)
  | 0 => locked (fun u =>
      if u.mem.selftest.isSome then u
      else u.setReg R.SRM_CHK_CTL (BitVec.ofNat 32 (target * 2 ^ 2 + flip * 2 ^ 8))) s
  | _ => locked store s

/-- A channel's control written (R338, R342): RUN, and the actions in the order of their bits. -/
def chanControl (c v : Nat) (s : State) : State :=
  let s1 := if bitAt 0 v then dmaRunOp c s else s.clear (F.DMA_CH_CTL_RUN c)
  shareMovers (onBit 3 v (dmaResetOp c) (onBit 2 v (dmaResumeOp c) (onBit 1 v (doorbellOp c) s1)))

/-- STR_CTL written (R368, R425): MASTER is not changed during a course, and ENABLE is stored 0 for a regatta beyond the limit. -/
def straitControl (old : Word) (s : State) : State :=
  let was := bits 1 1 old.toNat
  let s1 := if s.running.isSome ∧ s.fget F.STR_CTL_MASTER ≠ was then (s.fset F.STR_CTL_MASTER was).raise F.STR_EVENTS_REFUSED else s
  if s1.flag F.STR_CTL_ENABLE && decide (s1.shape.regattaMax < s1.fget F.STR_DIV_SIZE_N * s1.fget F.STR_REG_SIZE_N) then
    (s1.clear F.STR_CTL_ENABLE).raise F.STR_EVENTS_REFUSED
  else s1

/-- SAF_TEST written with GO (R405): the first step whose bit is set. -/
def testControl (v : Nat) (s : State) : State :=
  if !bitAt 31 v || !s.lockOpen then s
  else if bitAt 0 v then testLinesOp s
  else if bitAt 1 v then testAmpsOp s
  else if bitAt 2 v then testDiagOp s
  else s

/-- The first key is no longer the last write to SAF (R401). -/
def unkey (s : State) : State := { s with saf := { s.saf with keyed := false } }

/-- PWR_STANDBY written (R414): the level of WAKE_N is not given by the write, so it is free (log entry 30). -/
def standbyWrite (v : Nat) (s : State) : State :=
  let (g, s1) := s.fresh
  standbyOp (bits 0 16 v) (bitAt 16 v) ((Config.freeWord g 0).getLsbD 0) s1

/-- RESULT_ACK (R300): the visible result is released. -/
def resultAckOp (base : Nat) (s : State) : State := s.setResult base (ackBlockOf (s.result base))

/-- What a stored write makes the units of blocks 1 to 9 do. -/
def actLow (a : Nat) (v : Nat) (s : State) : State :=
  if a = R.CFG_JOB_CTL then onBit 31 v (cfgGo (bitAt 1 v)) s
  else if a = R.PWR_RESET then pwrReset (bits 0 16 v) (bitAt 16 v) (bitAt 17 v) (bitAt 18 v) s
  else if a = R.PWR_STANDBY then standbyWrite v s
  else if a = R.SAF_CTL then
    updatePermit (onBit 2 v hostStopOp (onBit 1 v safClearOp s))
  else if a = R.SAF_TEST then testControl v (s.clear F.SAF_TEST_GO)
  else if a = R.LOG_CTL then
    onBit 1 v (fun u => if u.lockOpen then eraseGo u else u) (onBit 2 v noteRecord (onBit 3 v wallMark (s.clear F.LOG_CTL_ERASE)))
  else if a = R.LOG_AUD_GO then onBit 0 v auditGo s
  else if a = R.LOG_EXP_GO then onBit 0 v exportGo s
  else if a = R.DMA_CTL then onBit 1 v abortAllOp (onBit 0 v dmaRestartOp s)
  else if a = R.HBM_CTL then onBit 10 v retrainOp s
  else if a = R.HBM_INIT_GO then onBit 0 v hbmInitOp s
  else s

/-- What a stored write makes the units of blocks A to 16 do. -/
def actHigh (a : Nat) (v : Nat) (s : State) : State :=
  if a = R.SRM_RESTORE_GO then onBit 0 v restoreOp s
  else if a = R.SRM_REPAIR_CTL then onBit 1 v repairDiscardOp (onBit 0 v repairSaveOp s)
  else if a = R.ING_CTL then onBit 2 v flushOp (onBit 3 v skipOp (ingRunOp (bitAt 0 v) s))
  else if a = R.ING_CQ_POST then onBit 0 v postOp s
  else if a = R.SLZ_CTL then onBit 8 v slzAbortOp s
  else if a = R.SLZ_JOB_GO then onBit 0 v (slzGoOp (bitAt 1 v)) s
  else if a = R.RAS_PROBE then onBit 31 v (rasProbeOp (bits 0 16 v) (bits 16 5 v) (bits 21 3 v)) s
  else if a = R.DOS_KRN_BANK then bankControl .krn v s
  else if a = R.DOS_TGN_BANK then bankControl .tgn v s
  else if a = R.CRW_MAP_BANK then bankControl .map v s
  else if a = R.CRW_PROBE then onBit 31 v (crwProbeOp (bits 0 13 v) (bits 13 7 v) (bits 20 11 v)) s
  else if a = R.WAK_PEEK then onBit 31 v (wakPeekOp (bits 0 13 v)) s
  else if a = R.BLN_MAP_BANK then bankControl .lanes v s
  else if a = R.BLN_SIDE_GO then onBit 1 v sideAbortOp (onBit 0 v sideGoOp s)
  else if a = R.STK_WAVE_BANK then bankControl .wave v s
  else if a = R.COX_CTL then onBit 0 v coxHaltOp s
  else if a = R.MOT_TBL_GO then
    if s.coxState ≠ 0 then cmdRefused s else onBit 2 v tblAbortOp (onBit 1 v tblRunOp (onBit 0 v tblLoadOp s))
  else if a = R.INT_RESEND then onBit 0 v resendOp s
  else if a = R.STR_TX_CTL then onBit 31 v txGo s
  else
    match copyOf (R.MOT_AX_CMD 0) 256 2 a with
    | some k => axisCommand k (bits 0 3 v) s
    | none =>
      match copyOf (R.BLN_ECHO_CTL 0) 256 4 a with
      | some k => echoControl k s
      | none =>
        match copyOf (R.BLN_LANE_PRBS 0) 256 136 a with
        | some l => testPattern l s
        | none => s

/-- What a stored write makes the units do. -/
def act (a : Nat) (v : Nat) (s : State) : State := if a < 0x0A0000 then actLow a v s else actHigh a v s

/-- A write of a register whose own operation stores it: none for the others. -/
def writeSpecial (a : Nat) (v : Nat) (s : State) : Option State :=
  match ackBase a with
  | some base => some (if bitAt 0 v then resultAckOp base s else s)
  | none =>
    if a = R.CRW_MAP_SHADOW_LO then some (shadowBaseWrite false (BitVec.ofNat 32 v) s)
    else if a = R.CRW_MAP_SHADOW_HI then some (shadowBaseWrite true (BitVec.ofNat 32 v) s)
    else if a = R.MOT_SERVO then some (servoPeriodOp (bits 0 7 v) s)
    else if a = R.INT_INJECT then some (locked (injectFault (bits 0 3 v) (bits 3 7 v) (bits 10 13 v)) s)
    else if a = R.SRM_CHK_CTL then some (checkControl v s)
    else if a = R.SAF_LOCK then
      some (if bitAt 31 v then lockCloseOp s else lockKeyOp (bits 0 16 v) s)
    else if a = R.STR_RX_TAIL then some (freeSlots v s)
    else match copyOf (R.EVT_PEND 0) 4 4 a with
    | some w => some (pendClear w (BitVec.ofNat 32 v) s)
    | none => match copyOf (R.EVT_FORCE 0) 4 4 a with
    | some w => some (evtForce w (BitVec.ofNat 32 v) s)
    | none => match copyOf (R.MOT_AX_ADIST_V 0) 256 2 a with
    | some k => some (adistOp k (bits 0 24 v) s)
    | none => match copyOf (R.BLN_LANE_CTL 0) 256 136 a with
    | some l => some (laneControl l v (laneStored l v s))
    | none => match copyOf (R.BLN_LANE_INJECT 0) 256 136 a with
    | some l => some (locked (injectOp l (bits 0 2 v) (bits 2 5 v) (bitAt 7 v) (bits 8 24 v)) s)
    | none => none

/-- A write of a register stored field by field, and what it makes the units do (R9, R11, R12, R402). -/
def writePlain (d : RegDesc) (a : Nat) (v : Word) (s : State) : State :=
  let old := s.reg a
  let s1 := storeFields d a v s
  let s2 := if meetsLock s d a then lockViolation s1 else s1
  if a = R.STR_CTL then straitControl old s2
  else match copyOf (R.MOT_AX_CTL 0) 256 2 a with
    | some k => axisControl k v.toNat (bitAt 1 old.toNat) s2
    | none => match copyOf (R.DMA_CH_CTL 0) 64 32 a with
      | some c => chanControl c v.toNat (s2.fset (F.DMA_CH_CTL_RUN c) (bits 0 1 old.toNat))
      | none => act a v.toNat s2

/-- A write of one word of BAR0 (R8): an offset that holds no register takes no effect. -/
def writeReg (a : Nat) (v : Word) (s : State) : State :=
  match tableAt a with
  | some _ => tableStore a v s
  | none =>
    match descOf a with
    | none => s
    | some d =>
      let s1 := if a / 65536 = 3 ∧ a ≠ R.SAF_LOCK then unkey s else s
      (writeSpecial a v.toNat s1).getD (writePlain d a v s1)

/-- The words of one write in ascending offsets; a word without all four byte enables is discarded (R6). -/
def writeLanes : Nat → List WriteLane → State → State
  | _, [], s => s
  | a, l :: t, s => writeLanes (a + 4) t (if l.be = 15 then writeReg a l.value s else s)

/-- REGISTER_WRITE (R334): a write of more than 64 bytes is not supported and has no effect; in a smaller one every whole word is
written. -/
def registerWriteOp (a : Nat) (ls : List WriteLane) (s : State) : State :=
  if 16 < ls.length then { s with resp := .unsupported } else writeLanes a ls s

/-! ### Commands that are one register write -/

/-- INJECT_RESIDUE to INJECT_SPLIT (R303): a write of INT_INJECT, an LCK register. -/
def injectFaultOp (kind islet track : Nat) (s : State) : State := locked (injectFault kind islet track) s

/-- WALL_GO (R381): a write of LOG_CTL, which holds an LCK field (R402). -/
def wallGoOp (s : State) : State := wallMark (if s.lockOpen then s else lockViolation s)

/-- NOTE_GO (R378): a write of LOG_CTL, which holds an LCK field (R402). -/
def noteGoOp (s : State) : State := noteRecord (if s.lockOpen then s else lockViolation s)

/-- ERASE (R385): LOG_CTL.ERASE is an LCK field. -/
def eraseOp (s : State) : State := locked eraseGo s

/-- EQ_FREEZE and EQ_THAW (R192) on an echo lane. -/
def eqOp (k : Nat) (on : Bool) (s : State) : State := s.fset (F.BLN_ECHO_STATUS_FROZEN k) (bitOf on)

end Sys2Proof.Machine
end

