-- ==== Sys2Proof/Machine/Boot.lean ====
section
/-! DEFINITION. The boots (R307, R325, R328, R403, R419 to R429, R432, R457). -/

namespace Sys2Proof.Machine

/-! ### Soft repairs -/

/-- One entry of the soft repair list (R325): whether its CRC is right and its KIND known, KIND, MACRO. -/
structure RepairEntry where
  whole : Bool
  kind : Nat
  place : Nat
deriving DecidableEq, Repr

/-- An entry of the soft repair list as the boot reads it; none where it is free. -/
def repairEntry (s : State) (i : Nat) : Option RepairEntry :=
  if s.repairFree i then none
  else
    let a := repairList + 16 * i
    let bs := s.keelBytes a 16
    let kind := leAt 0 1 bs
    some { whole := !s.keelBad a 16 && leAt 12 4 bs == (crc32c (bs.take 12)).toNat && decide (1 ≤ kind ∧ kind ≤ 3), kind := kind
           place := leAt 2 2 bs }

/-- An entry that the boot skips (R325). -/
def skipRepair (s : State) : State := (s.bump F.SRM_REPAIR_USED_SKIPPED).raise F.SRM_EVENTS_REPAIR_SKIPPED

/-- An HBM row repair at a cold boot (R325): the row repaired, or refused beyond the stack's resources. -/
def repairRow (q : Nat) (s : State) : State :=
  let k := q / 32 % 4
  if s.fget (F.HBM_STK_PPR_APPLIED k) < Config.pprRows k then s.bump (F.HBM_STK_PPR_APPLIED k) else s.bump (F.HBM_STK_PPR_REFUSED k)

/-- The spares of a macro for a KIND of repair (R325): rows and columns of a macro of the wake buffer or of the tables, or of islet local
memory, less those that the factory fuse map uses. -/
def sparesOf (kind macroAt : Nat) : Nat :=
  let all := if Config.macroMemory macroAt ≤ 1 then (if kind = 1 then 4 else 2) else if kind = 1 then 2 else 1
  all - Config.fusedSpares kind macroAt

/-- The soft repairs from entry `i` on, in list order (R325): `used` holds KIND and MACRO of those applied. `n` bounds the entries. -/
def applyRepairs (cold : Bool) : Nat → Nat → List (Nat × Nat) → State → State
  | 0, _, _, s => s
  | n + 1, i, used, s =>
    match repairEntry s i with
    | none => applyRepairs cold n (i + 1) used s
    | some e =>
      let key := (e.kind, e.place)
      if !e.whole then applyRepairs cold n (i + 1) used (skipRepair s)
      else if e.kind = 3 then applyRepairs cold n (i + 1) used (if cold then repairRow e.place s else s)
      else if (used.filter (fun k => k == key)).length < sparesOf e.kind e.place then
        applyRepairs cold n (i + 1) (key :: used) s
      else applyRepairs cold n (i + 1) used (skipRepair s)

/-! ### HBM -/

/-- Training and, with INIT_AT_BOOT 1, the initialisation of a cold boot (R307, R328). -/
def bootHbm (ends : List (Bool × Nat)) (s : State) : State :=
  let s1 := hbmTrainDoneOp ends (beginTraining s)
  if s1.pwr.initAtBoot && s1.hbmReady then (zeroHbm 0 hbmSize s1).raise F.HBM_EVENTS_INIT_DONE else s1

/-- The stacks leave self-refresh at a warm boot (R308). -/
def bootRefresh (s : State) : State :=
  let s1 := (List.range 4).foldl (fun u k => if u.fget (F.HBM_STK_STATUS_STATE k) = 4 then setStack k 2 u else u) s
  if (List.range 4).all (fun k => s1.fget (F.HBM_STK_STATUS_STATE k) == 2) then s1.raise F.HBM_STATUS_READY else s1

/-! ### The configuration load -/

/-- What a boot found in the slots (R421): the image, its slot (0 A, 1 B, 2 harbour), and the refused slots with their reasons. -/
structure BootLoad where
  image : BootImage
  slot : Nat
  refused : List (Nat × Nat)
deriving DecidableEq, Repr

/-- The slots tried in order; the harbour image where none passes (R421). -/
def loadFrom (s : State) : List Nat → List (Nat × Nat) → BootLoad
  | [], refused => { image := harbourImage, slot := 2, refused := refused.reverse }
  | b :: t, refused =>
    let c := imageCheck (slotRead s b)
    if c = 0 then { image := readImage (slotRead s b), slot := b, refused := refused.reverse } else loadFrom s t ((b, c) :: refused)

/-- The load of a boot (R421). -/
def bootLoad (s : State) : BootLoad := loadFrom s (if s.pwr.skipA then [1] else [0, 1]) []

/-- The reason for which a slot was refused; 0 passed or not read. -/
def BootLoad.reason (l : BootLoad) (slot : Nat) : Nat := ((l.refused.find? (fun p => p.1 == slot)).map Prod.snd).getD 0

/-- The bytes of a record shown in words of the register file. -/
def showWords (a n : Nat) (bs : List Byte) (s : State) : State :=
  (List.range n).foldl (fun t w => t.setReg (a + 4 * w) (BitVec.ofNat 32 (leAt (4 * w) 4 bs))) s

/-- The words of a bank, each within its fields. -/
def storeWords (width : Nat → Nat) (ps : List (Nat × Nat)) (s : State) : State :=
  ps.foldl (fun t p => t.setReg p.1 (BitVec.ofNat 32 (p.2 % 2 ^ width p.1))) s

/-- Bank 0 of every table and the beam map in service (R145, R427). -/
def loadTables (im : BootImage) (s : State) : State :=
  let s1 := storeWords (fun a => if a = R.DOS_KRN_RADIUS 0 then 8 else 16) im.krn s
  let s2 := storeWords (fun _ => 32) (((List.range 4096).zip im.tgn).map (fun p => (R.DOS_TGN 0 p.1, p.2))) s1
  let wave := (R.STK_WAVE_GPD 0, im.wave.getD 0 0)
    :: (List.range 16).flatMap (fun c =>
      [(R.STK_WAVE_LO 0 c, im.wave.getD (1 + 2 * c) 0), (R.STK_WAVE_HI 0 c, im.wave.getD (2 + 2 * c) 0)])
  let s3 := storeWords (fun a => if a = R.STK_WAVE_GPD 0 then 3 else 32) wave s2
  let s4 := storeWords (fun _ => 9) (((List.range 136).zip im.lanes).map (fun p => (R.BLN_MAP 0 p.1, p.2))) s3
  { s4 with crw := { s4.crw with map := sparsePutAll (fun _ => 0) [] im.map } }

/-- The registers that name the image in force (R421, R424, R426). -/
def showImage (l : BootLoad) (s : State) : State :=
  let im := l.image
  let s1 := ((s.fset F.CFG_STATUS_LOADED l.slot).fset F.CFG_STATUS_HARBOUR (bitOf (l.slot == 2))).fset F.CFG_STATUS_REASON_A
    (l.reason 0)
  let s2 := (s1.fset F.CFG_STATUS_REASON_B (l.reason 1)).fset F.CFG_DEVICE_ID_ID im.deviceId
  let s3 := s2.setPair F.CFG_BUILD_LO_BUILD F.CFG_BUILD_HI_BUILD im.build
  let s4 := s3.setPair F.CFG_IMAGE_CRC_LO_CRC F.CFG_IMAGE_CRC_HI_CRC im.check.toNat
  let s5 := showWords (R.CFG_STAGE 0) 16 im.stageRec (showWords (R.CFG_SHAPE 0) 32 im.shapeRec s4)
  if l.refused.isEmpty then s5
  else ((s5.raise F.CFG_EVENTS_DEFAULTED).raise F.CFG_DEFAULTED_SET).fset F.CFG_DEFAULTED_FALLBACKS l.refused.length

/-- STK_GATE and STK_DEPTH brought within the bounds of the shape in force (R425). -/
def boundStanding (s : State) : State :=
  let s1 := s.fset F.STK_GATE_GATE (max s.shape.gateMin (min s.shape.gateMax (s.fget F.STK_GATE_GATE)))
  s1.fset F.STK_DEPTH_DEPTH (max 3 (min s.shape.depthMax (s1.fget F.STK_DEPTH_DEPTH)))

/-- Steps 6 and 7 of R419: the load, its tables, and the presets as host writes in order (R428). -/
def bootConfig (l : BootLoad) (s : State) : State :=
  let s1 := boundStanding (loadTables l.image (showImage l { s with shape := l.image.shape }))
  l.image.presets.foldl (fun t p => writeReg p.1 (BitVec.ofNat 32 p.2) t) s1

/-! ### Boot records -/

/-- The kind that the boot reports: of the highest precedence among those present (R457). -/
def bootKind (s : State) : Nat := s.pwr.kinds.foldl min 8

/-- BUILD_ID and the stored check word of a slot (R432): 0 where the reason says that they cannot be read. -/
def slotIdent (s : State) (l : BootLoad) (slot reason : Nat) : Nat × Nat :=
  if slot = 2 then (0, l.image.check.toNat)
  else
    let r := slotRead s slot
    if reason = 10 then (0, 0)
    else (r.le 16 8, if lengthOk r.length then r.le (r.length - 8) 8 else 0)

/-- A record of class BOOT (R378, R432), made even while EN is 0 (R386). -/
def bootRecord (sub : Bool) (l : BootLoad) (slot reason ms : Nat) (s : State) : State :=
  let p := slotIdent s l slot reason
  let sev := if sub then 2 else if slot = 2 then 3 else 1
  makeRec sev 5 0 (leBytes 1 (bitOf sub) ++ leBytes 1 (bootKind s) ++ leBytes 1 slot ++ leBytes 1 reason ++ leBytes 8 p.1
    ++ leBytes 8 p.2 ++ leBytes 4 ms ++ leBytes 2 l.image.deviceId
    ++ leBytes 1 (s.fget F.PWR_KA_FLAGS_FROM_STANDBY + 2 * bitOf s.pwr.skipA)) s

/-- The FALLBACK records, then the BOOT record (R432). -/
def bootRecords (l : BootLoad) (ms : Nat) (s : State) : State :=
  bootRecord false l l.slot 0 ms (l.refused.foldl (fun t p => bootRecord true l p.1 p.2 ms t) s)

/-! ### The end of a boot -/

/-- The lanes that are enabled begin to train (R190, R191, R419). -/
def bootLanes (s : State) : State :=
  let s1 := (List.range 136).foldl (fun t l => if t.flag (F.BLN_LANE_CTL_ENABLE l) then startTrain l t else t) s
  (List.range 4).foldl (fun t k =>
    if t.flag (F.BLN_ECHO_CTL_ENABLE k) then
      t.fset (F.BLN_ECHO_STATUS_STATE k) (if t.flag (F.BLN_ECHO_CTL_TEST k) then 3 else 1)
    else t) s1

/-- The amplifier enables, and the stop input that is held low (R390, R403, R429). -/
def bootSafety (testOk : Bool) (s : State) : State :=
  let s1 := { s with saf := { s.saf with startupOk := testOk } }
  let s2 := if s1.demanded then s1 else assertAmps s1
  if s2.flag F.SAF_STATUS_STOP_IN then demand 0 s2 else s2

/-- Steps 6 to 8 of R419, which a warm boot runs as well (R420). -/
def bootFinish (testOk : Bool) (ms : Nat) (s : State) : State :=
  let l := bootLoad s
  let s1 := bootRecords l ms (bootConfig l s)
  let s2 := (s1.fset F.PWR_LAST_RESET_KIND (bootKind s1)).raise F.CFG_STATUS_READY
  let s3 := { s2.raise F.GEN_EVENTS_BOOTED with pwr := { s2.pwr with phase := .running, kinds := [] } }
  bootLanes (bootSafety testOk s3)

/-- COLD_BOOT (R419): whether the start-up test passed, how training ended per stack, and the milliseconds from the release. -/
def coldBootOp (testOk : Bool) (ends : List (Bool × Nat)) (ms : Nat) (s : State) : State :=
  if s.pwr.phase == .coldBoot then
    let s1 := bootHbm ends (s.until (s.pwr.releasedAt + ms * ticksPerMs))
    bootFinish testOk ms (applyRepairs true 512 0 [] s1)
  else s

/-- WARM_BOOT (R420): steps 2, 6, 7 and 8 of R419. -/
def warmBootOp (testOk : Bool) (ms : Nat) (s : State) : State :=
  if s.pwr.phase == .warmBoot then
    let s1 := bootRefresh (s.until (s.pwr.releasedAt + ms * ticksPerMs))
    bootFinish testOk ms (applyRepairs false 512 0 [] s1)
  else s

end Sys2Proof.Machine
end

