-- ==== Sys2Proof/Machine/CmdBoots.lean ====
section
/-! DEFINITION. The meanings of the commands of the boots and the configuration jobs (R419 to R433). -/

namespace Sys2Proof.Machine

/-- COLD_BOOT (R419). -/
def execColdBoot (testOk : Bool) (ends : List (Bool × Nat)) (ms : Nat) (s : State) : Host.Outcome State Fault Refusal := done (Instr.coldBoot testOk ends ms).wf (coldBootOp testOk ends ms) s

/-- WARM_BOOT (R420). -/
def execWarmBoot (testOk : Bool) (ms : Nat) (s : State) : Host.Outcome State Fault Refusal := done (Instr.warmBoot testOk ms).wf (warmBootOp testOk ms) s

/-- CFG_WRITE_SLOT (R430). -/
def execCfgWriteSlot (slot : Nat) (s : State) : Host.Outcome State Fault Refusal := done (Instr.cfgWriteSlot slot).wf (cfgWriteSlotOp slot) s

/-- CFG_CHECK_IMAGE (R430). -/
def execCfgCheckImage (slot : Nat) (s : State) : Host.Outcome State Fault Refusal := done (Instr.cfgCheckImage slot).wf (cfgCheckImageOp slot) s

/-- CFG_JOB_DONE (R430). -/
def execCfgJobDone (ok : Bool) (s : State) : Host.Outcome State Fault Refusal := done true (cfgJobDoneOp ok) s

end Sys2Proof.Machine
end

