-- ==== Sys2Proof/Machine/CmdChecks.lean ====
section
/-! DEFINITION. The meanings of the commands of source losses and planted faults (R276 to R303). -/

namespace Sys2Proof.Machine

/-- RESEND (R291). -/
def execResend (s : State) : Host.Outcome State Fault Refusal := done true resendOp s

/-- RESEND_READ_DONE (R291). -/
def execResendReadDone (s : State) : Host.Outcome State Fault Refusal := done true resendReadDoneOp s

/-- INJECT_RESIDUE (R303). -/
def execInjectResidue (islet : Nat) (s : State) : Host.Outcome State Fault Refusal := done (Instr.injectResidue islet).wf (injectFaultOp 1 islet 0) s

/-- INJECT_AREA (R303). -/
def execInjectArea (islet : Nat) (s : State) : Host.Outcome State Fault Refusal := done (Instr.injectArea islet).wf (injectFaultOp 2 islet 0) s

/-- INJECT_PLACE (R303). -/
def execInjectPlace (islet : Nat) (s : State) : Host.Outcome State Fault Refusal := done (Instr.injectPlace islet).wf (injectFaultOp 3 islet 0) s

/-- INJECT_WAKE (R303). -/
def execInjectWake (track : Nat) (s : State) : Host.Outcome State Fault Refusal := done (Instr.injectWake track).wf (injectFaultOp 4 0 track) s

/-- INJECT_SPLIT (R303). -/
def execInjectSplit (track : Nat) (s : State) : Host.Outcome State Fault Refusal := done (Instr.injectSplit track).wf (injectFaultOp 5 0 track) s

end Sys2Proof.Machine
end

