-- ==== Sys2Proof/Machine/CourseStart.lean ====
section
/-! DEFINITION. The start of a course (R62): its conditions, judged with the values that will govern (R456), and what it sets. -/

namespace Sys2Proof.Machine

/-! ### The conditions -/

/-- The entry that is due to start (R62): the oldest, READY, with RUN set and none RUNNING, and the cox IDLE or running out. -/
def dueEntry (s : State) : Option Entry :=
  match s.ing.queue with
  | [] => none
  | e :: _ =>
    if s.flag F.ING_CTL_RUN && e.state == .ready && s.running.isNone && (s.coxState == 0 || s.coxState == 7) then some e else none

/-- A course that needs spill with SPILL_EN 0 (R86). -/
def spillFails (s : State) (e : Entry) : Bool := e.spills && !s.flag F.RAS_CTL_SPILL_EN

/-- SPILL_INDEX_FAIL (R86): the entry fails with INDEX at the offset of the tile index record. -/
def spillFail (e : Entry) (s : State) : State :=
  (s.mapEntry e.idx (fun x => { x with
    state := .failed, err := layoutCode .index, band := 0, tile := 0, inHeader := true
    off := (e.head.map StreamHead.indexAt).getD 0 })).raise F.ING_EVENTS_ADMIT_FAIL

/-- Whether the send-ahead depth fails R224. -/
def depthShort (s : State) : Bool :=
  decide (s.fget F.STK_DEPTH_DEPTH * tminOf s.shape (s.fget F.STK_GATE_GATE)
    < ticksPerNs * (s.fget F.STK_RTT_BUDGET_NS + s.fget F.STK_COMMIT_LEAD))

/-- Whether the start waits with no event of its own: a beam map exchange (R143), HBM that training left unusable (R307), a BAD word in service
(R319), a device that is not time-locked (R363), or an axis in HOMING or TABLE (R275). -/
def startWaits (s : State) : Bool :=
  let busy := fun (a : Nat) => s.axisState a == 3 || s.axisState a == 4
  s.banks.map.pending || s.crw.exchanging || s.badInService || !s.hbmReady || busy 0 || busy 1
    || (s.flag F.STR_CTL_ENABLE && !s.flag F.STR_CTL_MASTER && !s.flag F.STR_STATUS_TIME_LOCKED)

/-- The wait of R319 shown. -/
def showBad (s : State) : State := if s.badInService then s.fset F.COX_RESUME_WAIT_UNMET (s.fget F.COX_RESUME_WAIT_UNMET ||| 128) else s

/-- Every pending commit takes effect (R132, R135); a waveform bank that has changed is to be loaded (R226). -/
def swapBanks (s : State) : State :=
  let load := s.stk.loadDue || s.banks.wave.pending
  let s1 := bankSwap .lanes (bankSwap .wave (bankSwap .tgn (bankSwap .krn s)))
  { s1 with stk := { s1.stk with loadDue := load, loadTried := s1.stk.loadTried && !s.banks.wave.pending } }

/-- The beam lanes in use that are not on a READY lane (R196). -/
def lanesMissing (s : State) : List Nat := (List.range s.shape.beamLanes).filter (fun b => s.laneState (s.laneOf b) != 3)

/-- The substitutions of R196 (R199, R202), where AUTO_SPARE will govern. -/
def spareStart (s : State) : State :=
  if s.flag F.BLN_CTL_AUTO_SPARE then sideMoved ((lanesMissing s).foldl (fun t b => substituteOne false b t) s) else s

/-! ### The settings -/

/-- The condition of R210 on the loop gains last written. -/
def gainsOk (s : State) : Bool :=
  let ka := s.fget F.STK_LOOP_KA_KA
  let kv := s.fget F.STK_LOOP_KV_KV
  let kc := s.fget F.STK_LOOP_KC_KC
  decide (0 < ka ∧ ka < 2 ^ 17 ∧ 0 < kv ∧ kv + 2 * ka < 2 ^ 18 ∧ 0 < 2 * kc * (2 ^ 17 - ka) ∧ 2 * kc * (2 ^ 17 - ka) < 4 * ka * kv)

/-- The condition of R253 on the cox settings last written. -/
def thresholdsOk (s : State) : Bool :=
  decide (16 ≤ s.fget F.COX_LEAD_HALT_PX ∧ s.fget F.COX_LEAD_HALT_PX < s.fget F.COX_LEAD_FLOOR_PX
    ∧ s.fget F.COX_LEAD_FLOOR_PX < s.fget F.COX_LEAD_TARGET_PX ∧ s.fget F.COX_LEAD_TARGET_PX ≤ s.shape.leadLimit
    ∧ s.sget F.COX_TEMP_RESUME_T < s.sget F.COX_TEMP_WARN_T ∧ s.sget F.COX_TEMP_WARN_T < s.sget F.COX_TEMP_HARD_T
    ∧ s.fget F.STK_VMIN_VMIN ≤ s.fget F.COX_VMIN_RUN_V ∧ s.fget F.COX_VMIN_RUN_V ≤ s.fget F.COX_VMAX_V
    ∧ s.fget F.COX_MARGIN_SOFT ≤ s.fget F.COX_MARGIN_CAP ∧ 1 ≤ s.fget F.COX_UP_STEP_V)

/-- The registers that hold the loop gains (R210). -/
def gainRegs : List Nat := [R.STK_LOOP_KA, R.STK_LOOP_KV, R.STK_LOOP_KC]

/-- The registers that R253 governs, offsets 0x0020 to 0x0074. -/
def thresholdRegs : List Nat := (List.range 22).map (fun i => R.COX_VMAX + 4 * i)

/-- The values last written govern from now on (R12 to R14); gains and cox settings that fail their conditions keep those that
governed (R210, R253). -/
def takeSettings (s : State) : State :=
  let g := gainsOk s
  let t := thresholdsOk s
  let keep := (if g then [] else gainRegs) ++ (if t then [] else thresholdRegs)
  let inf := keep.foldl (fun m a => sparsePut resetOf a (s.inReg a) m) s.regs
  State.raiseIf (!t) F.COX_EVENTS_THRESH_REFUSED (State.raiseIf (!g) F.STK_EVENTS_GAIN_REFUSED { s with inf := inf })

/-! ### What a start sets -/

/-- The live seats of every crew, by track. -/
def crewLives (s : State) : List Nat := (List.range s.shape.tracks).map (fun t => (crewOf s.shape s.mapEntryRaw t).live)

/-- Seats of the bank in service in a state (R146). -/
def seatsIn (s : State) (p : Nat → Bool) : Nat :=
  ((s.crw.map.map Prod.fst).filter (fun i => decide (i / 128 < s.shape.tracks ∧ i % 128 < s.shape.seats)
    && p (entryState (s.mapEntryRaw i)))).length

/-- The counts of the beam map (R146). -/
def mapCounts (s : State) : State :=
  let on := seatsIn s (fun x => x == 2)
  let off := seatsIn s (fun x => x == 1 || x == 3)
  let ls := crewLives s
  let least := ls.foldl min 255
  let s1 := ((s.setReg R.CRW_MAP_LIVE (BitVec.ofNat 32 (s.shape.tracks * s.shape.seats - on - off))).setReg R.CRW_MAP_OFF
    (BitVec.ofNat 32 off)).setReg R.CRW_MAP_ON (BitVec.ofNat 32 on)
  let s2 := s1.setReg R.CRW_MAP_MIN_L (BitVec.ofNat 32 (least + ls.idxOf least * 2 ^ 8))
  State.raiseIf (least == 0) F.CRW_EVENTS_DEAD_CREW s2

/-- The report registers that read 0 from a course start on. -/
def courseZeros : List Nat :=
  [R.RAS_E_MAX, R.RAS_E_MAX_AT, R.DOS_SAT_COUNT, R.DOS_SAT_FIRST, R.DOS_SAT_FIRST_ROW, R.CRW_SPLIT_STROKE, R.CRW_UNDER_COUNT,
   R.CRW_OVER_COUNT, R.CRW_DEFICIT_DU, R.CRW_EXCESS_DU, R.CRW_UNW_FIRST, R.CRW_UNW_FIRST_ROW, R.WAK_FAULT_STROKE, R.STK_HALT_AT,
   R.STK_HALT_CAUSE, R.STK_RTT_MAX, R.COX_REASON, R.COX_RESUME_WAIT, R.COX_RECATCHES, R.COX_PAUSE_MAX, R.COX_PAUSE_TOTAL, R.COX_ABANDON]

/-- The reports of the course cleared (R109, R114, R146, R151, R155, R156, R220, R235, R248). -/
def clearReports (s : State) : State :=
  let s1 := courseZeros.foldl (fun t a => t.setReg a 0#32) s
  let s2 := (List.range 128).foldl (fun t i =>
    let u := t.fset (F.RAS_ISLET_FAULTS_IN_COURSE i) 0
    if t.fget (F.RAS_ISLET_CTL_DISABLE i) = 0 then u.fset (F.RAS_ISLET_STATUS_AUTO_DISABLED i) 0 else u) s1
  let s3 := (s2.fset F.WAK_STATUS_K (1 - s2.fget F.WAK_STATUS_K)).fset F.WAK_STATUS_STALLED 0
  let s4 := (s3.fset F.WAK_LEAD_MIN 0xFFFF).fset F.BLN_SUBS_IN_COURSE 0
  let s5 := (s4.fset F.STK_PERIOD_MIN_TICKS 0xFFFFF).fset F.DOS_STATUS_BSX_WAIT 0
  (s5.fset F.COX_STATUS_RAISE_OK 0).fset F.COX_STATUS_LIMITER 7

/-- The units' own values at a course start. -/
def freshCourse (e : Entry) (s : State) : State :=
  { s with
    ras := { s.ras with eligible := 0, dispBand := 0, dispTiles := [], doneBelow := 0
                        bandCount := (e.head.map (fun h => s.shape.bands h.lengthPx)).getD 0, redo := [], notes := [], stopped := false }
    bsx := { on := s.govFlag F.DOS_CTL_BSX_EN, next := 0, busy := false, sums := [], lost := false, bits := [] }
    crw := { s.crw with split := 0, seen := 0, stop := false, stalled := [] }
    wak := { s.wak with slots := (s.wak.slots.filter (fun p => p.2.band != 0)).map (fun p =>
      (p.1, { p.2 with held := false, mask := [] })) }
    bln := { s.bln with frames := [], gen := 0, marked := [], unacked := [], haltCatch := none, judged := none
                        trains := s.bln.trains.map (fun p => (p.1, { p.2 with missed := [], turn := 0 })) }
    stk := { s.stk with next := 0, pred := none, commits := [], lastCommit := none, lastCatch := none, fireCatch := none, halted := false, haltedAt := 0
                        fire := false, periodMin := none, rttMax := 0, lastFired := none, aborted := false }
    cox := { State.reset.cox with supplyClear := s.cox.supplyClear }
    int := { s.int with loss := s.int.loss.bind (fun l => if l.atAdmission then some l else none), wakeFaults := [], sigs := [], suspect := false
                        recomps := 0, rereads := false }
    mem := { s.mem with localRows := [], bad := s.mem.bad.filter (fun a => decide (a < 0x1000000)) }
    mot := { s.mot with refLost := false } }

/-- The lanes of the course go ACTIVE, and its COURSE_BEGIN series is sent (R175, R197). -/
def beginLanes (cseq : Nat) (s : State) : State :=
  let s1 := ((List.range s.shape.beamLanes).map s.laneOf).foldl (fun t l => setLane l 4 t) s
  sendSeries .courseBegin cseq { s1 with bln := { s1.bln with cseq := cseq } }

/-- The cox enters APPROACH (R241, R243, R250): the stage moves to X_a and ORIGIN_Y, or the course has no room. -/
def approach (e : Entry) (s : State) : State :=
  let v := min (vmOf s) s.mot.x.vmax
  let s1 := (setCox 1 s).fset F.COX_VTOP_V (vtopOf s)
  match runPoint s1 e 0 v with
  | some p =>
    if insideSoft s1 0 p then
      coxOrder 1 (.move e.originY) (coxOrder 0 (.move p) { s1 with cox := { s1.cox with vr := v, xr := p } })
    else abandon 5 (coxOrder 1 (.move e.originY) s1)
  | none => abandon 5 (coxOrder 1 (.move e.originY) s1)

/-- The course of an entry starts; a demand in force halts it (R391). -/
def startCourse (e : Entry) (s : State) : State :=
  let s1 := freshCourse e (clearReports (straitsGovern (s.govFlag F.STR_CTL_ENABLE) (takeSettings s)))
  let s2 := (s1.mapEntry e.idx (fun x => { x with state := .running })).raise F.ING_EVENTS_COURSE_START
  let s3 := mapCounts (scrambleArea s2)
  let s4 := journalRun 1 (e.pass + e.idx % 8 * 2 ^ 8) e.base false s3
  let s5 := beginLanes e.seq s4
  let s6 := approach e (courseEvent 1 0 0 s5)
  if s6.demanded then requestHalt 11 false s6 else s6

/-- The start of an entry due, once its other conditions hold: the banks swap (R132), the blanker is loaded (R226), the lanes are
judged (R196). -/
def startReady (e : Entry) (s : State) : State :=
  let s1 := readLaneMap (swapBanks s)
  if s1.badInService then showBad s1
  else if s1.stk.loadDue then
    if s1.bln.side.isSome || s1.stk.loadTried then s1 else startWaveLoad s1
  else
    let s2 := spareStart s1
    if (lanesMissing s2).isEmpty then startCourse e s2 else s2.raise F.BLN_EVENTS_NO_SPARE

/-- COURSE_START (R62): the attempt closes the lock (R401); each unmet condition leaves the entry READY. -/
def courseStartOp (s : State) : State :=
  match dueEntry s with
  | none => s
  | some e =>
    let s1 := closeLock s
    if spillFails s1 e then spillFail e s1
    else
      let few := decide (s1.willServeCount < 16)
      let short := depthShort s1
      let echo := decide (s1.echoLocked < s1.echoMin)
      if few || short || echo then
        State.raiseIf echo F.BLN_EVENTS_ECHO_LOW (State.raiseIf short F.STK_EVENTS_DEPTH (State.raiseIf few F.RAS_EVENTS_TOO_FEW s1))
      else if startWaits s1 then showBad s1
      else startReady e s1

end Sys2Proof.Machine
end

