-- ==== Sys2Proof/Machine/CmdCourse.lean ====
section
/-! DEFINITION. The meanings of the commands of the course queue, admission, the start of a course and the SLZ codec (R57 to R82). -/

namespace Sys2Proof.Machine

/-- POST (R59). -/
def execPost (s : State) : Host.Outcome State Fault Refusal := done true postOp s

/-- ING_RUN (R64). -/
def execIngRun (run : Bool) (s : State) : Host.Outcome State Fault Refusal := done true (ingRunOp run) s

/-- FLUSH (R63). -/
def execFlush (s : State) : Host.Outcome State Fault Refusal := done true flushOp s

/-- SKIP (R63). -/
def execSkip (s : State) : Host.Outcome State Fault Refusal := done true skipOp s

/-- ADMISSION_START (R61). -/
def execAdmissionStart (s : State) : Host.Outcome State Fault Refusal := done true admissionStartOp s

/-- ADMISSION_DONE (R61). -/
def execAdmissionDone (s : State) : Host.Outcome State Fault Refusal := done true admissionDoneOp s

/-- COURSE_START (R62). -/
def execCourseStart (s : State) : Host.Outcome State Fault Refusal := done true courseStartOp s

/-- SLZ_COMPRESS (R79). -/
def execSlzCompress (s : State) : Host.Outcome State Fault Refusal := done true (slzGoOp false) s

/-- SLZ_DECOMPRESS (R78). -/
def execSlzDecompress (s : State) : Host.Outcome State Fault Refusal := done true (slzGoOp true) s

/-- SLZ_ABORT (R81). -/
def execSlzAbort (s : State) : Host.Outcome State Fault Refusal := done true slzAbortOp s

/-- SLZ_JOB_END (R77). -/
def execSlzJobEnd (s : State) : Host.Outcome State Fault Refusal := done true slzJobEndOp s

end Sys2Proof.Machine
end

