-- ==== Sys2Proof/Machine/CmdCrews.lean ====
section
/-! DEFINITION. The meanings of the commands of the crew split, its probe and the wake buffer (R147 to R162). -/

namespace Sys2Proof.Machine

/-- STROKE_SPLIT (R147). -/
def execStrokeSplit (check : Option SplitCheck) (s : State) : Host.Outcome State Fault Refusal := done (Instr.strokeSplit check).wf (strokeSplitOp check) s

/-- CRW_PROBE (R147). -/
def execCrwProbe (track : Nat) (seat : Nat) (p : Nat) (s : State) : Host.Outcome State Fault Refusal := done (Instr.crwProbe track seat p).wf (crwProbeOp track seat p) s

/-- WAK_PEEK (R153). -/
def execWakPeek (track : Nat) (s : State) : Host.Outcome State Fault Refusal := done (Instr.wakPeek track).wf (wakPeekOp track) s

/-- WAK_PEEK_DONE (R153). -/
def execWakPeekDone (s : State) : Host.Outcome State Fault Refusal := done true wakPeekDoneOp s

end Sys2Proof.Machine
end

