-- ==== Sys2Proof/Machine/CmdHalts.lean ====
section
/-! DEFINITION. The meanings of the commands of halts, pauses and the line test (R234 to R253, R400). -/

namespace Sys2Proof.Machine

/-- LINE_TEST_STEP_END (R400). -/
def execLineTestStepEnd (ok : Bool) (s : State) : Host.Outcome State Fault Refusal := done true (lineTestOp ok) s

/-- COX_HALT (R252). -/
def execCoxHalt (s : State) : Host.Outcome State Fault Refusal := done true coxHaltOp s

/-- PAUSE_WARN (R248). -/
def execPauseWarn (s : State) : Host.Outcome State Fault Refusal := done true pauseWarnOp s

/-- PAUSE_LIMIT (R248). -/
def execPauseLimit (s : State) : Host.Outcome State Fault Refusal := done true pauseLimitOp s

/-- SUPPLY_HOLD_END (R239). -/
def execSupplyHoldEnd (s : State) : Host.Outcome State Fault Refusal := done true supplyHoldOp s

end Sys2Proof.Machine
end

