-- ==== Sys2Proof/Machine/CmdHost.lean ====
section
/-! DEFINITION. The meanings of the commands of PCIe, BAR2, configuration space and events (R331 to R336, R370, R371). -/

namespace Sys2Proof.Machine

/-- BAR2_READ (R335). -/
def execBar2Read (addr : Nat) (len : Nat) (s : State) : Host.Outcome State Fault Refusal := done (Instr.bar2Read addr len).wf (bar2ReadOp addr len) s

/-- BAR2_WRITE (R335). -/
def execBar2Write (addr : Nat) (bytes : List Byte) (poisoned : Bool) (s : State) : Host.Outcome State Fault Refusal := done (Instr.bar2Write addr bytes poisoned).wf (bar2WriteOp addr bytes poisoned) s

/-- CONFIG_REQUEST (R336). -/
def execConfigRequest (offset : Nat) (control : Option (Bool × Bool)) (s : State) : Host.Outcome State Fault Refusal := done (Instr.configRequest offset control).wf (configRequestOp offset control) s

/-- MSIX_UNMASK (R371). -/
def execMsixUnmask (vector : Nat) (s : State) : Host.Outcome State Fault Refusal := done (Instr.msixUnmask vector).wf (Sys2Proof.Machine.msixUnmask vector) s

/-- PEND_CLEAR (R370). -/
def execPendClear (word : Nat) (value : Word) (s : State) : Host.Outcome State Fault Refusal := done (Instr.pendClear word value).wf (Sys2Proof.Machine.pendClear word value) s

/-- EVT_FORCE (R370). -/
def execEvtForce (word : Nat) (value : Word) (s : State) : Host.Outcome State Fault Refusal := done (Instr.evtForce word value).wf (Sys2Proof.Machine.evtForce word value) s

/-- PERST_ASSERTED (R336). -/
def execPerstAsserted (s : State) : Host.Outcome State Fault Refusal := done true perstAssertedOp s

/-- PERST_DEASSERTED (R336). -/
def execPerstDeasserted (s : State) : Host.Outcome State Fault Refusal := done true perstDeassertedOp s

/-- HOT_RESET (R336). -/
def execHotReset (s : State) : Host.Outcome State Fault Refusal := done true hotResetOp s

/-- DATA_LINK_DOWN (R336). -/
def execDataLinkDown (s : State) : Host.Outcome State Fault Refusal := done true dataLinkDownOp s

/-- FLR (R336). -/
def execFlr (s : State) : Host.Outcome State Fault Refusal := done true flrOp s

/-- DEGRADED (R331). -/
def execDegraded (speed : Nat) (width : Nat) (s : State) : Host.Outcome State Fault Refusal := done (Instr.degraded speed width).wf (degradedOp speed width) s

/-- LINK_UP (R331). -/
def execLinkUp (speed : Nat) (width : Nat) (flit : Bool) (s : State) : Host.Outcome State Fault Refusal := done (Instr.linkUp speed width flit).wf (linkUpOp speed width flit) s

/-- AER_ERROR (R331). -/
def execAerError (uncorrectable : Bool) (s : State) : Host.Outcome State Fault Refusal := done true (aerOp uncorrectable) s

end Sys2Proof.Machine
end

