-- ==== Sys2Proof/Machine/CmdLanes.lean ====
section
/-! DEFINITION. The meanings of the commands of the beam lanes, echo lanes and the side channel (R163 to R203). -/

namespace Sys2Proof.Machine

/-- FRAME_SEND (R173). -/
def execFrameSend (lane : Nat) (s : State) : Host.Outcome State Fault Refusal := done (Instr.frameSend lane).wf (frameSendOp lane) s

/-- FIFO_PARITY_ERROR (R316). -/
def execFifoParityError (site : FifoSite) (s : State) : Host.Outcome State Fault Refusal := done (Instr.fifoParityError site).wf (fifoParityOp site) s

/-- LANE_ENABLE (R197). -/
def execLaneEnable (lane : Nat) (on : Bool) (s : State) : Host.Outcome State Fault Refusal := done (Instr.laneEnable lane on).wf (laneEnableOp lane on) s

/-- TRAIN (R189). -/
def execTrain (lane : Nat) (s : State) : Host.Outcome State Fault Refusal := done (Instr.train lane).wf (trainOp lane) s

/-- LANE_TEST (R193). -/
def execLaneTest (lane : Nat) (on : Bool) (s : State) : Host.Outcome State Fault Refusal := done (Instr.laneTest lane on).wf (laneTestOp lane on) s

/-- STAGE_A_END (R187). -/
def execStageAEnd (lane : Nat) (s : State) : Host.Outcome State Fault Refusal := done (Instr.stageAEnd lane).wf (stageAEndOp lane) s

/-- RUNG_PASS (R190). -/
def execRungPass (lane : Nat) (s : State) : Host.Outcome State Fault Refusal := done (Instr.rungPass lane).wf (rungPassOp lane) s

/-- RUNG_TIMEOUT (R190). -/
def execRungTimeout (lane : Nat) (s : State) : Host.Outcome State Fault Refusal := done (Instr.rungTimeout lane).wf (rungTimeoutOp lane) s

/-- RUNG_SWITCH (R189). -/
def execRungSwitch (lane : Nat) (s : State) : Host.Outcome State Fault Refusal := done (Instr.rungSwitch lane).wf (rungSwitchOp lane) s

/-- TRAINING_WORD (R187). -/
def execTrainingWord (src : LinkEnd) (got : TrainedWord) (s : State) : Host.Outcome State Fault Refusal := done (Instr.trainingWord src got).wf (trainingWordOp src got.word got.inverted) s

/-- ECHO_LOCKED (R191). -/
def execEchoLocked (k : Nat) (s : State) : Host.Outcome State Fault Refusal := done (Instr.echoLocked k).wf (echoLockedOp k) s

/-- ECHO_LOCK_LOST (R180). -/
def execEchoLockLost (k : Nat) (s : State) : Host.Outcome State Fault Refusal := done (Instr.echoLockLost k).wf (echoLockLostOp k) s

/-- ACK_BLOCK (R178). -/
def execAckBlock (k : Nat) (words : List DWord) (s : State) : Host.Outcome State Fault Refusal := done (Instr.ackBlock k words).wf (ackBlockOp k words) s

/-- STATUS_MESSAGE (R179). -/
def execStatusMessage (k : Nat) (words : List DWord) (s : State) : Host.Outcome State Fault Refusal := done (Instr.statusMessage k words).wf (statusMessageOp k words) s

/-- TEMP_STALE (R179). -/
def execTempStale (s : State) : Host.Outcome State Fault Refusal := done true tempStaleOp s

/-- FRAMING_ERROR (R167). -/
def execFramingError (k : Nat) (s : State) : Host.Outcome State Fault Refusal := done (Instr.framingError k).wf (framingErrorOp k) s

/-- SIDE_GO (R185). -/
def execSideGo (s : State) : Host.Outcome State Fault Refusal := done true sideGoOp s

/-- SIDE_ABORT (R185). -/
def execSideAbort (s : State) : Host.Outcome State Fault Refusal := done true sideAbortOp s

/-- SIDE_RESPONSE (R184). -/
def execSideResponse (k : Nat) (words : List DWord) (s : State) : Host.Outcome State Fault Refusal := done (Instr.sideResponse k words).wf (sideResponseOp k words) s

/-- SIDE_TIMEOUT (R185). -/
def execSideTimeout (s : State) : Host.Outcome State Fault Refusal := done true sideTimeoutOp s

/-- TRAINING_BURST (R192). -/
def execTrainingBurst (lane : Nat) (s : State) : Host.Outcome State Fault Refusal := done (Instr.trainingBurst lane).wf (burstOp lane) s

/-- EQ_FREEZE (R192). -/
def execEqFreeze (k : Nat) (s : State) : Host.Outcome State Fault Refusal := done (Instr.eqFreeze k).wf (eqOp k true) s

/-- EQ_THAW (R192). -/
def execEqThaw (k : Nat) (s : State) : Host.Outcome State Fault Refusal := done (Instr.eqThaw k).wf (eqOp k false) s

/-- INJECT_BIT (R194). -/
def execInjectBit (lane : Nat) (periodic : Bool) (period : Nat) (s : State) : Host.Outcome State Fault Refusal := done (Instr.injectBit lane periodic period).wf (locked (injectKind lane 1 periodic period)) s

/-- INJECT_SYMBOLS (R194). -/
def execInjectSymbols (lane : Nat) (nsym : Nat) (periodic : Bool) (period : Nat) (s : State) : Host.Outcome State Fault Refusal := done (Instr.injectSymbols lane nsym periodic period).wf (locked (injectOp lane 2 nsym periodic period)) s

/-- INJECT_CRC (R194). -/
def execInjectCrc (lane : Nat) (periodic : Bool) (period : Nat) (s : State) : Host.Outcome State Fault Refusal := done (Instr.injectCrc lane periodic period).wf (locked (injectKind lane 3 periodic period)) s

/-- INJECT_PERIOD (R194). -/
def execInjectPeriod (lane : Nat) (s : State) : Host.Outcome State Fault Refusal := done (Instr.injectPeriod lane).wf (injectPeriodOp lane) s

end Sys2Proof.Machine
end

