-- ==== Sys2Proof/Machine/CmdLogs.lean ====
section
/-! DEFINITION. The meanings of the commands of the event recorder (R375 to R386). -/

namespace Sys2Proof.Machine

/-- RECORD_WRITE_DONE (R379). -/
def execRecordWriteDone (ok : Bool) (s : State) : Host.Outcome State Fault Refusal := done true (recordWritten ok) s

/-- OPTIME_TICK (R376). -/
def execOptimeTick (s : State) : Host.Outcome State Fault Refusal := done true Sys2Proof.Machine.optimeTick s

/-- WALL_GO (R381). -/
def execWallGo (s : State) : Host.Outcome State Fault Refusal := done true wallGoOp s

/-- NOTE_GO (R378). -/
def execNoteGo (s : State) : Host.Outcome State Fault Refusal := done true noteGoOp s

/-- ERASE (R385). -/
def execErase (s : State) : Host.Outcome State Fault Refusal := done true eraseOp s

/-- ERASED (R385). -/
def execErased (s : State) : Host.Outcome State Fault Refusal := done true eraseDone s

/-- AUDIT_GO (R383). -/
def execAuditGo (s : State) : Host.Outcome State Fault Refusal := done true Sys2Proof.Machine.auditGo s

/-- EXPORT_GO (R384). -/
def execExportGo (s : State) : Host.Outcome State Fault Refusal := done true Sys2Proof.Machine.exportGo s

/-- EXPORT_DONE (R384). -/
def execExportDone (s : State) : Host.Outcome State Fault Refusal := done true Sys2Proof.Machine.exportDone s

/-- AUDIT_DONE (R383). -/
def execAuditDone (s : State) : Host.Outcome State Fault Refusal := done true Sys2Proof.Machine.auditDone s

end Sys2Proof.Machine
end

