-- ==== Sys2Proof/Machine/CmdMovers.lean ====
section
/-! DEFINITION. The meanings of the commands of DMA and the memory arbiter (R337 to R352). -/

namespace Sys2Proof.Machine

/-- DMA_RUN (R338). -/
def execDmaRun (channel : Nat) (s : State) : Host.Outcome State Fault Refusal := done (Instr.dmaRun channel).wf (dmaRunOp channel) s

/-- DOORBELL (R338). -/
def execDoorbell (channel : Nat) (s : State) : Host.Outcome State Fault Refusal := done (Instr.doorbell channel).wf (doorbellOp channel) s

/-- DMA_RESUME (R342). -/
def execDmaResume (channel : Nat) (s : State) : Host.Outcome State Fault Refusal := done (Instr.dmaResume channel).wf (dmaResumeOp channel) s

/-- DMA_RESET (R342). -/
def execDmaReset (channel : Nat) (s : State) : Host.Outcome State Fault Refusal := done (Instr.dmaReset channel).wf (dmaResetOp channel) s

/-- DMA_RESTART (R343). -/
def execDmaRestart (s : State) : Host.Outcome State Fault Refusal := done true dmaRestartOp s

/-- ABORT_ALL (R342). -/
def execAbortAll (s : State) : Host.Outcome State Fault Refusal := done true abortAllOp s

/-- DESCRIPTOR_FETCH (R339). -/
def execDescriptorFetch (channel : Nat) (words : List DWord) (s : State) : Host.Outcome State Fault Refusal := done (Instr.descriptorFetch channel words).wf (descriptorFetchOp channel words) s

/-- DESCRIPTOR_DONE (R341). -/
def execDescriptorDone (channel : Nat) (data : List Byte) (failed : Bool) (s : State) : Host.Outcome State Fault Refusal := done (Instr.descriptorDone channel data failed).wf (descriptorDoneOp channel data failed) s

/-- DMA_TIMEOUT (R343). -/
def execDmaTimeout (s : State) : Host.Outcome State Fault Refusal := done true dmaTimeoutOp s

/-- ARBITER_ROUND (R347). -/
def execArbiterRound (q : Nat) (waiting : List HbmRequest) (withdraw : Bool) (s : State) : Host.Outcome State Fault Refusal := done (Instr.arbiterRound q waiting withdraw).wf (arbiterRoundOp q waiting withdraw) s

/-- TDM_SLOT_START (R346). -/
def execTdmSlotStart (waiting : List (Nat × Nat)) (s : State) : Host.Outcome State Fault Refusal := done (Instr.tdmSlotStart waiting).wf (tdmSlotOp waiting) s

end Sys2Proof.Machine
end

