-- ==== Sys2Proof/Machine/CmdRegisters.lean ====
section
/-! DEFINITION. The meanings of the commands of host accesses of BAR0 that no other row names (R4 to R11, R300). -/

namespace Sys2Proof.Machine

/-- The result block whose ACK lies at an address is released (R300); the write of SAF_TEST_ACK takes the first key back (R401). -/
def ackOp (addr : Nat) (s : State) : State :=
  match ackBase addr with
  | some base => resultAckOp base (if addr = R.SAF_TEST_ACK then unkey s else s)
  | none => s

/-- REGISTER_WRITE (R9). -/
def execRegisterWrite (addr : Nat) (lanes : List WriteLane) (s : State) : Host.Outcome State Fault Refusal := done (Instr.registerWrite addr lanes).wf (registerWriteOp addr lanes) s

/-- LOW_WORD_READ (R5). -/
def execLowWordRead (read : HostRead) (s : State) : Host.Outcome State Fault Refusal := done (Instr.lowWordRead read).wf (readRegOp read.addr read.words) s

/-- RC_READ (R10). -/
def execRcRead (read : HostRead) (s : State) : Host.Outcome State Fault Refusal := done (Instr.rcRead read).wf (readRegOp read.addr read.words) s

/-- RESULT_READ (R300). -/
def execResultRead (read : HostRead) (s : State) : Host.Outcome State Fault Refusal := done (Instr.resultRead read).wf (readRegOp read.addr read.words) s

/-- RESULT_ACK (R300). -/
def execResultAck (addr : Nat) (s : State) : Host.Outcome State Fault Refusal := done (Instr.resultAck addr).wf (ackOp addr) s

end Sys2Proof.Machine
end

