-- ==== Sys2Proof/Machine/CmdResets.lean ====
section
/-! DEFINITION. The meanings of the commands of power, the supply monitor and the resets (R408 to R418, R433). -/

namespace Sys2Proof.Machine

/-- PWR_RESET written with a value (R418). -/
def resetWriteOp (value : Word) (s : State) : State :=
  pwrReset (bits 0 16 value.toNat) (value.getLsbD 16) (value.getLsbD 17) (value.getLsbD 18) s

/-- POWER_ON (R417). -/
def execPowerOn (s : State) : Host.Outcome State Fault Refusal := done true powerOnOp s

/-- RAIL_EN_RELEASE (R409). -/
def execRailEnRelease (s : State) : Host.Outcome State Fault Refusal := done true railEnReleaseOp s

/-- RAILS_GOOD (R410). -/
def execRailsGood (s : State) : Host.Outcome State Fault Refusal := done true railsGoodOp s

/-- RST_N (R417). -/
def execRstN (s : State) : Host.Outcome State Fault Refusal := done true rstNOp s

/-- SUPPLY_SAMPLE (R411). -/
def execSupplySample (rails : List Nat) (s : State) : Host.Outcome State Fault Refusal := done (Instr.supplySample rails).wf (supplySampleOp rails) s

/-- TJ_READ (R413). -/
def execTjRead (temp : Int) (s : State) : Host.Outcome State Fault Refusal := done (Instr.tjRead temp).wf (tjReadOp temp) s

/-- WARM (R418). -/
def execWarm (value : Word) (s : State) : Host.Outcome State Fault Refusal := done (Instr.warm value).wf (resetWriteOp value) s

/-- COLD (R418). -/
def execCold (value : Word) (s : State) : Host.Outcome State Fault Refusal := done (Instr.cold value).wf (resetWriteOp value) s

/-- COURSE_ABORT (R418). -/
def execCourseAbort (value : Word) (s : State) : Host.Outcome State Fault Refusal := done (Instr.courseAbort value).wf (resetWriteOp value) s

/-- STANDBY (R414). -/
def execStandby (key : Nat) (go : Bool) (wakeN : Bool) (s : State) : Host.Outcome State Fault Refusal := done (Instr.standby key go wakeN).wf (standbyOp key go wakeN) s

/-- WAKE (R416). -/
def execWake (s : State) : Host.Outcome State Fault Refusal := done true wakeOp s

/-- RST_N_HIGH (R410). -/
def execRstNHigh (s : State) : Host.Outcome State Fault Refusal := done true rstNHighOp s

/-- POWER_LOST (R433). -/
def execPowerLost (s : State) : Host.Outcome State Fault Refusal := done true powerLostOp s

end Sys2Proof.Machine
end

