-- ==== Sys2Proof/Machine/CmdSafeguards.lean ====
section
/-! DEFINITION. The meanings of the commands of the safety controller (R387 to R407). -/

namespace Sys2Proof.Machine

/-- SAFE_STOP (R391). -/
def execSafeStop (s : State) : Host.Outcome State Fault Refusal := done true safeStopOp s

/-- HOST_STOP (R391). -/
def execHostStop (s : State) : Host.Outcome State Fault Refusal := done true (fun t => hostStopOp (unkey t)) s

/-- SAF_CLEAR (R398). -/
def execSafClear (s : State) : Host.Outcome State Fault Refusal := done true (fun t => safClearOp (unkey t)) s

/-- LOCK_KEY (R401). -/
def execLockKey (key : Nat) (s : State) : Host.Outcome State Fault Refusal := done (Instr.lockKey key).wf (lockKeyOp key) s

/-- LOCK_CLOSE (R401). -/
def execLockClose (s : State) : Host.Outcome State Fault Refusal := done true lockCloseOp s

/-- LOCK_TIMEOUT (R401). -/
def execLockTimeout (s : State) : Host.Outcome State Fault Refusal := done true lockTimeoutOp s

/-- ECHO_SILENT (R391). -/
def execEchoSilent (s : State) : Host.Outcome State Fault Refusal := done true echoSilentOp s

/-- CLOCK (R391). -/
def execClock (s : State) : Host.Outcome State Fault Refusal := done true clockOp s

/-- DIAG (R400). -/
def execDiag (bit : Nat) (failed : Bool) (s : State) : Host.Outcome State Fault Refusal := done (Instr.diag bit failed).wf (diagOp bit failed) s

/-- FOLLOW (R391). -/
def execFollow (axis : Nat) (s : State) : Host.Outcome State Fault Refusal := done (Instr.follow axis).wf (followOp axis) s

/-- DRIVER (R391). -/
def execDriver (axis : Nat) (s : State) : Host.Outcome State Fault Refusal := done (Instr.driver axis).wf (driverOp axis) s

/-- STOP_CHECK (R396). -/
def execStopCheck (s : State) : Host.Outcome State Fault Refusal := done true stopCheckOp s

/-- INHIBIT_DELAY_END (R392). -/
def execInhibitDelayEnd (s : State) : Host.Outcome State Fault Refusal := done true inhibitDelayOp s

/-- TEST_LINES (R405). -/
def execTestLines (s : State) : Host.Outcome State Fault Refusal := done true (writeReg R.SAF_TEST 0x80000001#32) s

/-- TEST_AMPS (R405). -/
def execTestAmps (s : State) : Host.Outcome State Fault Refusal := done true (writeReg R.SAF_TEST 0x80000002#32) s

/-- TEST_DIAG (R405). -/
def execTestDiag (s : State) : Host.Outcome State Fault Refusal := done true (writeReg R.SAF_TEST 0x80000004#32) s

/-- TEST_DONE (R405). -/
def execTestDone (ok : Bool) (step : Nat) (s : State) : Host.Outcome State Fault Refusal := done (Instr.testDone ok step).wf (testDoneOp ok step) s

/-- SAFE_STOP_RELEASE (R390). -/
def execSafeStopRelease (s : State) : Host.Outcome State Fault Refusal := done true safeStopReleaseOp s

end Sys2Proof.Machine
end

