-- ==== Sys2Proof/Machine/Jtag.lean ====
section
/-! DEFINITION. Boundary scan (R448): the instruction register and the chain of 62 lands, in the order of the land table of R434 (log
entry 22). -/

namespace Sys2Proof.Machine

/-- Lands of the chain: the position, set-point, trim, timing-output, motion, safety and system groups. -/
def chainLands : Nat := 62

/-- The lands of the chain that the device drives and an instruction may drive; the inhibit and amplifier lands observe only. -/
def chainOutputs : List Nat :=
  [0, 1] ++ (List.range 8).map (fun i => 22 + i) ++ (List.range 13).map (fun i => 32 + i) ++ [59, 61]

/-- The instruction register's effective code (R448): EXTEST, HIGHZ and CLAMP act as BYPASS while the cox is not IDLE. -/
def State.scanCode (s : State) : Nat :=
  if s.jtag.ir = 3 ∨ s.jtag.ir = 4 ∨ s.jtag.ir = 5 then (if s.coxState = 0 then s.jtag.ir else 0xFF) else s.jtag.ir

/-- An instruction shifted in. -/
def scanLoad (code : Nat) (s : State) : State := { s with jtag := { s.jtag with ir := code } }

/-- JTAG_BYPASS (R448): BYPASS, or any code not listed. -/
def jtagBypassOp (s : State) : State := scanLoad 0xFF s

/-- JTAG_IDCODE (R448): the identification code is shifted out. -/
def jtagIdcodeOp (s : State) : State := { scanLoad 1 s with resp := .data [0x1102496F#32] }

/-- JTAG_SAMPLE_PRELOAD (R448): the levels of the lands are captured and shifted out, and the chain is loaded. -/
def jtagSampleOp (lands cells : List Bool) (s : State) : State :=
  let s1 := scanLoad 2 s
  { s1 with jtag := { s1.jtag with chain := cells } }.emit (.scanOut lands)

/-- The chain's outputs driven from its cells. -/
def scanDriven (s : State) : State := s.emit (.scanDrive (chainOutputs.map (fun i => (i, s.jtag.chain.getD i false))))

/-- JTAG_EXTEST (R448). -/
def jtagExtestOp (s : State) : State := if s.coxState = 0 then scanDriven (scanLoad 3 s) else scanLoad 0xFF s

/-- JTAG_HIGHZ (R448). -/
def jtagHighzOp (s : State) : State :=
  if s.coxState = 0 then (scanLoad 4 s).emit (.scanHighz chainOutputs) else scanLoad 0xFF s

/-- JTAG_CLAMP (R448). -/
def jtagClampOp (s : State) : State := if s.coxState = 0 then scanDriven (scanLoad 5 s) else scanLoad 0xFF s

end Sys2Proof.Machine
end

