-- ==== Sys2Proof/Machine/CmdScan.lean ====
section
/-! DEFINITION. The meanings of the commands of boundary scan (R448). -/

namespace Sys2Proof.Machine

/-- JTAG_BYPASS (R448). -/
def execJtagBypass (s : State) : Host.Outcome State Fault Refusal := done true jtagBypassOp s

/-- JTAG_IDCODE (R448). -/
def execJtagIdcode (s : State) : Host.Outcome State Fault Refusal := done true jtagIdcodeOp s

/-- JTAG_SAMPLE_PRELOAD (R448). -/
def execJtagSamplePreload (lands : List Bool) (cells : List Bool) (s : State) : Host.Outcome State Fault Refusal := done (Instr.jtagSamplePreload lands cells).wf (jtagSampleOp lands cells) s

/-- JTAG_EXTEST (R448). -/
def execJtagExtest (s : State) : Host.Outcome State Fault Refusal := done true jtagExtestOp s

/-- JTAG_HIGHZ (R448). -/
def execJtagHighz (s : State) : Host.Outcome State Fault Refusal := done true jtagHighzOp s

/-- JTAG_CLAMP (R448). -/
def execJtagClamp (s : State) : Host.Outcome State Fault Refusal := done true jtagClampOp s

end Sys2Proof.Machine
end

