-- ==== Sys2Proof/Machine/CmdStore.lean ====
section
/-! DEFINITION. The meanings of the commands of HBM and on-chip memory (R304 to R330). -/

namespace Sys2Proof.Machine

/-- HBM_READ_DONE (R314). -/
def execHbmReadDone (port : Nat) (addr : Nat) (answer : HbmAnswer) (s : State) : Host.Outcome State Fault Refusal := done (Instr.hbmReadDone port addr answer).wf (hbmReadDoneOp port addr answer.len answer.stack) s

/-- HBM_TRAIN_DONE (R307). -/
def execHbmTrainDone (ends : List (Bool × Nat)) (s : State) : Host.Outcome State Fault Refusal := done (Instr.hbmTrainDone ends).wf (hbmTrainDoneOp ends) s

/-- RETRAIN (R307). -/
def execRetrain (s : State) : Host.Outcome State Fault Refusal := done true retrainOp s

/-- STACK_TEMP_READ (R309). -/
def execStackTempRead (stack : Nat) (temp : Int) (s : State) : Host.Outcome State Fault Refusal := done (Instr.stackTempRead stack temp).wf (stackTempOp stack temp) s

/-- REFRESH_ISSUE (R310). -/
def execRefreshIssue (q : Nat) (waiting : Bool) (s : State) : Host.Outcome State Fault Refusal := done (Instr.refreshIssue q waiting).wf (refreshOp q waiting) s

/-- URGENT (R310). -/
def execUrgent (q : Nat) (s : State) : Host.Outcome State Fault Refusal := done (Instr.urgent q).wf (urgentOp q) s

/-- HBM_SCRUB_STEP (R321). -/
def execHbmScrubStep (late : Bool) (s : State) : Host.Outcome State Fault Refusal := done true (hbmScrubOp late) s

/-- SRAM_SCRUB_STEP (R321). -/
def execSramScrubStep (late : Bool) (s : State) : Host.Outcome State Fault Refusal := done true (sramScrubOp late) s

/-- RESTORE (R320). -/
def execRestore (s : State) : Host.Outcome State Fault Refusal := done true restoreOp s

/-- REPAIR_SAVE (R326). -/
def execRepairSave (s : State) : Host.Outcome State Fault Refusal := done true repairSaveOp s

/-- REPAIR_DISCARD (R326). -/
def execRepairDiscard (s : State) : Host.Outcome State Fault Refusal := done true repairDiscardOp s

/-- FLIP (R327). -/
def execFlip (target : Nat) (mask : Nat) (s : State) : Host.Outcome State Fault Refusal := done (Instr.flip target mask).wf (flipOp target mask) s

/-- SELFTEST (R327). -/
def execSelftest (s : State) : Host.Outcome State Fault Refusal := done true selftestOp s

/-- SELFTEST_DONE (R327). -/
def execSelftestDone (failed : Nat) (s : State) : Host.Outcome State Fault Refusal := done (Instr.selftestDone failed).wf (selftestDoneOp failed) s

/-- HBM_INIT_GO (R329). -/
def execHbmInitGo (s : State) : Host.Outcome State Fault Refusal := done true hbmInitOp s

/-- INIT_DONE (R329). -/
def execInitDone (s : State) : Host.Outcome State Fault Refusal := done true initDoneOp s

end Sys2Proof.Machine
end

