-- ==== Sys2Proof/Machine/CmdStraits.lean ====
section
/-! DEFINITION. The meanings of the commands of strait links and regattas (R353 to R368). -/

namespace Sys2Proof.Machine

/-- MESSAGE (R364). -/
def execMessage (link : Nat) (words : List DWord) (s : State) : Host.Outcome State Fault Refusal := done (Instr.message link words).wf (packetArrives link words) s

/-- COURSE_EVENT (R365). -/
def execCourseEvent (link : Nat) (words : List DWord) (s : State) : Host.Outcome State Fault Refusal := done (Instr.courseEvent link words).wf (packetArrives link words) s

/-- BEACON (R361). -/
def execBeacon (link : Nat) (words : List DWord) (s : State) : Host.Outcome State Fault Refusal := done (Instr.beacon link words).wf (packetArrives link words) s

/-- STOP_TOKEN (R366). -/
def execStopToken (link : Nat) (words : List DWord) (s : State) : Host.Outcome State Fault Refusal := done (Instr.stopToken link words).wf (packetArrives link words) s

/-- RESUME_READY (R367). -/
def execResumeReady (link : Nat) (words : List DWord) (s : State) : Host.Outcome State Fault Refusal := done (Instr.resumeReady link words).wf (packetArrives link words) s

/-- LINK_WORD (R357). -/
def execLinkWord (link : Nat) (word : DWord) (s : State) : Host.Outcome State Fault Refusal := done (Instr.linkWord link word).wf (linkWordOp link word) s

/-- PACKET_RESEND_TIMEOUT (R357). -/
def execPacketResendTimeout (link : Nat) (s : State) : Host.Outcome State Fault Refusal := done (Instr.packetResendTimeout link).wf (packetResendOp link) s

/-- BEACON_SEND (R361). -/
def execBeaconSend (s : State) : Host.Outcome State Fault Refusal := done true beaconSendOp s

/-- UPSTREAM_SILENT (R360). -/
def execUpstreamSilent (s : State) : Host.Outcome State Fault Refusal := done true upstreamSilentOp s

/-- HOLDOVER_TIMEOUT (R361). -/
def execHoldoverTimeout (s : State) : Host.Outcome State Fault Refusal := done true holdoverTimeoutOp s

/-- FAILOVER (R355). -/
def execFailover (lane : Nat) (s : State) : Host.Outcome State Fault Refusal := done (Instr.failover lane).wf (failoverOp lane) s

/-- SEND_MESSAGE (R364). -/
def execSendMessage (dest : Nat) (len : Nat) (s : State) : Host.Outcome State Fault Refusal := done (Instr.sendMessage dest len).wf (sendMessageOp dest len) s

/-- BROADCAST_MESSAGE (R364). -/
def execBroadcastMessage (dest : Nat) (len : Nat) (s : State) : Host.Outcome State Fault Refusal := done (Instr.broadcastMessage dest len).wf (broadcastMessageOp dest len) s

/-- VC_STALL (R359). -/
def execVcStall (link : Nat) (vc : Nat) (s : State) : Host.Outcome State Fault Refusal := done (Instr.vcStall link vc).wf (vcStallOp link vc) s

/-- TRANSIT_PACKET (R358). -/
def execTransitPacket (link : Nat) (words : List DWord) (s : State) : Host.Outcome State Fault Refusal := done (Instr.transitPacket link words).wf (packetArrives link words) s

end Sys2Proof.Machine
end

