-- ==== Sys2Proof/Machine/CmdStrokes.lean ====
section
/-! DEFINITION. The meanings of the commands of position samples, the tracking loops, strokes and the servo boundary (R204 to R233). -/

namespace Sys2Proof.Machine

/-- POSITION_SAMPLE (R206). -/
def execPositionSample (axis : Nat) (frame : DWord) (tf : Int) (s : State) : Host.Outcome State Fault Refusal := done (Instr.positionSample axis frame tf).wf (positionSampleOp axis frame tf) s

/-- POS_LOST (R206). -/
def execPosLost (axis : Nat) (s : State) : Host.Outcome State Fault Refusal := done (Instr.posLost axis).wf (posLostOp axis) s

/-- LOCKED (R212). -/
def execLocked (axis : Nat) (s : State) : Host.Outcome State Fault Refusal := done (Instr.locked axis).wf (lockedOp axis) s

/-- UNLOCKED (R212). -/
def execUnlocked (axis : Nat) (s : State) : Host.Outcome State Fault Refusal := done (Instr.unlocked axis).wf (unlockedOp axis) s

/-- STROKE_COMMIT (R218). -/
def execStrokeCommit (s : State) : Host.Outcome State Fault Refusal := done true strokeCommitOp s

/-- CATCH (R219). -/
def execCatchStrobe (s : State) : Host.Outcome State Fault Refusal := done true catchStrobeOp s

/-- STROKE_FIRED (R219). -/
def execStrokeFired (s : State) : Host.Outcome State Fault Refusal := done true strokeFiredOp s

/-- SERVO_BOUNDARY (R232). -/
def execServoBoundary (s : State) : Host.Outcome State Fault Refusal := done true servoBoundaryOp s

end Sys2Proof.Machine
end

