-- ==== Sys2Proof/Machine/CmdTables.lean ====
section
/-! DEFINITION. The meanings of the commands of the double-banked tables and the beam map (R129 to R146). -/

namespace Sys2Proof.Machine

/-- BANK_OPEN (R131). -/
def execBankOpen (t : TableId) (s : State) : Host.Outcome State Fault Refusal := done true (bankOpenOp t) s

/-- BANK_CLONE (R131). -/
def execBankClone (t : TableId) (s : State) : Host.Outcome State Fault Refusal := done true (bankCloneOp t) s

/-- CLONE_DONE (R131). -/
def execCloneDone (t : TableId) (s : State) : Host.Outcome State Fault Refusal := done true (Sys2Proof.Machine.cloneDone t) s

/-- BANK_COMMIT (R132). -/
def execBankCommit (t : TableId) (s : State) : Host.Outcome State Fault Refusal := done true (bankCommitOp t) s

/-- TABLE_WRITE (R130). -/
def execTableWrite (addr : Nat) (value : Word) (s : State) : Host.Outcome State Fault Refusal := done (Instr.tableWrite addr value).wf (tableStore addr value) s

/-- MAP_SHADOW_BASE_WRITE (R144). -/
def execMapShadowBaseWrite (high : Bool) (value : Word) (s : State) : Host.Outcome State Fault Refusal := done true (shadowBaseWrite high value) s

/-- MAP_EXCHANGE_START (R143). -/
def execMapExchangeStart (s : State) : Host.Outcome State Fault Refusal := done true mapExchangeStartOp s

/-- MAP_EXCHANGED (R143). -/
def execMapExchanged (s : State) : Host.Outcome State Fault Refusal := done true Sys2Proof.Machine.mapExchanged s

end Sys2Proof.Machine
end

