-- ==== Sys2Proof/Machine/CmdTiles.lean ====
section
/-! DEFINITION. The meanings of the commands of rasterization on the islets and the backscatter engine (R83 to R126). -/

namespace Sys2Proof.Machine

/-- BAND_ELIGIBLE (R103). -/
def execBandEligible (s : State) : Host.Outcome State Fault Refusal := done true bandEligibleOp s

/-- TILE_DISPATCH (R104). -/
def execTileDispatch (s : State) : Host.Outcome State Fault Refusal := done true tileDispatchOp s

/-- TILE_COMPUTE_DONE (R105). -/
def execTileComputeDone (islet : Nat) (slot : Nat) (check : TileCheck) (s : State) : Host.Outcome State Fault Refusal := done (Instr.tileComputeDone islet slot check).wf (tileComputeDoneOp islet slot check) s

/-- SLOW_TILE (R110). -/
def execSlowTile (islet : Nat) (slot : Nat) (s : State) : Host.Outcome State Fault Refusal := done (Instr.slowTile islet slot).wf (slowTileOp islet slot) s

/-- RAS_PROBE (R91). -/
def execRasProbe (band : Nat) (tile : Nat) (entry : Nat) (s : State) : Host.Outcome State Fault Refusal := done (Instr.rasProbe band tile entry).wf (rasProbeOp band tile entry) s

/-- RAS_PROBE_DONE (R91). -/
def execRasProbeDone (s : State) : Host.Outcome State Fault Refusal := done true rasProbeDoneOp s

/-- BSX_TILE_START (R125). -/
def execBsxTileStart (s : State) : Host.Outcome State Fault Refusal := done true bsxTileStartOp s

/-- BSX_TILE_DONE (R124). -/
def execBsxTileDone (s : State) : Host.Outcome State Fault Refusal := done true bsxTileDoneOp s

end Sys2Proof.Machine
end

