-- ==== Sys2Proof/Machine/Dispatch.lean ====
section
/-! DEFINITION. Every command with its meaning. -/

namespace Sys2Proof.Machine

/-- What a command does to everything but the queue. -/
def exec (i : Instr) (s : State) : Host.Outcome State Fault Refusal :=
  match i with
  | .registerWrite addr lanes => Sys2Proof.Machine.execRegisterWrite addr lanes s
  | .lowWordRead read => Sys2Proof.Machine.execLowWordRead read s
  | .rcRead read => Sys2Proof.Machine.execRcRead read s
  | .resultRead read => Sys2Proof.Machine.execResultRead read s
  | .resultAck addr => Sys2Proof.Machine.execResultAck addr s
  | .post => Sys2Proof.Machine.execPost s
  | .ingRun run => Sys2Proof.Machine.execIngRun run s
  | .flush => Sys2Proof.Machine.execFlush s
  | .skip => Sys2Proof.Machine.execSkip s
  | .admissionStart => Sys2Proof.Machine.execAdmissionStart s
  | .admissionDone => Sys2Proof.Machine.execAdmissionDone s
  | .courseStart => Sys2Proof.Machine.execCourseStart s
  | .slzCompress => Sys2Proof.Machine.execSlzCompress s
  | .slzDecompress => Sys2Proof.Machine.execSlzDecompress s
  | .slzAbort => Sys2Proof.Machine.execSlzAbort s
  | .slzJobEnd => Sys2Proof.Machine.execSlzJobEnd s
  | .bandEligible => Sys2Proof.Machine.execBandEligible s
  | .tileDispatch => Sys2Proof.Machine.execTileDispatch s
  | .tileComputeDone islet slot check => Sys2Proof.Machine.execTileComputeDone islet slot check s
  | .slowTile islet slot => Sys2Proof.Machine.execSlowTile islet slot s
  | .rasProbe band tile entry => Sys2Proof.Machine.execRasProbe band tile entry s
  | .rasProbeDone => Sys2Proof.Machine.execRasProbeDone s
  | .bsxTileStart => Sys2Proof.Machine.execBsxTileStart s
  | .bsxTileDone => Sys2Proof.Machine.execBsxTileDone s
  | .bankOpen t => Sys2Proof.Machine.execBankOpen t s
  | .bankClone t => Sys2Proof.Machine.execBankClone t s
  | .cloneDone t => Sys2Proof.Machine.execCloneDone t s
  | .bankCommit t => Sys2Proof.Machine.execBankCommit t s
  | .tableWrite addr value => Sys2Proof.Machine.execTableWrite addr value s
  | .mapShadowBaseWrite high value => Sys2Proof.Machine.execMapShadowBaseWrite high value s
  | .mapExchangeStart => Sys2Proof.Machine.execMapExchangeStart s
  | .mapExchanged => Sys2Proof.Machine.execMapExchanged s
  | .strokeSplit check => Sys2Proof.Machine.execStrokeSplit check s
  | .crwProbe track seat p => Sys2Proof.Machine.execCrwProbe track seat p s
  | .wakPeek track => Sys2Proof.Machine.execWakPeek track s
  | .wakPeekDone => Sys2Proof.Machine.execWakPeekDone s
  | .frameSend lane => Sys2Proof.Machine.execFrameSend lane s
  | .fifoParityError site => Sys2Proof.Machine.execFifoParityError site s
  | .laneEnable lane on => Sys2Proof.Machine.execLaneEnable lane on s
  | .train lane => Sys2Proof.Machine.execTrain lane s
  | .laneTest lane on => Sys2Proof.Machine.execLaneTest lane on s
  | .stageAEnd lane => Sys2Proof.Machine.execStageAEnd lane s
  | .rungPass lane => Sys2Proof.Machine.execRungPass lane s
  | .rungTimeout lane => Sys2Proof.Machine.execRungTimeout lane s
  | .rungSwitch lane => Sys2Proof.Machine.execRungSwitch lane s
  | .trainingWord src got => Sys2Proof.Machine.execTrainingWord src got s
  | .echoLocked k => Sys2Proof.Machine.execEchoLocked k s
  | .echoLockLost k => Sys2Proof.Machine.execEchoLockLost k s
  | .ackBlock k words => Sys2Proof.Machine.execAckBlock k words s
  | .statusMessage k words => Sys2Proof.Machine.execStatusMessage k words s
  | .tempStale => Sys2Proof.Machine.execTempStale s
  | .framingError k => Sys2Proof.Machine.execFramingError k s
  | .sideGo => Sys2Proof.Machine.execSideGo s
  | .sideAbort => Sys2Proof.Machine.execSideAbort s
  | .sideResponse k words => Sys2Proof.Machine.execSideResponse k words s
  | .sideTimeout => Sys2Proof.Machine.execSideTimeout s
  | .trainingBurst lane => Sys2Proof.Machine.execTrainingBurst lane s
  | .eqFreeze k => Sys2Proof.Machine.execEqFreeze k s
  | .eqThaw k => Sys2Proof.Machine.execEqThaw k s
  | .injectBit lane periodic period => Sys2Proof.Machine.execInjectBit lane periodic period s
  | .injectSymbols lane nsym periodic period => Sys2Proof.Machine.execInjectSymbols lane nsym periodic period s
  | .injectCrc lane periodic period => Sys2Proof.Machine.execInjectCrc lane periodic period s
  | .injectPeriod lane => Sys2Proof.Machine.execInjectPeriod lane s
  | .positionSample axis frame tf => Sys2Proof.Machine.execPositionSample axis frame tf s
  | .posLost axis => Sys2Proof.Machine.execPosLost axis s
  | .locked axis => Sys2Proof.Machine.execLocked axis s
  | .unlocked axis => Sys2Proof.Machine.execUnlocked axis s
  | .strokeCommit => Sys2Proof.Machine.execStrokeCommit s
  | .catchStrobe => Sys2Proof.Machine.execCatchStrobe s
  | .strokeFired => Sys2Proof.Machine.execStrokeFired s
  | .servoBoundary => Sys2Proof.Machine.execServoBoundary s
  | .lineTestStepEnd ok => Sys2Proof.Machine.execLineTestStepEnd ok s
  | .coxHalt => Sys2Proof.Machine.execCoxHalt s
  | .pauseWarn => Sys2Proof.Machine.execPauseWarn s
  | .pauseLimit => Sys2Proof.Machine.execPauseLimit s
  | .supplyHoldEnd => Sys2Proof.Machine.execSupplyHoldEnd s
  | .servoPeriodWrite value => Sys2Proof.Machine.execServoPeriodWrite value s
  | .statusWord axis word => Sys2Proof.Machine.execStatusWord axis word s
  | .statusWordMissing axis => Sys2Proof.Machine.execStatusWordMissing axis s
  | .driverLost axis => Sys2Proof.Machine.execDriverLost axis s
  | .move axis => Sys2Proof.Machine.execMove axis s
  | .velocity axis => Sys2Proof.Machine.execVelocity axis s
  | .stop axis => Sys2Proof.Machine.execStop axis s
  | .home axis => Sys2Proof.Machine.execHome axis s
  | .clear axis => Sys2Proof.Machine.execClear axis s
  | .axisPowerWrite axis on => Sys2Proof.Machine.execAxisPowerWrite axis on s
  | .adistQuery axis v => Sys2Proof.Machine.execAdistQuery axis v s
  | .tblLoad => Sys2Proof.Machine.execTblLoad s
  | .tblLoadDone => Sys2Proof.Machine.execTblLoadDone s
  | .tblRun => Sys2Proof.Machine.execTblRun s
  | .tblAbort => Sys2Proof.Machine.execTblAbort s
  | .inputEdge axis input level => Sys2Proof.Machine.execInputEdge axis input level s
  | .limitTrip axis side => Sys2Proof.Machine.execLimitTrip axis side s
  | .homeChange axis => Sys2Proof.Machine.execHomeChange axis s
  | .indexEdge edge => Sys2Proof.Machine.execIndexEdge edge s
  | .resend => Sys2Proof.Machine.execResend s
  | .resendReadDone => Sys2Proof.Machine.execResendReadDone s
  | .injectResidue islet => Sys2Proof.Machine.execInjectResidue islet s
  | .injectArea islet => Sys2Proof.Machine.execInjectArea islet s
  | .injectPlace islet => Sys2Proof.Machine.execInjectPlace islet s
  | .injectWake track => Sys2Proof.Machine.execInjectWake track s
  | .injectSplit track => Sys2Proof.Machine.execInjectSplit track s
  | .hbmReadDone port addr answer => Sys2Proof.Machine.execHbmReadDone port addr answer s
  | .hbmTrainDone ends => Sys2Proof.Machine.execHbmTrainDone ends s
  | .retrain => Sys2Proof.Machine.execRetrain s
  | .stackTempRead stack temp => Sys2Proof.Machine.execStackTempRead stack temp s
  | .refreshIssue q waiting => Sys2Proof.Machine.execRefreshIssue q waiting s
  | .urgent q => Sys2Proof.Machine.execUrgent q s
  | .hbmScrubStep late => Sys2Proof.Machine.execHbmScrubStep late s
  | .sramScrubStep late => Sys2Proof.Machine.execSramScrubStep late s
  | .restore => Sys2Proof.Machine.execRestore s
  | .repairSave => Sys2Proof.Machine.execRepairSave s
  | .repairDiscard => Sys2Proof.Machine.execRepairDiscard s
  | .flip target mask => Sys2Proof.Machine.execFlip target mask s
  | .selftest => Sys2Proof.Machine.execSelftest s
  | .selftestDone failed => Sys2Proof.Machine.execSelftestDone failed s
  | .hbmInitGo => Sys2Proof.Machine.execHbmInitGo s
  | .initDone => Sys2Proof.Machine.execInitDone s
  | .bar2Read addr len => Sys2Proof.Machine.execBar2Read addr len s
  | .bar2Write addr bytes poisoned => Sys2Proof.Machine.execBar2Write addr bytes poisoned s
  | .configRequest offset control => Sys2Proof.Machine.execConfigRequest offset control s
  | .msixUnmask vector => Sys2Proof.Machine.execMsixUnmask vector s
  | .pendClear word value => Sys2Proof.Machine.execPendClear word value s
  | .evtForce word value => Sys2Proof.Machine.execEvtForce word value s
  | .perstAsserted => Sys2Proof.Machine.execPerstAsserted s
  | .perstDeasserted => Sys2Proof.Machine.execPerstDeasserted s
  | .hotReset => Sys2Proof.Machine.execHotReset s
  | .dataLinkDown => Sys2Proof.Machine.execDataLinkDown s
  | .flr => Sys2Proof.Machine.execFlr s
  | .degraded speed width => Sys2Proof.Machine.execDegraded speed width s
  | .dmaRun channel => Sys2Proof.Machine.execDmaRun channel s
  | .doorbell channel => Sys2Proof.Machine.execDoorbell channel s
  | .dmaResume channel => Sys2Proof.Machine.execDmaResume channel s
  | .dmaReset channel => Sys2Proof.Machine.execDmaReset channel s
  | .dmaRestart => Sys2Proof.Machine.execDmaRestart s
  | .abortAll => Sys2Proof.Machine.execAbortAll s
  | .descriptorFetch channel words => Sys2Proof.Machine.execDescriptorFetch channel words s
  | .descriptorDone channel data failed => Sys2Proof.Machine.execDescriptorDone channel data failed s
  | .dmaTimeout => Sys2Proof.Machine.execDmaTimeout s
  | .arbiterRound q waiting withdraw => Sys2Proof.Machine.execArbiterRound q waiting withdraw s
  | .tdmSlotStart waiting => Sys2Proof.Machine.execTdmSlotStart waiting s
  | .message link words => Sys2Proof.Machine.execMessage link words s
  | .courseEvent link words => Sys2Proof.Machine.execCourseEvent link words s
  | .beacon link words => Sys2Proof.Machine.execBeacon link words s
  | .stopToken link words => Sys2Proof.Machine.execStopToken link words s
  | .resumeReady link words => Sys2Proof.Machine.execResumeReady link words s
  | .linkWord link word => Sys2Proof.Machine.execLinkWord link word s
  | .packetResendTimeout link => Sys2Proof.Machine.execPacketResendTimeout link s
  | .beaconSend => Sys2Proof.Machine.execBeaconSend s
  | .upstreamSilent => Sys2Proof.Machine.execUpstreamSilent s
  | .holdoverTimeout => Sys2Proof.Machine.execHoldoverTimeout s
  | .failover lane => Sys2Proof.Machine.execFailover lane s
  | .sendMessage dest len => Sys2Proof.Machine.execSendMessage dest len s
  | .broadcastMessage dest len => Sys2Proof.Machine.execBroadcastMessage dest len s
  | .recordWriteDone ok => Sys2Proof.Machine.execRecordWriteDone ok s
  | .optimeTick => Sys2Proof.Machine.execOptimeTick s
  | .wallGo => Sys2Proof.Machine.execWallGo s
  | .noteGo => Sys2Proof.Machine.execNoteGo s
  | .erase => Sys2Proof.Machine.execErase s
  | .erased => Sys2Proof.Machine.execErased s
  | .auditGo => Sys2Proof.Machine.execAuditGo s
  | .exportGo => Sys2Proof.Machine.execExportGo s
  | .exportDone => Sys2Proof.Machine.execExportDone s
  | .safeStop => Sys2Proof.Machine.execSafeStop s
  | .hostStop => Sys2Proof.Machine.execHostStop s
  | .safClear => Sys2Proof.Machine.execSafClear s
  | .lockKey key => Sys2Proof.Machine.execLockKey key s
  | .lockClose => Sys2Proof.Machine.execLockClose s
  | .lockTimeout => Sys2Proof.Machine.execLockTimeout s
  | .echoSilent => Sys2Proof.Machine.execEchoSilent s
  | .clock => Sys2Proof.Machine.execClock s
  | .diag bit failed => Sys2Proof.Machine.execDiag bit failed s
  | .follow axis => Sys2Proof.Machine.execFollow axis s
  | .driver axis => Sys2Proof.Machine.execDriver axis s
  | .stopCheck => Sys2Proof.Machine.execStopCheck s
  | .inhibitDelayEnd => Sys2Proof.Machine.execInhibitDelayEnd s
  | .testLines => Sys2Proof.Machine.execTestLines s
  | .testAmps => Sys2Proof.Machine.execTestAmps s
  | .testDiag => Sys2Proof.Machine.execTestDiag s
  | .testDone ok step => Sys2Proof.Machine.execTestDone ok step s
  | .powerOn => Sys2Proof.Machine.execPowerOn s
  | .railEnRelease => Sys2Proof.Machine.execRailEnRelease s
  | .railsGood => Sys2Proof.Machine.execRailsGood s
  | .rstN => Sys2Proof.Machine.execRstN s
  | .supplySample rails => Sys2Proof.Machine.execSupplySample rails s
  | .tjRead temp => Sys2Proof.Machine.execTjRead temp s
  | .warm value => Sys2Proof.Machine.execWarm value s
  | .cold value => Sys2Proof.Machine.execCold value s
  | .courseAbort value => Sys2Proof.Machine.execCourseAbort value s
  | .standby key go wakeN => Sys2Proof.Machine.execStandby key go wakeN s
  | .wake => Sys2Proof.Machine.execWake s
  | .coldBoot testOk ends ms => Sys2Proof.Machine.execColdBoot testOk ends ms s
  | .warmBoot testOk ms => Sys2Proof.Machine.execWarmBoot testOk ms s
  | .cfgWriteSlot slot => Sys2Proof.Machine.execCfgWriteSlot slot s
  | .cfgCheckImage slot => Sys2Proof.Machine.execCfgCheckImage slot s
  | .cfgJobDone ok => Sys2Proof.Machine.execCfgJobDone ok s
  | .jtagBypass => Sys2Proof.Machine.execJtagBypass s
  | .jtagIdcode => Sys2Proof.Machine.execJtagIdcode s
  | .jtagSamplePreload lands cells => Sys2Proof.Machine.execJtagSamplePreload lands cells s
  | .jtagExtest => Sys2Proof.Machine.execJtagExtest s
  | .jtagHighz => Sys2Proof.Machine.execJtagHighz s
  | .jtagClamp => Sys2Proof.Machine.execJtagClamp s
  | .vcStall link vc => Sys2Proof.Machine.execVcStall link vc s
  | .transitPacket link words => Sys2Proof.Machine.execTransitPacket link words s
  | .limitClear axis side => Sys2Proof.Machine.execLimitClear axis side s
  | .safeStopRelease => Sys2Proof.Machine.execSafeStopRelease s
  | .rstNHigh => Sys2Proof.Machine.execRstNHigh s
  | .powerLost => Sys2Proof.Machine.execPowerLost s
  | .linkUp speed width flit => Sys2Proof.Machine.execLinkUp speed width flit s
  | .aerError uncorrectable => Sys2Proof.Machine.execAerError uncorrectable s
  | .auditDone => Sys2Proof.Machine.execAuditDone s

end Sys2Proof.Machine
end

