-- ==== Sys2Proof/Machine/Step.lean ====
section
/-! DEFINITION. One step: the command at the front of the queue, or one tick of the clock where none waits. -/

namespace Sys2Proof.Machine

/-- The block idles for one tick of 1/64 ns: nothing but the clock changes (log entry 5). -/
def idle (s : State) : State := { s with clock := s.clock + 1 }

/-- One step: the command at the front of the queue, run with the queue's rest; the block idles on an empty queue. -/
def step (s : State) : Host.Outcome State Fault Refusal :=
  match s.pending with
  | [] => .next (idle s)
  | c :: rest => exec c { s with pending := rest }

/-- The command that a word spells, put at the front of the queue. -/
def State.withFetchWord (s : State) (nbits w : Nat) : State :=
  match Sys2Proof.decodeTableWord nbits w with
  | some c => { s with pending := c :: s.pending }
  | none => s

end Sys2Proof.Machine
end

