-- ==== Sys2Proof/Safety.lean ====
section
/-! DEFINITION. The terms that claims are stated in: a command that completes, what a step leaves alone, and the invariant of a settled
state. -/

namespace Sys2Proof.Machine

/-- A command completes from a state: there is a next state, the waiting commands are as they were, and the state meets `P`. -/
def Completes (c : Instr) (s : State) (P : State → Prop) : Prop := ∃ t, exec c s = .next t ∧ t.pending = s.pending ∧ P t

/-- The parts of the state, registers, outputs and the event unit apart; `log` is what recording an occurrence does not touch. -/
inductive Part where
  | clock | offset | inForce | latch | shape | queue | slz | ras | bsx | banks | crw | wak | bln | stk | cox | int | hbm | str | msix
  | log | mot | saf | mem | arb | dma | pwr | keel | jtag | results | free
deriving DecidableEq, Repr

/-- Whether a part is the same in two states. -/
def Part.same (p : Part) (s t : State) : Prop :=
  match p with
  | .clock => t.clock = s.clock
  | .offset => t.rtOfs = s.rtOfs
  | .inForce => t.inf = s.inf
  | .latch => t.latch = s.latch
  | .shape => t.shape = s.shape
  | .queue => t.ing = s.ing
  | .slz => t.slz = s.slz
  | .ras => t.ras = s.ras
  | .bsx => t.bsx = s.bsx
  | .banks => t.banks = s.banks
  | .crw => t.crw = s.crw
  | .wak => t.wak = s.wak
  | .bln => t.bln = s.bln
  | .stk => t.stk = s.stk
  | .cox => t.cox = s.cox
  | .int => t.int = s.int
  | .hbm => t.hbm = s.hbm
  | .str => t.str = s.str
  | .msix => t.msix = s.msix
  | .log => t.log.slots = s.log.slots ∧ t.log.newest = s.log.newest ∧ t.log.optime = s.log.optime ∧ t.log.cycle = s.log.cycle ∧
      t.log.prevWall = s.log.prevWall ∧ t.log.erasing = s.log.erasing ∧ t.log.exporting = s.log.exporting ∧ t.log.audit = s.log.audit
  | .mot => t.mot = s.mot
  | .saf => t.saf = s.saf
  | .mem => t.mem = s.mem
  | .arb => t.arb = s.arb
  | .dma => t.dma = s.dma ∧ t.moverTurn = s.moverTurn
  | .pwr => t.pwr = s.pwr
  | .keel => t.keel = s.keel
  | .jtag => t.jtag = s.jtag
  | .results => t.results = s.results
  | .free => t.free = s.free

/-- What a step leaves alone: every part but those listed, and every register but those listed and those that recording an
occurrence writes (R369 to R380). -/
def Frame (parts : List Part) (regs : List Nat) (s t : State) : Prop :=
  (∀ p, p ∉ parts → p.same s t) ∧ ∀ a, a ∉ regs → recorderReg a = false → t.reg a = s.reg a

/-- What a compound step leaves alone: every part but those listed, and every register outside the blocks listed (R451: a block is
64 KiB of BAR0), those that recording an occurrence writes apart. -/
def BlockFrame (parts : List Part) (blocks : List Nat) (s t : State) : Prop :=
  (∀ p, p ∉ parts → p.same s t) ∧ ∀ a, a / 65536 ∉ blocks → recorderReg a = false → t.reg a = s.reg a

/-- A write to HBM that nothing discards or alters: HBM is in use, the range lies inside it, no range is fenced, it is no part of the
beam map's shadow, no fault is armed, and every word of it is whole (R65, R143, R306, R307, R327). -/
def PlainWrite (s : State) (a n : Nat) : Prop :=
  s.hbmReady = true ∧ a + n ≤ hbmSize ∧ s.fences = [] ∧ shadowTouched s a n = [] ∧ s.fget F.SRM_CHK_CTL_MODE ≠ 1 ∧
    ∀ w ∈ wordsOf a n, s.wordClass w = .clean

/-- A port reads a range whole: every word of it is stored whole, and none is marked on its way (R305, R314, R316). -/
def PlainRead (s : State) (port a n : Nat) : Prop :=
  ∀ w ∈ wordsOf a n, s.wordClass w = .clean ∧ s.mem.marked.contains (port, w) = false

/-- No DMA channel is moving data. -/
def MoversStill (s : State) : Prop := ∀ c < 32, s.chanState c ≠ 2 ∨ (s.chan c).desc = none

/-- The bytes written at an address stand there with valid check bits, and every other byte of HBM is as it was. -/
def Stored (s t : State) (a : Nat) (bs : List Byte) : Prop :=
  (∀ i < bs.length, t.hbmByte (a + i) = bs.getD i 0#8) ∧ (∀ x, x < a ∨ a + bs.length ≤ x → t.hbmByte x = s.hbmByte x) ∧
    ∀ w ∈ wordsOf a bs.length, t.hbmChk w = 0

/-- A strait link that can send a packet of a VC at once (R357). -/
def LinkFree (s : State) (k vc : Nat) : Prop :=
  s.linkUp k = true ∧ (s.link k).queue = [] ∧ (s.link k).unacked.length < 16 ∧ 0 < (s.link k).credits.getD vc 0

/-- A packet left on a link in this step, with the next LSEQ of the link and its T_TX (R356). -/
def SentOn (t : State) (k : Nat) (p : Packet) : Prop :=
  ∃ (lseq : Nat) (ttx : DWord), Output.straitWords k (packetWords { p with lseq := lseq, ttx := ttx }) ∈ t.out

/-- The commands that detect a safety cause in a state, with the bit of the cause (R391, R400). -/
def Demands (s : State) (c : Instr) (k : Nat) : Prop :=
  (c = .safeStop ∧ k = 0) ∨ (c = .hostStop ∧ k = 1) ∨ (c = .echoSilent ∧ k = 3 ∧ s.flag F.SAF_STATUS_BEAM_PERMIT = true) ∨
    (c = .clock ∧ k = 4) ∨ (∃ bit < 10, c = .diag bit true ∧ k = if bit = 6 then 4 else if bit = 9 then 6 else 5) ∨
    (∃ a < 2, c = .follow a ∧ k = 11 + a ∧ (s.safAxis a).followSince.isSome = true ∧ s.ref a = true) ∨
    ∃ a < 2, c = .driver a ∧ k = 17 + a

/-- An address of HBM whose byte and check bits are undefined (R308, R328). -/
def Undefined (s : State) (a : Nat) : Prop := ∃ h ∈ s.hbm.hazes, h.raw = true ∧ h.holds a = true

/-- Nothing that could leave a range of HBM undefined at a warm reset is under way (R82, R135, R330, R336). -/
def WritersStill (s : State) : Prop := s.running = none ∧ s.slz = none ∧ s.mem.init = none ∧ MoversStill s

/-- Every register but those listed, and those that recording an occurrence writes, holds its Reset column (R452). -/
def AtReset (t : State) (kept : List Nat) : Prop := ∀ a, a ∉ kept → recorderReg a = false → t.reg a = resetOf a

/-- The registers that a cold reset does not bring to their Reset column: the keep-alive flags and the levels that inputs show. -/
def coldKept : List Nat := [R.PWR_KA_FLAGS, R.MOT_AX_STATUS 0, R.MOT_AX_STATUS 1, R.SAF_STATUS]

/-- Those that a warm reset does not (R452): the cold domain beside them. -/
def warmKept : List Nat :=
  coldKept ++ [R.HBM_CTL, R.CFG_CTL, R.PWR_TJ, R.HBM_STK_STATUS 0, R.HBM_STK_STATUS 1, R.HBM_STK_STATUS 2, R.HBM_STK_STATUS 3]

/-- The invariant of a settled state: the alert pin is driven as R372 says, and no forced occurrence waits. -/
def Settled (s : State) : Prop := s.evt.alertOn = s.alert ∧ s.evt.forced = []

end Sys2Proof.Machine
end

