-- ==== Sys2Proof/Certificates/Slice0/Obligations.lean ====
section
/-! DEFINITION. The statements for the provers. Each command of the table completes with the effect the spec gives it, and leaves the rest
of the state alone. -/

open Sys2Proof Sys2Proof.Machine

/-- For every state whose queue of waiting commands has a front c and a rest, one step is exec of c on the state with the rest as its queue (the model's own queue). -/
def Obligations.StepTakesTheFront : Prop :=
  ∀ (s : State) (c : Instr) (rest : List Instr), s.pending = c :: rest → step s = exec c { s with pending := rest }

/-- The model's choice (log entry 5): on an empty queue a step answers a next state, in which the clock is one tick later and everything else is as it was. -/
def Obligations.StepIdlesOnAnEmptyQueue : Prop :=
  ∀ s : State, s.pending = [] → step s = .next { s with clock := s.clock + 1 }

/-- From every state, a command whose operands lie in the ranges of its row completes with a next state in which the waiting commands are as they were; a command with an operand outside its range is refused as ill-formed. No command faults. -/
def Obligations.CommandsEndByNameOrComplete : Prop :=
  ∀ (c : Instr) (s : State),
    (c.wf = true → ∃ t, exec c s = .next t ∧ t.pending = s.pending) ∧ (c.wf = false → exec c s = .refused .illFormed)

/-- At State.reset the alert pin is driven as R372 says, no forced occurrence waits, and HBM's bytes are in canonical form. -/
def Obligations.AlertPinInvariantAtReset : Prop :=
  Settled State.reset ∧ Memory.wf State.reset.hbm.bytes = true

/-- From every settled state, a step that answers a next state answers a settled one: ALERT_N is asserted exactly when a source has both PEND and ALERT_EN, or ALERT_TEST is set, and no forced occurrence is left over. -/
def Obligations.AlertPinInvariantOfEveryStep : Prop :=
  ∀ s t : State, Settled s → step s = .next t → Settled t

/-- From every state whose HBM bytes are listed with addresses strictly rising and none equal to what an unlisted byte reads as, a step that answers a next state answers one with the same form (the form is the model's own). -/
def Obligations.MemoryStaysCanonical : Prop :=
  ∀ s t : State, Memory.wf s.hbm.bytes = true → step s = .next t → Memory.wf t.hbm.bytes = true

/-- Whatever a command does, a member bit of an event source that is 0 before it and 1 after it leaves PEND of that source set, and a source that EVT_FORCE names has PEND set after the write. -/
def Obligations.RisingMemberSetsPend : Prop :=
  ∀ (s : State),
    (∀ (c : Instr) (t : State) (e : EventSource) (m : Nat × Nat) (i : Nat), exec c s = .next t → e ∈ eventSources → m ∈ e.members →
      i < 32 → m.2.testBit i = true → (s.reg m.1).getLsbD i = false → (t.reg m.1).getLsbD i = true → t.pend e.src = true) ∧
    (∀ (w : Nat) (v : Word) (i : Nat), w < 4 → i < 32 → v.getLsbD i = true → (eventSource (32 * w + i)).isSome = true →
      Completes (.evtForce w v) s (fun t => t.pend (32 * w + i) = true))

/-- A REGISTER_WRITE of one word of BAR0 with fewer than four byte enables completes, and every register and every part of the state is as it was. -/
def Obligations.PartialWritesAreDiscarded : Prop :=
  ∀ (s : State) (a be : Nat) (v : Word), a % 4 = 0 → a + 4 ≤ 0x1000000 → be < 15 →
    Completes (.registerWrite a [⟨be, v⟩]) s (fun t => Frame [] [] s t)

/-- At an aligned offset of BAR0 that holds no register and lies outside the beam map window: a read answers 0 and changes nothing, and a write of a whole word completes and changes nothing. -/
def Obligations.HolesReadZeroAndIgnoreWrites : Prop :=
  ∀ (s : State) (a : Nat) (v : Word), a % 4 = 0 → a < 0x800000 → descOf a = none → s.latched a = none →
    Completes (.registerWrite a [⟨15, v⟩]) s (fun t => Frame [] [] s t) ∧
    Completes (.rcRead ⟨a, 1⟩) s (fun t => t.resp = .data [0#32] ∧ Frame [] [] s t)

/-- A whole-word write of a staging word of the course queue (RW) stores the value; of ING_EVENTS (W1C) clears the bits written as 1; of ING_STATUS (RO) changes nothing; of SAF_STOP_FILTER (LCK) with the lock closed leaves it and counts a violation, and with the lock open stores the value. A write of more than sixteen words answers "unsupported". Each leaves the rest alone. -/
def Obligations.RegisterWriteAccessCodes : Prop :=
  ∀ (s : State) (v : Word),
    (∀ i < 16, Completes (.registerWrite (R.ING_CQ_DESC i) [⟨15, v⟩]) s (fun t =>
      t.reg (R.ING_CQ_DESC i) = v ∧ Frame [] [R.ING_CQ_DESC i] s t)) ∧
    Completes (.registerWrite R.ING_EVENTS [⟨15, v⟩]) s (fun t =>
      t.reg R.ING_EVENTS = s.reg R.ING_EVENTS &&& ~~~ (v &&& 63#32) ∧ Frame [] [R.ING_EVENTS] s t) ∧
    Completes (.registerWrite R.ING_STATUS [⟨15, v⟩]) s (fun t => Frame [] [] s t) ∧
    (s.lockOpen = false → Completes (.registerWrite R.SAF_STOP_FILTER [⟨15, v⟩]) s (fun t =>
      t.flag F.SAF_EVENTS_LOCK_VIOLATION = true ∧ t.fget F.SAF_LOCK_VIOL_COUNT = min (s.fget F.SAF_LOCK_VIOL_COUNT + 1) 0xFFFFFFFF ∧
      t.saf = { s.saf with keyed := false } ∧ Frame [.saf] [R.SAF_LOCK_VIOL, R.SAF_EVENTS] s t)) ∧
    (s.lockOpen = true → Completes (.registerWrite R.SAF_STOP_FILTER [⟨15, v⟩]) s (fun t =>
      t.fget F.SAF_STOP_FILTER_NS = max 100 (min 1500 (fieldOf 0 11 v)) ∧ t.saf = { s.saf with keyed := false } ∧
      Frame [.saf] [R.SAF_STOP_FILTER] s t)) ∧
    (∀ (a : Nat) (ls : List WriteLane), (Instr.registerWrite a ls).wf = true → 16 < ls.length →
      Completes (.registerWrite a ls) s (fun t => t.resp = .unsupported ∧ Frame [] [] s t))

/-- With no check bit of a table word wrong, a LOW_WORD_READ of the low word of a multi-word read-only quantity answers its value and latches the word after it. A later read of that word answers the latched value, and with none latched it answers the live value. A read of both words in one access answers the low word and the word it has latched. -/
def Obligations.LowWordReadLatches : Prop :=
  ∀ (s : State) (a : Nat), a % 4 = 0 → a < 0x1000000 → s.mem.flips = [] →
    (isLowWord a = true → s.latched a = none →
      Completes (.lowWordRead ⟨a, 1⟩) s (fun t => t.resp = .data [peek s a] ∧ t.latched (a + 4) = some (peek s (a + 4)) ∧
        (∀ b, b ≠ a + 4 → t.latched b = s.latched b) ∧ Frame [.latch] [] s t)) ∧
    (∀ w, s.latched a = some w → Completes (.lowWordRead ⟨a, 1⟩) s (fun t => t.resp = .data [w])) ∧
    (s.latched a = none → Completes (.lowWordRead ⟨a, 1⟩) s (fun t => t.resp = .data [peek s a])) ∧
    (isLowWord a = true → s.latched a = none → a + 8 ≤ 0x1000000 →
      Completes (.lowWordRead ⟨a, 2⟩) s (fun t => t.resp = .data [peek s a, peek s (a + 4)]))

/-- With no check bit of a table word wrong, an RC_READ of a register that is no result block and no low word answers its value before the read; afterwards every RC field of it is 0, every other field of it and all else is as it was. -/
def Obligations.ReadClearsRcFields : Prop :=
  ∀ (s : State) (a : Nat) (d : RegDesc), a % 4 = 0 → descOf a = some d → s.latched a = none → resultBase a = none → isLowWord a = false → s.mem.flips = [] →
    Completes (.rcRead ⟨a, 1⟩) s (fun t => t.resp = .data [peek s a] ∧
      (∀ f ∈ d.fields, f.acc = .rc → t.fget ⟨a, f.lo, f.width⟩ = 0) ∧
      (∀ f ∈ d.fields, f.acc ≠ .rc → t.fget ⟨a, f.lo, f.width⟩ = s.fget ⟨a, f.lo, f.width⟩) ∧ Frame [] [a] s t)

/-- A RESULT_READ of the register that holds VALID marks a visible result seen. A RESULT_ACK releases the visible result, and the one behind becomes visible and unseen; with none visible it does nothing. Other blocks are as they were. An acknowledgement at SAF_TEST_ACK also takes the first lock key back. -/
def Obligations.ResultBlocksHoldTwo : Prop :=
  ∀ (s : State) (a b : Nat) (v : ResultSlot),
    (resultBase a = some a → (s.result a).vis = some v →
      Completes (.resultRead ⟨a, 1⟩) s (fun t =>
        t.result a = { vis := some { v with seen := true }, beh := (s.result a).beh } ∧
        (∀ c, c ≠ a → t.result c = s.result c) ∧ Frame [.results] [] s t)) ∧
    (ackBase a = some b → (s.result b).vis = some v →
      Completes (.resultAck a) s (fun t =>
        t.result b = { vis := (s.result b).beh.map (fun h => { h with seen := false }), beh := none } ∧
        (∀ c, c ≠ b → t.result c = s.result c) ∧
        t.saf = (if a = R.SAF_TEST_ACK then { s.saf with keyed := false } else s.saf) ∧ Frame [.results, .saf] [] s t)) ∧
    (ackBase a = some b → (s.result b).vis = none →
      Completes (.resultAck a) s (fun t => (∀ c, t.result c = s.result c) ∧ Frame [.results, .saf] [] s t))

/-- A POST with fewer than eight entries appends an entry in ADMITTING that holds the sixteen staging words as they stand, the next index and the next sequence number, which ING_CQ_LAST shows; the number after 65,535 is 1. With eight entries held it sets POST_REFUSED and changes nothing else. -/
def Obligations.PostTakesTheNextEntry : Prop :=
  ∀ s : State,
    (s.ing.queue.length < 8 → Completes .post s (fun t =>
      (∃ e : Entry, t.ing.queue = s.ing.queue ++ [e] ∧ e.idx = s.ing.nextIdx ∧ e.seq = s.ing.nextSeq ∧ e.state = .admitting ∧ e.err = 0 ∧
        e.head = none ∧ e.work = none ∧ e.desc = (List.range 16).map (fun w => s.reg (R.ING_CQ_DESC w))) ∧
      t.ing.nextIdx = (s.ing.nextIdx + 1) % 8 ∧ t.ing.nextSeq = (if s.ing.nextSeq = 65535 then 1 else s.ing.nextSeq + 1) ∧
      t.ing.adm = s.ing.adm ∧ t.fget F.ING_CQ_LAST_ENTRY = s.ing.nextIdx % 8 ∧ t.fget F.ING_CQ_LAST_SEQ = s.ing.nextSeq % 65536 ∧
      Frame [.queue] [R.ING_CQ_LAST, R.SLZ_TILE_ERR s.ing.nextIdx, R.SLZ_TILE_ERR_IN s.ing.nextIdx, R.SLZ_TILE_ERR_OUT s.ing.nextIdx] s t)) ∧
    (8 ≤ s.ing.queue.length → Completes .post s (fun t =>
      t.flag F.ING_EVENTS_POST_REFUSED = true ∧ Frame [] [R.ING_EVENTS] s t))

/-- ING_RUN stores RUN. FLUSH leaves the entries that are RUNNING, abandons an admission in progress and frees its islet slots; the next post takes the index after the running entry. SKIP removes the oldest entry where it is FAILED and does nothing otherwise. Each leaves the rest alone. -/
def Obligations.QueueControlCommands : Prop :=
  ∀ s : State,
    (∀ run : Bool, Completes (.ingRun run) s (fun t => t.flag F.ING_CTL_RUN = run ∧
      t.stk = { s.stk with loadTried := s.stk.loadTried && !run } ∧ Frame [.stk] [R.ING_CTL] s t)) ∧
    Completes .flush s (fun t => t.ing.queue = s.ing.queue.filter (fun e => e.state == .running) ∧ t.ing.adm = none ∧
      t.ing.nextSeq = s.ing.nextSeq ∧
      t.ing.nextIdx = (match s.running with | some e => nextEntry e.idx | none => s.ing.nextIdx) ∧
      t.ras = { s.ras with slots := s.ras.slots.filter (fun p => p.2.kind != 3) } ∧
      Frame [.queue, .ras, .int] [] s t) ∧
    (∀ e rest, s.ing.queue = e :: rest → e.state = .failed → Completes .skip s (fun t =>
      t.ing = { s.ing with queue := rest } ∧ Frame [.queue] [] s t)) ∧
    (∀ e rest, s.ing.queue = e :: rest → e.state ≠ .failed → Completes .skip s (fun t => Frame [] [] s t))

/-- ADMISSION_START with no admission in progress takes the oldest entry in ADMITTING: it keeps the first error of its descriptor and header section, pauses where a tile index entry cannot be read, and otherwise has the tile segments to check where PREPARSE asks for it. ADMISSION_DONE of an admission with nothing left to check makes its entry READY; of one that failed makes it FAILED with the error and its place, and sets ADMIT_FAIL. -/
def Obligations.AdmissionCommands : Prop :=
  ∀ (s : State) (e : Entry) (a : Admission) (f : AdmitFail),
    (s.ing.adm = none → s.ing.queue.find? (fun x => x.state == .admitting) = some e →
      Completes .admissionStart s (fun t => (∃ b, t.ing.adm = some b ∧ b.idx = e.idx ∧ b.flight = [] ∧
          (∀ g, (admitHead s e).2 = .fails g → b.fail = some g ∧ b.paused = false) ∧
          (∀ o p, (admitHead s e).2 = .lost o p → b.fail = none ∧ b.paused = true ∧ b.header = true ∧
            t.flag F.INT_EVENTS_SOURCE_LOSS = (s.int.loss.isNone || s.flag F.INT_EVENTS_SOURCE_LOSS)) ∧
          (∀ h, (admitHead s e).2 = .passes h →
            b.fail = none ∧ b.paused = false ∧ b.todo = if e.preparse then allTiles s.shape h else [])) ∧
        t.ing.nextIdx = s.ing.nextIdx ∧ t.ing.nextSeq = s.ing.nextSeq ∧
        BlockFrame [.queue, .int, .hbm, .mem, .arb, .keel, .banks, .crw] [0x09, 0x0A, 0x0E, 0x0F, 0x15] s t)) ∧
    (s.ing.adm = some a → a.fail = none → a.todo = [] → a.flight = [] → a.paused = false → a.header = false →
      Completes .admissionDone s (fun t => t.ing = { s.ing with adm := none
                                                                queue := s.ing.queue.map (fun x => if x.idx = a.idx then { x with state := .ready } else x) } ∧
        Frame [.queue] [] s t)) ∧
    (s.ing.adm = some a → a.fail = some f → a.flight = [] →
      Completes .admissionDone s (fun t => t.ing.adm = none ∧
        t.ing.queue = s.ing.queue.map (fun x => if x.idx = a.idx then { x with state := .failed, err := layoutCode f.err, band := f.band
                                                                               tile := f.tile, off := f.off, inHeader := f.inHeader } else x) ∧
        t.flag F.ING_EVENTS_ADMIT_FAIL = true ∧ Frame [.queue, .ras, .int] [R.ING_EVENTS] s t))

/-- COURSE_START with RUN set, the oldest entry READY, no other entry running and every other condition of a start met closes the safety lock and sets COURSE_START; either the entry is RUNNING and the cox in APPROACH, or the course is abandoned for want of room. Where the loop gains and the thresholds of the cox meet their conditions, the register values of that moment govern. -/
def Obligations.CourseStartRunsTheOldestReadyEntry : Prop :=
  ∀ (s : State) (e : Entry), let u := closeLock s
    dueEntry s = some e → spillFails u e = false → 16 ≤ u.willServeCount → depthShort u = false → u.echoMin ≤ u.echoLocked →
    startWaits u = false → let r := readLaneMap (swapBanks u)
    r.badInService = false → r.stk.loadDue = false → lanesMissing (spareStart r) = [] →
    Completes .courseStart s (fun t => t.lockOpen = false ∧ t.flag F.ING_EVENTS_COURSE_START = true ∧
      ((t.running.map Entry.seq = some e.seq ∧ t.coxState = 1) ∨ (t.flag F.COX_ABANDON_VALID = true ∧ t.fget F.COX_ABANDON_REASON = 5)) ∧
      (gainsOk u = true → thresholdsOk u = true → ∀ a, t.inReg a = (spareStart r).reg a) ∧
      BlockFrame [.inForce, .queue, .ras, .bsx, .banks, .crw, .wak, .bln, .stk, .cox, .int, .hbm, .str, .mot, .saf, .mem, .keel, .free, .results]
        [0x03, 0x09, 0x0A, 0x0B, 0x0D, 0x0E, 0x0F, 0x10, 0x11, 0x12, 0x13, 0x14, 0x15, 0x16] s t)

/-- SLZ_COMPRESS and SLZ_DECOMPRESS with no job running copy the table, count, destination, capacity and level registers into a job, and judge whether it is refused; with one running they set GO_REFUSED and nothing else. SLZ_ABORT marks the running job for ABORTED. -/
def Obligations.CodecJobsStart : Prop :=
  ∀ s : State,
    (s.slz = none → ∀ c ∈ [(Instr.slzCompress, false), (Instr.slzDecompress, true)],
      Completes c.1 s (fun t => (∃ j, t.slz = some j ∧ j.decompress = c.2 ∧
          j.table = s.pair F.SLZ_JOB_TABLE_LO_ADDR F.SLZ_JOB_TABLE_HI_ADDR ∧ j.count = s.fget F.SLZ_JOB_COUNT_COUNT ∧
          j.dst = s.pair F.SLZ_JOB_DST_LO_ADDR F.SLZ_JOB_DST_HI_ADDR ∧ j.cap = s.pair F.SLZ_JOB_CAP_LO_CAP F.SLZ_JOB_CAP_HI_CAP ∧
          j.level = s.fget F.SLZ_CTL_LEVEL ∧ j.abort = false ∧ j.refused = (jobRefusal s { j with refused := none }).map (fun r => r.1 + 8 * r.2)) ∧
        BlockFrame [.slz, .hbm, .mem, .arb, .keel] [0x09, 0x0A] s t)) ∧
    (s.slz.isSome = true → ∀ c ∈ [Instr.slzCompress, Instr.slzDecompress],
      Completes c s (fun t => t.flag F.SLZ_EVENTS_GO_REFUSED = true ∧ Frame [] [R.SLZ_EVENTS] s t)) ∧
    Completes .slzAbort s (fun t => t.slz = s.slz.map (fun j => { j with abort := true }) ∧ Frame [.slz] [] s t)

/-- SLZ_JOB_END of a running job leaves no job, sets JOB_DONE and has a result visible. A job refused at GO posts its code and entry with nothing used and leaves HBM alone. An aborted one posts ABORTED. -/
def Obligations.CodecJobsEndWithTheirResult : Prop :=
  ∀ (s : State) (j : SlzJob), s.slz = some j →
    Completes .slzJobEnd s (fun t => t.slz = none ∧ t.flag F.SLZ_EVENTS_JOB_DONE = true ∧ (t.result R.SLZ_RESULT).vis.isSome = true ∧
      BlockFrame [.slz, .results, .hbm, .mem, .arb, .keel, .banks, .crw, .free] [0x09, 0x0A, 0x0B, 0x0C, 0x0E, 0x0F] s t) ∧
    (∀ c, j.refused = some c → Completes .slzJobEnd s (fun t =>
      t.result R.SLZ_RESULT = (postBlock (s.result R.SLZ_RESULT) [(R.SLZ_RESULT, BitVec.ofNat 32 (c % 8 * 16 + c / 8 % 4096 * 1024)),
        (R.SLZ_RESULT_USED_LO, 0#32), (R.SLZ_RESULT_USED_HI, 0#32)]).2 ∧ Frame [.slz, .results] [R.SLZ_EVENTS] s t)) ∧
    (j.refused = none → j.abort = true → Completes .slzJobEnd s (fun t =>
      t.result R.SLZ_RESULT = (postBlock (s.result R.SLZ_RESULT) [(R.SLZ_RESULT, 0x70#32), (R.SLZ_RESULT_USED_LO, 0#32),
        (R.SLZ_RESULT_USED_HI, 0#32)]).2))

/-- Where the next band meets the conditions of R103, BAND_ELIGIBLE makes it eligible; its wake slot, the band number modulo the slots, then holds it with no tile released, and BSX_WAIT reads 0. The rest is as it was. -/
def Obligations.BandsBecomeEligible : Prop :=
  ∀ s : State, wouldBeEligible s = true → s.ras.eligible < s.covered →
    Completes .bandEligible s (fun t => t.ras = { s.ras with eligible := s.ras.eligible + 1 } ∧
      t.wakeSlot (s.ras.eligible % s.shape.wakeSlots) = { band := s.ras.eligible, held := true, mask := [] } ∧
      (∀ k, k ≠ s.ras.eligible % s.shape.wakeSlots → t.wakeSlot k = s.wakeSlot k) ∧ t.flag F.DOS_STATUS_BSX_WAIT = false ∧
      Frame [.ras, .wak] [R.DOS_STATUS] s t)

/-- TILE_DISPATCH gives a waiting recomputation, else the next tile of an eligible band, else an admission decode, to a free slot of the first islet at or after the rotating pointer that may take it; the pointer then stands after that islet. -/
def Obligations.TileDispatchOrder : Prop :=
  ∀ (s : State) (e : Entry) (i j b k : Nat),
    (s.ras.stopped = false → s.running = some e → ∀ r, (waitingRedos s).head? = some r → redoTaker s r = some (i, j) →
      Completes .tileDispatch s (fun t =>
        t.ras = { s.ras with slots := s.ras.slots ++ [(2 * i + j, newWork s r.kind r.band r.tile e.idx)], pointer := (i + 1) % 128
                             redo := s.ras.redo.erase r } ∧ Frame [.ras] [] s t)) ∧
    (s.ras.stopped = false → s.running = some e → waitingRedos s = [] → nextFirst s = some (b, k) →
      (takers s (fun n => s.role n == 0 || s.role n == 1)).head? = some (i, j) →
      Completes .tileDispatch s (fun t => t.ras.slots = s.ras.slots ++ [(2 * i + j, newWork s 1 b k e.idx)] ∧
        t.ras.pointer = (i + 1) % 128 ∧ t.ras.redo = s.ras.redo ∧ Frame [.ras] [R.DOS_STATUS, R.DOS_EVENTS] s t)) ∧
    (s.running = none → ∀ a todo, s.ing.adm = some a → a.todo = (b, k) :: todo → a.paused = false →
      (takers s (fun n => s.role n == 2 || s.role n == 0)).head? = some (i, j) →
      Completes .tileDispatch s (fun t => t.ras.slots = s.ras.slots ++ [(2 * i + j, newWork s 3 b k a.idx)] ∧
        t.ras.pointer = (i + 1) % 128 ∧ t.ing = { s.ing with adm := some { a with todo := todo, flight := (b, k) :: a.flight } } ∧
        Frame [.ras, .queue] [] s t))

/-- TILE_COMPUTE_DONE of a slot that holds work leaves the slot empty, but for a tile whose map of F is to be rebuilt first. Where the entry has its header, no source byte is lost, the course is not ending and the backscatter engine is off, the islet's completed tiles count one more. Work of an entry that has left the queue changes nothing but the slot. -/
def Obligations.TileComputationsEndTheirSlot : Prop :=
  ∀ (s : State) (islet slot : Nat) (check : TileCheck) (w : IsletWork), (Instr.tileComputeDone islet slot check).wf = true →
    s.slotWork islet slot = some w →
    Completes (.tileComputeDone islet slot check) s (fun t =>
      (t.slotWork islet slot = none ∨ (s.govFlag F.DOS_CTL_BSX_EN = true ∧ t.slotWork islet slot = some w)) ∧
      (∀ e h, s.entry w.entry = some e → e.head = some h →
        s.cox.ending = none → s.govFlag F.DOS_CTL_BSX_EN = false →
        lossOf s (if w.kind = 3 then 14 else islet / 16) e h w.band w.tile = none →
        t.fget (F.RAS_ISLET_TILES_COUNT islet) =
          satAdd (F.RAS_ISLET_TILES_COUNT islet).width (s.fget (F.RAS_ISLET_TILES_COUNT islet)) 1) ∧
      (s.entry w.entry = none → Frame [.ras] [] s t) ∧
      BlockFrame [.queue, .ras, .bsx, .banks, .crw, .wak, .bln, .stk, .cox, .int, .hbm, .str, .mot, .saf, .mem, .arb, .keel, .results, .free]
        [0x03, 0x09, 0x0A, 0x0B, 0x0C, 0x0D, 0x0E, 0x0F, 0x10, 0x11, 0x12, 0x13, 0x14, 0x15, 0x16] s t)

/-- SLOW_TILE of a slot whose work has not yet passed the limit moves the clock to the limit, counts the islet's slow tiles and sets SLOW_TILE. RAS_PROBE clears VALID and keeps the tile named; RAS_PROBE_DONE sets VALID and gives the placement coefficients of an entry with an admitted header, or ERROR for one without. -/
def Obligations.SlowTilesAndProbes : Prop :=
  ∀ s : State,
    (∀ (i j : Nat) (w : IsletWork), i < 128 → j < 2 → s.slotWork i j = some w → s.fget F.RAS_SLOW_LIMIT_LIMIT ≠ 0 → w.overrun = false →
      Completes (.slowTile i j) s (fun t => t.clock = max s.clock (w.since + s.fget F.RAS_SLOW_LIMIT_LIMIT * 64000) ∧
        t.slotWork i j = some { w with overrun := true } ∧ t.flag F.RAS_EVENTS_SLOW_TILE = true ∧
        t.fget (F.RAS_ISLET_SLOW_COUNT i) = satAdd (F.RAS_ISLET_SLOW_COUNT i).width (s.fget (F.RAS_ISLET_SLOW_COUNT i)) 1 ∧
        Frame [.clock, .ras] [R.RAS_ISLET_SLOW i, R.RAS_EVENTS] s t)) ∧
    (∀ b k e : Nat, b < 65536 → k < 32 → e < 8 → Completes (.rasProbe b k e) s (fun t =>
      t.ras = { s.ras with probe := some (b, k, e) } ∧ t.flag F.RAS_PROBE_STATUS_VALID = false ∧ Frame [.ras] [R.RAS_PROBE_STATUS] s t)) ∧
    (∀ (b k e : Nat) (x : Entry) (h : StreamHead), s.ras.probe = some (b, k, e) → s.entry e = some x → x.state ≠ .admitting → x.head = some h →
      Completes .rasProbeDone s (fun t => let p := tilePlacement h.poly s.shape.tile b k
        t.ras = { s.ras with probe := none } ∧ t.flag F.RAS_PROBE_STATUS_VALID = true ∧ t.flag F.RAS_PROBE_STATUS_ERROR = false ∧
        t.fget F.RAS_PROBE_A0_LO_A0 = unsignedOf 64 p.a0 % 2 ^ 32 ∧ t.fget F.RAS_PROBE_A0_HI_A0 = unsignedOf 64 p.a0 / 2 ^ 32 ∧
        t.fget F.RAS_PROBE_A1_A1 = unsignedOf 32 p.a1 ∧ t.fget F.RAS_PROBE_A2_A2 = unsignedOf 32 p.a2 ∧
        t.fget F.RAS_PROBE_B0_LO_B0 = unsignedOf 64 p.b0 % 2 ^ 32 ∧ t.fget F.RAS_PROBE_B0_HI_B0 = unsignedOf 64 p.b0 / 2 ^ 32 ∧
        t.fget F.RAS_PROBE_B1_B1 = unsignedOf 32 p.b1 ∧ t.fget F.RAS_PROBE_B2_B2 = unsignedOf 32 p.b2 ∧
        Frame [.ras] [R.RAS_PROBE_STATUS, R.RAS_PROBE_A0_LO, R.RAS_PROBE_A0_HI, R.RAS_PROBE_A1, R.RAS_PROBE_A2, R.RAS_PROBE_B0_LO,
          R.RAS_PROBE_B0_HI, R.RAS_PROBE_B1, R.RAS_PROBE_B2] s t)) ∧
    (∀ b k e : Nat, s.ras.probe = some (b, k, e) → s.entry e = none → Completes .rasProbeDone s (fun t =>
      t.flag F.RAS_PROBE_STATUS_VALID = true ∧ t.flag F.RAS_PROBE_STATUS_ERROR = true))

/-- BSX_TILE_START with the engine on and idle, a course running, no loss waited for and the next tile within its run-ahead makes it busy. BSX_TILE_DONE of a tile whose source can be read and decodes leaves it idle with the tile after as its next. -/
def Obligations.BackscatterEngineTiles : Prop :=
  ∀ s : State,
    (s.bsx.on = true → s.bsx.busy = false → s.running.isSome = true → s.int.loss = none →
      s.bsx.next / s.shape.tilesPerBand < s.bands → s.bsx.next / s.shape.tilesPerBand ≤ s.doneBand + s.gov F.DOS_BSX_AHEAD_BANDS →
      Completes .bsxTileStart s (fun t => t.bsx = { s.bsx with busy := true, lost := false } ∧ Frame [.bsx] [] s t)) ∧
    (∀ (e : Entry) (h : StreamHead), let k := s.bsx.next % s.shape.tilesPerBand
      let b := s.bsx.next / s.shape.tilesPerBand
      s.bsx.busy = true → s.running = some e → e.head = some h → lossOf s 8 e h b k = none →
      (decodeTileAt (s.stream e) s.shape h b k).err = none →
      Completes .bsxTileDone s (fun t => t.bsx.busy = false ∧ t.bsx.next = s.bsx.next + 1 ∧ t.bsx.on = s.bsx.on ∧
        BlockFrame [.bsx, .hbm, .mem, .arb, .keel, .banks, .crw] [0x09, 0x0A, 0x0E, 0x0F] s t))

/-- BANK_OPEN clears the marks and REFUSE, cancels a pending commit and stops a clone; where no clone runs nothing else changes. BANK_CLONE with no commit pending begins the copy; with one pending it is ignored and reported. Other tables keep their bank controls. -/
def Obligations.BankOpenAndClone : Prop :=
  ∀ (s : State) (x : TableId),
    Completes (.bankOpen x) s (fun t => (t.bank x).pending = false ∧ (t.bank x).allMarked = false ∧ (t.bank x).marks = [] ∧
      (t.bank x).refuse = 0 ∧ (t.bank x).cloning = false ∧ (t.bank x).active = (s.bank x).active ∧
      (∀ y, y ≠ x → t.bank y = s.bank y) ∧ BlockFrame [.banks, .hbm, .free] [0x09, 0x0A] s t) ∧
    ((s.bank x).cloning = false → Completes (.bankOpen x) s (fun t => Frame [.banks] [] s t)) ∧
    ((s.bank x).pending = false → Completes (.bankClone x) s (fun t => t.bank x = { s.bank x with cloning := true } ∧
      (∀ y, y ≠ x → t.bank y = s.bank y) ∧ Frame [.banks] [] s t)) ∧
    ((s.bank x).pending = true → Completes (.bankClone x) s (fun t => t.flag F.DOS_EVENTS_TBL_WRITE_IGNORED = true ∧
      Frame [] [R.DOS_EVENTS, R.DOS_KRN_BANK, R.DOS_TGN_BANK, R.CRW_MAP_BANK, R.CRW_EVENTS, R.STK_WAVE_BANK, R.STK_EVENTS, R.BLN_MAP_BANK,
        R.BLN_EVENTS] s t))

/-- CLONE_DONE of a clone in progress ends it with every mark set. For a table whose banks lie in BAR0 and whose bytes all have good check bits, every word of the shadow then equals the word of the bank in service, and only the shadow's words change. -/
def Obligations.CloneDoneFillsTheShadow : Prop :=
  ∀ (s : State) (x : TableId), (s.bank x).cloning = true →
    Completes (.cloneDone x) s (fun t => (t.bank x).cloning = false ∧ (t.bank x).allMarked = true ∧ (t.bank x).hazy = none ∧
      (t.bank x).active = (s.bank x).active) ∧
    (x ≠ .map → s.mem.flips = [] → s.fget F.SRM_CHK_CTL_MODE ≠ 1 → (s.bank x).active < 2 → Completes (.cloneDone x) s (fun t =>
      (∀ a ∈ bankWords x (s.bank x).active,
        t.reg (if (s.bank x).active = 0 then a + (bankPlace x).2 else a - (bankPlace x).2) = s.reg a) ∧
      Frame [.banks, .mem] ((bankWords x (s.bank x).active).map (fun a =>
        if (s.bank x).active = 0 then a + (bankPlace x).2 else a - (bankPlace x).2)) s t))

/-- BANK_COMMIT with no commit pending and no clone in progress, every mark set and the shadow valid makes the commit pending. With a mark missing it is refused with REFUSE 1, and with an invalid shadow with REFUSE 2, each reported in TBL_REFUSED. -/
def Obligations.BankCommitChecksItsShadow : Prop :=
  ∀ (s : State) (x : TableId), (s.bank x).pending = false → (s.bank x).cloning = false →
    (bankComplete x (s.bank x) = true → shadowValid s x = true → Completes (.bankCommit x) s (fun t =>
      t.bank x = { s.bank x with pending := true, refuse := 0 } ∧ (∀ y, y ≠ x → t.bank y = s.bank y) ∧ Frame [.banks] [] s t)) ∧
    (bankComplete x (s.bank x) = false → Completes (.bankCommit x) s (fun t =>
      t.bank x = { s.bank x with refuse := 1 } ∧ t.flag F.DOS_EVENTS_TBL_REFUSED = true ∧
      Frame [.banks] [R.DOS_EVENTS, R.CRW_EVENTS, R.STK_EVENTS, R.BLN_EVENTS] s t)) ∧
    (bankComplete x (s.bank x) = true → shadowValid s x = false → Completes (.bankCommit x) s (fun t =>
      t.bank x = { s.bank x with refuse := 2 } ∧ t.flag F.DOS_EVENTS_TBL_REFUSED = true))

/-- TABLE_WRITE of the upper bound of a kernel tap word in the shadow, with no commit pending and no clone in progress, stores its field, marks it and takes it off the BAD words. A write that lands in the bank in service changes no table word and is reported. -/
def Obligations.TableWritesMarkTheShadow : Prop :=
  ∀ (s : State) (v : Word) (g m : Nat), g < 3 → m < 151 → s.banks.krn.active < 2 →
    (s.banks.krn.pending = false → s.banks.krn.cloning = false → s.banks.krn.allMarked = false →
      let a := R.DOS_KRN_TAP (1 - s.banks.krn.active) g m
      Completes (.tableWrite a v) s (fun t => t.reg a = v &&& 0xFFFF#32 ∧ a ∈ t.banks.krn.marks ∧ a ∉ t.mem.bad ∧
        (∀ y, y ≠ TableId.krn → t.bank y = s.bank y) ∧ Frame [.banks, .mem] [a, R.SRM_CHK_CTL] s t)) ∧
    (let a := R.DOS_KRN_TAP s.banks.krn.active g m;
      Completes (.tableWrite a v) s (fun t => t.flag F.DOS_KRN_BANK_IGNORED = true ∧ t.flag F.DOS_EVENTS_TBL_WRITE_IGNORED = true ∧
        Frame [] [R.DOS_KRN_BANK, R.DOS_EVENTS] s t))

/-- A write of a shadow base register with no commit pending moves the area and acts as OPEN, which leaves HBM alone where no clone runs; with one pending it is ignored and reported. MAP_EXCHANGE_START with a commit pending and no course running begins the exchange, and does nothing otherwise; MAP_EXCHANGED ends an exchange with the commit taken, MAP_EXCHANGED set and, where the shadow can be read, its entries in service, and does nothing where none is in progress. -/
def Obligations.BeamMapShadowAndExchange : Prop :=
  ∀ (s : State) (v : Word),
    (∀ high : Bool, s.banks.map.pending = false → Completes (.mapShadowBaseWrite high v) s (fun t =>
      (high = true → t.reg R.CRW_MAP_SHADOW_HI = v) ∧ (high = false → t.fget F.CRW_MAP_SHADOW_LO_ADDR = v.toNat / 2 ^ 23) ∧
      t.banks.map.marks = [] ∧ t.banks.map.allMarked = false ∧ t.banks.map.cloning = false ∧ t.banks.map.refuse = 0 ∧ t.crw.invalid = [] ∧
      (∀ y, y ≠ TableId.map → t.bank y = s.bank y) ∧
      BlockFrame [.banks, .crw, .hbm, .free] [0x0A, 0x0F] s t)) ∧
    (∀ high : Bool, s.banks.map.pending = false → s.banks.map.cloning = false → Completes (.mapShadowBaseWrite high v) s (fun t =>
      Frame [.banks, .crw] [if high then R.CRW_MAP_SHADOW_HI else R.CRW_MAP_SHADOW_LO] s t)) ∧
    (∀ high : Bool, s.banks.map.pending = true → Completes (.mapShadowBaseWrite high v) s (fun t =>
      t.flag F.CRW_EVENTS_MAP_IGNORED = true ∧ Frame [] [R.CRW_EVENTS] s t)) ∧
    (s.banks.map.pending = true → s.running = none → Completes .mapExchangeStart s (fun t =>
      t.crw = { s.crw with exchanging := true } ∧ Frame [.crw] [] s t)) ∧
    ((s.banks.map.pending = false ∨ s.running.isSome = true) → Completes .mapExchangeStart s (fun t => Frame [] [] s t)) ∧
    (s.crw.exchanging = false → Completes .mapExchanged s (fun t => Frame [] [] s t)) ∧
    (s.crw.exchanging = true → s.mem.flips = [] → s.fget F.SRM_CHK_CTL_MODE ≠ 1 → Completes .mapExchanged s (fun t =>
      t.crw.exchanging = false ∧ t.banks.map.pending = false ∧ t.flag F.CRW_EVENTS_MAP_EXCHANGED = true ∧
      (∀ i < 1048576, s.hbmBad 9 (s.shadowBase + 8 * i) 8 = false → t.mapEntryRaw i =
        entryHostBits (leNat (s.readBytes (s.shadowBase + 8 * i) 8))) ∧
      BlockFrame [.banks, .crw, .hbm, .mem, .arb, .keel] [0x09, 0x0A, 0x0F] s t))

/-- Where the next stroke may be framed and every row it reads is valid, with no fault found, STROKE_SPLIT appends one frame of that stroke for each beam lane, and the stroke after it is next. With a row not yet valid it does not advance, and STALLED reads 1. -/
def Obligations.StrokesAreSplitIntoFrames : Prop :=
  ∀ (s : State) (e : Entry), s.mayFrame = true → s.running = some e →
    ((s.strokeRows s.crw.split).all s.rowValid = true → s.mem.flips = [] → s.mem.bad = [] → strokeFaults s s.crw.split = [] →
      s.fget F.INT_INJECT_KIND ≠ 5 → Completes (.strokeSplit none) s (fun t =>
        t.crw.split = s.crw.split + 1 ∧ t.crw.stop = false ∧ t.crw.seen = max s.crw.seen (s.crw.split + 1) ∧
        t.bln.frames = s.bln.frames ++ (List.range s.shape.beamLanes).map (framed s e none s.crw.split) ∧
        t.fget F.CRW_SPLIT_STROKE_STROKE = s.crw.split % 2 ^ 25 ∧ t.flag F.WAK_STATUS_STALLED = false ∧
        Frame [.bln, .crw] [R.CRW_SPLIT_STROKE, R.WAK_STATUS, R.CRW_EVENTS, R.CRW_UNDER_COUNT, R.CRW_OVER_COUNT, R.CRW_DEFICIT_DU,
          R.CRW_EXCESS_DU, R.CRW_UNW_FIRST, R.CRW_UNW_FIRST_ROW] s t)) ∧
    ((s.strokeRows s.crw.split).all s.rowValid = false → ∀ check, (Instr.strokeSplit check).wf = true →
      Completes (.strokeSplit check) s (fun t => t.flag F.WAK_STATUS_STALLED = true ∧ t.crw.split = s.crw.split ∧
        Frame [.crw] [R.WAK_STATUS, R.WAK_STALLS, R.WAK_EVENTS] s t))

/-- CRW_PROBE answers the code of the seat, track and dose named and sets VALID. WAK_PEEK clears VALID and keeps the cell named; WAK_PEEK_DONE answers that cell's sixteen bits with VALID. Nothing else changes. -/
def Obligations.SplitProbeAndWakePeek : Prop :=
  ∀ s : State,
    (∀ track seat p : Nat, track < 8192 → seat < 128 → p < 2048 → Completes (.crwProbe track seat p) s (fun t =>
      t.flag F.CRW_PROBE_OUT_VALID = true ∧ t.fget F.CRW_PROBE_OUT_CODE =
        seatCode s.shape s.mapEntryRaw (s.flag F.CRW_CTL_PERM_EN) track seat (s.fget F.CRW_PROBE_ROW_ROW) p % 16 ∧
      Frame [] [R.CRW_PROBE_OUT] s t)) ∧
    (∀ track : Nat, track < 8192 → Completes (.wakPeek track) s (fun t => t.flag F.WAK_PEEK_DATA_VALID = false ∧
      t.wak = { s.wak with peeking := some (s.fget F.WAK_PEEK_ROW_ROW * 8192 + track) } ∧ Frame [.wak] [R.WAK_PEEK_DATA] s t)) ∧
    (∀ p : Nat, s.wak.peeking = some p → Completes .wakPeekDone s (fun t => t.flag F.WAK_PEEK_DATA_VALID = true ∧
      t.fget F.WAK_PEEK_DATA_CELL = s.cellAt (cellIndex s.shape (p % 8192) (p / 8192)) % 65536 ∧ t.wak = { s.wak with peeking := none } ∧
      Frame [.wak] [R.WAK_PEEK_DATA] s t))

/-- LANE_ENABLE stores ENABLE; taking it away puts the lane DOWN with its training idle. TRAIN on an enabled lane that is not ACTIVE starts stage A and shows TRAINING. LANE_TEST puts a lane in LOW, READY or FAILED into TEST and drives its pattern, raw or framed, and ends a test with a training; on a lane that is DOWN or TRAINING it stores TEST, and an ACTIVE lane stays as it is. -/
def Obligations.LaneControlCommands : Prop :=
  ∀ (s : State) (l : Nat), l < 136 →
    Completes (.laneEnable l true) s (fun t => t.flag (F.BLN_LANE_CTL_ENABLE l) = true ∧ Frame [] [R.BLN_LANE_CTL l] s t) ∧
    Completes (.laneEnable l false) s (fun t => t.flag (F.BLN_LANE_CTL_ENABLE l) = false ∧ t.laneState l = 0 ∧
      (t.train l).phase = .idle ∧ Frame [.bln] [R.BLN_LANE_CTL l, R.BLN_LANE_STATUS l] s t) ∧
    (s.flag (F.BLN_LANE_CTL_ENABLE l) = true → s.laneState l ≠ 4 → Completes (.train l) s (fun t =>
      t.laneState l = 1 ∧ (t.train l).phase = .stageA ∧ (t.train l).ladder = s.flag (F.BLN_LANE_CTL_LADDER l) ∧
      t.fget (F.BLN_LANE_STATUS_RUNG l) = (if s.flag (F.BLN_LANE_CTL_LADDER l) then 0 else 3) ∧
      Frame [.bln] [R.BLN_LANE_STATUS l] s t)) ∧
    (s.laneState l = 2 ∨ s.laneState l = 3 ∨ s.laneState l = 5 → Completes (.laneTest l true) s (fun t =>
      t.laneState l = 6 ∧ t.flag (F.BLN_LANE_CTL_TEST l) = true ∧
      .laneDrive l (s.fget (F.BLN_LANE_PRBS_PATTERN l)) (s.flag (F.BLN_LANE_PRBS_FRAMED l)) ∈ t.out ∧ Frame [] [R.BLN_LANE_CTL l, R.BLN_LANE_STATUS l] s t)) ∧
    (s.laneState l = 4 → Completes (.laneTest l true) s (fun t => Frame [] [] s t)) ∧
    (s.laneState l < 2 → Completes (.laneTest l true) s (fun t => t.flag (F.BLN_LANE_CTL_TEST l) = true ∧ Frame [] [R.BLN_LANE_CTL l] s t)) ∧
    (s.laneState l = 6 → Completes (.laneTest l false) s (fun t => t.laneState l = 1 ∧ t.flag (F.BLN_LANE_CTL_TEST l) = false ∧
      (t.train l).phase = .stageA ∧ Frame [.bln] [R.BLN_LANE_CTL l, R.BLN_LANE_STATUS l] s t))

/-- STAGE_A_END moves the lane to stage B 1 ms after stage A began. RUNG_PASS with lock that came within 10 ms and has held for 1 ms makes a lane not under test READY at rung L3, and below it announces the next rung over 256 groups of training words. RUNG_TIMEOUT without such a lock begins stage A again while tries are left, and otherwise ends the training of a lane not under test with TRAIN_FAIL. RUNG_SWITCH starts the next rung at stage A once the 256 groups have gone. -/
def Obligations.LaneTrainingSteps : Prop :=
  ∀ (s : State) (l : Nat), l < 136 →
    ((s.train l).phase = .stageA → Completes (.stageAEnd l) s (fun t => (t.train l).phase = .stageB ∧
      t.clock = max s.clock ((s.train l).since + 64000000) ∧ (t.train l).rung = (s.train l).rung ∧ Frame [.clock, .bln] [] s t)) ∧
    (∀ a, (s.train l).phase = .stageB → lockInTime (s.train l) = some a →
      ((s.train l).rung = 3 → s.cox.flushDue = false → s.flag (F.BLN_LANE_CTL_TEST l) = false → Completes (.rungPass l) s (fun t => t.laneState l = 3 ∧
        (t.train l).phase = .idle ∧ t.flag (F.BLN_LANE_EVENTS_TRAINED l) = true ∧ t.flag (F.BLN_LANE_TRAIN_OK l) = true ∧
        t.fget (F.BLN_LANE_STATUS_RUNG l) = 3 ∧ t.clock = max s.clock (a + 64000000) ∧
        Frame [.clock, .bln, .stk] [R.BLN_LANE_STATUS l, R.BLN_LANE_TRAIN l, R.BLN_LANE_EVENTS l] s t)) ∧
      ((s.train l).rung ≠ 3 → Completes (.rungPass l) s (fun t => (t.train l).phase = .announce ∧
        (t.train l).passed = some (s.train l).rung ∧ t.clock = max s.clock (a + 64000000) ∧
        (∃ ws, Output.laneWords l ws ∈ t.out ∧ ws.length = 256) ∧ Frame [.clock, .bln] [] s t))) ∧
    ((s.train l).phase = .stageB → lockInTime (s.train l) = none →
      ((s.train l).tries + 1 < (if (s.train l).ladder then 2 else 4) → Completes (.rungTimeout l) s (fun t =>
        (t.train l).phase = .stageA ∧ (t.train l).tries = (s.train l).tries + 1 ∧
        t.clock = max s.clock ((s.train l).since + 640000000) ∧ Frame [.clock, .bln] [] s t)) ∧
      ((if (s.train l).ladder then 2 else 4) ≤ (s.train l).tries + 1 → s.bln.side = none → s.flag (F.BLN_LANE_CTL_TEST l) = false →
        Completes (.rungTimeout l) s (fun t =>
        t.laneState l = (if (s.train l).ladder = true ∧ (s.train l).passed.isSome = true then 2 else 5) ∧
        (t.train l).phase = .idle ∧ t.flag (F.BLN_LANE_EVENTS_TRAIN_FAIL l) = true ∧ t.flag (F.BLN_LANE_TRAIN_OK l) = false ∧
        Frame [.clock, .bln] [R.BLN_LANE_STATUS l, R.BLN_LANE_TRAIN l, R.BLN_LANE_EVENTS l] s t))) ∧
    ((s.train l).phase = .announce → Completes (.rungSwitch l) s (fun t => (t.train l).phase = .stageA ∧
      (t.train l).rung = (s.train l).rung + 1 ∧ (t.train l).tries = 0 ∧
      t.fget (F.BLN_LANE_STATUS_RUNG l) = ((s.train l).rung + 1) % 4 ∧
      t.clock = max s.clock ((s.train l).since + groupTicks 256 (s.train l).rung) ∧ Frame [.clock, .bln] [R.BLN_LANE_STATUS l] s t))

/-- FRAME_SEND on an ACTIVE lane, with the lane map good and no side job, sends its oldest unsent frame with the lane's FSEQ and four words of filler, counts it, and FSEQ advances; on any other lane it does nothing. TRAINING_BURST on a LOW, READY or ACTIVE lane with no course running waits for 10 ms of filler and sends four groups of training words; on the locked standby of a strait link, whose lanes are numbered from 136, it does the same. FIFO_PARITY_ERROR in a lane's FIFO spoils its next frame, and on an echo lane counts as a CRC error. -/
def Obligations.FramesLeaveOnActiveLanes : Prop :=
  ∀ (s : State) (l : Nat), l < 136 →
    (∀ f : TxFrame, s.laneState l = 4 → s.nextFrame l = some f → (s.train l).crcArm = false → s.mem.flips = [] →
        s.laneMapBad = false → s.bln.side = none → Completes (.frameSend l) s (fun t =>
      let h := { f.head with phys := l, fseq := (s.train l).fseq }
      .laneWords l (spaced (frameWords h f.payload f.badCrc)) ∈ t.out ∧
      t.bln.frames = s.bln.frames.map (fun x => if x = f then { f with head := h, sentOn := some l } else x) ∧
      (t.train l).fseq = ((s.train l).fseq + 1) % 2 ^ 32 ∧
      t.fget (F.BLN_LANE_FRAMES_COUNT l) = satAdd 32 (s.fget (F.BLN_LANE_FRAMES_COUNT l)) 1 ∧ Frame [.bln] [R.BLN_LANE_FRAMES l] s t)) ∧
    (s.laneState l ≠ 4 → Completes (.frameSend l) s (fun t => Frame [] [] s t)) ∧
    (s.running = none → s.laneState l = 2 ∨ s.laneState l = 3 ∨ s.laneState l = 4 → Completes (.trainingBurst l) s (fun t =>
      t.clock = max s.clock ((s.train l).quiet + 640000000) + groupTicks 4 (s.fget (F.BLN_LANE_STATUS_RUNG l)) ∧
      (∃ ws, Output.laneWords l ws ∈ t.out ∧ ws.length = 5140) ∧ Frame [.clock, .bln] [] s t)) ∧
    (∀ j < 8, s.running = none → s.linkUp (j / 2) = true → s.straitLocked j = true → (s.link (j / 2)).primary ≠ j % 2 →
      Completes (.trainingBurst (136 + j)) s (fun t =>
        t.clock = max s.clock ((s.link (j / 2)).idleAt + 640000000) + groupTicks 4 2 ∧
        (∃ ws, Output.straitLane j ws ∈ t.out ∧ ws.length = 5140) ∧ Frame [.clock, .str] [] s t)) ∧
    (∀ f : TxFrame, s.nextFrame l = some f → Completes (.fifoParityError (.toLane l)) s (fun t =>
      t.bln.frames = s.bln.frames.map (fun x => if x = f then { x with badCrc := true } else x) ∧
      t.fget F.SRM_PAR_COUNT_COUNT = satAdd 32 (s.fget F.SRM_PAR_COUNT_COUNT) 1 ∧ t.flag F.SRM_EVENTS_FIFO_PARITY = true ∧
      Frame [.bln] [R.SRM_PAR_COUNT, R.SRM_EVENTS] s t)) ∧
    (∀ k < 4, Completes (.fifoParityError (.fromEcho k)) s (fun t => t.flag (F.BLN_ECHO_EVENTS_CRC_ERR k) = true ∧
      t.flag F.SRM_EVENTS_FIFO_PARITY = true ∧
      Frame [] [R.SRM_PAR_COUNT, R.SRM_EVENTS, R.BLN_ECHO_CRC_ERRS k, R.BLN_ECHO_EVENTS k] s t))

/-- A training word on an echo lane that does not hold lock gives its ID and the polarity found. ECHO_LOCKED on an enabled lane not under test shows LOCKED once the lane's ID is known, unless an earlier lane reports the same ID, which sets ID_CONFLICT; with no ID known it only keeps the lock. ECHO_LOCK_LOST of a locked lane makes it acquire again and, with enough lanes left, does nothing else. FRAMING_ERROR counts, sets FRAMING and thaws the receiver. EQ_FREEZE and EQ_THAW set and clear FROZEN. -/
def Obligations.EchoLaneCommands : Prop :=
  ∀ (s : State) (k : Nat), k < 4 →
    (∀ (w : DWord) (inv : Bool) (x : TrainingWord), readTrainingWord w = some x → s.bln.echoHeld.contains k = false →
      Completes (.trainingWord (.echo k) ⟨w, inv⟩) s (fun t =>
        t.fget (F.BLN_ECHO_STATUS_ECHO_ID k) = x.laneId % 4 ∧ t.flag (F.BLN_ECHO_STATUS_POL_INV k) = inv ∧
        t.bln.echoKnown.contains k = true ∧ Frame [.bln] [R.BLN_ECHO_STATUS k] s t)) ∧
    (s.flag (F.BLN_ECHO_CTL_ENABLE k) = true → s.flag (F.BLN_ECHO_CTL_TEST k) = false →
      (s.bln.echoKnown.contains k = false → Completes (.echoLocked k) s (fun t =>
        t.bln = { s.bln with echoHeld := insertKey k s.bln.echoHeld } ∧ Frame [.bln] [] s t)) ∧
      (s.bln.echoKnown.contains k = true → s.fget (F.BLN_ECHO_STATUS_STATE k) ≠ 2 →
        (s.idClash k = false → Completes (.echoLocked k) s (fun t =>
          t.fget (F.BLN_ECHO_STATUS_STATE k) = 2 ∧ t.flag (F.BLN_ECHO_EVENTS_LOCKED k) = true ∧
          Frame [.bln] [R.BLN_ECHO_STATUS k, R.BLN_ECHO_EVENTS k] s t)) ∧
        (s.idClash k = true → Completes (.echoLocked k) s (fun t =>
          t.flag (F.BLN_ECHO_EVENTS_ID_CONFLICT k) = true ∧ Frame [.bln] [R.BLN_ECHO_EVENTS k] s t)))) ∧
    (s.fget (F.BLN_ECHO_STATUS_STATE k) = 2 → s.echoMin < s.echoLocked → Completes (.echoLockLost k) s (fun t =>
      t.fget (F.BLN_ECHO_STATUS_STATE k) = 1 ∧ t.flag (F.BLN_ECHO_EVENTS_LOCK_LOST k) = true ∧
      t.fget (F.BLN_ECHO_FEC_UNCORR_COUNT k) = satAdd 32 (s.fget (F.BLN_ECHO_FEC_UNCORR_COUNT k)) 4 ∧
      Frame [.bln] [R.BLN_ECHO_STATUS k, R.BLN_ECHO_EVENTS k, R.BLN_ECHO_FEC_UNCORR k] s t)) ∧
    Completes (.framingError k) s (fun t => t.flag (F.BLN_ECHO_EVENTS_FRAMING k) = true ∧
      t.bln = { s.bln with framings := s.bln.framings.set k (s.bln.framings.getD k 0 + 1) } ∧ t.flag (F.BLN_ECHO_STATUS_FROZEN k) = false ∧
      Frame [.bln] [R.BLN_ECHO_EVENTS k, R.BLN_ECHO_STATUS k] s t) ∧
    Completes (.eqFreeze k) s (fun t => t.flag (F.BLN_ECHO_STATUS_FROZEN k) = true ∧ Frame [] [R.BLN_ECHO_STATUS k] s t) ∧
    Completes (.eqThaw k) s (fun t => t.flag (F.BLN_ECHO_STATUS_FROZEN k) = false ∧ Frame [] [R.BLN_ECHO_STATUS k] s t)

/-- On a locked echo lane a good ack block acknowledges the frame in flight that each valid entry of the current generation names; a bad one counts as a CRC error, or as a framing error where its first word is of another KIND. A good status message with no fault flag gives the temperature and every lane's remote lock and clears TEMP_STALE. TEMP_STALE comes 100 µs after the last good message, or after the release of reset. Every unit thaws the receiver. -/
def Obligations.EchoStreamMessages : Prop :=
  ∀ (s : State) (k : Nat) (ws : List DWord), k < 4 →
    (∀ es, s.fget (F.BLN_ECHO_STATUS_STATE k) = 2 → ackBlock ws = some es → Completes (.ackBlock k ws) s (fun t =>
      (∀ a ∈ es, a.valid = true → a.gen = s.bln.gen → ∀ f,
        s.bln.frames.find? (fun f => f.head.beamLane == a.beamLane && f.head.stroke % 64 == a.stroke6 && f.sentOn.isSome) = some f →
        ∃ g ∈ t.bln.frames, g.head = f.head ∧ g.acked = true) ∧
      t.bln.frames.map TxFrame.head = s.bln.frames.map TxFrame.head ∧
      Frame [.bln, .stk] [R.BLN_STRAY, R.BLN_EVENTS, R.STK_RTT_MAX, R.BLN_ECHO_STATUS k] s t)) ∧
    (s.fget (F.BLN_ECHO_STATUS_STATE k) = 2 → ackBlock ws = none →
      (kindOf ws = 0xA6 → Completes (.ackBlock k ws) s (fun t => t.flag (F.BLN_ECHO_EVENTS_CRC_ERR k) = true ∧
        Frame [] [R.BLN_ECHO_CRC_ERRS k, R.BLN_ECHO_EVENTS k, R.BLN_ECHO_STATUS k] s t)) ∧
      (kindOf ws ≠ 0xA6 → Completes (.ackBlock k ws) s (fun t => t.flag (F.BLN_ECHO_EVENTS_FRAMING k) = true ∧
        Frame [.bln] [R.BLN_ECHO_EVENTS k, R.BLN_ECHO_STATUS k] s t))) ∧
    (∀ m, s.fget (F.BLN_ECHO_STATUS_STATE k) = 2 → statusMsg ws = some m → m.fault = false → m.mismatch = false → m.overflow = false →
      s.bln.haltCatch = none → Completes (.statusMessage k ws) s (fun t =>
        t.fget F.BLN_TEMP_TEMP = unsignedOf 16 m.temp ∧ t.flag F.BLN_TEMP_VALID = m.tempValid ∧ t.flag F.BLN_STATUS_TEMP_STALE = false ∧
        (∀ l b, l < 136 → m.locks[l]? = some b → t.flag (F.BLN_LANE_STATUS_REMOTE_LOCK l) = b) ∧
        t.bln.statusAt = some s.clock ∧
        Frame [.bln] ([R.BLN_TEMP, R.BLN_BLANKER_FLAGS, R.BLN_STATUS, R.BLN_ECHO_STATUS k] ++ (List.range 136).map R.BLN_LANE_STATUS ++
          (List.range 136).map R.BLN_LANE_EVENTS) s t)) ∧
    (s.bln.stale = false → Completes .tempStale s (fun t =>
      t.flag F.BLN_STATUS_TEMP_STALE = true ∧ t.flag F.BLN_EVENTS_TEMP_STALE = true ∧
      t.clock = max s.clock (s.bln.statusAt.getD s.pwr.releasedAt + 6400000) ∧ t.bln = { s.bln with stale := true } ∧
      Frame [.clock, .bln] [R.BLN_STATUS, R.BLN_EVENTS] s t))

/-- SIDE_GO with no job running and valid job registers sends the first frame of a read job on the lane of its target with the next tag, or holds it where the lane has no slot for it. SIDE_ABORT marks a host's job whose frame is outstanding, and ends one whose frame still waits with code 8. The good response to the last frame of a write job ends the job with its result. SIDE_TIMEOUT sends the frame again up to three times. -/
def Obligations.SideJobs : Prop :=
  ∀ (s : State) (k l : Nat), k < 4 →
    (let beam := s.fget F.BLN_SIDE_COUNT_BEAM_LANE
     let n := s.fget F.BLN_SIDE_COUNT_WORDS
     let a := s.fget F.BLN_SIDE_ADDR_ADDRESS
     let sp := s.fget F.BLN_SIDE_ADDR_SPACE
     s.bln.side = none → beam < 128 → sp ≤ 2 → 0 < n → a + n ≤ sideWords sp →
     s.pair F.BLN_SIDE_SRC_LO_ADDR F.BLN_SIDE_SRC_HI_ADDR % 8 = 0 → s.flag F.BLN_SIDE_ADDR_READ = true → s.sideLane beam = some l →
     s.mem.flips = [] → Completes .sideGo s (fun t => (∃ j f, t.bln.side = some j ∧ j.flight = some f ∧ f.lane = l ∧ f.tries = 0 ∧ f.head.read = true ∧
        f.head.beamLane = beam ∧ f.head.space = sp ∧ f.head.address = a ∧ f.head.len = min 64 n ∧ f.head.tag = s.bln.sideTag ∧ f.waiting = !s.sideSlot l ∧
        j.words = n ∧ j.abort = false) ∧
      t.bln.sideTag = (s.bln.sideTag + 1) % 256 ∧ Frame [.bln] [R.BLN_LANE_INJECT l] s t)) ∧
    (∀ j f, s.bln.side = some j → j.wave = false → j.flight = some f → f.waiting = false → Completes .sideAbort s (fun t =>
      t.bln = { s.bln with side := some { j with abort := true } } ∧ Frame [.bln] [] s t)) ∧
    (∀ j f b bs, s.bln.side = some j → j.wave = false → j.flight = some f → f.waiting = true → j.targets = b :: bs →
      Completes .sideAbort s (fun t => t.bln = { s.bln with side := none } ∧
        t.result R.BLN_SIDE_RESULT = (postBlock (s.result R.BLN_SIDE_RESULT) [(R.BLN_SIDE_RESULT, BitVec.ofNat 32 (8 * 2 ^ 4 + b % 256 * 2 ^ 8)),
          (R.BLN_SIDE_RESULT_AT, BitVec.ofNat 32 ((j.addr + j.donewords) % 2 ^ 21))]).2 ∧ Frame [.bln, .results] [R.BLN_EVENTS] s t)) ∧
    (∀ j f ws data, s.fget (F.BLN_ECHO_STATUS_STATE k) = 2 → s.bln.side = some j → j.wave = false → j.flight = some f →
      f.waiting = false → f.head.read = false → sideResponse ws = some (f.head.tag, f.head.beamLane, 0, data) → j.words ≤ j.donewords + f.head.len →
      j.targets.length ≤ 1 → Completes (.sideResponse k ws) s (fun t => t.bln.side = none ∧
        t.result R.BLN_SIDE_RESULT = (postBlock (s.result R.BLN_SIDE_RESULT) [(R.BLN_SIDE_RESULT, 0#32), (R.BLN_SIDE_RESULT_AT, 0#32)]).2 ∧
        Frame [.bln, .results] [R.BLN_EVENTS, R.BLN_ECHO_STATUS k] s t)) ∧
    (∀ j f, s.bln.side = some j → j.flight = some f → f.waiting = false → s.mem.flips = [] → f.tries < 3 → s.sideLane f.head.beamLane = some l →
      Completes .sideTimeout s (fun t => (∃ i g, t.bln.side = some i ∧ i.flight = some g ∧ g.tries = f.tries + 1 ∧ g.head = f.head ∧ g.lane = l) ∧
        t.clock = max s.clock (f.sentAt + 1280000) ∧ Frame [.clock, .bln] [R.BLN_LANE_INJECT l] s t))

/-- With the lock open, INJECT_BIT and INJECT_SYMBOLS act at once and leave KIND as written only where periodic, INJECT_BIT and INJECT_CRC keep NSYM as it is, and INJECT_CRC arms the next frame's CRC. With the lock closed each counts a violation and nothing else. INJECT_PERIOD arms a periodic CRC injection again. -/
def Obligations.LaneInjections : Prop :=
  ∀ (s : State) (l nsym period : Nat) (per : Bool), l < 136 → nsym < 32 → period < 2 ^ 24 →
    (s.lockOpen = true →
      (∀ c ∈ [(Instr.injectBit l per period, 1, s.fget (F.BLN_LANE_INJECT_NSYM l)), (Instr.injectSymbols l nsym per period, 2, nsym),
          (Instr.injectCrc l per period, 3, s.fget (F.BLN_LANE_INJECT_NSYM l))],
        Completes c.1 s (fun t =>
          t.fget (F.BLN_LANE_INJECT_KIND l) = (if c.2.1 = 3 ∨ per = true then c.2.1 else 0) ∧
          t.fget (F.BLN_LANE_INJECT_NSYM l) = c.2.2 ∧ t.flag (F.BLN_LANE_INJECT_PERIODIC l) = per ∧
          t.fget (F.BLN_LANE_INJECT_PERIOD l) = period ∧ ((t.train l).crcArm = true ↔ c.2.1 = 3) ∧
          Frame [.bln] [R.BLN_LANE_INJECT l] s t))) ∧
    (s.lockOpen = false → ∀ c ∈ [Instr.injectBit l per period, .injectSymbols l nsym per period, .injectCrc l per period],
      Completes c s (fun t => t.flag F.SAF_EVENTS_LOCK_VIOLATION = true ∧ Frame [] [R.SAF_LOCK_VIOL, R.SAF_EVENTS] s t)) ∧
    (s.fget (F.BLN_LANE_INJECT_KIND l) = 3 → s.flag (F.BLN_LANE_INJECT_PERIODIC l) = true → Completes (.injectPeriod l) s (fun t =>
      (t.train l).crcArm = true ∧ Frame [.bln] [] s t))

/-- Every POSITION_SAMPLE leaves the loop of its axis as R209 steps it, a variable that falls outside its width being free, and a bad frame on the Y axis changes only its counter and POS_BAD beside. LOCKED of an initialised loop with enough near samples locks it. UNLOCKED after four far samples unlocks it. POS_LOST after the limit of bad frames leaves the axis without position and its loop to be initialised anew. -/
def Obligations.PositionSamplesDriveTheLoops : Prop :=
  ∀ (s : State) (a : Nat), a < 2 →
    (∀ (w : DWord) (tf : Int), let at' := tf - s.fget (if a = 0 then F.STK_POS_LAT_X_LAT else F.STK_POS_LAT_Y_LAT)
      let l := loopSample s a (posFrame w) at'
      Completes (.positionSample a w tf) s (fun t => t.loop a = (if l.fits then l else l.format s.free) ∧ t.loop (1 - a) = s.loop (1 - a)) ∧
      (a = 1 → l.fits = true → sampleGood (s.loop a) (posFrame w) = false → Completes (.positionSample a w tf) s (fun t =>
        t.fget F.STK_POS_BAD_Y_COUNT = satAdd F.STK_POS_BAD_Y_COUNT.width (s.fget F.STK_POS_BAD_Y_COUNT) 1 ∧
        t.clock = (s.untilR tf).clock ∧ Frame [.clock, .stk] [R.STK_POS_BAD_Y, R.STK_EVENTS] s t))) ∧
    ((s.loop a).locked = false → (s.loop a).init = true → s.gov F.STK_LOCK_COUNT_COUNT ≤ (s.loop a).nearRun →
      Completes (.locked a) s (fun t => t.loop a = { s.loop a with locked := true } ∧ t.flag F.STK_EVENTS_LOCKED = true ∧
        (s.running = none → Frame [.stk] [R.STK_EVENTS] s t))) ∧
    (4 ≤ (s.loop a).farRun → (s.loop a).locked = true → Completes (.unlocked a) s (fun t =>
      t.loop a = { s.loop a with locked := false, nearRun := 0 } ∧ t.flag F.STK_EVENTS_UNLOCKED = true ∧
      (s.running = none → Frame [.stk] [R.STK_EVENTS] s t))) ∧
    ((s.loop a).posOk = true → max 1 (s.fget F.STK_POS_CTL_BAD_LIMIT) ≤ (s.loop a).badRun → Completes (.posLost a) s (fun t =>
      (t.loop a).posOk = false ∧ (t.loop a).init = false ∧ (t.loop a).locked = false ∧ t.flag F.STK_EVENTS_POS_LOST = true ∧ t.ref a = false ∧
      t.loop (1 - a) = s.loop (1 - a)))

/-- STROKE_COMMIT of the next stroke in RUNUP or WRITING, every stroke before it that is committed being an earlier one, commits it, with FIRE low exactly where a halt is set by it. CATCH_STROBE issues the oldest committed catch; only one with FIRE high starts a gate train, and one with FIRE low is counted. STROKE_FIRED at the end of the gate train makes its stroke the last one fired. -/
def Obligations.StrokesCommitCatchAndFire : Prop :=
  ∀ (s : State),
    (∀ (e : Entry) (p : Int), s.stk.pred = some p → s.running = some e → s.stk.halted = false → s.coxState = 2 ∨ s.coxState = 3 →
      s.stk.next ≤ s.lastStroke → (∀ c ∈ s.stk.commits, c.n < s.stk.next) → Completes .strokeCommit s (fun t =>
        t.stk.next = s.stk.next + 1 ∧ t.stk.pred = none ∧ t.fget F.STK_STROKE_STROKE = s.stk.next % 2 ^ 25 ∧
        ∃ c : Committed, t.stk.commits = s.stk.commits ++ [c] ∧ c.n = s.stk.next ∧ p ≤ c.t ∧ (c.fire = false ↔ t.stk.halted = true) ∧
          (c.fire = false → t.fget F.STK_HALT_AT_STROKE = s.stk.next % 2 ^ 25) ∧
          (c.fire = true → Frame [.clock, .stk] [R.STK_BTEMP_USED, R.COX_STATUS, R.COX_EVENTS, R.STK_EVENTS, R.STK_PERIOD_MIN, R.STK_STROKE] s t))) ∧
    (∀ c rest, s.stk.commits = c :: rest → s.cox.ending = none → Completes .catchStrobe s (fun t =>
      t.stk.commits = rest ∧ t.stk.lastCatch = some (c.n, c.t) ∧ t.stk.train = (if c.fire then some (c.n, c.t) else s.stk.train) ∧
      .catchEdge c.n c.t c.fire ∈ t.out ∧
      (c.fire = false → t.fget F.STK_FIRE_LOW_COUNT = satAdd F.STK_FIRE_LOW_COUNT.width (s.fget F.STK_FIRE_LOW_COUNT) 1) ∧
      t.clock = (s.untilR c.t).clock ∧ Frame [.clock, .stk, .saf] [R.STK_FIRE_LOW, R.WAK_LEAD] s t)) ∧
    (∀ (e : Entry) n at', s.stk.train = some (n, at') → s.running = some e → Completes .strokeFired s (fun t =>
      t.stk.train = none ∧ t.stk.lastFired = some n ∧ t.fget F.STK_FIRED_STROKE = n % 2 ^ 25 ∧
      t.clock = (s.untilR (at' + 64 * s.gov F.STK_GATE_GATE)).clock ∧
      (∀ f ∈ t.bln.frames, f.head.stroke ≠ n) ∧
      (n = s.lastStroke → s.cox.ending = none → s.stk.aborted = false → t.flag F.ING_EVENTS_COURSE_END = true ∧
        ∀ x ∈ t.ing.queue, x.idx ≠ e.idx)))

/-- COX_HALT sets HOLD and, with a stroke still to commit, halts at it with reason HOST. PAUSE_WARN and PAUSE_LIMIT come at their times and set their events; with PAUSE_ACTION 0 the course is abandoned with PAUSE_LIMIT. SUPPLY_HOLD_END takes the warning back. A good first step of the line test goes on with line B; a good second one permits the beam. -/
def Obligations.HaltsPausesAndTheLineTest : Prop :=
  ∀ s : State,
    Completes .coxHalt s (fun t => t.flag F.COX_CTL_HOLD = true ∧ (s.haltable = false → Frame [] [R.COX_CTL] s t)) ∧
    (s.haltable = true → s.stk.halted = false → s.stk.next ≤ s.lastStroke → Completes .coxHalt s (fun t =>
      t.stk.halted = true ∧ t.fget F.STK_HALT_AT_STROKE = s.stk.next % 2 ^ 25 ∧ t.fget F.STK_HALT_CAUSE_FIRST = 8 ∧
      bitAt 4 (t.fget F.COX_REASON_REASONS) = true ∧ t.cox.resume = s.stk.next ∧
      BlockFrame [.bln, .stk, .cox, .hbm, .mem, .keel, .banks, .crw, .str] [0x09, 0x0A, 0x0E, 0x0F, 0x12, 0x13, 0x15, 0x16] s t)) ∧
    (∀ p, s.cox.pauseFrom = some p → s.gov F.COX_PAUSE_WARN_MS ≠ 0 → s.cox.warned = false → Completes .pauseWarn s (fun t =>
      t.flag F.COX_EVENTS_PAUSE_WARN = true ∧ t.cox = { s.cox with warned := true } ∧
      t.clock = max s.clock (p + s.gov F.COX_PAUSE_WARN_MS * 64000000) ∧ Frame [.clock, .cox] [R.COX_EVENTS] s t)) ∧
    (∀ p, s.cox.pauseFrom = some p → s.gov F.COX_PAUSE_LIMIT_MS ≠ 0 → s.cox.limited = false →
      (s.govFlag F.COX_CTL_PAUSE_ACTION = true → Completes .pauseLimit s (fun t => t.flag F.COX_EVENTS_PAUSE_LIMIT = true ∧
        t.cox = { s.cox with limited := true } ∧ t.clock = max s.clock (p + s.gov F.COX_PAUSE_LIMIT_MS * 64000000) ∧
        Frame [.clock, .cox] [R.COX_EVENTS] s t)) ∧
      (s.govFlag F.COX_CTL_PAUSE_ACTION = false → s.running.isSome = true → s.cox.ending = none → Completes .pauseLimit s (fun t =>
        t.flag F.COX_EVENTS_PAUSE_LIMIT = true ∧ t.fget F.COX_ABANDON_REASON = 1 ∧ t.flag F.COX_ABANDON_VALID = true ∧
        t.flag F.COX_EVENTS_ABANDONED = true ∧ t.coxState = 4))) ∧
    (∀ p, s.cox.supplyClear = some p → Completes .supplyHoldEnd s (fun t => t.flag F.COX_STATUS_SUPPLY_WARN = false ∧
      t.cox = { s.cox with supplyClear := none } ∧ t.clock = max s.clock (p + s.gov F.COX_SUPPLY_HOLD_US * 64000) ∧
      Frame [.clock, .cox] [R.COX_STATUS] s t)) ∧
    (s.demanded = false → s.coxState = 2 ∨ s.coxState = 3 →
      (s.saf.lineStep = some 0 → Completes (.lineTestStepEnd true) s (fun t => t.saf = { s.saf with lineStep := some 1 } ∧
        t.flag F.SAF_STATUS_LINE_A = false ∧ t.flag F.SAF_STATUS_LINE_B = true ∧ t.clock = s.clock + 64000 ∧
        Frame [.clock, .saf] [R.SAF_STATUS] s t)) ∧
      (s.saf.lineStep = some 1 → s.flag F.SAF_CTL_INHIBIT = false → s.harbour = false → s.saf.startupOk = true →
        Completes (.lineTestStepEnd true) s (fun t => t.saf = { s.saf with lineStep := none, permitAt := if s.flag F.SAF_STATUS_BEAM_PERMIT then s.saf.permitAt else some t.clock } ∧
          t.cox = { s.cox with tested := true } ∧
          t.flag F.SAF_STATUS_LINE_A = true ∧ t.flag F.SAF_STATUS_LINE_B = true ∧ t.flag F.SAF_STATUS_BEAM_PERMIT = true ∧
          Frame [.clock, .saf, .cox] [R.SAF_STATUS] s t)))

/-- At SERVO_BOUNDARY the clock stands at the next multiple of the servo period of regatta time, the period last written is in force, each axis has the set-point that was planned, and a frame for each axis is sent with the next frame count: 1 µs after the boundary for X and 1.5 µs for Y, its status word due within 5 µs of its end. -/
def Obligations.ServoBoundaryBringsSetPointsIntoForce : Prop :=
  ∀ s : State, Completes .servoBoundary s (fun t =>
    t.clock = (s.untilR (boundaryFrom s (s.rtime + 1))).clock ∧ t.mot.period = s.fget F.MOT_SERVO_PERIOD ∧
    (∀ a < 2, (t.axis a).now = (s.axis a).sp ∧ (t.axis a).seq = ((s.axis a).seq + 1) % 16 ∧
      (t.axis a).awaiting = some ((s.axis a).seq % 16, t.clock + (if a = 0 then 64000 else 96000) + 336384) ∧
      ∃ f, Output.setPoint a (t.rtime + if a = 0 then 64000 else 96000) f ∈ t.out) ∧
    BlockFrame [.clock, .queue, .ras, .bsx, .banks, .crw, .bln, .stk, .cox, .int, .hbm, .str, .mot, .saf, .mem, .keel, .free, .results]
      [0x03, 0x05, 0x09, 0x0A, 0x0B, 0x0E, 0x0F, 0x10, 0x11, 0x12, 0x13, 0x14, 0x15, 0x16] s t)

/-- MOVE, VELOCITY and HOME that the axis may take, and STOP, are kept for the next boundary; HOME takes the reference away. While the cox is not IDLE each sets CMD_REFUSED and nothing else. CLEAR leaves FAULT where no cause stands, for REST where the axis is then enabled and for DISABLED otherwise. AXIS_POWER_WRITE stores POWER. After ADIST_QUERY MOT_AX_ADIST reads as the run-up distance. SERVO_PERIOD_WRITE stores the period within its bounds with both axes at rest and no course, and is refused otherwise. -/
def Obligations.AxisOrders : Prop :=
  ∀ (s : State) (a : Nat), a < 2 →
    (s.coxState = 0 → (s.axis a).next = none →
      (let o := NewOrder.order (.move (s.pos48 (F.MOT_AX_TARGET_LO_POS a) (F.MOT_AX_TARGET_HI_POS a)))
       mayTake s a o = true → Completes (.move a) s (fun t => t.axis a = { s.axis a with next := some o } ∧ t.axis (1 - a) = s.axis (1 - a) ∧
         Frame [.mot] [] s t)) ∧
      (let v := s.sget (F.MOT_AX_JOG_V a)
       mayTake s a (.order (.velocity v)) = true → Completes (.velocity a) s (fun t =>
         t.axis a = { s.axis a with next := some (.order (.velocity v)) } ∧ t.axis (1 - a) = s.axis (1 - a) ∧ Frame [.mot] [] s t)) ∧
      (mayTake s a .home = true → Completes (.home a) s (fun t => t.axis a = { s.axis a with next := some .home } ∧ t.ref a = false ∧
        (s.ref a = true → t.flag (F.MOT_AX_EVENTS_REF_LOST a) = true) ∧ Frame [.mot] [R.MOT_AX_STATUS a, R.MOT_AX_EVENTS a] s t)) ∧
      Completes (.stop a) s (fun t => t.axis a = { s.axis a with next := some (.order .stop) } ∧ t.axis (1 - a) = s.axis (1 - a) ∧
        Frame [.mot] [] s t)) ∧
    (s.coxState ≠ 0 → ∀ c ∈ [Instr.move a, .velocity a, .home a, .stop a], Completes c s (fun t =>
      t.flag F.MOT_EVENTS_CMD_REFUSED = true ∧ Frame [] [R.MOT_EVENTS] s t)) ∧
    (s.axisState a = 6 → s.flag (F.MOT_AX_STATUS_LIM_POS a) = false → s.flag (F.MOT_AX_STATUS_LIM_NEG a) = false →
      s.flag (F.MOT_AX_STATUS_DRV_FAULT a) = false → (s.axis a).badRun < max 1 (s.fget F.MOT_DRV_CTL_STS_LIMIT) →
      Completes (.clear a) s (fun t => t.axisState a = (if s.driveReady a then 1 else 0) ∧ t.enabled a = s.driveReady a ∧
        t.fget (F.MOT_AX_STATUS_FAULT a) = 0 ∧ Frame [.mot] [R.MOT_AX_STATUS a] s t)) ∧
    Completes (.axisPowerWrite a true) s (fun t => t.flag (F.MOT_AX_CTL_POWER a) = true ∧ Frame [] [R.MOT_AX_CTL a] s t) ∧
    ((s.axis a).moving = false → Completes (.axisPowerWrite a false) s (fun t => t.flag (F.MOT_AX_CTL_POWER a) = false ∧
      Frame [] [R.MOT_AX_CTL a] s t)) ∧
    ((s.axis a).moving = true → s.axisState a = 2 → Completes (.axisPowerWrite a false) s (fun t =>
      t.flag (F.MOT_AX_CTL_POWER a) = false ∧ t.axisState a = 5 ∧ (t.axis a).order = s.stopOrder .stop ∧
      Frame [.mot] [R.MOT_AX_CTL a, R.MOT_AX_STATUS a] s t)) ∧
    (∀ v < 2 ^ 24, Completes (.adistQuery a v) s (fun t => t.fget (F.MOT_AX_ADIST_V_V a) = v ∧
      (∀ d, runUp ((s.axis a).limits s.mot.period) (min v (s.axis a).vmax * unitV) = some d →
        (peek t (R.MOT_AX_ADIST a)).toNat = min (-((-d) / (1024 * unitP))).toNat (2 ^ 32 - 1)) ∧
      Frame [] [R.MOT_AX_ADIST_V a] s t)) ∧
    (∀ v < 128,
      (s.running = none → s.atRest 0 = true → s.atRest 1 = true → Completes (.servoPeriodWrite v) s (fun t =>
        t.fget F.MOT_SERVO_PERIOD = max 10 (min 100 v) ∧ Frame [] [R.MOT_SERVO] s t)) ∧
      (s.running.isSome = true ∨ s.atRest 0 = false ∨ s.atRest 1 = false → Completes (.servoPeriodWrite v) s (fun t =>
        t.flag F.MOT_EVENTS_SERVO_REFUSED = true ∧ Frame [] [R.MOT_EVENTS] s t)))

/-- A good STATUS_WORD that answers an axis's frame in time gives READY, POWER and FAULT and ends the run of bad words; a bad or late one, or STATUS_WORD_MISSING 5 µs after the frame, counts one more. DRIVER_LOST at the limit puts the axis in FAULT 4. TBL_LOAD begins the copy, TBL_LOAD_DONE stores a table that passes R266 or refuses it with its code, TBL_RUN starts it on two enabled axes, TBL_ABORT ends it. -/
def Obligations.DriverStatusAndTables : Prop :=
  ∀ (s : State) (a : Nat), a < 2 →
    (∀ (w : Word) q due, (s.axis a).awaiting = some (q, due) →
      (s.clock ≤ due → statusCrcOk w = true → bits 3 1 w.toNat = a → bits 4 4 w.toNat = q → w.getLsbD 1 = true → w.getLsbD 2 = false →
        Completes (.statusWord a w) s (fun t => (t.axis a).awaiting = none ∧ (t.axis a).badRun = 0 ∧
          t.flag (F.MOT_AX_STATUS_DRV_READY a) = w.getLsbD 0 ∧ t.flag (F.MOT_AX_STATUS_DRV_POWER a) = true ∧
          t.flag (F.MOT_AX_STATUS_DRV_FAULT a) = false ∧ (t.safAxis a).wordAt = some s.clock ∧
          Frame [.mot, .saf] [R.MOT_AX_STATUS 0, R.MOT_AX_STATUS 1, R.MOT_TBL_STATUS, R.MOT_EVENTS] s t)) ∧
      (statusCrcOk w = false ∨ due < s.clock → Completes (.statusWord a w) s (fun t =>
        t.axis a = { s.axis a with awaiting := none, badRun := (s.axis a).badRun + 1 } ∧
        t.fget (F.MOT_AX_DRV_BAD_COUNT a) = satAdd 32 (s.fget (F.MOT_AX_DRV_BAD_COUNT a)) 1 ∧ Frame [.mot] [R.MOT_AX_DRV_BAD a] s t)) ∧
      Completes (.statusWordMissing a) s (fun t => t.clock = max s.clock due ∧
        t.axis a = { s.axis a with awaiting := none, badRun := (s.axis a).badRun + 1 } ∧
        t.fget (F.MOT_AX_DRV_BAD_COUNT a) = satAdd 32 (s.fget (F.MOT_AX_DRV_BAD_COUNT a)) 1 ∧ Frame [.clock, .mot] [R.MOT_AX_DRV_BAD a] s t)) ∧
    (max 1 (s.fget F.MOT_DRV_CTL_STS_LIMIT) ≤ (s.axis a).badRun → Completes (.driverLost a) s (fun t =>
      t.axisState a = 6 ∧ t.fget (F.MOT_AX_STATUS_FAULT a) = 4 ∧ t.enabled a = false ∧ t.flag (F.MOT_AX_EVENTS_DRIVER a) = true ∧
      Frame [.mot] [R.MOT_AX_STATUS 0, R.MOT_AX_STATUS 1, R.MOT_AX_EVENTS a, R.MOT_TBL_STATUS, R.MOT_EVENTS] s t)) ∧
    (s.coxState = 0 → s.flag F.MOT_TBL_STATUS_RUNNING = false →
      Completes .tblLoad s (fun t => t.mot = { s.mot with loading := true } ∧ t.flag F.MOT_TBL_STATUS_LOADED = false ∧
        Frame [.mot] [R.MOT_TBL_STATUS] s t) ∧
      (s.flag F.MOT_TBL_STATUS_LOADED = true → s.enabled 0 = true → s.enabled 1 = true → s.stageStopping = false →
        Completes .tblRun s (fun t => t.flag F.MOT_TBL_STATUS_RUNNING = true ∧ t.axisState 0 = 4 ∧ t.axisState 1 = 4 ∧
          t.mot.table = some { ticks := 0 } ∧ t.fget F.MOT_TBL_STATUS_POINT = 1 ∧
          Frame [.mot] [R.MOT_AX_STATUS 0, R.MOT_AX_STATUS 1, R.MOT_TBL_STATUS] s t))) ∧
    (s.mot.loading = true →
      (∀ ps, tableCheck s = (none, ps) → Completes .tblLoadDone s (fun t => t.mot = { s.mot with loading := false, store := ps } ∧
        t.flag F.MOT_TBL_STATUS_LOADED = true ∧ t.fget F.MOT_TBL_STATUS_ERROR = 0 ∧
        BlockFrame [.mot, .hbm, .mem, .arb, .keel] [0x09, 0x0A, 0x14] s t)) ∧
      (∀ code ps, tableCheck s = (some code, ps) → Completes .tblLoadDone s (fun t => t.mot = { s.mot with loading := false } ∧
        t.fget F.MOT_TBL_STATUS_ERROR = code ∧ t.flag F.MOT_EVENTS_TBL_REFUSED = true))) ∧
    (∀ r, s.coxState = 0 → s.mot.table = some r → s.flag F.MOT_TBL_STATUS_RUNNING = true → Completes .tblAbort s (fun t =>
      t.flag F.MOT_TBL_STATUS_RUNNING = false ∧ t.flag F.MOT_EVENTS_TBL_DONE = true ∧
      Frame [.mot] [R.MOT_AX_STATUS 0, R.MOT_AX_STATUS 1, R.MOT_TBL_STATUS, R.MOT_EVENTS] s t))

/-- INPUT_EDGE keeps a new land level with the time of the pending change. LIMIT_TRIP outside homing, after DEBOUNCE, sets the limit's bit and AWAY_ONLY, counts it and puts the axis in FAULT 1. LIMIT_CLEAR takes the bit back. HOME_CHANGE shows the filtered level. An INDEX_EDGE that rises, under IDX_INV, in step 4 of homing keeps the position of its instant, sets REF and HOMED and stops the axis; outside homing one changes nothing but the level kept. -/
def Obligations.LimitAndHomeInputs : Prop :=
  ∀ (s : State) (a : Nat), a < 2 →
    (∀ (i : Nat) (level : Bool), i < 3 → ((s.axis a).input i).raw ≠ level → Completes (.inputEdge a i level) s (fun t =>
      (t.axis a).input i = { (s.axis a).input i with
        raw := level, since := if (level != s.inverted a i) = ((s.axis a).input i).level then none else some s.clock } ∧
      t.axis (1 - a) = s.axis (1 - a) ∧ Frame [.mot] [R.MOT_AX_CHATTER a, R.MOT_AX_EVENTS a] s t)) ∧
    (∀ (i : Nat) at', i < 2 → ((s.axis a).input i).since = some at' →
      (((s.axis a).input i).level = false → (s.axis a).homing = none → Completes (.limitTrip a i) s (fun t =>
        t.flag (limBit a i) = true ∧ t.flag (F.MOT_AX_STATUS_AWAY_ONLY a) = true ∧ t.flag (F.MOT_AX_EVENTS_LIMIT_TRIP a) = true ∧
        t.axisState a = 6 ∧ t.fget (F.MOT_AX_STATUS_FAULT a) = 1 ∧ t.enabled a = false ∧
        t.fget (F.MOT_AX_LIM_TRIPS_COUNT a) = satAdd (F.MOT_AX_LIM_TRIPS_COUNT a).width (s.fget (F.MOT_AX_LIM_TRIPS_COUNT a)) 1 ∧
        (s.ref a = false → s.haltable = false → Frame [.clock, .mot] [R.MOT_AX_STATUS 0, R.MOT_AX_STATUS 1, R.MOT_AX_EVENTS a,
          R.MOT_AX_LIM_TRIPS a, R.MOT_TBL_STATUS, R.MOT_EVENTS] s t))) ∧
      (((s.axis a).input i).level = true → Completes (.limitClear a i) s (fun t => t.flag (limBit a i) = false ∧
        (s.flag (limBit a (1 - i)) = false → t.flag (F.MOT_AX_STATUS_AWAY_ONLY a) = false) ∧
        t.clock = max s.clock (at' + s.fget (F.MOT_AX_DEBOUNCE_US a) * 64000) ∧ Frame [.clock, .mot] [R.MOT_AX_STATUS a] s t))) ∧
    (∀ at', (s.axis a).home.since = some at' → (s.axis a).homing = none → Completes (.homeChange a) s (fun t =>
      t.flag (F.MOT_AX_STATUS_HOME a) = !(s.axis a).home.level ∧ (t.axis a).home.level = !(s.axis a).home.level ∧
      t.clock = max s.clock (at' + s.fget (F.MOT_AX_DEBOUNCE_US a) * 64000) ∧ Frame [.clock, .mot] [R.MOT_AX_STATUS a] s t)) ∧
    (∀ (level : Bool), (s.axis a).homing = none → Completes (.indexEdge ⟨a, level⟩) s (fun t =>
      t.axis a = { s.axis a with index := level } ∧ t.axis (1 - a) = s.axis (1 - a) ∧ Frame [.mot] [] s t)) ∧
    (∀ (level : Bool) h, (s.axis a).homing = some h → h.phase = .creep → s.axisState a = 3 → (s.axis a).index ≠ level →
      level ≠ s.flag (F.MOT_AX_CTL_IDX_INV a) → Completes (.indexEdge ⟨a, level⟩) s (fun t => t.ref a = true ∧
      t.flag (F.MOT_AX_EVENTS_HOMED a) = true ∧ t.axisState a = 5 ∧ (t.axis a).homing = none ∧
      t.fget (F.MOT_AX_INDEX_POS_LO_POS a) = unsignedOf 48 (s.estimate a) % 2 ^ 32 ∧
      t.fget (F.MOT_AX_INDEX_POS_HI_POS a) = unsignedOf 48 (s.estimate a) / 2 ^ 32 ∧
      Frame [.mot] [R.MOT_AX_STATUS a, R.MOT_AX_EVENTS a, R.MOT_AX_INDEX_POS_LO a, R.MOT_AX_INDEX_POS_HI a] s t))

/-- RESEND with a loss held orders the range read again, and changes nothing else. RESEND_READ_DONE of a range that is still uncorrectable keeps the loss and sets RESEND_FAIL; of a range whose bytes now stand whole, it clears the loss and admission goes on. Each INJECT command writes its fault to INT_INJECT while the lock is open, and is a lock violation while it is closed. -/
def Obligations.LossesAreResentAndFaultsPlanted : Prop :=
  ∀ s : State,
    (∀ l, s.int.loss = some l → Completes .resend s (fun t => t.int = { s.int with rereads := true } ∧ Frame [.int] [] s t)) ∧
    (s.int.loss = none → Completes .resend s (fun t => t.int = s.int ∧ Frame [] [] s t)) ∧
    (∀ l, s.int.loss = some l → s.int.rereads = true →
      (s.hbmBad 9 l.addr l.len = true → Completes .resendReadDone s (fun t => t.int = { s.int with rereads := false } ∧
        t.flag F.INT_EVENTS_RESEND_FAIL = true ∧
        BlockFrame [.int, .hbm, .mem, .arb, .keel, .banks, .crw] [0x09, 0x0A, 0x0E, 0x0F, 0x15] s t)) ∧
      (∀ e, s.hbmBad 9 l.addr l.len = false → s.entry l.entry = some e → resendFailure s e l = none → Completes .resendReadDone s (fun t =>
          t.int.loss = none ∧ t.int.rereads = false ∧ t.ing.queue = s.ing.queue ∧
          t.ing.adm = s.ing.adm.map (fun a => { a with paused := false }) ∧
          BlockFrame [.int, .queue, .hbm, .mem, .arb, .keel, .banks, .crw] [0x09, 0x0A, 0x0E, 0x0F, 0x15] s t))) ∧
    (∀ n < 128, ∀ p ∈ [(Instr.injectResidue n, 1), (.injectArea n, 2), (.injectPlace n, 3)],
      (s.lockOpen = true → Completes p.1 s (fun t => t.fget F.INT_INJECT_KIND = p.2 ∧ t.fget F.INT_INJECT_ISLET = n ∧
        Frame [] [R.INT_INJECT] s t)) ∧
      (s.lockOpen = false → Completes p.1 s (fun t => t.flag F.SAF_EVENTS_LOCK_VIOLATION = true ∧
        t.fget F.SAF_LOCK_VIOL_COUNT = satAdd F.SAF_LOCK_VIOL_COUNT.width (s.fget F.SAF_LOCK_VIOL_COUNT) 1 ∧
        Frame [] [R.SAF_LOCK_VIOL, R.SAF_EVENTS] s t))) ∧
    (∀ n < 8192, ∀ p ∈ [(Instr.injectWake n, 4), (.injectSplit n, 5)],
      (s.lockOpen = true → Completes p.1 s (fun t => t.fget F.INT_INJECT_KIND = p.2 ∧ t.fget F.INT_INJECT_TRACK = n ∧
        Frame [] [R.INT_INJECT] s t)) ∧
      (s.lockOpen = false → Completes p.1 s (fun t => t.flag F.SAF_EVENTS_LOCK_VIOLATION = true ∧
        t.fget F.SAF_LOCK_VIOL_COUNT = satAdd F.SAF_LOCK_VIOL_COUNT.width (s.fget F.SAF_LOCK_VIOL_COUNT) 1 ∧
        Frame [] [R.SAF_LOCK_VIOL, R.SAF_EVENTS] s t)))

/-- HBM_TRAIN_DONE makes each stack READY or FAILED; READY is set only where none failed. RETRAIN trains again only with an empty queue. STACK_TEMP_READ above 85 makes a stack HOT and at 83 or below normal. REFRESH_ISSUE lowers the debt by the interval in force where R310 lets it, a debt at the postponement limit making the pseudo-channel URGENT first, and changes nothing elsewhere. URGENT begins at 8 intervals, is counted, and splits a reserved burst. -/
def Obligations.StacksTrainAndRefresh : Prop :=
  ∀ s : State,
    (∀ ends, (Instr.hbmTrainDone ends).wf = true → s.mem.training = true → Completes (.hbmTrainDone ends) s (fun t =>
      t.mem = { s.mem with training := false } ∧
      (∀ k < 4, t.fget (F.HBM_STK_STATUS_STATE k) = (if (ends.getD k (false, 0)).1 then 3 else 2) ∧
        t.fget (F.HBM_STK_STATUS_LANE_REPAIRS k) = (ends.getD k (false, 0)).2) ∧
      (ends.any Prod.fst = false → t.flag F.HBM_STATUS_READY = true) ∧
      (ends.any Prod.fst = true → t.flag F.HBM_EVENTS_TRAIN_FAIL = true ∧ t.flag F.HBM_STATUS_READY = s.flag F.HBM_STATUS_READY) ∧
      Frame [.mem] [R.HBM_STATUS, R.HBM_EVENTS, R.HBM_STK_STATUS 0, R.HBM_STK_STATUS 1, R.HBM_STK_STATUS 2, R.HBM_STK_STATUS 3] s t)) ∧
    (s.ing.queue = [] → Completes .retrain s (fun t => t.mem = { s.mem with training := true } ∧ t.flag F.HBM_STATUS_READY = false ∧
      (∀ k < 4, t.fget (F.HBM_STK_STATUS_STATE k) = 1) ∧
      Frame [.mem] [R.HBM_STATUS, R.HBM_STK_STATUS 0, R.HBM_STK_STATUS 1, R.HBM_STK_STATUS 2, R.HBM_STK_STATUS 3] s t)) ∧
    (s.ing.queue ≠ [] → Completes .retrain s (fun t => Frame [] [] s t)) ∧
    (∀ (k : Nat) (temp : Int), k < 4 → -128 ≤ temp → temp < 128 → Completes (.stackTempRead k temp) s (fun t =>
      t.sget (F.HBM_STK_STATUS_TEMP k) = temp ∧ t.sget (F.HBM_STK_STATUS_TEMP_MAX k) = max temp (s.sget (F.HBM_STK_STATUS_TEMP_MAX k)) ∧
      t.flag (F.HBM_STK_STATUS_HOT k) = (if 85 < temp then true else if temp ≤ 83 then false else s.flag (F.HBM_STK_STATUS_HOT k)) ∧
      (85 < temp → s.flag (F.HBM_STK_STATUS_HOT k) = false → t.flag F.HBM_EVENTS_HOT = true) ∧
      (temp ≤ 83 → s.flag (F.HBM_STK_STATUS_HOT k) = true → t.flag F.HBM_EVENTS_COOL = true) ∧
      Frame [.mem] [R.HBM_STK_STATUS k, R.HBM_STATUS, R.HBM_EVENTS, R.HBM_REF_URGENT_COUNT, R.HBM_REF_DEBT_MAX, R.HBM_REF_SPLITS] s t)) ∧
    (∀ (q : Nat) (waiting : Bool), q < 128 → q < s.mem.debtFrom.length →
      let rd := refDebt s q
      let ti := refInterval s q
      let p := max 1 (s.fget F.HBM_CTL_REF_PRESS)
      (s.mem.urgent.contains q = false → rd < 8 * ti → (rd < ti ∨ (rd < p * ti ∧ waiting = true) ∨ s.burstOn q = true) →
        Completes (.refreshIssue q waiting) s (fun t => Frame [] [] s t)) ∧
      (s.mem.urgent.contains q = true ∨ 8 * ti ≤ rd ∨ (ti ≤ rd ∧ (rd < p * ti → waiting = false) ∧ s.burstOn q = false) →
        Completes (.refreshIssue q waiting) s (fun t => t.mem.debtFrom.getD q 0 = s.mem.debtFrom.getD q 0 + ti * ticksPerNs ∧
          (∀ r, r ≠ q → t.mem.debtFrom.getD r 0 = s.mem.debtFrom.getD r 0) ∧
          (q ∈ t.mem.urgent ↔ (q ∈ s.mem.urgent ∨ 8 * ti ≤ rd) ∧ 4 * ti < refDebt t q) ∧
          (s.mem.urgent.contains q = true ∨ rd < 8 * ti → Frame [.mem] [R.HBM_STATUS, R.HBM_REF_DEBT_MAX] s t) ∧
          (s.mem.urgent.contains q = false → 8 * ti ≤ rd → t.flag F.HBM_EVENTS_URGENT = true ∧
            t.fget F.HBM_REF_URGENT_COUNT_COUNT = satAdd 32 (s.fget F.HBM_REF_URGENT_COUNT_COUNT) 1 ∧
            Frame [.mem] [R.HBM_STATUS, R.HBM_EVENTS, R.HBM_REF_DEBT_MAX, R.HBM_REF_URGENT_COUNT, R.HBM_REF_SPLITS] s t))) ∧
      (s.mem.urgent.contains q = false → Completes (.urgent q) s (fun t => q ∈ t.mem.urgent ∧ t.mem.debtFrom = s.mem.debtFrom ∧
        t.clock = max s.clock (s.mem.debtFrom.getD q s.clock + 8 * ti * ticksPerNs) ∧ t.flag F.HBM_STATUS_URGENT = true ∧
        t.flag F.HBM_EVENTS_URGENT = true ∧
        t.fget F.HBM_REF_URGENT_COUNT_COUNT = satAdd 32 (s.fget F.HBM_REF_URGENT_COUNT_COUNT) 1 ∧
        (s.burstOn q = true → t.flag F.HBM_EVENTS_SPLIT = true ∧ t.fget F.HBM_REF_SPLITS_COUNT = satAdd 32 (s.fget F.HBM_REF_SPLITS_COUNT) 1) ∧
        (s.burstOn q = false → t.reg R.HBM_REF_SPLITS = s.reg R.HBM_REF_SPLITS) ∧
        Frame [.clock, .mem] [R.HBM_REF_URGENT_COUNT, R.HBM_REF_DEBT_MAX, R.HBM_REF_SPLITS, R.HBM_EVENTS, R.HBM_STATUS] s t)))

/-- HBM_READ_DONE of a whole word leaves memory alone; of a word with one wrong bit, or that the stack corrected, writes it back corrected and counts it; of an uncorrectable word, or one that the stack reports so, counts it and keeps its port and who found it. Each scrub step takes one word at the pace of its rate; the last word ends the lap. A table byte that cannot be corrected makes its word BAD. RESTORE of a BAD word writes its data and sets RESTORED; of any other word it is refused. -/
def Obligations.ReadsScrubAndRestore : Prop :=
  ∀ s : State,
    (∀ port addr stack, port < 16 → stack < 3 → addr + 8 ≤ 96 * 2 ^ 30 → addr % 8 = 0 → s.running = none → port ≠ 14 →
      s.mem.marked.contains (port, addr / 8) = false → s.fget F.SRM_CHK_CTL_MODE ≠ 1 →
      (s.wordClass (addr / 8) = .clean → stack = 0 → Completes (.hbmReadDone port addr ⟨8, stack⟩) s (fun t =>
        t.arb = { s.arb with reads := s.arb.reads.set port (s.arb.reads.getD port 0 - 1) } ∧ Frame [.arb] [] s t)) ∧
      (stack < 2 → ((∃ b, s.wordClass (addr / 8) = .corrected b) ∨ (s.wordClass (addr / 8) = .clean ∧ stack = 1)) →
       Completes (.hbmReadDone port addr ⟨8, stack⟩) s (fun t =>
        t.hbmChk (addr / 8) = 0 ∧ (∀ i < 8, t.hbmByte (addr + i) = s.readByte (addr + i)) ∧
        (∀ a, a < addr ∨ addr + 8 ≤ a → t.hbmByte a = s.hbmByte a) ∧ t.flag F.HBM_EVENTS_CE = true ∧
        t.fget F.HBM_CE_COUNT_COUNT = satAdd 32 (s.fget F.HBM_CE_COUNT_COUNT) 1 ∧
        BlockFrame [.hbm, .mem, .arb, .keel] [0x09, 0x0A] s t)) ∧
      (s.wordClass (addr / 8) = .uncorrectable ∨ stack = 2 → Completes (.hbmReadDone port addr ⟨8, stack⟩) s (fun t => t.hbm = s.hbm ∧
        t.flag F.HBM_EVENTS_UE = true ∧ t.fget F.HBM_UE_COUNT_COUNT = satAdd 32 (s.fget F.HBM_UE_COUNT_COUNT) 1 ∧
        t.pair F.HBM_ERR_ADDR_LO_ADDR F.HBM_ERR_ADDR_HI_ADDR = addr ∧ t.fget F.HBM_ERR_INFO_PORT = port ∧
        t.flag F.HBM_ERR_INFO_VALID = true ∧ t.flag F.HBM_ERR_INFO_SCRUB = (port == 15) ∧ t.flag F.HBM_ERR_INFO_STACK = (stack == 2) ∧
        (s.wordClass (addr / 8) ≠ .uncorrectable → port ≠ 15 → (port, addr / 8) ∈ t.mem.marked) ∧
        BlockFrame [.mem, .arb, .keel] [0x09, 0x0A] s t))) ∧
    (∀ late : Bool, s.flag F.HBM_SCRUB_CTL_EN = true →
      let a := s.pair F.HBM_SCRUB_POS_LO_ADDR F.HBM_SCRUB_POS_HI_ADDR
      let pace := 8 * 64000000000 / (max 1 (s.fget F.HBM_SCRUB_CTL_RATE) * 1048576)
      s.wordClass (a / 8) = .clean → s.mem.marked.contains (15, a / 8) = false →
      (a + 8 < hbmSize → Completes (.hbmScrubStep late) s (fun t => t.clock = s.clock + pace ∧
        t.pair F.HBM_SCRUB_POS_LO_ADDR F.HBM_SCRUB_POS_HI_ADDR = a + 8 ∧ t.flag F.HBM_STATUS_SCRUB_LATE = late ∧
        (late = true → t.flag F.HBM_EVENTS_SCRUB_LATE = true) ∧
        Frame [.clock] [R.HBM_SCRUB_POS_LO, R.HBM_SCRUB_POS_HI, R.HBM_STATUS, R.HBM_EVENTS] s t)) ∧
      (hbmSize ≤ a + 8 → Completes (.hbmScrubStep late) s (fun t => t.clock = s.clock + pace ∧
        t.pair F.HBM_SCRUB_POS_LO_ADDR F.HBM_SCRUB_POS_HI_ADDR = 0 ∧ t.flag F.HBM_EVENTS_SCRUB_LAP = true ∧
        t.fget F.HBM_SCRUB_LAPS_COUNT = satAdd 32 (s.fget F.HBM_SCRUB_LAPS_COUNT) 1 ∧
        t.fget F.HBM_SCRUB_LAP_ERRS_CE = min s.mem.hbmCe 65535 ∧ t.fget F.HBM_SCRUB_LAP_ERRS_UE = min s.mem.hbmUe 65535 ∧
        t.mem = { s.mem with hbmCe := 0, hbmUe := 0, hbmLapAt := t.clock } ∧
        Frame [.clock, .mem] [R.HBM_SCRUB_POS_LO, R.HBM_SCRUB_POS_HI, R.HBM_SCRUB_LAPS, R.HBM_SCRUB_LAP_TIME, R.HBM_SCRUB_LAP_ERRS,
          R.HBM_STATUS, R.HBM_EVENTS] s t))) ∧
    (∀ (late : Bool) (a : Nat), s.flag F.SRM_CTL_SCRUB_EN = true → walkTable s.mem.sramPos = some a → a % 4 = 0 →
      s.mem.sramPos + 1 < walkTables →
      (let pace := 4 * 64000000000 / (max 1 (s.fget F.SRM_CTL_RATE) * 1048576);
      ((∀ i < 4, sparseGet (fun _ => 0) (a + i) s.mem.flips = 0) → Completes (.sramScrubStep late) s (fun t =>
        t.clock = s.clock + pace ∧ t.mem = { s.mem with sramPos := s.mem.sramPos + 1 } ∧ t.flag F.SRM_STATUS_SCRUB_LATE = late ∧
        (late = true → t.flag F.SRM_EVENTS_SCRUB_LATE = true) ∧ Frame [.clock, .mem] [R.SRM_STATUS, R.SRM_EVENTS] s t)) ∧
      (byteClass (sparseGet (fun _ => 0) a s.mem.flips) = .uncorrectable → (∀ i, 0 < i → i < 4 →
        sparseGet (fun _ => 0) (a + i) s.mem.flips = 0) → a ∉ s.mem.bad → a < 0x1000000 → s.running = none → Completes (.sramScrubStep late) s (fun t =>
          a ∈ t.mem.bad ∧ t.flag F.SRM_EVENTS_BAD = true ∧ t.mem.sramPos = s.mem.sramPos + 1 ∧
          BlockFrame [.clock, .mem, .keel, .banks] [0x0A] s t)))) ∧
    (let a := s.fget F.SRM_RESTORE_ADDR_OFFSET;
      (a ∉ s.mem.bad → Completes .restore s (fun t => t.flag F.SRM_EVENTS_RESTORE_REFUSED = true ∧ Frame [] [R.SRM_EVENTS] s t)) ∧
      (a ∈ s.mem.bad → Completes .restore s (fun t => a ∉ t.mem.bad ∧ (∀ b, b ≠ a → (b ∈ t.mem.bad ↔ b ∈ s.mem.bad)) ∧
        t.flag F.SRM_EVENTS_RESTORED = true ∧
        (∀ b g m, b < 2 → g < 3 → m < 151 → a = R.DOS_KRN_TAP b g m →
          t.reg a = s.reg R.SRM_RESTORE_DATA &&& 0xFFFF#32 ∧ t.crw = s.crw) ∧
        Frame [.crw, .mem] [a, R.SRM_EVENTS, R.SRM_CHK_CTL] s t)))

/-- FLIP arms its mode, and SELFTEST begins with the cox idle and no course, else posts REFUSED, both under the open lock only. SELFTEST_DONE posts PASS or FAIL with the count. REPAIR_SAVE appends the proposal with its CRC to the first free entry of the list, or reports a full list; REPAIR_DISCARD drops it. HBM_INIT_GO takes a good range and refuses others; INIT_DONE leaves it zero and every other byte as it was. -/
def Obligations.ChecksRepairsAndInitialisation : Prop :=
  ∀ s : State,
    (∀ target mask, target < 4 → mask < 256 →
      (s.lockOpen = true → Completes (.flip target mask) s (fun t => t.fget F.SRM_CHK_CTL_MODE = 1 ∧ t.fget F.SRM_CHK_CTL_TARGET = target ∧
        t.fget F.SRM_CHK_CTL_FLIP = mask ∧ Frame [] [R.SRM_CHK_CTL] s t)) ∧
      (s.lockOpen = false → ∀ c ∈ [Instr.flip target mask, .selftest], Completes c s (fun t => t.flag F.SAF_EVENTS_LOCK_VIOLATION = true ∧
        Frame [] [R.SAF_LOCK_VIOL, R.SAF_EVENTS] s t))) ∧
    (s.lockOpen = true → s.mem.selftest = none →
      (s.coxState = 0 → s.running = none → Completes .selftest s (fun t => t.mem = { s.mem with selftest := some true } ∧
        t.fget F.SRM_CHK_CTL_MODE = 2 ∧ t.flag F.SRM_STATUS_SELFTEST_BUSY = true ∧ Frame [.mem] [R.SRM_CHK_CTL, R.SRM_STATUS] s t)) ∧
      (s.coxState ≠ 0 ∨ s.running.isSome = true → (s.result R.SRM_CHK_RESULT).vis = none → Completes .selftest s (fun t =>
        (t.result R.SRM_CHK_RESULT).vis = some { fields := [(R.SRM_CHK_RESULT, 0x20#32)], seen := false, overrun := false } ∧
        t.flag F.SRM_EVENTS_SELFTEST_DONE = true ∧ Frame [.results] [R.SRM_EVENTS] s t))) ∧
    (∀ failed < 65536, s.mem.selftest.isSome = true → (s.result R.SRM_CHK_RESULT).vis = none →
      Completes (.selftestDone failed) s (fun t => t.mem = { s.mem with selftest := none } ∧ t.fget F.SRM_CHK_CTL_MODE = 0 ∧
        t.flag F.SRM_STATUS_SELFTEST_BUSY = false ∧ t.flag F.SRM_EVENTS_SELFTEST_DONE = true ∧
        (t.result R.SRM_CHK_RESULT).vis =
          some { fields := [(R.SRM_CHK_RESULT, BitVec.ofNat 32 ((if failed = 0 then 0 else 16) + failed * 256))], seen := false, overrun := false } ∧
        Frame [.mem, .results] [R.SRM_CHK_CTL, R.SRM_STATUS, R.SRM_EVENTS] s t)) ∧
    (s.flag F.SRM_REPAIR_CAND_VALID = true →
      (∀ i < 512, s.repairFree i = true → (∀ j < i, s.repairFree j = false) →
        (let body := leBytes 1 (s.fget F.SRM_REPAIR_CAND_KIND) ++ leBytes 1 (s.fget F.SRM_REPAIR_CAND_TRIGGER) ++
          leBytes 2 (s.fget F.SRM_REPAIR_CAND_MACRO_MACRO) ++ leBytes 4 (s.fget F.SRM_REPAIR_CAND_ADDR_ADDR) ++ leBytes 3 s.log.cycle ++ [0#8];
        Completes .repairSave s (fun t => t.keelBytes (0x1C01000 + 16 * i) 16 = body ++ leBytes 4 (crc32c body).toNat ∧
          (∀ a, a < 0x1C01000 + 16 * i ∨ 0x1C01010 + 16 * i ≤ a → t.keelByte a = s.keelByte a) ∧
          t.flag F.SRM_REPAIR_CAND_VALID = false ∧ t.flag F.SRM_EVENTS_REPAIR_SAVED = true ∧
          Frame [.keel] [R.SRM_REPAIR_CAND, R.SRM_EVENTS] s t))) ∧
      ((∀ i < 512, s.repairFree i = false) → Completes .repairSave s (fun t => t.flag F.SRM_REPAIR_CAND_VALID = false ∧
        t.flag F.SRM_EVENTS_REPAIR_FULL = true ∧ Frame [] [R.SRM_REPAIR_CAND, R.SRM_EVENTS] s t)) ∧
      Completes .repairDiscard s (fun t => t.flag F.SRM_REPAIR_CAND_VALID = false ∧ Frame [] [R.SRM_REPAIR_CAND] s t)) ∧
    (let base := s.pair F.HBM_INIT_BASE_LO_ADDR F.HBM_INIT_BASE_HI_ADDR
      let len := s.pair F.HBM_INIT_LEN_LO_LEN F.HBM_INIT_LEN_HI_LEN
      (base % 4096 = 0 → len % 4096 = 0 → 0 < len → base + len ≤ hbmSize → s.fencedRange base len = false → s.flag F.HBM_STATUS_INIT_BUSY = false →
        Completes .hbmInitGo s (fun t => t.mem = { s.mem with init := some (base, len) } ∧ t.flag F.HBM_STATUS_INIT_BUSY = true ∧
          Frame [.mem] [R.HBM_STATUS] s t)) ∧
      (base % 4096 ≠ 0 ∨ len % 4096 ≠ 0 ∨ len = 0 ∨ hbmSize < base + len ∨ s.fencedRange base len = true ∨ s.flag F.HBM_STATUS_INIT_BUSY = true →
        Completes .hbmInitGo s (fun t => t.flag F.HBM_EVENTS_INIT_REFUSED = true ∧ Frame [] [R.HBM_EVENTS] s t))) ∧
    (∀ base len, s.mem.init = some (base, len) → s.hbmReady = true → Memory.wf s.hbm.bytes = true → shadowTouched s base len = [] →
      s.fget F.SRM_CHK_CTL_MODE ≠ 1 → Completes .initDone s (fun t =>
      (∀ a, base ≤ a → a < base + len → t.hbmByte a = 0#8) ∧ (∀ w, base ≤ 8 * w → 8 * w < base + len → t.hbmChk w = 0) ∧
      (∀ a, a < base ∨ base + len ≤ a → t.hbmByte a = s.hbmByte a) ∧ t.mem = { s.mem with init := none } ∧
      t.flag F.HBM_STATUS_INIT_BUSY = false ∧ t.flag F.HBM_EVENTS_INIT_DONE = true ∧ Frame [.hbm, .mem] [R.HBM_STATUS, R.HBM_EVENTS] s t))

/-- BAR2_READ of whole words answers their bytes and changes nothing; past 96 GiB it answers zeros and reports the offset; an uncorrectable word poisons or aborts it. BAR2_WRITE stores its bytes and nothing else, or is discarded when poisoned or past 96 GiB. CONFIG_REQUEST retries before READY, then answers or sets the MSI-X bits. MSIX_UNMASK unmasks its vector; PEND_CLEAR clears the bits written as 1. LINK_UP, DEGRADED and AER_ERROR show in PCI_STATUS, the events and the counts. -/
def Obligations.HostWindowsAndErrors : Prop :=
  ∀ s : State,
    (∀ addr len, 0 < len →
      (addr + len ≤ hbmSize → PlainRead s 11 addr len → Completes (.bar2Read addr len) s (fun t =>
        t.resp = .bytes false (s.hbmBytes addr len) ∧ t.arb = (returnReads 11 addr len s).arb ∧ Frame [.arb] [] s t)) ∧
      (addr + len ≤ hbmSize → s.hbmBad 11 addr len = true → Completes (.bar2Read addr len) s (fun t =>
        t.resp = (if s.flag F.PCI_CTL_UE_CA then .abort else .bytes true (s.readBytes addr len)) ∧
        t.flag F.PCI_EVENTS_POISON_OUT = true ∧ BlockFrame [.hbm, .mem, .arb, .keel] [0x06, 0x09, 0x0A] s t)) ∧
      (hbmSize ≤ addr → addr + len ≤ 2 ^ 37 → Completes (.bar2Read addr len) s (fun t =>
        t.resp = .bytes false (List.replicate len 0#8) ∧ t.flag F.PCI_EVENTS_BAR2_RANGE = true ∧
        t.pair F.PCI_BAR2_RANGE_ADDR_LO_OFFSET F.PCI_BAR2_RANGE_ADDR_HI_OFFSET = addr ∧
        Frame [.arb] [R.PCI_EVENTS, R.PCI_BAR2_RANGE_ADDR_LO, R.PCI_BAR2_RANGE_ADDR_HI] s t))) ∧
    (∀ addr bytes, bytes ≠ [] →
      (PlainWrite s addr bytes.length → Completes (.bar2Write addr bytes false) s (fun t => Stored s t addr bytes ∧ Frame [.hbm] [] s t)) ∧
      (hbmSize ≤ addr → addr + bytes.length ≤ 2 ^ 37 → Completes (.bar2Write addr bytes false) s (fun t =>
        t.flag F.PCI_EVENTS_BAR2_RANGE = true ∧ t.pair F.PCI_BAR2_RANGE_ADDR_LO_OFFSET F.PCI_BAR2_RANGE_ADDR_HI_OFFSET = addr ∧
        Frame [] [R.PCI_EVENTS, R.PCI_BAR2_RANGE_ADDR_LO, R.PCI_BAR2_RANGE_ADDR_HI] s t)) ∧
      (addr + bytes.length ≤ 2 ^ 37 → Completes (.bar2Write addr bytes true) s (fun t => t.flag F.PCI_EVENTS_AER_UNCORR = true ∧
        t.fget F.PCI_UNCORR_COUNT_COUNT = satAdd 32 (s.fget F.PCI_UNCORR_COUNT_COUNT) 1 ∧
        Frame [] [R.PCI_EVENTS, R.PCI_UNCORR_COUNT] s t))) ∧
    (s.flag F.CFG_STATUS_READY = false → ∀ off c, off % 4 = 0 → off < 4096 → Completes (.configRequest off c) s (fun t =>
      t.resp = .retry ∧ Frame [] [] s t)) ∧
    (s.flag F.CFG_STATUS_READY = true →
      Completes (.configRequest 0 none) s (fun t => t.resp = .data [0x1024C57E#32] ∧ Frame [.free] [] s t) ∧
      Completes (.configRequest 0x2C none) s (fun t => t.resp = .data [Config.subsystem s.identity] ∧ Frame [.free] [] s t) ∧
      (∀ off en fm, off % 4 = 0 → off < 4096 → Completes (.configRequest off (some (en, fm))) s (fun t =>
        t.msix = { s.msix with enable := en, fmask := fm } ∧ Frame [.msix] [] s t))) ∧
    (∀ n < 128, Completes (.msixUnmask n) s (fun t => t.msix = { s.msix with masked := s.msix.masked.filter (fun m => m != n) } ∧
      (s.evt.pba.contains n = true → s.msix.enable = true → s.msix.fmask = false → s.pend n = true → .msix n ∈ t.out) ∧
      Frame [.msix] [] s t)) ∧
    (∀ (w : Nat) (v : Word), w < 4 → Completes (.pendClear w v) s (fun t => Frame [] [] s t ∧
      t.reg (R.EVT_PEND w) = s.reg (R.EVT_PEND w) &&& ~~~ v)) ∧
    (∀ speed width, linkWf speed width = true →
      (∀ flit : Bool, Completes (.linkUp speed width flit) s (fun t => t.flag F.PCI_STATUS_LINK_UP = true ∧ t.fget F.PCI_STATUS_SPEED = speed ∧
        t.fget F.PCI_STATUS_WIDTH = width ∧ t.flag F.PCI_STATUS_FLIT = flit ∧ Frame [] [R.PCI_STATUS] s t)) ∧
      Completes (.degraded speed width) s (fun t => t.fget F.PCI_STATUS_SPEED = speed ∧ t.fget F.PCI_STATUS_WIDTH = width ∧
        t.flag F.PCI_EVENTS_DEGRADED = true ∧ Frame [] [R.PCI_STATUS, R.PCI_EVENTS] s t)) ∧
    Completes (.aerError true) s (fun t => t.flag F.PCI_EVENTS_AER_UNCORR = true ∧
      t.fget F.PCI_UNCORR_COUNT_COUNT = satAdd 32 (s.fget F.PCI_UNCORR_COUNT_COUNT) 1 ∧ Frame [] [R.PCI_EVENTS, R.PCI_UNCORR_COUNT] s t) ∧
    Completes (.aerError false) s (fun t => t.flag F.PCI_EVENTS_AER_CORR = true ∧
      t.fget F.PCI_CORR_COUNT_COUNT = satAdd 32 (s.fget F.PCI_CORR_COUNT_COUNT) 1 ∧ Frame [] [R.PCI_EVENTS, R.PCI_CORR_COUNT] s t)

/-- Outside a cold reset, HOT_RESET, DATA_LINK_DOWN and FLR leave every DMA register and channel at reset, every vector masked, the wake buffer dropped and LINK_RESET set; the first two take the link down and FLR sets its own event. PERST_ASSERTED outside a cold boot is a warm reset that holds: every register but those R452 keeps is at reset, and HBM, but for what a running writer leaves undefined, and the keel store keep their contents; PERST_DEASSERTED lets the warm boot begin. During a cold boot PERST# only holds the endpoint. -/
def Obligations.PcieResetsAndPerst : Prop :=
  ∀ s : State,
    (s.absorbs = false → ∀ c ∈ [Instr.hotReset, .dataLinkDown, .flr], Completes c s (fun t =>
      (∀ a, a / 65536 = 7 → t.reg a = resetOf a) ∧ t.dma = State.reset.dma ∧ t.msix = State.reset.msix ∧
      t.flag F.PCI_EVENTS_LINK_RESET = true ∧ (c = .hotReset → t.flag F.PCI_STATUS_LINK_UP = false) ∧
      (c = .dataLinkDown → t.reg R.PCI_STATUS = 0#32) ∧ (c = .flr → t.flag F.PCI_EVENTS_FLR = true ∧ t.reg R.PCI_STATUS = s.reg R.PCI_STATUS) ∧
      (s.pwr.phase = .running → t.wak.cells = [] ∧ (∀ x ∈ t.wak.slots, x.2.held = false) ∧ t.ras.slots = [] ∧ t.bsx.on = false) ∧
      (s.running = none → s.activeLanes = [] → MoversStill s →
        BlockFrame [.queue, .ras, .bsx, .wak, .str, .dma, .msix, .free, .mot, .crw, .saf, .bln, .int]
          [0x03, 0x06, 0x07, 0x0E, 0x10, 0x14, 0x16] s t))) ∧
    (s.absorbs = true → ∀ c ∈ [Instr.hotReset, .dataLinkDown, .flr], Completes c s (fun t => Frame [] [] s t)) ∧
    (s.absorbs = false → s.pwr.job = none → Completes .perstAsserted s (fun t =>
      t.pwr.phase = .warmHeld ∧ t.pwr.perst = true ∧ 7 ∈ t.pwr.kinds ∧ t.ing = State.reset.ing ∧
      (WritersStill s → t.hbm = s.hbm ∧ t.keel = s.keel) ∧
      t.dma = State.reset.dma ∧ t.msix = State.reset.msix ∧
      AtReset t warmKept)) ∧
    (s.absorbs = true → Completes .perstAsserted s (fun t => t.pwr = { s.pwr with perst := true } ∧ Frame [.pwr] [] s t)) ∧
    Completes .perstDeasserted s (fun t => t.pwr.perst = false ∧
      t.pwr.phase = (if s.pwr.phase = .warmHeld then .warmBoot else s.pwr.phase) ∧ Frame [.pwr] [] s t)

/-- DMA_RUN starts an IDLE channel at its pointer, and one that waits for RUN. DOORBELL lets a waiting channel fetch again. DMA_RESUME continues a STOPPED channel, or the held descriptor of a HALTED one. DMA_RESET leaves the channel IDLE at ring entry 0, writing ABORTED back for a descriptor it holds; ABORT_ALL does so for every channel. DMA_TIMEOUT halts every channel not IDLE, and DMA_RESTART takes HALTED back. -/
def Obligations.ChannelControl : Prop :=
  ∀ s : State, s.dma.length = 32 →
    (∀ c < 32,
      (let run := s.flag (F.DMA_CH_CTL_RUN c);
      let next := fun (t : State) (run : Bool) => t.chanState c = (if run then 2 else 1) ∧ (t.chan c).desc = none ∧ (t.chan c).fetch = run ∧
        (∀ d, d ≠ c → t.chan d = s.chan d)
      (s.flag F.DMA_STATUS_HALTED = false → s.chanState c = 0 → Completes (.dmaRun c) s (fun t => t.flag (F.DMA_CH_CTL_RUN c) = true ∧
        next t true ∧ (t.chan c).ringHbm = s.flag (F.DMA_CH_CTL_RING_HBM c) ∧ Frame [.dma] [R.DMA_CH_CTL c, R.DMA_CH_STATUS c] s t)) ∧
      (s.flag F.DMA_STATUS_HALTED = false → s.chanState c = 1 → (s.chan c).parked = true → Completes (.dmaRun c) s (fun t =>
        t.flag (F.DMA_CH_CTL_RUN c) = true ∧ next t true ∧ Frame [.dma] [R.DMA_CH_CTL c, R.DMA_CH_STATUS c] s t)) ∧
      (1 < s.chanState c ∨ (s.chanState c = 1 ∧ (s.chan c).parked = false) ∨ s.flag F.DMA_STATUS_HALTED = true → Completes (.dmaRun c) s (fun t => t.flag (F.DMA_CH_CTL_RUN c) = true ∧
        Frame [] [R.DMA_CH_CTL c] s t)) ∧
      (s.chanState c = 1 → Completes (.doorbell c) s (fun t => next t run ∧ Frame [.dma] [R.DMA_CH_STATUS c] s t)) ∧
      (s.chanState c ≠ 1 → Completes (.doorbell c) s (fun t => Frame [] [] s t)) ∧
      (s.chanState c = 3 → Completes (.dmaResume c) s (fun t => next t run ∧ Frame [.dma] [R.DMA_CH_STATUS c] s t)) ∧
      (s.chanState c = 4 → s.flag F.DMA_STATUS_HALTED = false → (s.chan c).desc.isSome = true → Completes (.dmaResume c) s (fun t =>
        t.chanState c = 2 ∧ (∀ d, { t.chan d with served := false } = { s.chan d with served := false }) ∧
        Frame [.dma] [R.DMA_CH_STATUS c] s t)) ∧
      (s.chanState c = 4 → s.flag F.DMA_STATUS_HALTED = true → Completes (.dmaResume c) s (fun t => Frame [] [] s t)) ∧
      (s.chanState c < 3 → Completes (.dmaResume c) s (fun t => Frame [] [] s t)) ∧
      Completes (.dmaReset c) s (fun t => t.chanState c = 0 ∧
        t.reg (R.DMA_CH_PTR c) = 0#32 ∧ t.chan c = { chanReset with ringHbm := s.flag (F.DMA_CH_CTL_RING_HBM c) } ∧
        (∀ d, d ≠ c → { t.chan d with served := false } = { s.chan d with served := false }) ∧
        ((s.chan c).desc.isSome = true → t.fget (F.DMA_CH_STATUS_LAST c) = 8) ∧
        ((s.chan c).desc.isSome = true → (s.chan c).ringHbm = false → s.chanState c ≠ 2 →
          .hostWrite (descAddr s c + 24) (leBytes 8 128) ∈ t.out) ∧
        ((s.chan c).desc = none ∨ ((s.chan c).ringHbm = false ∧ s.chanState c ≠ 2) →
          Frame [.dma] [R.DMA_CH_PTR c, R.DMA_CH_STATUS c] s t) ∧
        BlockFrame [.dma, .hbm, .mem, .arb, .keel, .banks, .crw, .free] [0x07, 0x09, 0x0A, 0x0B, 0x0E, 0x0F] s t))) ∧
    (s.flag F.DMA_STATUS_HALTED = false → Completes .dmaRestart s (fun t => Frame [] [] s t)) ∧
    (s.flag F.DMA_STATUS_HALTED = true → Completes .dmaRestart s (fun t => t.flag F.DMA_STATUS_HALTED = false ∧
      (∀ c < 32, s.chanState c = 0 → s.flag (F.DMA_CH_CTL_RUN c) = true → t.chanState c = 2 ∧ (t.chan c).fetch = true) ∧
      (∀ c < 32, s.chanState c ≠ 0 ∨ s.flag (F.DMA_CH_CTL_RUN c) = false → t.chan c = s.chan c ∧ t.chanState c = s.chanState c) ∧
      BlockFrame [.dma] [0x07] s t)) ∧
    Completes .abortAll s (fun t =>
      (∀ c < 32, t.chanState c = 0 ∧ t.reg (R.DMA_CH_PTR c) = 0#32 ∧ (t.chan c).desc = none ∧ (t.chan c).fetch = false ∧
        ((s.chan c).desc.isSome = true → t.fget (F.DMA_CH_STATUS_LAST c) = 8)) ∧
      ((∀ c, (s.chan c).ringHbm = false) → MoversStill s → BlockFrame [.dma] [0x07] s t) ∧
      BlockFrame [.dma, .hbm, .mem, .arb, .keel, .banks, .crw, .free] [0x07, 0x09, 0x0A, 0x0B, 0x0E, 0x0F] s t) ∧
    Completes .dmaTimeout s (fun t => t.flag F.DMA_STATUS_HALTED = true ∧ t.flag F.DMA_EVENTS_TIMEOUT_HALT = true ∧
      t.flag F.PCI_EVENTS_AER_UNCORR = true ∧ t.fget F.PCI_UNCORR_COUNT_COUNT = satAdd 32 (s.fget F.PCI_UNCORR_COUNT_COUNT) 1 ∧
      (∀ c < 32, s.chanState c ≠ 0 → t.chanState c = 4 ∧ t.fget (F.DMA_CH_STATUS_LAST c) = 6 ∧ t.chan c = { s.chan c with fetch := false, served := false }) ∧
      (∀ c < 32, s.chanState c = 0 → t.reg (R.DMA_CH_STATUS c) = s.reg (R.DMA_CH_STATUS c) ∧ t.chan c = s.chan c) ∧
      (MoversStill s → BlockFrame [.dma] [0x06, 0x07] s t) ∧
      BlockFrame [.dma, .hbm, .mem, .arb, .keel, .banks, .crw, .free] [0x06, 0x07, 0x09, 0x0A, 0x0B, 0x0E, 0x0F] s t)

/-- DESCRIPTOR_FETCH of a ring in host memory waits where the descriptor is not owned, stops on one that fails the checks of R340, follows a link while fewer than four have come, and else holds the descriptor. DESCRIPTOR_DONE stores host data in HBM in the order SWAP gives, or sends whole HBM words to the host, writes the status back and goes on; a host error stops the channel with status 5. ARBITER_ROUND without a burst grants the highest effective priority from the pointer on, and ages the losers; with WITHDRAW only the losers age; a burst grants its port and the first of its rounds ages the others. PRESS holds an unreserved round back and URGENT every round, and a read waits while 256 or the limit of the port are outstanding. TDM_SLOT_START goes to the next slot and reserves bursts for its port. -/
def Obligations.DescriptorsMoveDataAndPortsTakeTurns : Prop :=
  ∀ s : State,
    (s.dma.length = 32 → ∀ c < 32, s.chanState c = 2 → (s.chan c).ringHbm = false →
      (∀ ws : List DWord, ws.length = 4 → (s.chan c).fetch = true →
        (let a := descAddr s c;
        let d := dmaDesc ws
        (d.own = false → Completes (.descriptorFetch c ws) s (fun t => t.chanState c = 1 ∧ t.chan c = { s.chan c with fetch := false } ∧
          Frame [.dma] [R.DMA_CH_STATUS c] s t)) ∧
        (d.own = true → d.typ ≠ 1 → descCheck d = 0 → Completes (.descriptorFetch c ws) s (fun t =>
          { t.chan c with served := false } = { s.chan c with desc := some ws, fetch := false, links := 0, served := false } ∧
          t.pair (F.DMA_CH_DESC_LO_ADDR c) (F.DMA_CH_DESC_HI_ADDR c) = a % 2 ^ 64 ∧
          Frame [.dma] [R.DMA_CH_DESC_LO c, R.DMA_CH_DESC_HI c] s t)) ∧
        (d.own = true → d.typ ≠ 1 → descCheck d ≠ 0 → Completes (.descriptorFetch c ws) s (fun t => t.chanState c = 3 ∧
          t.fget (F.DMA_CH_STATUS_LAST c) = descCheck d ∧ t.flag (F.DMA_CH_EVENTS_STOPPED c) = true ∧ (t.chan c).desc = none ∧
          .hostWrite (a + 24) (leBytes 8 (descCheck d * 16)) ∈ t.out ∧ BlockFrame [.dma] [0x07] s t)) ∧
        (d.own = true → d.typ = 1 → (s.chan c).links ≠ 4 → Completes (.descriptorFetch c ws) s (fun t =>
          t.chanState c = (if s.flag (F.DMA_CH_CTL_RUN c) then 2 else 1) ∧
          (t.chan c).links = (s.chan c).links + 1 ∧ (t.chan c).fetch = s.flag (F.DMA_CH_CTL_RUN c) ∧ descAddr t c = d.src / 32 * 32 ∧
          t.fget (F.DMA_CH_DONE_COUNT c) = satAdd 32 (s.fget (F.DMA_CH_DONE_COUNT c)) 1 ∧ .hostWrite (a + 24) (leBytes 8 0) ∈ t.out ∧
          BlockFrame [.dma] [0x07] s t)) ∧
        (d.own = true → d.typ = 1 → (s.chan c).links = 4 → Completes (.descriptorFetch c ws) s (fun t => t.chanState c = 3 ∧
          t.fget (F.DMA_CH_STATUS_LAST c) = 2 ∧ t.flag (F.DMA_CH_EVENTS_STOPPED c) = true ∧ BlockFrame [.dma] [0x07] s t)))) ∧
      (∀ (ws : List DWord) (host : List Byte), (s.chan c).desc = some ws → (s.chan c).served = true →
        (let d := dmaDesc ws;
        (d.srcHbm = false → d.dstHbm = true → d.dstFixed = false → host.length = d.len → 0 < d.len → PlainWrite s d.dst d.len →
          Completes (.descriptorDone c host false) s (fun t => Stored s t d.dst (swapBytes d.swap host) ∧
            t.chanState c = (if s.flag (F.DMA_CH_CTL_RUN c) then 2 else 1) ∧ (t.chan c).desc = none ∧ t.fget (F.DMA_CH_STATUS_LAST c) = 0 ∧
            t.fget (F.DMA_CH_DONE_COUNT c) = satAdd 32 (s.fget (F.DMA_CH_DONE_COUNT c)) 1 ∧
            (d.irq = true → t.flag (F.DMA_CH_EVENTS_DONE c) = true) ∧
            .hostWrite (descAddr s c + 24) (leBytes 8 (d.len % 2 ^ 32 * 2 ^ 32)) ∈ t.out ∧ BlockFrame [.dma, .hbm] [0x07] s t)) ∧
        (d.srcHbm = true → d.dstHbm = false → d.srcFixed = false → d.dstFixed = false → 0 < d.len → d.src + d.len ≤ hbmSize →
          PlainRead s 10 d.src d.len → Completes (.descriptorDone c host false) s (fun t =>
            .hostWrite d.dst (swapBytes d.swap (s.hbmBytes d.src d.len)) ∈ t.out ∧
            t.chanState c = (if s.flag (F.DMA_CH_CTL_RUN c) then 2 else 1) ∧ t.fget (F.DMA_CH_STATUS_LAST c) = 0 ∧
            BlockFrame [.dma, .arb] [0x07] s t)) ∧
        (d.srcHbm = false → host = [] → Completes (.descriptorDone c host true) s (fun t => t.chanState c = 3 ∧
          t.fget (F.DMA_CH_STATUS_LAST c) = 5 ∧ t.flag (F.DMA_CH_EVENTS_STOPPED c) = true ∧ (t.chan c).desc = none ∧
          BlockFrame [.dma] [0x07] s t))))) ∧
    (∀ q < 128, ∀ (waiting : List HbmRequest), waiting.all requestWf = true → (∀ x ∈ waiting, mayIssue s x = true) →
      (let ports := waiting.map HbmRequest.port;
      (refState s q < 2 → s.burstOn q = false → ∀ p r0, waiting.find? (fun x => x.port == p) = some r0 →
        (∀ r ∈ ports, effectivePrio s q r ≤ effectivePrio s q p) →
        (∀ i < 16, (∀ j < i, (sparseGet (fun _ => 0) q s.arb.pointers + j) % 16 ∉ ports ∨
            effectivePrio s q ((sparseGet (fun _ => 0) q s.arb.pointers + j) % 16) < effectivePrio s q p) →
          p = (sparseGet (fun _ => 0) q s.arb.pointers + i) % 16 →
          Completes (.arbiterRound q waiting false) s (fun t =>
            t.fget (F.ARB_PORT_GRANTS_COUNT p) = satAdd (F.ARB_PORT_GRANTS_COUNT p).width (s.fget (F.ARB_PORT_GRANTS_COUNT p)) 1 ∧
            t.age q p = 0 ∧ (∀ r ∈ ports, r ≠ p → t.age q r = s.age q r + 1) ∧ (∀ r < 16, r ∉ ports → t.age q r = s.age q r) ∧
            sparseGet (fun _ => 0) q t.arb.pointers = (p + 1) % 16 ∧ t.arb.bursts = s.arb.bursts ∧
            t.arb.reads = (if r0.read then s.arb.reads.set p (s.arb.reads.getD p 0 + 1) else s.arb.reads) ∧
            Frame [.arb, .mem] [R.ARB_PORT_GRANTS p, R.ARB_PORT_WAIT_MAX p, R.HBM_NBR_COUNT] s t) ∧
          Completes (.arbiterRound q waiting true) s (fun t => (∀ r ∈ ports, t.age q r = s.age q r + 1) ∧
            t.arb.pointers = s.arb.pointers ∧ t.fget F.ARB_DEAD_COUNT = satAdd F.ARB_DEAD_COUNT.width (s.fget F.ARB_DEAD_COUNT) 1 ∧
            Frame [.arb] [R.ARB_DEAD] s t))) ∧
      (refState s q < 3 → ∀ b r0, s.burstAt q = some b → waiting.find? (fun x => x.port == b.port) = some r0 →
        Completes (.arbiterRound q waiting false) s (fun t =>
          t.fget (F.ARB_PORT_GRANTS_COUNT b.port) =
            satAdd (F.ARB_PORT_GRANTS_COUNT b.port).width (s.fget (F.ARB_PORT_GRANTS_COUNT b.port)) 1 ∧
          t.age q b.port = 0 ∧ (∀ r ∈ ports, r ≠ b.port → t.age q r = s.age q r + if b.begun then 0 else 1) ∧
          (1 < b.left → t.burstAt q = some { b with left := b.left - 1, begun := true }) ∧
          (b.left ≤ 1 → t.arb.bursts = (endBurst q s).arb.bursts) ∧
          Frame [.arb, .mem] [R.ARB_PORT_GRANTS b.port, R.ARB_PORT_WAIT_MAX b.port, R.HBM_NBR_COUNT] s t)) ∧
      (refState s q = 2 → s.burstOn q = false → Completes (.arbiterRound q waiting false) s (fun t => Frame [] [] s t)) ∧
      (refState s q = 3 → Completes (.arbiterRound q waiting false) s (fun t => q ∈ t.mem.urgent ∧
        Frame [.mem] [R.HBM_REF_URGENT_COUNT, R.HBM_REF_DEBT_MAX, R.HBM_REF_SPLITS, R.HBM_EVENTS, R.HBM_STATUS] s t)))) ∧
    (∀ q < 128, ∀ r : HbmRequest, requestWf r = true → mayIssue s r = false → s.burstOn q = false → refState s q < 3 →
      Completes (.arbiterRound q [r] false) s (fun t => Frame [] [] s t)) ∧
    (∀ waiting : List (Nat × Nat), (∀ x ∈ waiting, x.1 < 128 ∧ x.2 < 16) →
      (s.flag F.ARB_CTL_TDM_EN = false → Completes (.tdmSlotStart waiting) s (fun t => Frame [] [] s t)) ∧
      (s.flag F.ARB_CTL_TDM_EN = true →
        (let i := (s.fget F.ARB_STATUS_SLOT + 1) % 64;
        let burst := if i = 0 then s.fget F.ARB_CTL_BURST else s.arb.burst
        Completes (.tdmSlotStart waiting) s (fun t => t.fget F.ARB_STATUS_SLOT = i ∧ t.clock = s.clock + s.arb.slotNs * ticksPerNs ∧
          (s.flag (F.ARB_TDM_VALID i) = true → ∀ x ∈ waiting, x.2 = s.fget (F.ARB_TDM_PORT i) →
            { q := x.1, port := x.2, left := burst, begun := false } ∈ t.arb.bursts) ∧
          (∀ b ∈ s.arb.bursts, b ∈ t.arb.bursts) ∧ (s.flag (F.ARB_TDM_VALID i) = false → t.arb.bursts = s.arb.bursts) ∧
          t.arb.ages = s.arb.ages ∧ Frame [.clock, .arb] [R.ARB_STATUS] s t))))

/-- LINK_WORD takes acknowledged packets off and returns credits. PACKET_RESEND_TIMEOUT and FAILOVER send every unacknowledged packet again; with no locked lane left FAILOVER takes the link down and counts what it held. TRAINING_WORD locks the lane of the right neighbour at L2. VC_STALL is reported with its link and VC. A packet that fails its CRC or order changes nothing; one for this device fills the next receive slot or is counted as dropped; one for another goes on by R358. SEND_MESSAGE and BROADCAST_MESSAGE send the staged words. -/
def Obligations.LinksCarryPacketsAndFailOver : Prop :=
  ∀ s : State, s.str.links.length = 4 → ∀ k < 4,
    (∀ w : DWord, s.linkUp k = true → bits 0 8 w.toNat = 0x78 → (s.link k).queue = [] →
      (∀ a p b, (s.link k).unacked = a ++ p :: b → (∀ x ∈ a, x.lseq ≠ bits 8 8 w.toNat) → p.lseq = bits 8 8 w.toNat →
        Completes (.linkWord k w) s (fun t => (t.link k).unacked = b ∧
          (∀ c < 3, (t.link k).credits.getD c 0 = min 8 ((s.link k).credits.getD c 0 + bits (16 + 8 * c) 8 w.toNat)) ∧
          (∀ j, j ≠ k → t.link j = s.link j) ∧ Frame [.str] [] s t))) ∧
    (s.linkUp k = true → (s.link k).unacked ≠ [] → Completes (.packetResendTimeout k) s (fun t =>
      (∀ p ∈ (s.link k).unacked, ∃ x, .straitWords k (packetWords { p with ttx := x }) ∈ t.out) ∧
      t.clock = max s.clock ((s.link k).ackAt + 2 * ticksPerUs) ∧
      t.fget (F.STR_LINK_RESENDS_COUNT k) = satAdd 32 (s.fget (F.STR_LINK_RESENDS_COUNT k)) (s.link k).unacked.length ∧
      Frame [.clock, .str] [R.STR_LINK_RESENDS k] s t)) ∧
    (∀ upper : Bool, let lane := 2 * k + (if upper then 1 else 0)
      let other := if upper then (s.link k).lock0 else (s.link k).lock1
      (s.linkUp k = true → other = true → (s.link k).primary = (if upper then 1 else 0) → Completes (.failover lane) s (fun t =>
        (t.link k).primary = (if upper then 0 else 1) ∧ t.fget (F.STR_LINK_STATUS_ON_STANDBY k) = (if upper then 0 else 1) ∧
        t.flag F.STR_EVENTS_FAILOVER = true ∧
        (∀ p ∈ (s.link k).unacked, ∃ x, .straitWords k (packetWords { p with ttx := x }) ∈ t.out) ∧
        Frame [.str] [R.STR_LINK_STATUS k, R.STR_EVENTS, R.STR_LINK_RESENDS k] s t)) ∧
      (s.linkUp k = true → other = false → Completes (.failover lane) s (fun t => t.fget (F.STR_LINK_STATUS_STATE k) = 0 ∧
        t.flag F.STR_EVENTS_LINK_DOWN = true ∧ (t.link k).queue = [] ∧ (t.link k).unacked = [] ∧
        t.fget F.STR_DROPS_COUNT = satAdd 32 (s.fget F.STR_DROPS_COUNT) ((s.link k).queue.length + (s.link k).unacked.length) ∧
        Frame [.str] [R.STR_LINK_STATUS k, R.STR_EVENTS, R.STR_DROPS] s t)) ∧
      (∀ (w : DWord) (inv : Bool) tw id, readTrainingWord w = some tw → neighbour s k = some id → s.govFlag F.STR_CTL_ENABLE = true →
        (tw.deviceId = id → tw.rung = 2 → tw.nextRung = 2 → Completes (.trainingWord (.strait lane) ⟨w, inv⟩) s (fun t => t.linkUp k = true ∧
          (if upper then (t.link k).lock1 = true else (t.link k).lock0 = true) ∧ t.fget (F.STR_LINK_STATUS_PEER k) = tw.deviceId ∧
          Frame [.str] [R.STR_LINK_STATUS k] s t)) ∧
        (tw.deviceId ≠ id → s.linkUp k = false → other = false → Completes (.trainingWord (.strait lane) ⟨w, inv⟩) s (fun t =>
          t.fget (F.STR_LINK_STATUS_STATE k) = 3 ∧ t.flag F.STR_EVENTS_WIRING = true ∧ t.fget (F.STR_LINK_STATUS_PEER k) = tw.deviceId ∧
          Frame [.str] [R.STR_LINK_STATUS k, R.STR_EVENTS] s t)))) ∧
    (∀ vc < 3, (s.link k).queue.any (fun p => p.vc == vc) = true → (s.link k).stalled.contains vc = false →
      Completes (.vcStall k vc) s (fun t => t.flag F.STR_EVENTS_STALL = true ∧ t.fget F.STR_STALL_AT_LINK = k ∧ t.fget F.STR_STALL_AT_VC = vc ∧
        t.fget F.STR_STALLS_COUNT = satAdd 32 (s.fget F.STR_STALLS_COUNT) 1 ∧ (t.link k).queue = (s.link k).queue ∧
        t.clock = max s.clock ((s.link k).movedAt.getD vc 0 + s.gov F.STR_STALL_US_US * ticksPerUs) ∧
        Frame [.clock, .str] [R.STR_EVENTS, R.STR_STALLS, R.STR_STALL_AT] s t)) ∧
    (∀ ws, (readPacket ws = none → ∀ c ∈ [Instr.message k ws, .courseEvent k ws, .beacon k ws, .stopToken k ws, .resumeReady k ws,
        .transitPacket k ws], Completes c s (fun t => Frame [] [] s t)) ∧
      (∀ p, readPacket ws = some p → s.linkUp k = true →
        (p.lseq ≠ (s.link k).rxSeq → Completes (.transitPacket k ws) s (fun t => Frame [] [] s t)) ∧
        (p.lseq = (s.link k).rxSeq → p.bcast = false → ∀ x ∈ [(1, Instr.message k ws), (2, .courseEvent k ws)], p.typ = x.1 →
          (p.dest = s.deviceId → s.str.used < 16 → Completes x.2 s (fun t => t.str.used = s.str.used + 1 ∧
            t.fget F.STR_RX_HEAD_INDEX = (s.fget F.STR_RX_HEAD_INDEX + 1) % 16 ∧ t.flag F.STR_EVENTS_RX = true ∧
            (∀ j < 8 + p.payload.length,
              t.reg (R.STR_RX_SLOT (s.fget F.STR_RX_HEAD_INDEX) (2 * j)) = BitVec.setWidth 32 ((packetWords p).getD j 0#64) ∧
              t.reg (R.STR_RX_SLOT (s.fget F.STR_RX_HEAD_INDEX) (2 * j + 1)) =
                BitVec.setWidth 32 ((packetWords p).getD j 0#64 >>> 32)) ∧
            (t.link k).rxSeq = ((s.link k).rxSeq + 1) % 256 ∧ BlockFrame [.str] [0x16] s t)) ∧
          (p.dest = s.deviceId → 16 ≤ s.str.used → Completes x.2 s (fun t => t.flag F.STR_EVENTS_RX_FULL = true ∧
            t.fget F.STR_RX_DROPS_COUNT = satAdd 32 (s.fget F.STR_RX_DROPS_COUNT) 1 ∧ t.str.used = s.str.used ∧
            Frame [.str] [R.STR_EVENTS, R.STR_RX_DROPS] s t)) ∧
          (p.dest ≠ s.deviceId → ∀ out vc, routeOf s p.dest p.vc (some (k / 2)) = some (out, vc) → ∀ c ∈ [x.2, .transitPacket k ws],
            (LinkFree s out vc → Completes c s (fun t => SentOn t out { p with vc := vc, hops := p.hops + 1 } ∧ Frame [.str] [] s t)) ∧
            (s.linkUp out = false → Completes c s (fun t => t.fget F.STR_DROPS_COUNT = satAdd 32 (s.fget F.STR_DROPS_COUNT) 1 ∧
              Frame [.str] [R.STR_DROPS] s t)))))) ∧
    (∀ dest len, dest < 4096 → len < 256 → s.txBusy = false →
      (let payload := (List.range (min 128 len)).map (fun i => BitVec.ofNat 64 ((s.reg (R.STR_TX_DATA (2 * i))).toNat +
        (s.reg (R.STR_TX_DATA (2 * i + 1))).toNat * 2 ^ 32));
      let p := fun bc => ownPacket s 1 0 bc (if bc then 0 else dest) (s.str.counts.getD 1 0) (s.fget F.STR_TX_TAG_TAG) 0 payload
      (∀ out vc, routeOf s dest 0 none = some (out, vc) → LinkFree s out vc → Completes (.sendMessage dest len) s (fun t =>
        SentOn t out { p false with vc := vc, hops := 1 } ∧ t.fget F.STR_TX_CTL_DEST = dest ∧ t.fget F.STR_TX_CTL_LEN = len ∧
        Frame [.str] [R.STR_TX_CTL] s t)) ∧
      Completes (.broadcastMessage dest len) s (fun t =>
        (∀ x ∈ treeLinks s (p true) none, LinkFree s x.1 x.2 → SentOn t x.1 { p true with vc := x.2, hops := 1 }) ∧
        t.flag F.STR_TX_CTL_BCAST = true ∧ Frame [.str] [R.STR_TX_CTL, R.STR_DROPS] s t)))

/-- A beacon of the upstream measures the link by R361: beyond STEP_NS with the cox idle the time steps by theta and the lock is lost, else it slews, and the sixteenth near one locks. BEACON_SEND sends a beacon on each free link at the next period. UPSTREAM_SILENT turns to the other neighbour, then to HOLDOVER; HOLDOVER_TIMEOUT takes the lock. STOP_TOKEN is sent on once, clears the READYs and halts a course with cause REGATTA. RESUME_READY is held, and the last one fixes the boundary. -/
def Obligations.RegattaTimeTokensAndReadys : Prop :=
  ∀ s : State, s.str.links.length = 4 → ∀ k < 4,
    (∀ ws p, readPacket ws = some p → s.linkUp k = true → p.lseq = (s.link k).rxSeq →
      (p.typ = 3 →
        (let wrap := fun (x : Int) => signedOf 64 (unsignedOf 64 x);
        let rx : Int := s.rt64
        let tx : Int := p.ttx.toNat
        let d := (wrap (rx - (p.payload.getD 0 0#64).toNat) - wrap (tx - (p.payload.getD 1 0#64).toNat)) / 2 + s.sget (F.STR_LINK_ASYM_TICKS k)
        let theta := wrap (tx + d - rx)
        let step : Int := s.gov F.STR_STEP_NS_NS * ticksPerNs
        (s.govFlag F.STR_CTL_MASTER = true → Completes (.beacon k ws) s (fun t =>
          (t.link k).echoTx = p.ttx.toNat ∧ (t.link k).echoRx = s.rt64 ∧ (t.link k).beaconAt = s.clock ∧
          (bits 0 12 p.p3.toNat ≠ s.deviceId → t.flag F.STR_EVENTS_MASTER_CONFLICT = true) ∧ Frame [.str] [R.STR_EVENTS] s t)) ∧
        (s.govFlag F.STR_CTL_MASTER = false → bits 0 12 p.p3.toNat ≠ s.deviceId → s.fget F.STR_STATUS_MASTER_ID = bits 0 12 p.p3.toNat →
          s.flag F.STR_STATUS_HOLDOVER = false → upstream s = some k → s.running = none → Completes (.beacon k ws) s (fun t =>
            (t.link k).echoTx = p.ttx.toNat ∧ (t.link k).echoRx = s.rt64 ∧
            t.fget (F.STR_LINK_DELAY_TICKS k) = unsignedOf (F.STR_LINK_DELAY_TICKS k).width d ∧
            t.fget F.STR_THETA_TICKS = unsignedOf F.STR_THETA_TICKS.width theta ∧
            t.fget F.STR_STATUS_DIST = min 255 (bits 12 8 p.p3.toNat + 1) ∧ t.str.holdFrom = none ∧
            (s.coxState = 0 → step < theta.natAbs → t.rtOfs = s.rtOfs + s.slewed + theta ∧ t.str.slew = 0 ∧
              t.flag F.STR_STATUS_TIME_LOCKED = false ∧ t.flag F.GEN_EVENTS_TIME_STEP = true) ∧
            (theta.natAbs ≤ step → t.rtOfs = s.rtOfs + s.slewed ∧ t.str.slew = theta ∧ t.str.slewFrom = s.clock ∧
              (theta.natAbs ≤ 32 → 15 ≤ s.str.nearRun → t.flag F.STR_STATUS_TIME_LOCKED = true) ∧
              (128 < theta.natAbs → 3 ≤ s.str.farRun → t.flag F.STR_STATUS_TIME_LOCKED = false)) ∧
            BlockFrame [.str, .offset] [0x00, 0x16] s t)))) ∧
      (p.typ = 4 → p.src ≠ s.deviceId →
        (s.str.seen.contains (p.src, p.seq) = true → Completes (.stopToken k ws) s (fun t => t.str.seen = s.str.seen ∧
          t.str.readys = s.str.readys ∧ Frame [.str] [] s t)) ∧
        (s.str.seen.contains (p.src, p.seq) = false → p.group = s.gov F.STR_CTL_GROUP →
          (s.running = none → Completes (.stopToken k ws) s (fun t => (p.src, p.seq) ∈ t.str.seen ∧ t.str.readys = [] ∧ t.str.own = none ∧
            t.str.fixed = none ∧ t.flag F.STR_STATUS_RESUME_FIXED = false ∧
            (∀ j < 4, j ≠ k → (neighbour s j).isSome = true → LinkFree s j p.vc → SentOn t j { p with hops := p.hops + 1 }) ∧
            Frame [.str] [R.STR_STATUS, R.STR_DROPS] s t)) ∧
          (s.haltable = true → s.stk.halted = false → 1 ≤ s.coxState → s.coxState ≤ 3 → s.stk.next ≤ s.lastStroke →
            Completes (.stopToken k ws) s (fun t => t.stk.halted = true ∧ t.flag F.STR_EVENTS_TOKEN = true ∧
              t.fget F.STK_HALT_AT_STROKE = s.stk.next % 2 ^ 25 ∧ t.fget F.STK_HALT_CAUSE_FIRST = 12 ∧ t.str.readys = [])))) ∧
      (p.typ = 5 → p.src ≠ s.deviceId → p.group = s.gov F.STR_CTL_GROUP →
        (let b := signedOf 64 p.p3.toNat;
        let held := (p.src, b) :: s.str.readys.filter (fun r => r.1 != p.src)
        (s.str.own = none → Completes (.resumeReady k ws) s (fun t => t.str.readys = held ∧ t.str.fixed = s.str.fixed ∧
          Frame [.str] [R.STR_DROPS] s t)) ∧
        (∀ o, s.str.own = some o → s.str.fixed = none → s.gov F.STR_GROUP_SIZE_N ≤ held.length + 1 → Completes (.resumeReady k ws) s (fun t =>
          t.flag F.STR_STATUS_RESUME_FIXED = true ∧ (∃ m, t.str.fixed = some m ∧ o ≤ m ∧ (∀ r ∈ held, r.2 ≤ m) ∧ (m = o ∨ ∃ r ∈ held, r.2 = m)) ∧
          t.str.readys = held ∧ Frame [.str] [R.STR_STATUS, R.STR_DROPS] s t))))) ∧
    (s.govFlag F.STR_CTL_ENABLE = true → Completes .beaconSend s (fun t =>
      (let per : Int := max 1 (s.gov F.STR_BEACON_US_US) * ticksPerUs; t.clock = max s.clock ((s.clock / per + 1) * per)) ∧
      (LinkFree s k 2 → ∃ q : Packet, SentOn t k q ∧ q.typ = 3 ∧ q.vc = 2 ∧ q.src = s.deviceId ∧
        bits 0 12 q.p3.toNat = (if s.govFlag F.STR_CTL_MASTER then s.deviceId else s.fget F.STR_STATUS_MASTER_ID) ∧
        bitAt 20 q.p3.toNat = s.timeLocked ∧ q.payload = [BitVec.ofNat 64 (s.link k).echoTx, BitVec.ofNat 64 (s.link k).echoRx]) ∧
      Frame [.clock, .str] [] s t)) ∧
    (upstream s = some k → s.govFlag F.STR_CTL_ENABLE = true → s.govFlag F.STR_CTL_MASTER = false →
      s.flag F.STR_STATUS_HOLDOVER = false →
      (s.str.swapped = false → Completes .upstreamSilent s (fun t => t.str = { s.str with swapped := true } ∧
        t.clock = max s.clock ((s.link k).beaconAt + 4 * max 1 (s.gov F.STR_BEACON_US_US) * ticksPerUs) ∧ Frame [.clock, .str] [] s t)) ∧
      (s.str.swapped = true → Completes .upstreamSilent s (fun t => t.str = { s.str with holdFrom := some t.clock } ∧
        t.flag F.STR_STATUS_HOLDOVER = true ∧ Frame [.clock, .str] [R.STR_STATUS] s t))) ∧
    (∀ t0, s.str.holdFrom = some t0 → s.flag F.STR_STATUS_TIME_LOCKED = true → s.running = none → Completes .holdoverTimeout s (fun t =>
      t.flag F.STR_STATUS_TIME_LOCKED = false ∧ t.flag F.STR_EVENTS_UNLOCK = true ∧ t.clock = max s.clock (t0 + 10 * ticksPerMs) ∧
      t.str = { s.str with nearRun := if s.govFlag F.STR_CTL_MASTER then s.str.nearRun else 0 } ∧
      Frame [.clock, .str] [R.STR_STATUS, R.STR_EVENTS] s t))

/-- RECORD_WRITE_DONE that verified makes the record of its slot and newest; one that failed leaves the slot free; no other slot changes. OPTIME_TICK counts. WALL_GO and NOTE_GO with EN 1 and an idle recorder begin a record of their class with their payload. Each of these writes of LOG_CTL with the lock closed is a lock violation, as its ERASE field is locked. ERASE under the open lock is taken, and ERASED leaves every slot free and begins the recorder's own record. AUDIT_GO and AUDIT_DONE read one SEQ back. EXPORT_GO notes the range or ends at once with its code, and EXPORT_DONE stores the records found in SEQ order. -/
def Obligations.RecordsAreWrittenReadAndExported : Prop :=
  ∀ s : State,
    (∀ seq i r, s.log.writing = some (seq, i, r) →
      Completes (.recordWriteDone true) s (fun t => t.log.newest = some (seq, i) ∧
        slotRec t.log i = some { seq := seq, sev := r.sev, bytes := recordBytes seq s.deviceId r } ∧
        (∀ j, j ≠ i → slotRec t.log j = slotRec s.log j) ∧ Frame [.log] [] s t) ∧
      Completes (.recordWriteDone false) s (fun t => t.log.newest = s.log.newest ∧ slotRec t.log i = none ∧
        (∀ j, j ≠ i → slotRec t.log j = slotRec s.log j) ∧ Frame [.log, .free] [] s t)) ∧
    Completes .optimeTick s (fun t => t.log.optime = (s.log.optime + 1) % 2 ^ 40 ∧ t.log.slots = s.log.slots ∧
      t.log.newest = s.log.newest ∧ t.log.cycle = s.log.cycle ∧ Frame [.log] [] s t) ∧
    (let wall := s.pair F.LOG_WALL_LO_WALL F.LOG_WALL_HI_WALL;
      let viol := if s.lockOpen then [] else [R.SAF_LOCK_VIOL, R.SAF_EVENTS]
      Completes .wallGo s (fun t => t.log.prevWall = wall ∧ t.log.slots = s.log.slots ∧ Frame [.log] viol s t) ∧
      (s.logEn = true → s.log.writing = none → s.log.erasing = none → s.log.queue = [] →
        (∀ i, chooseSlot s.log 1 = some i → Completes .wallGo s (fun t => ∃ r, t.log.writing = some (s.log.seq, i, r) ∧ r.cls = 2 ∧ r.sev = 1 ∧
          r.payload = leBytes 8 wall ++ leBytes 8 s.rt64 ++ leBytes 4 (s.fget F.LOG_WALL_TAG_TAG) ++
            leBytes 1 (bitOf (decide (wall < s.log.prevWall))) ++ leBytes 3 0 ++ leBytes 8 s.log.prevWall)) ∧
        (∀ i, chooseSlot s.log (s.fget F.LOG_NOTE_CFG_SEV) = some i → Completes .noteGo s (fun t => (∃ r, t.log.writing = some (s.log.seq, i, r) ∧
          r.cls = 3 ∧ r.sev = s.fget F.LOG_NOTE_CFG_SEV ∧
          r.payload = (List.range 10).flatMap (fun w => leBytes 4 (s.reg (R.LOG_NOTE w)).toNat)) ∧ Frame [] viol s t))) ∧
      (s.logEn = false → Completes .noteGo s (fun t => Frame [] viol s t))) ∧
    (s.lockOpen = true → s.log.erasing = none →
      (s.log.exporting = none → Completes .erase s (fun t => t.log.erasing = some (newestSeq s.log) ∧ t.log.slots = s.log.slots ∧
        Frame [.log] [] s t)) ∧
      (s.log.exporting.isSome = true → Completes .erase s (fun t => t.log.erasing = none ∧ Frame [] [] s t))) ∧
    (s.lockOpen = false → ∀ c ∈ [Instr.wallGo, .noteGo, .erase], Completes c s (fun t => t.flag F.SAF_EVENTS_LOCK_VIOLATION = true ∧
      t.fget F.SAF_LOCK_VIOL_COUNT = satAdd F.SAF_LOCK_VIOL_COUNT.width (s.fget F.SAF_LOCK_VIOL_COUNT) 1 ∧
      (c = .erase → Frame [] [R.SAF_EVENTS, R.SAF_LOCK_VIOL] s t))) ∧
    (∀ n, s.log.erasing = some n → Completes .erased s (fun t => (∀ i, slotRec t.log i = none) ∧ t.log.erasing = none ∧
      (∃ r, t.log.writing = some (s.log.seq, 0, r) ∧ r.sev = 3 ∧ r.cls = 3 ∧
        r.payload = leBytes 6 n ++ leBytes 2 0) ∧ Frame [.log] [] s t)) ∧
    Completes .auditGo s (fun t => t.log.audit = some (s.pair F.LOG_AUD_SEQ_LO_SEQ F.LOG_AUD_SEQ_HI_SEQ) ∧
      t.flag F.LOG_AUD_STATUS_VALID = false ∧ t.log.slots = s.log.slots ∧ Frame [.log] [R.LOG_AUD_STATUS] s t) ∧
    (∀ q, s.log.audit = some q → Completes .auditDone s (fun t => t.flag F.LOG_AUD_STATUS_VALID = true ∧
      t.fget F.LOG_AUD_STATUS_RESULT = auditResult s.log q ∧ t.log.audit = none ∧
      (∀ r, findSeq s.log q = some r → auditResult s.log q = 0 ∧ ∀ w < 16, t.reg (R.LOG_AUD w) = BitVec.ofNat 32 (leAt (4 * w) 4 r.bytes)) ∧
      (findSeq s.log q = none → ∀ w < 16, t.reg (R.LOG_AUD w) = 0#32) ∧ BlockFrame [.log] [0x05] s t)) ∧
    (let base := s.pair F.LOG_EXP_BASE_LO_ADDR F.LOG_EXP_BASE_HI_ADDR;
      let cap := s.fget F.LOG_EXP_CAP_RECORDS
      let first := s.pair F.LOG_EXP_FROM_LO_SEQ F.LOG_EXP_FROM_HI_SEQ
      let busy := s.log.exporting.isSome || s.log.erasing.isSome
      (busy = false → base % 64 = 0 → cap ≠ 0 → s.fencedRange base (64 * cap) = false → Completes .exportGo s (fun t =>
        t.log.exporting = some { seq := first, upto := newestSeq s.log, base := base, cap := cap, start := first } ∧
        t.log.slots = s.log.slots ∧ Frame [.log] [] s t)) ∧
      ((s.result R.LOG_EXP_RESULT).vis = none → (busy = true ∨ base % 64 ≠ 0 ∨ cap = 0 ∨ s.fencedRange base (64 * cap) = true) →
        Completes .exportGo s (fun t => (∃ v, (t.result R.LOG_EXP_RESULT).vis = some v ∧
          (R.LOG_EXP_RESULT, BitVec.ofNat 32 ((if busy then 4 else if base % 64 ≠ 0 ∨ cap = 0 then 3 else 2) * 16)) ∈ v.fields) ∧
          Frame [.results] [] s t))) ∧
    (∀ x, s.log.exporting = some x → (s.result R.LOG_EXP_RESULT).vis = none →
      (let recs := (exportRecs s.log x).take x.cap;
      PlainWrite s x.base (recs.flatMap LogRec.bytes).length → Completes .exportDone s (fun t => t.log.exporting = none ∧
        Stored s t x.base (recs.flatMap LogRec.bytes) ∧ (∀ r ∈ recs, some r ∈ s.log.slots.map Prod.snd ∧ x.seq ≤ r.seq ∧ r.seq ≤ x.upto) ∧
        recs.Pairwise (fun a b => a.seq ≤ b.seq) ∧
        (∃ v, (t.result R.LOG_EXP_RESULT).vis = some v ∧
          (R.LOG_EXP_RESULT, BitVec.ofNat 32 ((if x.cap ≤ recs.length then 1 else 0) * 16)) ∈ v.fields ∧
          (R.LOG_EXP_COUNT, BitVec.ofNat 32 recs.length) ∈ v.fields) ∧
        t.log.slots = s.log.slots ∧ Frame [.log, .hbm, .results] [] s t)))

/-- Each command that detects a safety cause not yet latched adds it to CAUSES, asserts both inhibit lines, withdraws the permit, drives FIRE low for every committed stroke, closes the lock and reports BEAM_DEMAND with a reaction time of at most 1,000 ns; a stage cause also demands the stop. A course that can be halted is halted, at the first committed stroke whose FIRE goes low or else the next one. A latched cause, a passed diagnostic and an unmet condition change nothing but the first key. -/
def Obligations.DemandsTakeTheBeam : Prop :=
  ∀ (s : State),
    (∀ (c : Instr) (k : Nat), Demands s c k →
      (bitAt k (s.fget F.SAF_CAUSE_CAUSES) = false →
        Completes c s (fun t => t.fget F.SAF_CAUSE_CAUSES = s.fget F.SAF_CAUSE_CAUSES + 2 ^ k ∧ t.demanded = true ∧
          t.flag F.SAF_EVENTS_BEAM_DEMAND = true ∧ t.flag F.SAF_STATUS_LINE_A = false ∧ t.flag F.SAF_STATUS_LINE_B = false ∧
          t.flag F.SAF_STATUS_BEAM_PERMIT = false ∧ t.lockOpen = false ∧ t.stk.fire = false ∧ (∀ x ∈ t.stk.commits, x.fire = false) ∧
          t.fget F.SAF_REACT_NS ≤ 1000 ∧ t.fget F.SAF_REACT_NS ≤ t.fget F.SAF_REACT_MAX ∧
          (k ≠ 2 → k ≠ 3 → t.saf.stop.isSome = true ∧ t.flag F.SAF_EVENTS_STAGE_DEMAND = true) ∧ (k = 3 → t.saf.stop = s.saf.stop) ∧
          (c = .safeStop → t.flag F.SAF_STATUS_STOP_IN = true) ∧ (∀ bit, c = .diag bit true → bitAt bit (t.fget F.SAF_DIAG_FAILED) = true)) ∧
        (s.running = none → s.stk.train = none → Completes c s (fun t => BlockFrame [.clock, .stk, .saf, .free] [0x03] s t)) ∧
        (s.haltable = true → s.stk.halted = false → s.stk.train = none →
          (∀ x, s.stk.commits.find? Committed.fire = some x → Completes c s (fun t => t.stk.halted = true ∧
            t.fget F.STK_HALT_AT_STROKE = x.n % 2 ^ 25 ∧ t.fget F.STK_HALT_CAUSE_FIRST = 11)) ∧
          (s.stk.commits.find? Committed.fire = none → s.stk.next ≤ s.lastStroke → Completes c s (fun t => t.stk.halted = true ∧
            t.fget F.STK_HALT_AT_STROKE = s.stk.next % 2 ^ 25 ∧ t.fget F.STK_HALT_CAUSE_FIRST = 11)))) ∧
      (bitAt k (s.fget F.SAF_CAUSE_CAUSES) = true → Completes c s (fun t =>
        t.fget F.SAF_CAUSE_CAUSES = s.fget F.SAF_CAUSE_CAUSES ∧ t.stk = s.stk ∧ Frame [.clock, .saf] [R.SAF_STATUS, R.SAF_DIAG] s t))) ∧
    (∀ bit < 10, Completes (.diag bit false) s (fun t => Frame [] [] s t)) ∧
    (s.flag F.SAF_STATUS_BEAM_PERMIT = false → Completes .echoSilent s (fun t => Frame [] [] s t))

/-- SAF_CLEAR with no latched cause holding clears CAUSES and asserts the enables again after a passed start-up test; with one holding the demand stays. LOCK_KEY takes the two keys in order with the cox idle and no demand, and refuses others; LOCK_CLOSE and LOCK_TIMEOUT close the lock and store the CRC. STOP_CHECK cuts the enable of an axis that moved and cannot be judged slowing. INHIBIT_DELAY_END asserts the lines. The proof test steps run under the lock and end with their result; SAFE_STOP_RELEASE clears STOP_IN. -/
def Obligations.ClearLockAndProofTest : Prop :=
  ∀ s : State,
    (s.demanded = true → (∀ c < 19, bitAt c (s.fget F.SAF_CAUSE_CAUSES) = true → causeHolds s c = false) → Completes .safClear s (fun t =>
      t.fget F.SAF_CAUSE_CAUSES = 0 ∧ t.flag F.SAF_CUT_VALID = false ∧ t.flag F.SAF_EVENTS_CLEARED = true ∧
      (s.saf.stop = none → s.saf.startupOk = true → s.harbour = false → t.ampOn 0 = true ∧ t.ampOn 1 = true) ∧
      BlockFrame [.saf, .mot] [0x03, 0x14] s t)) ∧
    (s.demanded = true → (∃ c < 19, bitAt c (s.fget F.SAF_CAUSE_CAUSES) = true ∧ causeHolds s c = true) → Completes .safClear s (fun t =>
      t.demanded = true ∧ t.ampOn 0 = s.ampOn 0 ∧ t.ampOn 1 = s.ampOn 1 ∧ Frame [.saf] [R.SAF_CAUSE] s t)) ∧
    (s.demanded = false → Completes .safClear s (fun t => t.saf = { s.saf with keyed := false } ∧ Frame [.saf] [] s t)) ∧
    (s.coxState = 0 → s.demanded = false →
      Completes (.lockKey 0x0A5F) s (fun t => t.saf = { s.saf with keyed := true } ∧ Frame [.saf] [] s t) ∧
      (s.saf.keyed = true → s.lockOpen = false → Completes (.lockKey 0xF5A0) s (fun t => t.lockOpen = true ∧
        t.saf = { s.saf with keyed := false, openedAt := some s.clock } ∧ Frame [.saf] [R.SAF_STATUS] s t)) ∧
      (∀ key < 65536, key ≠ 0x0A5F → (key ≠ 0xF5A0 ∨ s.saf.keyed = false) → Completes (.lockKey key) s (fun t =>
        t.flag F.SAF_EVENTS_LOCK_REFUSED = true ∧ t.saf = { s.saf with keyed := false } ∧ Frame [.saf] [R.SAF_EVENTS] s t))) ∧
    (s.coxState ≠ 0 ∨ s.demanded = true → ∀ key < 65536, Completes (.lockKey key) s (fun t =>
      t.flag F.SAF_EVENTS_LOCK_REFUSED = true ∧ t.saf = { s.saf with keyed := false } ∧ Frame [.saf] [R.SAF_EVENTS] s t)) ∧
    (s.lockOpen = true →
      Completes .lockClose s (fun t => t.lockOpen = false ∧ t.reg R.SAF_PARAM_CRC = Config.paramCrc s.safetyParams ∧
        Frame [.saf] [R.SAF_STATUS, R.SAF_PARAM_CRC] s t) ∧
      (∀ t0, s.saf.openedAt = some t0 → Completes .lockTimeout s (fun t => t.lockOpen = false ∧
        t.reg R.SAF_PARAM_CRC = Config.paramCrc s.safetyParams ∧ t.clock = max s.clock (t0 + 60000 * ticksPerMs) ∧
        Frame [.clock, .saf] [R.SAF_STATUS, R.SAF_PARAM_CRC] s t))) ∧
    (∀ st t0, s.saf.stop = some st → st.begun = some t0 → st.checked = false →
      ((s.safAxis 0).moved = false → (s.safAxis 1).moved = false → Completes .stopCheck s (fun t =>
        t.saf = { s.saf with stop := some { st with checked := true } } ∧ t.clock = max s.clock (t0 + 200 * ticksPerUs) ∧
        Frame [.clock, .saf] [] s t)) ∧
      (∀ a < 2, (s.safAxis a).moved = true → (s.loop a).posOk = false → Completes .stopCheck s (fun t => t.ampOn a = false ∧
        t.flag F.SAF_EVENTS_AMP_CUT = true ∧ BlockFrame [.clock, .saf, .mot] [0x03, 0x14] s t))) ∧
    (s.flag F.SAF_STATUS_BEAM_PERMIT = false → s.saf.lineStep = none → s.saf.testing = none → Completes .inhibitDelayEnd s (fun t =>
      t.flag F.SAF_STATUS_LINE_A = false ∧ t.flag F.SAF_STATUS_LINE_B = false ∧
      (∀ e, s.saf.trainEnd = some e → t.clock = (s.untilR (e + ticksPerUs)).clock) ∧ Frame [.clock] [R.SAF_STATUS] s t)) ∧
    (∀ p ∈ [(Instr.testLines, 1), (.testAmps, 2), (.testDiag, 3)],
      (s.lockOpen = true → s.coxState = 0 → s.saf.testing = none → Completes p.1 s (fun t => t.saf.testing = some p.2 ∧
        t.ampOn 0 = s.ampOn 0 ∧ t.ampOn 1 = s.ampOn 1 ∧ (p.2 = 1 → t.flag F.SAF_STATUS_LINE_A = false ∧ t.flag F.SAF_STATUS_LINE_B = false) ∧
        (p.2 = 2 → ∀ a < 2, s.ampOn a = true → .ampEnable a false ∈ t.out ∧ .ampEnable a true ∈ t.out) ∧
        (p.2 = 3 → t.fget F.SAF_DIAG_FAILED = s.fget F.SAF_DIAG_FAILED ||| forcedDiags ∧ t.saf.testDiag = s.fget F.SAF_DIAG_FAILED) ∧
        BlockFrame [.clock, .saf, .mot] [0x03, 0x14] s t)) ∧
      (s.lockOpen = true → s.coxState ≠ 0 ∨ s.saf.testing.isSome = true → (s.result R.SAF_TEST_RESULT).vis = none →
        Completes p.1 s (fun t => (t.result R.SAF_TEST_RESULT).vis =
          some { fields := [(R.SAF_TEST_RESULT, 0x20#32)], seen := false, overrun := false } ∧
          t.flag F.SAF_EVENTS_TEST_DONE = true ∧ t.saf.testing = s.saf.testing ∧ BlockFrame [.saf, .results] [0x03] s t)) ∧
      (s.lockOpen = false → Completes p.1 s (fun t => t.flag F.SAF_EVENTS_LOCK_VIOLATION = true ∧ t.saf.testing = s.saf.testing ∧
        BlockFrame [.saf] [0x03] s t))) ∧
    (∀ k step, step < 256 → s.saf.testing = some k → (s.result R.SAF_TEST_RESULT).vis = none → ∀ ok : Bool,
      Completes (.testDone ok step) s (fun t => t.saf.testing = none ∧ t.flag F.SAF_EVENTS_TEST_DONE = true ∧
        (t.result R.SAF_TEST_RESULT).vis = some { fields := [(R.SAF_TEST_RESULT, BitVec.ofNat 32 (if ok then 0 else 16 + step * 256))], seen := false, overrun := false } ∧
        (k ≠ 3 → Frame [.saf, .results] [R.SAF_EVENTS] s t) ∧ (k = 3 → Frame [.saf, .results] [R.SAF_EVENTS, R.SAF_DIAG] s t))) ∧
    Completes .safeStopRelease s (fun t => t.flag F.SAF_STATUS_STOP_IN = false ∧ Frame [] [R.SAF_STATUS] s t)

/-- POWER_ON, RST_N, a supply below its reset level for two samples, a reading of 112 and COLD make a cold reset of their kind: every register but the kept ones is at its Reset column, HBM is undefined, outside the beam map's shadow where power stays, and the keel store keeps its contents. RAIL_EN_RELEASE, RAILS_GOOD, RST_N_HIGH and a cool reading let the boot begin once nothing holds it. WARM keeps HBM but for what a running writer leaves undefined; COURSE_ABORT ends the course and drops the wake buffer; a wrong key is refused. STANDBY powers down and WAKE comes back with its count; POWER_LOST leaves only the keel store. -/
def Obligations.PowerResetsAndStandby : Prop :=
  ∀ s : State, s.pwr.job = none →
    (let cold := fun (k : Nat) (t : State) => k ∈ t.pwr.kinds ∧ AtReset t coldKept ∧ (s.running = none → t.keel = s.keel) ∧
      (∀ a < hbmSize, k ≤ 2 ∨ a < s.shadowBase ∨ s.shadowBase + mapBytes ≤ a → Undefined t a) ∧
      t.ing = State.reset.ing ∧ t.dma = State.reset.dma ∧ t.rtOfs = -t.clock;
    let warmed := fun (t : State) => AtReset t (R.PCI_STATUS :: warmKept) ∧ (WritersStill s → t.hbm = s.hbm ∧ t.keel = s.keel) ∧ t.ing = State.reset.ing ∧
      t.dma = State.reset.dma ∧ t.shape = s.shape
    Completes .powerOn s (fun t => cold 1 t ∧ t.pwr.phase = .coldHeld ∧ t.pwr.railEn = false ∧ t.reg R.PWR_KA_FLAGS = 0#32) ∧
    (s.pwr.phase = .coldHeld → s.pwr.railEn = false → Completes .railEnRelease s (fun t => t.pwr = { s.pwr with railEn := true } ∧
      .railEnable true ∈ t.out ∧ t.clock = max s.clock (s.pwr.releasedAt + 2 * ticksPerMs) ∧ Frame [.clock, .pwr] [] s t)) ∧
    (s.pwr.phase = .coldHeld → s.pwr.railEn = true → Completes .railsGood s (fun t => t.pwr.railsGood = true ∧
      t.pwr.phase = (if s.pwr.rstHigh && !s.pwr.hotHold then .coldBoot else .coldHeld) ∧ Frame [.pwr] [] s t)) ∧
    (s.powered = true → Completes .rstN s (fun t => cold 5 t ∧ t.pwr.phase = .coldHeld ∧ t.pwr.rstHigh = false)) ∧
    (s.powered = false → Completes .rstN s (fun t => t.pwr = { s.pwr with rstHigh := false } ∧ Frame [.pwr] [] s t)) ∧
    Completes .rstNHigh s (fun t => t.pwr.rstHigh = true ∧ Frame [.pwr] [] s t ∧
      (s.pwr.phase = .coldHeld → s.pwr.railsGood = true → s.pwr.hotHold = false → t.pwr.phase = .coldBoot)) ∧
    (∀ rails : List Nat, rails.length = 8 → s.powered = true → s.pwr.phase ≠ .coldHeld →
      ((∀ i < 8, belowWarn s i (rails.getD i 0) = false ∧ belowReset i (rails.getD i 0) = false) → s.flag F.PWR_STATUS_SUPPLY_WARN = false →
        s.flag F.PWR_STATUS_TJ_WARN = false → Completes (.supplySample rails) s (fun t => t.fget F.PWR_VCORE_NOW_MV = min 1023 (rails.getD 3 0) ∧
          t.fget F.PWR_RAIL_LOW_RAILS = 0 ∧ t.flag F.PWR_STATUS_RAILS_GOOD = true ∧ t.saf = { s.saf with supplyLow := false } ∧
          t.clock = (s.clock / (100 * ticksPerNs) + 1) * (100 * ticksPerNs) ∧
          Frame [.clock, .pwr, .saf] [R.PWR_RAIL_LOW, R.PWR_STATUS, R.PWR_VCORE_NOW] s t)) ∧
      (rails.getD 3 0 < 520 → 1 ≤ s.pwr.deepRuns.getD 3 0 → Completes (.supplySample rails) s (fun t => cold 3 t ∧
        t.pwr.phase = .coldHeld ∧ t.pwr.railsGood = false))) ∧
    (∀ temp : Int, -128 ≤ temp → temp < 128 → s.powered = true →
      (s.pwr.phase ≠ .coldHeld → 112 ≤ temp → Completes (.tjRead temp) s (fun t => cold 4 t ∧ t.pwr.phase = .coldHeld ∧ t.pwr.hotHold = true)) ∧
      (s.pwr.phase ≠ .coldHeld → temp < 112 → temp < s.fget F.PWR_TJ_WARN_C → s.flag F.PWR_STATUS_SUPPLY_WARN = false →
        s.pwr.lowRuns.all (fun n => decide (n < 2)) = true → Completes (.tjRead temp) s (fun t => t.sget F.PWR_TJ_NOW = temp ∧
          t.sget F.PWR_TJ_MAX = max temp (s.sget F.PWR_TJ_MAX) ∧ t.flag F.PWR_STATUS_TJ_WARN = false ∧
          Frame [.clock] [R.PWR_TJ, R.PWR_STATUS] s t)) ∧
      (s.pwr.phase = .coldHeld → temp < 95 → Completes (.tjRead temp) s (fun t => t.pwr.hotHold = false ∧
        (s.pwr.railsGood = true → s.pwr.rstHigh = true → t.pwr.phase = .coldBoot) ∧ Frame [.clock, .pwr] [R.PWR_TJ] s t))) ∧
    (s.absorbs = false → Completes (.warm 0x15A3C#32) s (fun t => warmed t ∧ 8 ∈ t.pwr.kinds ∧
      t.pwr.phase = (if s.pwr.perst then .warmHeld else .warmBoot))) ∧
    Completes (.cold 0x25A3C#32) s (fun t => cold 6 t ∧
      t.pwr.phase = (if s.pwr.railsGood && s.pwr.rstHigh && !s.pwr.hotHold then .coldBoot else .coldHeld)) ∧
    (s.pwr.phase = .running → Completes (.courseAbort 0x45A3C#32) s (fun t => t.wak.cells = [] ∧ (∀ x ∈ t.wak.slots, x.2.held = false) ∧
      t.ras.slots = [] ∧ t.bsx.on = false ∧ t.str.readys = [] ∧
      (∀ e, s.running = some e → s.stk.train = none → t.coxState = 4 ∧ t.stk.commits = [] ∧
        ∀ x ∈ t.ing.queue, x.idx = e.idx → x.state ≠ .running) ∧
      (s.running = none → s.activeLanes = [] →
        BlockFrame [.queue, .ras, .bsx, .wak, .str, .free, .mot, .crw, .saf, .bln, .int] [0x03, 0x0E, 0x10, 0x14, 0x16] s t))) ∧
    (∀ v : Word, v.toNat % 65536 ≠ 0x5A3C → ∀ p ∈ [(16, Instr.warm v), (17, .cold v), (18, .courseAbort v)], v.getLsbD p.1 = true →
      Completes p.2 s (fun t => t.flag F.PWR_EVENTS_RESET_REFUSED = true ∧ Frame [] [R.PWR_EVENTS] s t)) ∧
    (s.coxState = 0 → s.running = none → Completes (.standby 0x5B7A true true) s (fun t => t.pwr.phase = .standby ∧ t.pwr.railEn = false ∧
      .railEnable false ∈ t.out ∧ AtReset t coldKept ∧ (∀ a < hbmSize, Undefined t a) ∧ t.keel = s.keel)) ∧
    (∀ wakeN : Bool, s.coxState ≠ 0 ∨ s.running.isSome = true ∨ wakeN = false → Completes (.standby 0x5B7A true wakeN) s (fun t =>
      t.flag F.PWR_EVENTS_STANDBY_REFUSED = true ∧ Frame [] [R.PWR_EVENTS] s t)) ∧
    (∀ key < 65536, ∀ go wakeN : Bool, key ≠ 0x5B7A ∨ go = false → Completes (.standby key go wakeN) s (fun t => Frame [] [] s t)) ∧
    (s.pwr.phase = .standby → Completes .wake s (fun t => cold 2 t ∧ t.pwr.phase = .coldHeld ∧ t.pwr.railEn = true ∧
      .railEnable true ∈ t.out ∧ t.flag F.PWR_KA_FLAGS_FROM_STANDBY = true ∧
      t.fget F.PWR_KA_FLAGS_WAKES = satAdd 8 (s.fget F.PWR_KA_FLAGS_WAKES) 1)) ∧
    (s.pwr.phase ≠ .standby → Completes .wake s (fun t => Frame [] [] s t)) ∧
    Completes .powerLost s (fun t => t.pwr.phase = .off ∧ t.pwr.kinds = [] ∧ t.reg R.PWR_KA_FLAGS = 0#32 ∧ AtReset t coldKept ∧
      (∀ a < hbmSize, Undefined t a) ∧ t.keel = s.keel))

/-- A boot that is due ends with READY, BOOTED and no kind of reset left; with both slots refused it runs on the harbour image and reports the kind of highest precedence. CFG_WRITE_SLOT and CFG_CHECK_IMAGE begin a job, or post BUSY; CFG_JOB_DONE posts the code of the check, and a passed write leaves the image in its slot. The JTAG commands set the instruction; EXTEST, HIGHZ and CLAMP drive the lands only while the cox is idle, and act as BYPASS otherwise. -/
def Obligations.BootsSlotsAndScan : Prop :=
  ∀ s : State,
    (let kept : List Part := [.offset, .inForce, .queue, .slz, .ras, .bsx, .banks, .wak, .int, .str, .msix, .arb, .dma, .keel, .jtag, .results];
    ∀ (testOk : Bool) (ms : Nat), ∀ c, ((∃ ends, c = Instr.coldBoot testOk ends ms ∧ c.wf = true ∧ s.pwr.phase = .coldBoot) ∨
        c = .warmBoot testOk ms ∧ ms ≤ 120 ∧ s.pwr.phase = .warmBoot) →
      Completes c s (fun t => t.pwr.phase = .running ∧ t.pwr.kinds = [] ∧ t.flag F.CFG_STATUS_READY = true ∧
        t.flag F.GEN_EVENTS_BOOTED = true ∧ t.saf.startupOk = testOk) ∧
      (imageCheck (slotRead s 0) ≠ 0 → imageCheck (slotRead s 1) ≠ 0 → Completes c s (fun t => t.flag F.CFG_STATUS_HARBOUR = true ∧
        t.fget F.CFG_STATUS_LOADED = 2 ∧ t.shape = shapeDefault ∧ t.fget F.PWR_LAST_RESET_KIND = s.pwr.kinds.foldl min 8 ∧
        t.clock = max s.clock (s.pwr.releasedAt + ms * ticksPerMs) ∧
        (s.flag F.SAF_STATUS_STOP_IN = false → ∀ p ∈ kept, p.same s t)))) ∧
    (∀ slot < 2, ∀ p ∈ [(false, Instr.cfgWriteSlot slot), (true, .cfgCheckImage slot)],
      (s.pwr.job = none → Completes p.2 s (fun t =>
        t.pwr = { s.pwr with job := some (p.1, slot, s.pair F.CFG_JOB_SRC_LO_ADDR F.CFG_JOB_SRC_HI_ADDR) } ∧
        Frame [.pwr] [R.CFG_JOB_CTL] s t)) ∧
      (s.pwr.job.isSome = true → (s.result R.CFG_JOB_RESULT).vis = none → Completes p.2 s (fun t => t.pwr = s.pwr ∧
        (t.result R.CFG_JOB_RESULT).vis = some { fields := [(R.CFG_JOB_RESULT, 0xC0#32)], seen := false, overrun := false } ∧
        t.flag F.CFG_EVENTS_JOB_DONE = true ∧ Frame [.results] [R.CFG_JOB_CTL, R.CFG_EVENTS] s t))) ∧
    (∀ checkOnly slot src, s.pwr.job = some (checkOnly, slot, src) → (s.result R.CFG_JOB_RESULT).vis = none →
      (let len := (hbmImage s src).length;
      let code := jobCheck s src
      PlainRead s 13 src (if lengthOk len then len else 32) → ∀ ok : Bool,
        Completes (.cfgJobDone ok) s (fun t => t.pwr = { s.pwr with job := none } ∧ t.flag F.CFG_EVENTS_JOB_DONE = true ∧
          (t.result R.CFG_JOB_RESULT).vis = some { fields := [(R.CFG_JOB_RESULT, BitVec.ofNat 32 ((if code ≠ 0 then code
            else if checkOnly || ok then 0 else 11) * 16))], seen := false, overrun := false } ∧
          (code ≠ 0 ∨ checkOnly = true → t.keel = s.keel) ∧
          (code = 0 → checkOnly = false → ok = true →
            (∀ i < len, t.keelByte (slotBase slot + i) = (hbmImage s src).byte i) ∧
            ∀ a, a < slotBase slot ∨ slotBase slot + len ≤ a → t.keelByte a = s.keelByte a) ∧
          Frame [.pwr, .keel, .results, .arb] [R.CFG_EVENTS] s t))) ∧
    Completes .jtagBypass s (fun t => t.jtag = { s.jtag with ir := 0xFF } ∧ Frame [.jtag] [] s t) ∧
    Completes .jtagIdcode s (fun t => t.jtag = { s.jtag with ir := 1 } ∧ t.resp = .data [0x1102496F#32] ∧ Frame [.jtag] [] s t) ∧
    (∀ lands cells : List Bool, lands.length = 62 → cells.length = 62 → Completes (.jtagSamplePreload lands cells) s (fun t =>
      t.jtag = { ir := 2, chain := cells } ∧ .scanOut lands ∈ t.out ∧ Frame [.jtag] [] s t)) ∧
    (let drive := Output.scanDrive (chainOutputs.map (fun i => (i, s.jtag.chain.getD i false)));
    ∀ p ∈ [(3, drive, Instr.jtagExtest), (4, .scanHighz chainOutputs, .jtagHighz), (5, drive, .jtagClamp)],
      (s.coxState = 0 → Completes p.2.2 s (fun t => t.jtag = { s.jtag with ir := p.1 } ∧ p.2.1 ∈ t.out ∧ Frame [.jtag] [] s t)) ∧
      (s.coxState ≠ 0 → Completes p.2.2 s (fun t => t.jtag = { s.jtag with ir := 0xFF } ∧ (∀ o ∈ t.out, (∃ n, o = .msix n) ∨ ∃ b, o = .alert b) ∧
        Frame [.jtag] [] s t)))
end

