-- ==== Sys2Proof/Laws/Sparse.lean ====
section
/-! SUPPORT. What sparse storage does: a read after a write, and the canonical form that every write keeps. -/

namespace Sys2Proof.Machine

variable {α : Type}

/-- Reading past a head whose keys do not exceed a bound below the key sought. -/
theorem sparseGet_dropWhile_le (d : Nat → α) (a c : Nat) (h : a < c) (m : List (Nat × α)) :
    sparseGet d c (m.dropWhile (fun p => decide (p.1 ≤ a))) = sparseGet d c m := by
  induction m with
  | nil => rfl
  | cons p t ih =>
    obtain ⟨b, w⟩ := p
    by_cases hb : b ≤ a
    · have h1 : ¬ c < b := by omega
      have h2 : ¬ c = b := by omega
      simp [List.dropWhile, hb, sparseGet, h1, h2, ih]
    · simp [List.dropWhile, hb]

/-- Nothing at or below a bound is listed once the keys up to it are dropped. -/
theorem sparseGet_dropWhile_ge (d : Nat → α) (a c : Nat) (h : c ≤ a) (m : List (Nat × α)) :
    sparseGet d c (m.dropWhile (fun p => decide (p.1 ≤ a))) = d c := by
  induction m with
  | nil => rfl
  | cons p t ih =>
    obtain ⟨b, w⟩ := p
    by_cases hb : b ≤ a
    · simpa [List.dropWhile, hb] using ih
    · have h1 : c < b := by omega
      simp [List.dropWhile, hb, sparseGet, h1]

/-- A key read after a write of the same key. -/
@[simp] theorem sparseGet_put_self [DecidableEq α] (d : Nat → α) (a : Nat) (v : α) (m : List (Nat × α)) :
    sparseGet d a (sparsePut d a v m) = v := by
  induction m with
  | nil => by_cases h : v = d a <;> simp [sparsePut, sparseGet, h]
  | cons p t ih =>
    obtain ⟨b, w⟩ := p
    by_cases h1 : a < b
    · by_cases hv : v = d a <;> simp [sparsePut, sparseGet, h1, hv]
    · by_cases h2 : a = b
      · subst h2
        by_cases hv : v = d a
        · simp [sparsePut, hv, sparseGet_dropWhile_ge]
        · simp [sparsePut, hv, sparseGet]
      · simp [sparsePut, sparseGet, h1, h2, ih]

/-- A key read after a write of another key. -/
theorem sparseGet_put_ne [DecidableEq α] (d : Nat → α) (a c : Nat) (hc : c ≠ a) (v : α) (m : List (Nat × α)) :
    sparseGet d c (sparsePut d a v m) = sparseGet d c m := by
  induction m with
  | nil => by_cases h : v = d a <;> by_cases h1 : c < a <;> simp [sparsePut, sparseGet, h, h1, hc]
  | cons p t ih =>
    obtain ⟨b, w⟩ := p
    by_cases h1 : a < b
    · by_cases hv : v = d a
      · simp [sparsePut, h1, hv]
      · by_cases hl : c < a
        · have : c < b := by omega
          simp [sparsePut, sparseGet, h1, hv, hl, this]
        · simp [sparsePut, sparseGet, h1, hv, hl, hc]
    · by_cases h2 : a = b
      · subst h2
        by_cases hv : v = d a
        · by_cases hl : c < a
          · simp [sparsePut, hv, sparseGet_dropWhile_ge d a c (by omega), sparseGet, hl]
          · simp [sparsePut, hv, sparseGet_dropWhile_le d a c (by omega), sparseGet, hl, hc]
        · by_cases hl : c < a <;> simp [sparsePut, sparseGet, hv, hl, hc]
      · by_cases hl : c < b
        · simp [sparsePut, sparseGet, h1, h2, hl]
        · by_cases he : c = b <;> simp [sparsePut, sparseGet, h1, h2, hl, he, ih]

/-- A read after a write, either way. -/
theorem sparseGet_put [DecidableEq α] (d : Nat → α) (a c : Nat) (v : α) (m : List (Nat × α)) :
    sparseGet d c (sparsePut d a v m) = if c = a then v else sparseGet d c m := by
  by_cases h : c = a
  · subst h; simp
  · simp [h, sparseGet_put_ne d a c h]

/-- A weaker bound serves as well. -/
theorem sparseWfFrom_weaken [DecidableEq α] (d : Nat → α) (lo hi : Option Nat) (m : List (Nat × α))
    (h : ∀ k, lo = some k → ∃ j, hi = some j ∧ k ≤ j) (w : sparseWfFrom d hi m = true) : sparseWfFrom d lo m = true := by
  cases m with
  | nil => rfl
  | cons p t =>
    obtain ⟨b, v⟩ := p
    simp only [sparseWfFrom, Bool.and_eq_true] at w ⊢
    refine ⟨⟨?_, w.1.2⟩, w.2⟩
    cases lo with
    | none => rfl
    | some k =>
      obtain ⟨j, rfl, hk⟩ := h k rfl
      have := w.1.1
      simp only [decide_eq_true_eq] at this ⊢
      omega

/-- The canonical form survives dropping a head. -/
theorem sparseWfFrom_dropWhile [DecidableEq α] (d : Nat → α) (lo : Option Nat) (q : Nat × α → Bool) (m : List (Nat × α))
    (w : sparseWfFrom d lo m = true) : sparseWfFrom d lo (m.dropWhile q) = true := by
  induction m generalizing lo with
  | nil => rfl
  | cons p t ih =>
    obtain ⟨b, v⟩ := p
    by_cases hq : q (b, v) = true
    · simp only [List.dropWhile, hq]
      simp only [sparseWfFrom, Bool.and_eq_true] at w
      refine sparseWfFrom_weaken d lo (some b) _ ?_ (ih (some b) w.2)
      intro k hk
      subst hk
      have := w.1.1
      simp only [decide_eq_true_eq] at this
      exact ⟨b, rfl, by omega⟩
    · simp only [List.dropWhile, hq]
      exact w

/-- A write above the bound keeps the canonical form. -/
theorem sparseWfFrom_put [DecidableEq α] (d : Nat → α) (lo : Option Nat) (a : Nat) (v : α) (m : List (Nat × α))
    (hl : ∀ k, lo = some k → k < a) (w : sparseWfFrom d lo m = true) : sparseWfFrom d lo (sparsePut d a v m) = true := by
  induction m generalizing lo with
  | nil =>
    by_cases hv : v = d a
    · simp [sparsePut, hv, sparseWfFrom]
    · simp only [sparsePut, hv, if_false, sparseWfFrom, Bool.and_true, Bool.and_eq_true]
      exact ⟨by cases lo with | none => rfl | some k => simpa using hl k rfl, by simpa using hv⟩
  | cons p t ih =>
    obtain ⟨b, u⟩ := p
    have w' := w
    simp only [sparseWfFrom, Bool.and_eq_true] at w'
    by_cases h1 : a < b
    · by_cases hv : v = d a
      · simpa [sparsePut, h1, hv] using w
      · simp only [sparsePut, h1, hv, if_true, if_false, sparseWfFrom, Bool.and_eq_true]
        exact ⟨⟨by cases lo with | none => rfl | some k => simpa using hl k rfl, by simpa using hv⟩, ⟨by simp, w'.1.2⟩, w'.2⟩
    · by_cases h2 : a = b
      · subst h2
        by_cases hv : v = d a
        · simp only [sparsePut, Nat.lt_irrefl, if_false, if_true, hv]
          refine sparseWfFrom_weaken d lo (some a) _ ?_ (sparseWfFrom_dropWhile d (some a) _ t w'.2)
          intro k hk
          exact ⟨a, rfl, Nat.le_of_lt (hl k hk)⟩
        · simp only [sparsePut, Nat.lt_irrefl, if_false, if_true, hv, sparseWfFrom, Bool.and_eq_true]
          exact ⟨⟨by cases lo with | none => rfl | some k => simpa using hl k rfl, by simpa using hv⟩, w'.2⟩
      · simp only [sparsePut, h1, h2, if_false, sparseWfFrom, Bool.and_eq_true]
        refine ⟨⟨w'.1.1, w'.1.2⟩, ih (some b) ?_ w'.2⟩
        intro k hk
        cases hk
        omega

/-- A write keeps the canonical form. -/
theorem sparseWf_put [DecidableEq α] (d : Nat → α) (a : Nat) (v : α) (m : List (Nat × α)) (w : sparseWf d m = true) :
    sparseWf d (sparsePut d a v m) = true :=
  sparseWfFrom_put d none a v m (by intro k hk; cases hk) w

/-- Writes one after another keep the canonical form. -/
theorem sparseWf_putAll [DecidableEq α] (d : Nat → α) (l m : List (Nat × α)) (w : sparseWf d m = true) : sparseWf d (sparsePutAll d m l) = true := by
  induction l generalizing m with
  | nil => exact w
  | cons p t ih => exact ih _ (sparseWf_put d p.1 p.2 m w)

/-- A key that none of the writes names reads as before. -/
theorem sparseGet_putAll_ne [DecidableEq α] (d : Nat → α) (c : Nat) (l m : List (Nat × α)) (h : ∀ p ∈ l, p.1 ≠ c) :
    sparseGet d c (sparsePutAll d m l) = sparseGet d c m := by
  induction l generalizing m with
  | nil => rfl
  | cons p t ih =>
    have hp : c ≠ p.1 := fun e => h p (by simp) e.symm
    rw [show sparsePutAll d m (p :: t) = sparsePutAll d (sparsePut d p.1 p.2 m) t from rfl,
      ih _ (fun q hq => h q (by simp [hq])), sparseGet_put_ne d p.1 c hp]

/-- Dropping listed keys keeps the canonical form. -/
theorem sparseWfFrom_filter [DecidableEq α] (d : Nat → α) (lo : Option Nat) (q : Nat × α → Bool) (m : List (Nat × α))
    (w : sparseWfFrom d lo m = true) : sparseWfFrom d lo (m.filter q) = true := by
  induction m generalizing lo with
  | nil => rfl
  | cons p t ih =>
    obtain ⟨b, v⟩ := p
    simp only [sparseWfFrom, Bool.and_eq_true] at w
    by_cases hq : q (b, v) = true
    · simp only [List.filter, hq, sparseWfFrom, Bool.and_eq_true]
      exact ⟨w.1, ih (some b) w.2⟩
    · simp only [List.filter, hq]
      refine sparseWfFrom_weaken d lo (some b) _ ?_ (ih (some b) w.2)
      intro k hk
      subst hk
      have := w.1.1
      simp only [decide_eq_true_eq] at this
      exact ⟨b, rfl, by omega⟩

end Sys2Proof.Machine
end

