-- ==== Sys2Proof/Laws/Fields.lean ====
section
/-! SUPPORT. What the register and field operations do (R1, R3): a field after a write of it, of another field, of another register. -/

namespace Sys2Proof.Machine

/-- A field after a write of it, cut to its width. -/
theorem fieldOf_withField (lo w v : Nat) (x : Word) (h : lo + w ≤ 32) : fieldOf lo w (withField lo w v x) = v % 2 ^ w := by
  have hx : x.toNat < 2 ^ 32 := x.isLt
  have e32 : (2 : Nat) ^ 32 = 2 ^ (lo + w) * 2 ^ (32 - (lo + w)) := by rw [← Nat.pow_add]; congr 1; omega
  have hlow : x.toNat % 2 ^ lo < 2 ^ lo := Nat.mod_lt _ (by positivity)
  have hv : v % 2 ^ w < 2 ^ w := Nat.mod_lt _ (by positivity)
  have hq : x.toNat / 2 ^ (lo + w) < 2 ^ (32 - (lo + w)) := by
    apply Nat.div_lt_of_lt_mul
    rw [← e32]; exact hx
  have hsum : x.toNat % 2 ^ lo + v % 2 ^ w * 2 ^ lo < 2 ^ (lo + w) := by
    rw [Nat.pow_add]
    calc x.toNat % 2 ^ lo + v % 2 ^ w * 2 ^ lo < 2 ^ lo + v % 2 ^ w * 2 ^ lo := by omega
      _ = (v % 2 ^ w + 1) * 2 ^ lo := by ring
      _ ≤ 2 ^ w * 2 ^ lo := Nat.mul_le_mul_right _ hv
      _ = 2 ^ lo * 2 ^ w := by ring
  have hlt : x.toNat % 2 ^ lo + v % 2 ^ w * 2 ^ lo + x.toNat / 2 ^ (lo + w) * 2 ^ (lo + w) < 2 ^ 32 := by
    rw [e32]
    calc _ < 2 ^ (lo + w) + x.toNat / 2 ^ (lo + w) * 2 ^ (lo + w) := by omega
      _ = (x.toNat / 2 ^ (lo + w) + 1) * 2 ^ (lo + w) := by ring
      _ ≤ 2 ^ (32 - (lo + w)) * 2 ^ (lo + w) := Nat.mul_le_mul_right _ hq
      _ = _ := by ring
  unfold fieldOf withField
  rw [BitVec.toNat_ofNat, Nat.mod_eq_of_lt hlt]
  have : x.toNat % 2 ^ lo + v % 2 ^ w * 2 ^ lo + x.toNat / 2 ^ (lo + w) * 2 ^ (lo + w)
      = x.toNat % 2 ^ lo + 2 ^ lo * (v % 2 ^ w + 2 ^ w * (x.toNat / 2 ^ (lo + w))) := by
    rw [Nat.pow_add]; ring
  rw [this, Nat.add_mul_div_left _ _ (by positivity), Nat.div_eq_of_lt hlow, Nat.zero_add, Nat.add_mul_mod_self_left,
    Nat.mod_mod]

/-- A bit of a register word after a write of a field that does not hold it. -/
theorem withField_testBit (lo w v : Nat) (x : Word) (i : Nat) (hi : i < lo ∨ lo + w ≤ i) :
    (withField lo w v x).toNat.testBit i = x.toNat.testBit i := by
  have hx : x.toNat < 2 ^ 32 := x.isLt
  have e : withField lo w v x = BitVec.ofNat 32
      ((x.toNat % 2 ^ lo ||| (v % 2 ^ w) <<< lo) ||| (x.toNat / 2 ^ (lo + w)) <<< (lo + w)) := by
    unfold withField
    congr 1
    have h1 : x.toNat % 2 ^ lo + v % 2 ^ w * 2 ^ lo = x.toNat % 2 ^ lo ||| (v % 2 ^ w) <<< lo := by
      rw [Nat.lor_comm, Nat.shiftLeft_eq, ← Nat.shiftLeft_eq, ← Nat.shiftLeft_add_eq_or_of_lt (Nat.mod_lt _ (by positivity)),
        Nat.shiftLeft_eq, Nat.add_comm]
    have h2 : x.toNat % 2 ^ lo ||| (v % 2 ^ w) <<< lo < 2 ^ (lo + w) := by
      apply Nat.or_lt_two_pow
      · exact Nat.lt_of_lt_of_le (Nat.mod_lt _ (by positivity)) (Nat.pow_le_pow_right (by omega) (by omega))
      · rw [Nat.shiftLeft_eq, Nat.pow_add, Nat.mul_comm]
        exact Nat.mul_lt_mul_of_pos_left (Nat.mod_lt _ (by positivity)) (by positivity)
    have h3 := Nat.shiftLeft_add_eq_or_of_lt h2 (x.toNat / 2 ^ (lo + w))
    rw [h1, ← Nat.shiftLeft_eq (x.toNat / 2 ^ (lo + w)), Nat.add_comm, h3, Nat.lor_comm]
  rw [e, BitVec.toNat_ofNat, Nat.testBit_mod_two_pow]
  by_cases h32 : i < 32
  · simp only [h32, decide_true, Bool.true_and, Nat.testBit_or, Nat.testBit_mod_two_pow, Nat.testBit_shiftLeft, Nat.testBit_div_two_pow]
    rcases hi with hi | hi
    · simp [hi, show ¬ lo ≤ i by omega, show ¬ lo + w ≤ i by omega]
    · simp [show ¬ i < lo by omega, show lo ≤ i by omega, hi, show ¬ i - lo < w by omega]
  · have : x.toNat.testBit i = false :=
      Nat.testBit_lt_two_pow (Nat.lt_of_lt_of_le hx (Nat.pow_le_pow_right (by omega) (by omega)))
    simp [h32, this]

/-- A field read bit by bit. -/
theorem fieldOf_testBit (lo w : Nat) (x : Word) (i : Nat) : (fieldOf lo w x).testBit i = (decide (i < w) && x.toNat.testBit (i + lo)) := by
  simp [fieldOf, Nat.testBit_mod_two_pow, Nat.testBit_div_two_pow]

/-- A field after a write of another field of the same register. -/
theorem fieldOf_withField_other (lo w lo' w' v : Nat) (x : Word) (hd : lo + w ≤ lo' ∨ lo' + w' ≤ lo) :
    fieldOf lo w (withField lo' w' v x) = fieldOf lo w x := by
  apply Nat.eq_of_testBit_eq
  intro i
  rw [fieldOf_testBit, fieldOf_testBit]
  by_cases hi : i < w
  · rw [withField_testBit lo' w' v x (i + lo) (by omega)]
  · simp [hi]

/-- A register after a write of it. -/
@[simp] theorem State.reg_setReg_self (s : State) (a : Nat) (w : Word) : (s.setReg a w).reg a = w := by
  simp [State.reg, State.setReg]

/-- A register after a write of another. -/
theorem State.reg_setReg_ne (s : State) (a b : Nat) (w : Word) (h : b ≠ a) : (s.setReg a w).reg b = s.reg b := by
  simp [State.reg, State.setReg, sparseGet_put_ne resetOf a b h]

/-- A register after a field of it is set. -/
theorem State.reg_fset_self (s : State) (f : Fld) (v : Nat) : (s.fset f v).reg f.addr = withField f.lo f.width v (s.reg f.addr) := by
  simp [State.fset]

/-- A register after a field of another is set. -/
theorem State.reg_fset_ne (s : State) (f : Fld) (v b : Nat) (h : b ≠ f.addr) : (s.fset f v).reg b = s.reg b := by
  simp [State.fset, State.reg_setReg_ne _ _ _ _ h]

/-- A field after a write of it. -/
theorem State.fget_fset_self (s : State) (f : Fld) (v : Nat) (h : f.lo + f.width ≤ 32) : (s.fset f v).fget f = v % 2 ^ f.width := by
  simp [State.fget, State.reg_fset_self, fieldOf_withField _ _ _ _ h]

/-- A field after a write of a field that shares no bit with it. -/
theorem State.fget_fset_other (s : State) (f g : Fld) (v : Nat)
    (hd : g.addr ≠ f.addr ∨ g.lo + g.width ≤ f.lo ∨ f.lo + f.width ≤ g.lo) : (s.fset f v).fget g = s.fget g := by
  unfold State.fget
  by_cases ha : g.addr = f.addr
  · rw [ha, State.reg_fset_self, fieldOf_withField_other _ _ _ _ _ _ (by omega)]
  · rw [State.reg_fset_ne _ _ _ _ ha]

/-- A field after a whole register is written. -/
theorem State.fget_setReg_self (s : State) (f : Fld) (w : Word) : (s.setReg f.addr w).fget f = fieldOf f.lo f.width w := by
  simp [State.fget]

/-- A field after another register is written. -/
theorem State.fget_setReg_ne (s : State) (f : Fld) (a : Nat) (w : Word) (h : f.addr ≠ a) : (s.setReg a w).fget f = s.fget f := by
  simp [State.fget, State.reg_setReg_ne _ _ _ _ h]

/-- A one-bit field raised reads as set. -/
theorem State.flag_raise_self (s : State) (f : Fld) (h : f.lo + f.width ≤ 32) (hw : 0 < f.width) : (s.raise f).flag f = true := by
  have h1 : 1 < 2 ^ f.width := Nat.one_lt_two_pow (by omega)
  simp only [State.flag, State.raise, State.fget_fset_self _ _ _ h]
  rw [Nat.mod_eq_of_lt (by omega)]
  simp only [bne_iff_ne, ne_eq]
  omega

/-- A field cleared reads 0. -/
theorem State.fget_clear_self (s : State) (f : Fld) (h : f.lo + f.width ≤ 32) : (s.clear f).fget f = 0 := by
  simp [State.clear, State.fget_fset_self _ _ _ h]

end Sys2Proof.Machine
end

