-- ==== Sys2Proof/Laws/State.lean ====
section
/-! SUPPORT. What the named updates of the state leave alone: one lemma per field and update. -/

namespace Sys2Proof.Machine

/-! ### `State.setReg` -/

@[simp] theorem State.setReg_clock (s : State) (a : Nat) (w : Word) : (s.setReg a w).clock = s.clock := rfl
@[simp] theorem State.setReg_rtOfs (s : State) (a : Nat) (w : Word) : (s.setReg a w).rtOfs = s.rtOfs := rfl
@[simp] theorem State.setReg_inf (s : State) (a : Nat) (w : Word) : (s.setReg a w).inf = s.inf := rfl
@[simp] theorem State.setReg_latch (s : State) (a : Nat) (w : Word) : (s.setReg a w).latch = s.latch := rfl
@[simp] theorem State.setReg_shape (s : State) (a : Nat) (w : Word) : (s.setReg a w).shape = s.shape := rfl
@[simp] theorem State.setReg_ing (s : State) (a : Nat) (w : Word) : (s.setReg a w).ing = s.ing := rfl
@[simp] theorem State.setReg_slz (s : State) (a : Nat) (w : Word) : (s.setReg a w).slz = s.slz := rfl
@[simp] theorem State.setReg_ras (s : State) (a : Nat) (w : Word) : (s.setReg a w).ras = s.ras := rfl
@[simp] theorem State.setReg_bsx (s : State) (a : Nat) (w : Word) : (s.setReg a w).bsx = s.bsx := rfl
@[simp] theorem State.setReg_banks (s : State) (a : Nat) (w : Word) : (s.setReg a w).banks = s.banks := rfl
@[simp] theorem State.setReg_crw (s : State) (a : Nat) (w : Word) : (s.setReg a w).crw = s.crw := rfl
@[simp] theorem State.setReg_wak (s : State) (a : Nat) (w : Word) : (s.setReg a w).wak = s.wak := rfl
@[simp] theorem State.setReg_bln (s : State) (a : Nat) (w : Word) : (s.setReg a w).bln = s.bln := rfl
@[simp] theorem State.setReg_stk (s : State) (a : Nat) (w : Word) : (s.setReg a w).stk = s.stk := rfl
@[simp] theorem State.setReg_cox (s : State) (a : Nat) (w : Word) : (s.setReg a w).cox = s.cox := rfl
@[simp] theorem State.setReg_int (s : State) (a : Nat) (w : Word) : (s.setReg a w).int = s.int := rfl
@[simp] theorem State.setReg_hbm (s : State) (a : Nat) (w : Word) : (s.setReg a w).hbm = s.hbm := rfl
@[simp] theorem State.setReg_str (s : State) (a : Nat) (w : Word) : (s.setReg a w).str = s.str := rfl
@[simp] theorem State.setReg_evt (s : State) (a : Nat) (w : Word) : (s.setReg a w).evt = s.evt := rfl
@[simp] theorem State.setReg_msix (s : State) (a : Nat) (w : Word) : (s.setReg a w).msix = s.msix := rfl
@[simp] theorem State.setReg_log (s : State) (a : Nat) (w : Word) : (s.setReg a w).log = s.log := rfl
@[simp] theorem State.setReg_mot (s : State) (a : Nat) (w : Word) : (s.setReg a w).mot = s.mot := rfl
@[simp] theorem State.setReg_saf (s : State) (a : Nat) (w : Word) : (s.setReg a w).saf = s.saf := rfl
@[simp] theorem State.setReg_mem (s : State) (a : Nat) (w : Word) : (s.setReg a w).mem = s.mem := rfl
@[simp] theorem State.setReg_arb (s : State) (a : Nat) (w : Word) : (s.setReg a w).arb = s.arb := rfl
@[simp] theorem State.setReg_dma (s : State) (a : Nat) (w : Word) : (s.setReg a w).dma = s.dma := rfl
@[simp] theorem State.setReg_moverTurn (s : State) (a : Nat) (w : Word) : (s.setReg a w).moverTurn = s.moverTurn := rfl
@[simp] theorem State.setReg_pwr (s : State) (a : Nat) (w : Word) : (s.setReg a w).pwr = s.pwr := rfl
@[simp] theorem State.setReg_keel (s : State) (a : Nat) (w : Word) : (s.setReg a w).keel = s.keel := rfl
@[simp] theorem State.setReg_jtag (s : State) (a : Nat) (w : Word) : (s.setReg a w).jtag = s.jtag := rfl
@[simp] theorem State.setReg_results (s : State) (a : Nat) (w : Word) : (s.setReg a w).results = s.results := rfl
@[simp] theorem State.setReg_free (s : State) (a : Nat) (w : Word) : (s.setReg a w).free = s.free := rfl
@[simp] theorem State.setReg_out (s : State) (a : Nat) (w : Word) : (s.setReg a w).out = s.out := rfl
@[simp] theorem State.setReg_resp (s : State) (a : Nat) (w : Word) : (s.setReg a w).resp = s.resp := rfl
@[simp] theorem State.setReg_pending (s : State) (a : Nat) (w : Word) : (s.setReg a w).pending = s.pending := rfl

/-! ### `State.fset` -/

@[simp] theorem State.fset_clock (s : State) (f : Fld) (v : Nat) : (s.fset f v).clock = s.clock := rfl
@[simp] theorem State.fset_rtOfs (s : State) (f : Fld) (v : Nat) : (s.fset f v).rtOfs = s.rtOfs := rfl
@[simp] theorem State.fset_inf (s : State) (f : Fld) (v : Nat) : (s.fset f v).inf = s.inf := rfl
@[simp] theorem State.fset_latch (s : State) (f : Fld) (v : Nat) : (s.fset f v).latch = s.latch := rfl
@[simp] theorem State.fset_shape (s : State) (f : Fld) (v : Nat) : (s.fset f v).shape = s.shape := rfl
@[simp] theorem State.fset_ing (s : State) (f : Fld) (v : Nat) : (s.fset f v).ing = s.ing := rfl
@[simp] theorem State.fset_slz (s : State) (f : Fld) (v : Nat) : (s.fset f v).slz = s.slz := rfl
@[simp] theorem State.fset_ras (s : State) (f : Fld) (v : Nat) : (s.fset f v).ras = s.ras := rfl
@[simp] theorem State.fset_bsx (s : State) (f : Fld) (v : Nat) : (s.fset f v).bsx = s.bsx := rfl
@[simp] theorem State.fset_banks (s : State) (f : Fld) (v : Nat) : (s.fset f v).banks = s.banks := rfl
@[simp] theorem State.fset_crw (s : State) (f : Fld) (v : Nat) : (s.fset f v).crw = s.crw := rfl
@[simp] theorem State.fset_wak (s : State) (f : Fld) (v : Nat) : (s.fset f v).wak = s.wak := rfl
@[simp] theorem State.fset_bln (s : State) (f : Fld) (v : Nat) : (s.fset f v).bln = s.bln := rfl
@[simp] theorem State.fset_stk (s : State) (f : Fld) (v : Nat) : (s.fset f v).stk = s.stk := rfl
@[simp] theorem State.fset_cox (s : State) (f : Fld) (v : Nat) : (s.fset f v).cox = s.cox := rfl
@[simp] theorem State.fset_int (s : State) (f : Fld) (v : Nat) : (s.fset f v).int = s.int := rfl
@[simp] theorem State.fset_hbm (s : State) (f : Fld) (v : Nat) : (s.fset f v).hbm = s.hbm := rfl
@[simp] theorem State.fset_str (s : State) (f : Fld) (v : Nat) : (s.fset f v).str = s.str := rfl
@[simp] theorem State.fset_evt (s : State) (f : Fld) (v : Nat) : (s.fset f v).evt = s.evt := rfl
@[simp] theorem State.fset_msix (s : State) (f : Fld) (v : Nat) : (s.fset f v).msix = s.msix := rfl
@[simp] theorem State.fset_log (s : State) (f : Fld) (v : Nat) : (s.fset f v).log = s.log := rfl
@[simp] theorem State.fset_mot (s : State) (f : Fld) (v : Nat) : (s.fset f v).mot = s.mot := rfl
@[simp] theorem State.fset_saf (s : State) (f : Fld) (v : Nat) : (s.fset f v).saf = s.saf := rfl
@[simp] theorem State.fset_mem (s : State) (f : Fld) (v : Nat) : (s.fset f v).mem = s.mem := rfl
@[simp] theorem State.fset_arb (s : State) (f : Fld) (v : Nat) : (s.fset f v).arb = s.arb := rfl
@[simp] theorem State.fset_dma (s : State) (f : Fld) (v : Nat) : (s.fset f v).dma = s.dma := rfl
@[simp] theorem State.fset_moverTurn (s : State) (f : Fld) (v : Nat) : (s.fset f v).moverTurn = s.moverTurn := rfl
@[simp] theorem State.fset_pwr (s : State) (f : Fld) (v : Nat) : (s.fset f v).pwr = s.pwr := rfl
@[simp] theorem State.fset_keel (s : State) (f : Fld) (v : Nat) : (s.fset f v).keel = s.keel := rfl
@[simp] theorem State.fset_jtag (s : State) (f : Fld) (v : Nat) : (s.fset f v).jtag = s.jtag := rfl
@[simp] theorem State.fset_results (s : State) (f : Fld) (v : Nat) : (s.fset f v).results = s.results := rfl
@[simp] theorem State.fset_free (s : State) (f : Fld) (v : Nat) : (s.fset f v).free = s.free := rfl
@[simp] theorem State.fset_out (s : State) (f : Fld) (v : Nat) : (s.fset f v).out = s.out := rfl
@[simp] theorem State.fset_resp (s : State) (f : Fld) (v : Nat) : (s.fset f v).resp = s.resp := rfl
@[simp] theorem State.fset_pending (s : State) (f : Fld) (v : Nat) : (s.fset f v).pending = s.pending := rfl

/-! ### `State.fsetI` -/

@[simp] theorem State.fsetI_clock (s : State) (f : Fld) (v : Int) : (s.fsetI f v).clock = s.clock := rfl
@[simp] theorem State.fsetI_rtOfs (s : State) (f : Fld) (v : Int) : (s.fsetI f v).rtOfs = s.rtOfs := rfl
@[simp] theorem State.fsetI_inf (s : State) (f : Fld) (v : Int) : (s.fsetI f v).inf = s.inf := rfl
@[simp] theorem State.fsetI_latch (s : State) (f : Fld) (v : Int) : (s.fsetI f v).latch = s.latch := rfl
@[simp] theorem State.fsetI_shape (s : State) (f : Fld) (v : Int) : (s.fsetI f v).shape = s.shape := rfl
@[simp] theorem State.fsetI_ing (s : State) (f : Fld) (v : Int) : (s.fsetI f v).ing = s.ing := rfl
@[simp] theorem State.fsetI_slz (s : State) (f : Fld) (v : Int) : (s.fsetI f v).slz = s.slz := rfl
@[simp] theorem State.fsetI_ras (s : State) (f : Fld) (v : Int) : (s.fsetI f v).ras = s.ras := rfl
@[simp] theorem State.fsetI_bsx (s : State) (f : Fld) (v : Int) : (s.fsetI f v).bsx = s.bsx := rfl
@[simp] theorem State.fsetI_banks (s : State) (f : Fld) (v : Int) : (s.fsetI f v).banks = s.banks := rfl
@[simp] theorem State.fsetI_crw (s : State) (f : Fld) (v : Int) : (s.fsetI f v).crw = s.crw := rfl
@[simp] theorem State.fsetI_wak (s : State) (f : Fld) (v : Int) : (s.fsetI f v).wak = s.wak := rfl
@[simp] theorem State.fsetI_bln (s : State) (f : Fld) (v : Int) : (s.fsetI f v).bln = s.bln := rfl
@[simp] theorem State.fsetI_stk (s : State) (f : Fld) (v : Int) : (s.fsetI f v).stk = s.stk := rfl
@[simp] theorem State.fsetI_cox (s : State) (f : Fld) (v : Int) : (s.fsetI f v).cox = s.cox := rfl
@[simp] theorem State.fsetI_int (s : State) (f : Fld) (v : Int) : (s.fsetI f v).int = s.int := rfl
@[simp] theorem State.fsetI_hbm (s : State) (f : Fld) (v : Int) : (s.fsetI f v).hbm = s.hbm := rfl
@[simp] theorem State.fsetI_str (s : State) (f : Fld) (v : Int) : (s.fsetI f v).str = s.str := rfl
@[simp] theorem State.fsetI_evt (s : State) (f : Fld) (v : Int) : (s.fsetI f v).evt = s.evt := rfl
@[simp] theorem State.fsetI_msix (s : State) (f : Fld) (v : Int) : (s.fsetI f v).msix = s.msix := rfl
@[simp] theorem State.fsetI_log (s : State) (f : Fld) (v : Int) : (s.fsetI f v).log = s.log := rfl
@[simp] theorem State.fsetI_mot (s : State) (f : Fld) (v : Int) : (s.fsetI f v).mot = s.mot := rfl
@[simp] theorem State.fsetI_saf (s : State) (f : Fld) (v : Int) : (s.fsetI f v).saf = s.saf := rfl
@[simp] theorem State.fsetI_mem (s : State) (f : Fld) (v : Int) : (s.fsetI f v).mem = s.mem := rfl
@[simp] theorem State.fsetI_arb (s : State) (f : Fld) (v : Int) : (s.fsetI f v).arb = s.arb := rfl
@[simp] theorem State.fsetI_dma (s : State) (f : Fld) (v : Int) : (s.fsetI f v).dma = s.dma := rfl
@[simp] theorem State.fsetI_moverTurn (s : State) (f : Fld) (v : Int) : (s.fsetI f v).moverTurn = s.moverTurn := rfl
@[simp] theorem State.fsetI_pwr (s : State) (f : Fld) (v : Int) : (s.fsetI f v).pwr = s.pwr := rfl
@[simp] theorem State.fsetI_keel (s : State) (f : Fld) (v : Int) : (s.fsetI f v).keel = s.keel := rfl
@[simp] theorem State.fsetI_jtag (s : State) (f : Fld) (v : Int) : (s.fsetI f v).jtag = s.jtag := rfl
@[simp] theorem State.fsetI_results (s : State) (f : Fld) (v : Int) : (s.fsetI f v).results = s.results := rfl
@[simp] theorem State.fsetI_free (s : State) (f : Fld) (v : Int) : (s.fsetI f v).free = s.free := rfl
@[simp] theorem State.fsetI_out (s : State) (f : Fld) (v : Int) : (s.fsetI f v).out = s.out := rfl
@[simp] theorem State.fsetI_resp (s : State) (f : Fld) (v : Int) : (s.fsetI f v).resp = s.resp := rfl
@[simp] theorem State.fsetI_pending (s : State) (f : Fld) (v : Int) : (s.fsetI f v).pending = s.pending := rfl

/-! ### `State.raise` -/

@[simp] theorem State.raise_clock (s : State) (f : Fld) : (s.raise f).clock = s.clock := rfl
@[simp] theorem State.raise_rtOfs (s : State) (f : Fld) : (s.raise f).rtOfs = s.rtOfs := rfl
@[simp] theorem State.raise_inf (s : State) (f : Fld) : (s.raise f).inf = s.inf := rfl
@[simp] theorem State.raise_latch (s : State) (f : Fld) : (s.raise f).latch = s.latch := rfl
@[simp] theorem State.raise_shape (s : State) (f : Fld) : (s.raise f).shape = s.shape := rfl
@[simp] theorem State.raise_ing (s : State) (f : Fld) : (s.raise f).ing = s.ing := rfl
@[simp] theorem State.raise_slz (s : State) (f : Fld) : (s.raise f).slz = s.slz := rfl
@[simp] theorem State.raise_ras (s : State) (f : Fld) : (s.raise f).ras = s.ras := rfl
@[simp] theorem State.raise_bsx (s : State) (f : Fld) : (s.raise f).bsx = s.bsx := rfl
@[simp] theorem State.raise_banks (s : State) (f : Fld) : (s.raise f).banks = s.banks := rfl
@[simp] theorem State.raise_crw (s : State) (f : Fld) : (s.raise f).crw = s.crw := rfl
@[simp] theorem State.raise_wak (s : State) (f : Fld) : (s.raise f).wak = s.wak := rfl
@[simp] theorem State.raise_bln (s : State) (f : Fld) : (s.raise f).bln = s.bln := rfl
@[simp] theorem State.raise_stk (s : State) (f : Fld) : (s.raise f).stk = s.stk := rfl
@[simp] theorem State.raise_cox (s : State) (f : Fld) : (s.raise f).cox = s.cox := rfl
@[simp] theorem State.raise_int (s : State) (f : Fld) : (s.raise f).int = s.int := rfl
@[simp] theorem State.raise_hbm (s : State) (f : Fld) : (s.raise f).hbm = s.hbm := rfl
@[simp] theorem State.raise_str (s : State) (f : Fld) : (s.raise f).str = s.str := rfl
@[simp] theorem State.raise_evt (s : State) (f : Fld) : (s.raise f).evt = s.evt := rfl
@[simp] theorem State.raise_msix (s : State) (f : Fld) : (s.raise f).msix = s.msix := rfl
@[simp] theorem State.raise_log (s : State) (f : Fld) : (s.raise f).log = s.log := rfl
@[simp] theorem State.raise_mot (s : State) (f : Fld) : (s.raise f).mot = s.mot := rfl
@[simp] theorem State.raise_saf (s : State) (f : Fld) : (s.raise f).saf = s.saf := rfl
@[simp] theorem State.raise_mem (s : State) (f : Fld) : (s.raise f).mem = s.mem := rfl
@[simp] theorem State.raise_arb (s : State) (f : Fld) : (s.raise f).arb = s.arb := rfl
@[simp] theorem State.raise_dma (s : State) (f : Fld) : (s.raise f).dma = s.dma := rfl
@[simp] theorem State.raise_moverTurn (s : State) (f : Fld) : (s.raise f).moverTurn = s.moverTurn := rfl
@[simp] theorem State.raise_pwr (s : State) (f : Fld) : (s.raise f).pwr = s.pwr := rfl
@[simp] theorem State.raise_keel (s : State) (f : Fld) : (s.raise f).keel = s.keel := rfl
@[simp] theorem State.raise_jtag (s : State) (f : Fld) : (s.raise f).jtag = s.jtag := rfl
@[simp] theorem State.raise_results (s : State) (f : Fld) : (s.raise f).results = s.results := rfl
@[simp] theorem State.raise_free (s : State) (f : Fld) : (s.raise f).free = s.free := rfl
@[simp] theorem State.raise_out (s : State) (f : Fld) : (s.raise f).out = s.out := rfl
@[simp] theorem State.raise_resp (s : State) (f : Fld) : (s.raise f).resp = s.resp := rfl
@[simp] theorem State.raise_pending (s : State) (f : Fld) : (s.raise f).pending = s.pending := rfl

/-! ### `State.clear` -/

@[simp] theorem State.clear_clock (s : State) (f : Fld) : (s.clear f).clock = s.clock := rfl
@[simp] theorem State.clear_rtOfs (s : State) (f : Fld) : (s.clear f).rtOfs = s.rtOfs := rfl
@[simp] theorem State.clear_inf (s : State) (f : Fld) : (s.clear f).inf = s.inf := rfl
@[simp] theorem State.clear_latch (s : State) (f : Fld) : (s.clear f).latch = s.latch := rfl
@[simp] theorem State.clear_shape (s : State) (f : Fld) : (s.clear f).shape = s.shape := rfl
@[simp] theorem State.clear_ing (s : State) (f : Fld) : (s.clear f).ing = s.ing := rfl
@[simp] theorem State.clear_slz (s : State) (f : Fld) : (s.clear f).slz = s.slz := rfl
@[simp] theorem State.clear_ras (s : State) (f : Fld) : (s.clear f).ras = s.ras := rfl
@[simp] theorem State.clear_bsx (s : State) (f : Fld) : (s.clear f).bsx = s.bsx := rfl
@[simp] theorem State.clear_banks (s : State) (f : Fld) : (s.clear f).banks = s.banks := rfl
@[simp] theorem State.clear_crw (s : State) (f : Fld) : (s.clear f).crw = s.crw := rfl
@[simp] theorem State.clear_wak (s : State) (f : Fld) : (s.clear f).wak = s.wak := rfl
@[simp] theorem State.clear_bln (s : State) (f : Fld) : (s.clear f).bln = s.bln := rfl
@[simp] theorem State.clear_stk (s : State) (f : Fld) : (s.clear f).stk = s.stk := rfl
@[simp] theorem State.clear_cox (s : State) (f : Fld) : (s.clear f).cox = s.cox := rfl
@[simp] theorem State.clear_int (s : State) (f : Fld) : (s.clear f).int = s.int := rfl
@[simp] theorem State.clear_hbm (s : State) (f : Fld) : (s.clear f).hbm = s.hbm := rfl
@[simp] theorem State.clear_str (s : State) (f : Fld) : (s.clear f).str = s.str := rfl
@[simp] theorem State.clear_evt (s : State) (f : Fld) : (s.clear f).evt = s.evt := rfl
@[simp] theorem State.clear_msix (s : State) (f : Fld) : (s.clear f).msix = s.msix := rfl
@[simp] theorem State.clear_log (s : State) (f : Fld) : (s.clear f).log = s.log := rfl
@[simp] theorem State.clear_mot (s : State) (f : Fld) : (s.clear f).mot = s.mot := rfl
@[simp] theorem State.clear_saf (s : State) (f : Fld) : (s.clear f).saf = s.saf := rfl
@[simp] theorem State.clear_mem (s : State) (f : Fld) : (s.clear f).mem = s.mem := rfl
@[simp] theorem State.clear_arb (s : State) (f : Fld) : (s.clear f).arb = s.arb := rfl
@[simp] theorem State.clear_dma (s : State) (f : Fld) : (s.clear f).dma = s.dma := rfl
@[simp] theorem State.clear_moverTurn (s : State) (f : Fld) : (s.clear f).moverTurn = s.moverTurn := rfl
@[simp] theorem State.clear_pwr (s : State) (f : Fld) : (s.clear f).pwr = s.pwr := rfl
@[simp] theorem State.clear_keel (s : State) (f : Fld) : (s.clear f).keel = s.keel := rfl
@[simp] theorem State.clear_jtag (s : State) (f : Fld) : (s.clear f).jtag = s.jtag := rfl
@[simp] theorem State.clear_results (s : State) (f : Fld) : (s.clear f).results = s.results := rfl
@[simp] theorem State.clear_free (s : State) (f : Fld) : (s.clear f).free = s.free := rfl
@[simp] theorem State.clear_out (s : State) (f : Fld) : (s.clear f).out = s.out := rfl
@[simp] theorem State.clear_resp (s : State) (f : Fld) : (s.clear f).resp = s.resp := rfl
@[simp] theorem State.clear_pending (s : State) (f : Fld) : (s.clear f).pending = s.pending := rfl

/-! ### `State.add` -/

@[simp] theorem State.add_clock (s : State) (f : Fld) (n : Nat) : (s.add f n).clock = s.clock := rfl
@[simp] theorem State.add_rtOfs (s : State) (f : Fld) (n : Nat) : (s.add f n).rtOfs = s.rtOfs := rfl
@[simp] theorem State.add_inf (s : State) (f : Fld) (n : Nat) : (s.add f n).inf = s.inf := rfl
@[simp] theorem State.add_latch (s : State) (f : Fld) (n : Nat) : (s.add f n).latch = s.latch := rfl
@[simp] theorem State.add_shape (s : State) (f : Fld) (n : Nat) : (s.add f n).shape = s.shape := rfl
@[simp] theorem State.add_ing (s : State) (f : Fld) (n : Nat) : (s.add f n).ing = s.ing := rfl
@[simp] theorem State.add_slz (s : State) (f : Fld) (n : Nat) : (s.add f n).slz = s.slz := rfl
@[simp] theorem State.add_ras (s : State) (f : Fld) (n : Nat) : (s.add f n).ras = s.ras := rfl
@[simp] theorem State.add_bsx (s : State) (f : Fld) (n : Nat) : (s.add f n).bsx = s.bsx := rfl
@[simp] theorem State.add_banks (s : State) (f : Fld) (n : Nat) : (s.add f n).banks = s.banks := rfl
@[simp] theorem State.add_crw (s : State) (f : Fld) (n : Nat) : (s.add f n).crw = s.crw := rfl
@[simp] theorem State.add_wak (s : State) (f : Fld) (n : Nat) : (s.add f n).wak = s.wak := rfl
@[simp] theorem State.add_bln (s : State) (f : Fld) (n : Nat) : (s.add f n).bln = s.bln := rfl
@[simp] theorem State.add_stk (s : State) (f : Fld) (n : Nat) : (s.add f n).stk = s.stk := rfl
@[simp] theorem State.add_cox (s : State) (f : Fld) (n : Nat) : (s.add f n).cox = s.cox := rfl
@[simp] theorem State.add_int (s : State) (f : Fld) (n : Nat) : (s.add f n).int = s.int := rfl
@[simp] theorem State.add_hbm (s : State) (f : Fld) (n : Nat) : (s.add f n).hbm = s.hbm := rfl
@[simp] theorem State.add_str (s : State) (f : Fld) (n : Nat) : (s.add f n).str = s.str := rfl
@[simp] theorem State.add_evt (s : State) (f : Fld) (n : Nat) : (s.add f n).evt = s.evt := rfl
@[simp] theorem State.add_msix (s : State) (f : Fld) (n : Nat) : (s.add f n).msix = s.msix := rfl
@[simp] theorem State.add_log (s : State) (f : Fld) (n : Nat) : (s.add f n).log = s.log := rfl
@[simp] theorem State.add_mot (s : State) (f : Fld) (n : Nat) : (s.add f n).mot = s.mot := rfl
@[simp] theorem State.add_saf (s : State) (f : Fld) (n : Nat) : (s.add f n).saf = s.saf := rfl
@[simp] theorem State.add_mem (s : State) (f : Fld) (n : Nat) : (s.add f n).mem = s.mem := rfl
@[simp] theorem State.add_arb (s : State) (f : Fld) (n : Nat) : (s.add f n).arb = s.arb := rfl
@[simp] theorem State.add_dma (s : State) (f : Fld) (n : Nat) : (s.add f n).dma = s.dma := rfl
@[simp] theorem State.add_moverTurn (s : State) (f : Fld) (n : Nat) : (s.add f n).moverTurn = s.moverTurn := rfl
@[simp] theorem State.add_pwr (s : State) (f : Fld) (n : Nat) : (s.add f n).pwr = s.pwr := rfl
@[simp] theorem State.add_keel (s : State) (f : Fld) (n : Nat) : (s.add f n).keel = s.keel := rfl
@[simp] theorem State.add_jtag (s : State) (f : Fld) (n : Nat) : (s.add f n).jtag = s.jtag := rfl
@[simp] theorem State.add_results (s : State) (f : Fld) (n : Nat) : (s.add f n).results = s.results := rfl
@[simp] theorem State.add_free (s : State) (f : Fld) (n : Nat) : (s.add f n).free = s.free := rfl
@[simp] theorem State.add_out (s : State) (f : Fld) (n : Nat) : (s.add f n).out = s.out := rfl
@[simp] theorem State.add_resp (s : State) (f : Fld) (n : Nat) : (s.add f n).resp = s.resp := rfl
@[simp] theorem State.add_pending (s : State) (f : Fld) (n : Nat) : (s.add f n).pending = s.pending := rfl

/-! ### `State.bump` -/

@[simp] theorem State.bump_clock (s : State) (f : Fld) : (s.bump f).clock = s.clock := rfl
@[simp] theorem State.bump_rtOfs (s : State) (f : Fld) : (s.bump f).rtOfs = s.rtOfs := rfl
@[simp] theorem State.bump_inf (s : State) (f : Fld) : (s.bump f).inf = s.inf := rfl
@[simp] theorem State.bump_latch (s : State) (f : Fld) : (s.bump f).latch = s.latch := rfl
@[simp] theorem State.bump_shape (s : State) (f : Fld) : (s.bump f).shape = s.shape := rfl
@[simp] theorem State.bump_ing (s : State) (f : Fld) : (s.bump f).ing = s.ing := rfl
@[simp] theorem State.bump_slz (s : State) (f : Fld) : (s.bump f).slz = s.slz := rfl
@[simp] theorem State.bump_ras (s : State) (f : Fld) : (s.bump f).ras = s.ras := rfl
@[simp] theorem State.bump_bsx (s : State) (f : Fld) : (s.bump f).bsx = s.bsx := rfl
@[simp] theorem State.bump_banks (s : State) (f : Fld) : (s.bump f).banks = s.banks := rfl
@[simp] theorem State.bump_crw (s : State) (f : Fld) : (s.bump f).crw = s.crw := rfl
@[simp] theorem State.bump_wak (s : State) (f : Fld) : (s.bump f).wak = s.wak := rfl
@[simp] theorem State.bump_bln (s : State) (f : Fld) : (s.bump f).bln = s.bln := rfl
@[simp] theorem State.bump_stk (s : State) (f : Fld) : (s.bump f).stk = s.stk := rfl
@[simp] theorem State.bump_cox (s : State) (f : Fld) : (s.bump f).cox = s.cox := rfl
@[simp] theorem State.bump_int (s : State) (f : Fld) : (s.bump f).int = s.int := rfl
@[simp] theorem State.bump_hbm (s : State) (f : Fld) : (s.bump f).hbm = s.hbm := rfl
@[simp] theorem State.bump_str (s : State) (f : Fld) : (s.bump f).str = s.str := rfl
@[simp] theorem State.bump_evt (s : State) (f : Fld) : (s.bump f).evt = s.evt := rfl
@[simp] theorem State.bump_msix (s : State) (f : Fld) : (s.bump f).msix = s.msix := rfl
@[simp] theorem State.bump_log (s : State) (f : Fld) : (s.bump f).log = s.log := rfl
@[simp] theorem State.bump_mot (s : State) (f : Fld) : (s.bump f).mot = s.mot := rfl
@[simp] theorem State.bump_saf (s : State) (f : Fld) : (s.bump f).saf = s.saf := rfl
@[simp] theorem State.bump_mem (s : State) (f : Fld) : (s.bump f).mem = s.mem := rfl
@[simp] theorem State.bump_arb (s : State) (f : Fld) : (s.bump f).arb = s.arb := rfl
@[simp] theorem State.bump_dma (s : State) (f : Fld) : (s.bump f).dma = s.dma := rfl
@[simp] theorem State.bump_moverTurn (s : State) (f : Fld) : (s.bump f).moverTurn = s.moverTurn := rfl
@[simp] theorem State.bump_pwr (s : State) (f : Fld) : (s.bump f).pwr = s.pwr := rfl
@[simp] theorem State.bump_keel (s : State) (f : Fld) : (s.bump f).keel = s.keel := rfl
@[simp] theorem State.bump_jtag (s : State) (f : Fld) : (s.bump f).jtag = s.jtag := rfl
@[simp] theorem State.bump_results (s : State) (f : Fld) : (s.bump f).results = s.results := rfl
@[simp] theorem State.bump_free (s : State) (f : Fld) : (s.bump f).free = s.free := rfl
@[simp] theorem State.bump_out (s : State) (f : Fld) : (s.bump f).out = s.out := rfl
@[simp] theorem State.bump_resp (s : State) (f : Fld) : (s.bump f).resp = s.resp := rfl
@[simp] theorem State.bump_pending (s : State) (f : Fld) : (s.bump f).pending = s.pending := rfl

/-! ### `State.raiseTo` -/

@[simp] theorem State.raiseTo_clock (s : State) (f : Fld) (v : Nat) : (s.raiseTo f v).clock = s.clock := rfl
@[simp] theorem State.raiseTo_rtOfs (s : State) (f : Fld) (v : Nat) : (s.raiseTo f v).rtOfs = s.rtOfs := rfl
@[simp] theorem State.raiseTo_inf (s : State) (f : Fld) (v : Nat) : (s.raiseTo f v).inf = s.inf := rfl
@[simp] theorem State.raiseTo_latch (s : State) (f : Fld) (v : Nat) : (s.raiseTo f v).latch = s.latch := rfl
@[simp] theorem State.raiseTo_shape (s : State) (f : Fld) (v : Nat) : (s.raiseTo f v).shape = s.shape := rfl
@[simp] theorem State.raiseTo_ing (s : State) (f : Fld) (v : Nat) : (s.raiseTo f v).ing = s.ing := rfl
@[simp] theorem State.raiseTo_slz (s : State) (f : Fld) (v : Nat) : (s.raiseTo f v).slz = s.slz := rfl
@[simp] theorem State.raiseTo_ras (s : State) (f : Fld) (v : Nat) : (s.raiseTo f v).ras = s.ras := rfl
@[simp] theorem State.raiseTo_bsx (s : State) (f : Fld) (v : Nat) : (s.raiseTo f v).bsx = s.bsx := rfl
@[simp] theorem State.raiseTo_banks (s : State) (f : Fld) (v : Nat) : (s.raiseTo f v).banks = s.banks := rfl
@[simp] theorem State.raiseTo_crw (s : State) (f : Fld) (v : Nat) : (s.raiseTo f v).crw = s.crw := rfl
@[simp] theorem State.raiseTo_wak (s : State) (f : Fld) (v : Nat) : (s.raiseTo f v).wak = s.wak := rfl
@[simp] theorem State.raiseTo_bln (s : State) (f : Fld) (v : Nat) : (s.raiseTo f v).bln = s.bln := rfl
@[simp] theorem State.raiseTo_stk (s : State) (f : Fld) (v : Nat) : (s.raiseTo f v).stk = s.stk := rfl
@[simp] theorem State.raiseTo_cox (s : State) (f : Fld) (v : Nat) : (s.raiseTo f v).cox = s.cox := rfl
@[simp] theorem State.raiseTo_int (s : State) (f : Fld) (v : Nat) : (s.raiseTo f v).int = s.int := rfl
@[simp] theorem State.raiseTo_hbm (s : State) (f : Fld) (v : Nat) : (s.raiseTo f v).hbm = s.hbm := rfl
@[simp] theorem State.raiseTo_str (s : State) (f : Fld) (v : Nat) : (s.raiseTo f v).str = s.str := rfl
@[simp] theorem State.raiseTo_evt (s : State) (f : Fld) (v : Nat) : (s.raiseTo f v).evt = s.evt := rfl
@[simp] theorem State.raiseTo_msix (s : State) (f : Fld) (v : Nat) : (s.raiseTo f v).msix = s.msix := rfl
@[simp] theorem State.raiseTo_log (s : State) (f : Fld) (v : Nat) : (s.raiseTo f v).log = s.log := rfl
@[simp] theorem State.raiseTo_mot (s : State) (f : Fld) (v : Nat) : (s.raiseTo f v).mot = s.mot := rfl
@[simp] theorem State.raiseTo_saf (s : State) (f : Fld) (v : Nat) : (s.raiseTo f v).saf = s.saf := rfl
@[simp] theorem State.raiseTo_mem (s : State) (f : Fld) (v : Nat) : (s.raiseTo f v).mem = s.mem := rfl
@[simp] theorem State.raiseTo_arb (s : State) (f : Fld) (v : Nat) : (s.raiseTo f v).arb = s.arb := rfl
@[simp] theorem State.raiseTo_dma (s : State) (f : Fld) (v : Nat) : (s.raiseTo f v).dma = s.dma := rfl
@[simp] theorem State.raiseTo_moverTurn (s : State) (f : Fld) (v : Nat) : (s.raiseTo f v).moverTurn = s.moverTurn := rfl
@[simp] theorem State.raiseTo_pwr (s : State) (f : Fld) (v : Nat) : (s.raiseTo f v).pwr = s.pwr := rfl
@[simp] theorem State.raiseTo_keel (s : State) (f : Fld) (v : Nat) : (s.raiseTo f v).keel = s.keel := rfl
@[simp] theorem State.raiseTo_jtag (s : State) (f : Fld) (v : Nat) : (s.raiseTo f v).jtag = s.jtag := rfl
@[simp] theorem State.raiseTo_results (s : State) (f : Fld) (v : Nat) : (s.raiseTo f v).results = s.results := rfl
@[simp] theorem State.raiseTo_free (s : State) (f : Fld) (v : Nat) : (s.raiseTo f v).free = s.free := rfl
@[simp] theorem State.raiseTo_out (s : State) (f : Fld) (v : Nat) : (s.raiseTo f v).out = s.out := rfl
@[simp] theorem State.raiseTo_resp (s : State) (f : Fld) (v : Nat) : (s.raiseTo f v).resp = s.resp := rfl
@[simp] theorem State.raiseTo_pending (s : State) (f : Fld) (v : Nat) : (s.raiseTo f v).pending = s.pending := rfl

/-! ### `State.setPair` -/

@[simp] theorem State.setPair_clock (s : State) (l h : Fld) (v : Nat) : (s.setPair l h v).clock = s.clock := rfl
@[simp] theorem State.setPair_rtOfs (s : State) (l h : Fld) (v : Nat) : (s.setPair l h v).rtOfs = s.rtOfs := rfl
@[simp] theorem State.setPair_inf (s : State) (l h : Fld) (v : Nat) : (s.setPair l h v).inf = s.inf := rfl
@[simp] theorem State.setPair_latch (s : State) (l h : Fld) (v : Nat) : (s.setPair l h v).latch = s.latch := rfl
@[simp] theorem State.setPair_shape (s : State) (l h : Fld) (v : Nat) : (s.setPair l h v).shape = s.shape := rfl
@[simp] theorem State.setPair_ing (s : State) (l h : Fld) (v : Nat) : (s.setPair l h v).ing = s.ing := rfl
@[simp] theorem State.setPair_slz (s : State) (l h : Fld) (v : Nat) : (s.setPair l h v).slz = s.slz := rfl
@[simp] theorem State.setPair_ras (s : State) (l h : Fld) (v : Nat) : (s.setPair l h v).ras = s.ras := rfl
@[simp] theorem State.setPair_bsx (s : State) (l h : Fld) (v : Nat) : (s.setPair l h v).bsx = s.bsx := rfl
@[simp] theorem State.setPair_banks (s : State) (l h : Fld) (v : Nat) : (s.setPair l h v).banks = s.banks := rfl
@[simp] theorem State.setPair_crw (s : State) (l h : Fld) (v : Nat) : (s.setPair l h v).crw = s.crw := rfl
@[simp] theorem State.setPair_wak (s : State) (l h : Fld) (v : Nat) : (s.setPair l h v).wak = s.wak := rfl
@[simp] theorem State.setPair_bln (s : State) (l h : Fld) (v : Nat) : (s.setPair l h v).bln = s.bln := rfl
@[simp] theorem State.setPair_stk (s : State) (l h : Fld) (v : Nat) : (s.setPair l h v).stk = s.stk := rfl
@[simp] theorem State.setPair_cox (s : State) (l h : Fld) (v : Nat) : (s.setPair l h v).cox = s.cox := rfl
@[simp] theorem State.setPair_int (s : State) (l h : Fld) (v : Nat) : (s.setPair l h v).int = s.int := rfl
@[simp] theorem State.setPair_hbm (s : State) (l h : Fld) (v : Nat) : (s.setPair l h v).hbm = s.hbm := rfl
@[simp] theorem State.setPair_str (s : State) (l h : Fld) (v : Nat) : (s.setPair l h v).str = s.str := rfl
@[simp] theorem State.setPair_evt (s : State) (l h : Fld) (v : Nat) : (s.setPair l h v).evt = s.evt := rfl
@[simp] theorem State.setPair_msix (s : State) (l h : Fld) (v : Nat) : (s.setPair l h v).msix = s.msix := rfl
@[simp] theorem State.setPair_log (s : State) (l h : Fld) (v : Nat) : (s.setPair l h v).log = s.log := rfl
@[simp] theorem State.setPair_mot (s : State) (l h : Fld) (v : Nat) : (s.setPair l h v).mot = s.mot := rfl
@[simp] theorem State.setPair_saf (s : State) (l h : Fld) (v : Nat) : (s.setPair l h v).saf = s.saf := rfl
@[simp] theorem State.setPair_mem (s : State) (l h : Fld) (v : Nat) : (s.setPair l h v).mem = s.mem := rfl
@[simp] theorem State.setPair_arb (s : State) (l h : Fld) (v : Nat) : (s.setPair l h v).arb = s.arb := rfl
@[simp] theorem State.setPair_dma (s : State) (l h : Fld) (v : Nat) : (s.setPair l h v).dma = s.dma := rfl
@[simp] theorem State.setPair_moverTurn (s : State) (l h : Fld) (v : Nat) : (s.setPair l h v).moverTurn = s.moverTurn := rfl
@[simp] theorem State.setPair_pwr (s : State) (l h : Fld) (v : Nat) : (s.setPair l h v).pwr = s.pwr := rfl
@[simp] theorem State.setPair_keel (s : State) (l h : Fld) (v : Nat) : (s.setPair l h v).keel = s.keel := rfl
@[simp] theorem State.setPair_jtag (s : State) (l h : Fld) (v : Nat) : (s.setPair l h v).jtag = s.jtag := rfl
@[simp] theorem State.setPair_results (s : State) (l h : Fld) (v : Nat) : (s.setPair l h v).results = s.results := rfl
@[simp] theorem State.setPair_free (s : State) (l h : Fld) (v : Nat) : (s.setPair l h v).free = s.free := rfl
@[simp] theorem State.setPair_out (s : State) (l h : Fld) (v : Nat) : (s.setPair l h v).out = s.out := rfl
@[simp] theorem State.setPair_resp (s : State) (l h : Fld) (v : Nat) : (s.setPair l h v).resp = s.resp := rfl
@[simp] theorem State.setPair_pending (s : State) (l h : Fld) (v : Nat) : (s.setPair l h v).pending = s.pending := rfl

/-! ### `State.setInReg` -/

@[simp] theorem State.setInReg_clock (s : State) (a : Nat) (w : Word) : (s.setInReg a w).clock = s.clock := rfl
@[simp] theorem State.setInReg_rtOfs (s : State) (a : Nat) (w : Word) : (s.setInReg a w).rtOfs = s.rtOfs := rfl
@[simp] theorem State.setInReg_regs (s : State) (a : Nat) (w : Word) : (s.setInReg a w).regs = s.regs := rfl
@[simp] theorem State.setInReg_latch (s : State) (a : Nat) (w : Word) : (s.setInReg a w).latch = s.latch := rfl
@[simp] theorem State.setInReg_shape (s : State) (a : Nat) (w : Word) : (s.setInReg a w).shape = s.shape := rfl
@[simp] theorem State.setInReg_ing (s : State) (a : Nat) (w : Word) : (s.setInReg a w).ing = s.ing := rfl
@[simp] theorem State.setInReg_slz (s : State) (a : Nat) (w : Word) : (s.setInReg a w).slz = s.slz := rfl
@[simp] theorem State.setInReg_ras (s : State) (a : Nat) (w : Word) : (s.setInReg a w).ras = s.ras := rfl
@[simp] theorem State.setInReg_bsx (s : State) (a : Nat) (w : Word) : (s.setInReg a w).bsx = s.bsx := rfl
@[simp] theorem State.setInReg_banks (s : State) (a : Nat) (w : Word) : (s.setInReg a w).banks = s.banks := rfl
@[simp] theorem State.setInReg_crw (s : State) (a : Nat) (w : Word) : (s.setInReg a w).crw = s.crw := rfl
@[simp] theorem State.setInReg_wak (s : State) (a : Nat) (w : Word) : (s.setInReg a w).wak = s.wak := rfl
@[simp] theorem State.setInReg_bln (s : State) (a : Nat) (w : Word) : (s.setInReg a w).bln = s.bln := rfl
@[simp] theorem State.setInReg_stk (s : State) (a : Nat) (w : Word) : (s.setInReg a w).stk = s.stk := rfl
@[simp] theorem State.setInReg_cox (s : State) (a : Nat) (w : Word) : (s.setInReg a w).cox = s.cox := rfl
@[simp] theorem State.setInReg_int (s : State) (a : Nat) (w : Word) : (s.setInReg a w).int = s.int := rfl
@[simp] theorem State.setInReg_hbm (s : State) (a : Nat) (w : Word) : (s.setInReg a w).hbm = s.hbm := rfl
@[simp] theorem State.setInReg_str (s : State) (a : Nat) (w : Word) : (s.setInReg a w).str = s.str := rfl
@[simp] theorem State.setInReg_evt (s : State) (a : Nat) (w : Word) : (s.setInReg a w).evt = s.evt := rfl
@[simp] theorem State.setInReg_msix (s : State) (a : Nat) (w : Word) : (s.setInReg a w).msix = s.msix := rfl
@[simp] theorem State.setInReg_log (s : State) (a : Nat) (w : Word) : (s.setInReg a w).log = s.log := rfl
@[simp] theorem State.setInReg_mot (s : State) (a : Nat) (w : Word) : (s.setInReg a w).mot = s.mot := rfl
@[simp] theorem State.setInReg_saf (s : State) (a : Nat) (w : Word) : (s.setInReg a w).saf = s.saf := rfl
@[simp] theorem State.setInReg_mem (s : State) (a : Nat) (w : Word) : (s.setInReg a w).mem = s.mem := rfl
@[simp] theorem State.setInReg_arb (s : State) (a : Nat) (w : Word) : (s.setInReg a w).arb = s.arb := rfl
@[simp] theorem State.setInReg_dma (s : State) (a : Nat) (w : Word) : (s.setInReg a w).dma = s.dma := rfl
@[simp] theorem State.setInReg_moverTurn (s : State) (a : Nat) (w : Word) : (s.setInReg a w).moverTurn = s.moverTurn := rfl
@[simp] theorem State.setInReg_pwr (s : State) (a : Nat) (w : Word) : (s.setInReg a w).pwr = s.pwr := rfl
@[simp] theorem State.setInReg_keel (s : State) (a : Nat) (w : Word) : (s.setInReg a w).keel = s.keel := rfl
@[simp] theorem State.setInReg_jtag (s : State) (a : Nat) (w : Word) : (s.setInReg a w).jtag = s.jtag := rfl
@[simp] theorem State.setInReg_results (s : State) (a : Nat) (w : Word) : (s.setInReg a w).results = s.results := rfl
@[simp] theorem State.setInReg_free (s : State) (a : Nat) (w : Word) : (s.setInReg a w).free = s.free := rfl
@[simp] theorem State.setInReg_out (s : State) (a : Nat) (w : Word) : (s.setInReg a w).out = s.out := rfl
@[simp] theorem State.setInReg_resp (s : State) (a : Nat) (w : Word) : (s.setInReg a w).resp = s.resp := rfl
@[simp] theorem State.setInReg_pending (s : State) (a : Nat) (w : Word) : (s.setInReg a w).pending = s.pending := rfl

/-! ### `State.emit` -/

@[simp] theorem State.emit_clock (s : State) (o : Output) : (s.emit o).clock = s.clock := rfl
@[simp] theorem State.emit_rtOfs (s : State) (o : Output) : (s.emit o).rtOfs = s.rtOfs := rfl
@[simp] theorem State.emit_regs (s : State) (o : Output) : (s.emit o).regs = s.regs := rfl
@[simp] theorem State.emit_inf (s : State) (o : Output) : (s.emit o).inf = s.inf := rfl
@[simp] theorem State.emit_latch (s : State) (o : Output) : (s.emit o).latch = s.latch := rfl
@[simp] theorem State.emit_shape (s : State) (o : Output) : (s.emit o).shape = s.shape := rfl
@[simp] theorem State.emit_ing (s : State) (o : Output) : (s.emit o).ing = s.ing := rfl
@[simp] theorem State.emit_slz (s : State) (o : Output) : (s.emit o).slz = s.slz := rfl
@[simp] theorem State.emit_ras (s : State) (o : Output) : (s.emit o).ras = s.ras := rfl
@[simp] theorem State.emit_bsx (s : State) (o : Output) : (s.emit o).bsx = s.bsx := rfl
@[simp] theorem State.emit_banks (s : State) (o : Output) : (s.emit o).banks = s.banks := rfl
@[simp] theorem State.emit_crw (s : State) (o : Output) : (s.emit o).crw = s.crw := rfl
@[simp] theorem State.emit_wak (s : State) (o : Output) : (s.emit o).wak = s.wak := rfl
@[simp] theorem State.emit_bln (s : State) (o : Output) : (s.emit o).bln = s.bln := rfl
@[simp] theorem State.emit_stk (s : State) (o : Output) : (s.emit o).stk = s.stk := rfl
@[simp] theorem State.emit_cox (s : State) (o : Output) : (s.emit o).cox = s.cox := rfl
@[simp] theorem State.emit_int (s : State) (o : Output) : (s.emit o).int = s.int := rfl
@[simp] theorem State.emit_hbm (s : State) (o : Output) : (s.emit o).hbm = s.hbm := rfl
@[simp] theorem State.emit_str (s : State) (o : Output) : (s.emit o).str = s.str := rfl
@[simp] theorem State.emit_evt (s : State) (o : Output) : (s.emit o).evt = s.evt := rfl
@[simp] theorem State.emit_msix (s : State) (o : Output) : (s.emit o).msix = s.msix := rfl
@[simp] theorem State.emit_log (s : State) (o : Output) : (s.emit o).log = s.log := rfl
@[simp] theorem State.emit_mot (s : State) (o : Output) : (s.emit o).mot = s.mot := rfl
@[simp] theorem State.emit_saf (s : State) (o : Output) : (s.emit o).saf = s.saf := rfl
@[simp] theorem State.emit_mem (s : State) (o : Output) : (s.emit o).mem = s.mem := rfl
@[simp] theorem State.emit_arb (s : State) (o : Output) : (s.emit o).arb = s.arb := rfl
@[simp] theorem State.emit_dma (s : State) (o : Output) : (s.emit o).dma = s.dma := rfl
@[simp] theorem State.emit_moverTurn (s : State) (o : Output) : (s.emit o).moverTurn = s.moverTurn := rfl
@[simp] theorem State.emit_pwr (s : State) (o : Output) : (s.emit o).pwr = s.pwr := rfl
@[simp] theorem State.emit_keel (s : State) (o : Output) : (s.emit o).keel = s.keel := rfl
@[simp] theorem State.emit_jtag (s : State) (o : Output) : (s.emit o).jtag = s.jtag := rfl
@[simp] theorem State.emit_results (s : State) (o : Output) : (s.emit o).results = s.results := rfl
@[simp] theorem State.emit_free (s : State) (o : Output) : (s.emit o).free = s.free := rfl
@[simp] theorem State.emit_resp (s : State) (o : Output) : (s.emit o).resp = s.resp := rfl
@[simp] theorem State.emit_pending (s : State) (o : Output) : (s.emit o).pending = s.pending := rfl

/-! ### `State.emits` -/

@[simp] theorem State.emits_clock (s : State) (os : List Output) : (s.emits os).clock = s.clock := rfl
@[simp] theorem State.emits_rtOfs (s : State) (os : List Output) : (s.emits os).rtOfs = s.rtOfs := rfl
@[simp] theorem State.emits_regs (s : State) (os : List Output) : (s.emits os).regs = s.regs := rfl
@[simp] theorem State.emits_inf (s : State) (os : List Output) : (s.emits os).inf = s.inf := rfl
@[simp] theorem State.emits_latch (s : State) (os : List Output) : (s.emits os).latch = s.latch := rfl
@[simp] theorem State.emits_shape (s : State) (os : List Output) : (s.emits os).shape = s.shape := rfl
@[simp] theorem State.emits_ing (s : State) (os : List Output) : (s.emits os).ing = s.ing := rfl
@[simp] theorem State.emits_slz (s : State) (os : List Output) : (s.emits os).slz = s.slz := rfl
@[simp] theorem State.emits_ras (s : State) (os : List Output) : (s.emits os).ras = s.ras := rfl
@[simp] theorem State.emits_bsx (s : State) (os : List Output) : (s.emits os).bsx = s.bsx := rfl
@[simp] theorem State.emits_banks (s : State) (os : List Output) : (s.emits os).banks = s.banks := rfl
@[simp] theorem State.emits_crw (s : State) (os : List Output) : (s.emits os).crw = s.crw := rfl
@[simp] theorem State.emits_wak (s : State) (os : List Output) : (s.emits os).wak = s.wak := rfl
@[simp] theorem State.emits_bln (s : State) (os : List Output) : (s.emits os).bln = s.bln := rfl
@[simp] theorem State.emits_stk (s : State) (os : List Output) : (s.emits os).stk = s.stk := rfl
@[simp] theorem State.emits_cox (s : State) (os : List Output) : (s.emits os).cox = s.cox := rfl
@[simp] theorem State.emits_int (s : State) (os : List Output) : (s.emits os).int = s.int := rfl
@[simp] theorem State.emits_hbm (s : State) (os : List Output) : (s.emits os).hbm = s.hbm := rfl
@[simp] theorem State.emits_str (s : State) (os : List Output) : (s.emits os).str = s.str := rfl
@[simp] theorem State.emits_evt (s : State) (os : List Output) : (s.emits os).evt = s.evt := rfl
@[simp] theorem State.emits_msix (s : State) (os : List Output) : (s.emits os).msix = s.msix := rfl
@[simp] theorem State.emits_log (s : State) (os : List Output) : (s.emits os).log = s.log := rfl
@[simp] theorem State.emits_mot (s : State) (os : List Output) : (s.emits os).mot = s.mot := rfl
@[simp] theorem State.emits_saf (s : State) (os : List Output) : (s.emits os).saf = s.saf := rfl
@[simp] theorem State.emits_mem (s : State) (os : List Output) : (s.emits os).mem = s.mem := rfl
@[simp] theorem State.emits_arb (s : State) (os : List Output) : (s.emits os).arb = s.arb := rfl
@[simp] theorem State.emits_dma (s : State) (os : List Output) : (s.emits os).dma = s.dma := rfl
@[simp] theorem State.emits_moverTurn (s : State) (os : List Output) : (s.emits os).moverTurn = s.moverTurn := rfl
@[simp] theorem State.emits_pwr (s : State) (os : List Output) : (s.emits os).pwr = s.pwr := rfl
@[simp] theorem State.emits_keel (s : State) (os : List Output) : (s.emits os).keel = s.keel := rfl
@[simp] theorem State.emits_jtag (s : State) (os : List Output) : (s.emits os).jtag = s.jtag := rfl
@[simp] theorem State.emits_results (s : State) (os : List Output) : (s.emits os).results = s.results := rfl
@[simp] theorem State.emits_free (s : State) (os : List Output) : (s.emits os).free = s.free := rfl
@[simp] theorem State.emits_resp (s : State) (os : List Output) : (s.emits os).resp = s.resp := rfl
@[simp] theorem State.emits_pending (s : State) (os : List Output) : (s.emits os).pending = s.pending := rfl

/-! ### `State.until` -/

@[simp] theorem State.until_rtOfs (s : State) (t : Int) : (s.until t).rtOfs = s.rtOfs := rfl
@[simp] theorem State.until_regs (s : State) (t : Int) : (s.until t).regs = s.regs := rfl
@[simp] theorem State.until_inf (s : State) (t : Int) : (s.until t).inf = s.inf := rfl
@[simp] theorem State.until_latch (s : State) (t : Int) : (s.until t).latch = s.latch := rfl
@[simp] theorem State.until_shape (s : State) (t : Int) : (s.until t).shape = s.shape := rfl
@[simp] theorem State.until_ing (s : State) (t : Int) : (s.until t).ing = s.ing := rfl
@[simp] theorem State.until_slz (s : State) (t : Int) : (s.until t).slz = s.slz := rfl
@[simp] theorem State.until_ras (s : State) (t : Int) : (s.until t).ras = s.ras := rfl
@[simp] theorem State.until_bsx (s : State) (t : Int) : (s.until t).bsx = s.bsx := rfl
@[simp] theorem State.until_banks (s : State) (t : Int) : (s.until t).banks = s.banks := rfl
@[simp] theorem State.until_crw (s : State) (t : Int) : (s.until t).crw = s.crw := rfl
@[simp] theorem State.until_wak (s : State) (t : Int) : (s.until t).wak = s.wak := rfl
@[simp] theorem State.until_bln (s : State) (t : Int) : (s.until t).bln = s.bln := rfl
@[simp] theorem State.until_stk (s : State) (t : Int) : (s.until t).stk = s.stk := rfl
@[simp] theorem State.until_cox (s : State) (t : Int) : (s.until t).cox = s.cox := rfl
@[simp] theorem State.until_int (s : State) (t : Int) : (s.until t).int = s.int := rfl
@[simp] theorem State.until_hbm (s : State) (t : Int) : (s.until t).hbm = s.hbm := rfl
@[simp] theorem State.until_str (s : State) (t : Int) : (s.until t).str = s.str := rfl
@[simp] theorem State.until_evt (s : State) (t : Int) : (s.until t).evt = s.evt := rfl
@[simp] theorem State.until_msix (s : State) (t : Int) : (s.until t).msix = s.msix := rfl
@[simp] theorem State.until_log (s : State) (t : Int) : (s.until t).log = s.log := rfl
@[simp] theorem State.until_mot (s : State) (t : Int) : (s.until t).mot = s.mot := rfl
@[simp] theorem State.until_saf (s : State) (t : Int) : (s.until t).saf = s.saf := rfl
@[simp] theorem State.until_mem (s : State) (t : Int) : (s.until t).mem = s.mem := rfl
@[simp] theorem State.until_arb (s : State) (t : Int) : (s.until t).arb = s.arb := rfl
@[simp] theorem State.until_dma (s : State) (t : Int) : (s.until t).dma = s.dma := rfl
@[simp] theorem State.until_moverTurn (s : State) (t : Int) : (s.until t).moverTurn = s.moverTurn := rfl
@[simp] theorem State.until_pwr (s : State) (t : Int) : (s.until t).pwr = s.pwr := rfl
@[simp] theorem State.until_keel (s : State) (t : Int) : (s.until t).keel = s.keel := rfl
@[simp] theorem State.until_jtag (s : State) (t : Int) : (s.until t).jtag = s.jtag := rfl
@[simp] theorem State.until_results (s : State) (t : Int) : (s.until t).results = s.results := rfl
@[simp] theorem State.until_free (s : State) (t : Int) : (s.until t).free = s.free := rfl
@[simp] theorem State.until_out (s : State) (t : Int) : (s.until t).out = s.out := rfl
@[simp] theorem State.until_resp (s : State) (t : Int) : (s.until t).resp = s.resp := rfl
@[simp] theorem State.until_pending (s : State) (t : Int) : (s.until t).pending = s.pending := rfl

/-! ### `State.after` -/

@[simp] theorem State.after_rtOfs (s : State) (n : Nat) : (s.after n).rtOfs = s.rtOfs := rfl
@[simp] theorem State.after_regs (s : State) (n : Nat) : (s.after n).regs = s.regs := rfl
@[simp] theorem State.after_inf (s : State) (n : Nat) : (s.after n).inf = s.inf := rfl
@[simp] theorem State.after_latch (s : State) (n : Nat) : (s.after n).latch = s.latch := rfl
@[simp] theorem State.after_shape (s : State) (n : Nat) : (s.after n).shape = s.shape := rfl
@[simp] theorem State.after_ing (s : State) (n : Nat) : (s.after n).ing = s.ing := rfl
@[simp] theorem State.after_slz (s : State) (n : Nat) : (s.after n).slz = s.slz := rfl
@[simp] theorem State.after_ras (s : State) (n : Nat) : (s.after n).ras = s.ras := rfl
@[simp] theorem State.after_bsx (s : State) (n : Nat) : (s.after n).bsx = s.bsx := rfl
@[simp] theorem State.after_banks (s : State) (n : Nat) : (s.after n).banks = s.banks := rfl
@[simp] theorem State.after_crw (s : State) (n : Nat) : (s.after n).crw = s.crw := rfl
@[simp] theorem State.after_wak (s : State) (n : Nat) : (s.after n).wak = s.wak := rfl
@[simp] theorem State.after_bln (s : State) (n : Nat) : (s.after n).bln = s.bln := rfl
@[simp] theorem State.after_stk (s : State) (n : Nat) : (s.after n).stk = s.stk := rfl
@[simp] theorem State.after_cox (s : State) (n : Nat) : (s.after n).cox = s.cox := rfl
@[simp] theorem State.after_int (s : State) (n : Nat) : (s.after n).int = s.int := rfl
@[simp] theorem State.after_hbm (s : State) (n : Nat) : (s.after n).hbm = s.hbm := rfl
@[simp] theorem State.after_str (s : State) (n : Nat) : (s.after n).str = s.str := rfl
@[simp] theorem State.after_evt (s : State) (n : Nat) : (s.after n).evt = s.evt := rfl
@[simp] theorem State.after_msix (s : State) (n : Nat) : (s.after n).msix = s.msix := rfl
@[simp] theorem State.after_log (s : State) (n : Nat) : (s.after n).log = s.log := rfl
@[simp] theorem State.after_mot (s : State) (n : Nat) : (s.after n).mot = s.mot := rfl
@[simp] theorem State.after_saf (s : State) (n : Nat) : (s.after n).saf = s.saf := rfl
@[simp] theorem State.after_mem (s : State) (n : Nat) : (s.after n).mem = s.mem := rfl
@[simp] theorem State.after_arb (s : State) (n : Nat) : (s.after n).arb = s.arb := rfl
@[simp] theorem State.after_dma (s : State) (n : Nat) : (s.after n).dma = s.dma := rfl
@[simp] theorem State.after_moverTurn (s : State) (n : Nat) : (s.after n).moverTurn = s.moverTurn := rfl
@[simp] theorem State.after_pwr (s : State) (n : Nat) : (s.after n).pwr = s.pwr := rfl
@[simp] theorem State.after_keel (s : State) (n : Nat) : (s.after n).keel = s.keel := rfl
@[simp] theorem State.after_jtag (s : State) (n : Nat) : (s.after n).jtag = s.jtag := rfl
@[simp] theorem State.after_results (s : State) (n : Nat) : (s.after n).results = s.results := rfl
@[simp] theorem State.after_free (s : State) (n : Nat) : (s.after n).free = s.free := rfl
@[simp] theorem State.after_out (s : State) (n : Nat) : (s.after n).out = s.out := rfl
@[simp] theorem State.after_resp (s : State) (n : Nat) : (s.after n).resp = s.resp := rfl
@[simp] theorem State.after_pending (s : State) (n : Nat) : (s.after n).pending = s.pending := rfl

/-! ### `State.setResult` -/

@[simp] theorem State.setResult_clock (s : State) (a : Nat) (b : ResultBlock) : (s.setResult a b).clock = s.clock := rfl
@[simp] theorem State.setResult_rtOfs (s : State) (a : Nat) (b : ResultBlock) : (s.setResult a b).rtOfs = s.rtOfs := rfl
@[simp] theorem State.setResult_regs (s : State) (a : Nat) (b : ResultBlock) : (s.setResult a b).regs = s.regs := rfl
@[simp] theorem State.setResult_inf (s : State) (a : Nat) (b : ResultBlock) : (s.setResult a b).inf = s.inf := rfl
@[simp] theorem State.setResult_latch (s : State) (a : Nat) (b : ResultBlock) : (s.setResult a b).latch = s.latch := rfl
@[simp] theorem State.setResult_shape (s : State) (a : Nat) (b : ResultBlock) : (s.setResult a b).shape = s.shape := rfl
@[simp] theorem State.setResult_ing (s : State) (a : Nat) (b : ResultBlock) : (s.setResult a b).ing = s.ing := rfl
@[simp] theorem State.setResult_slz (s : State) (a : Nat) (b : ResultBlock) : (s.setResult a b).slz = s.slz := rfl
@[simp] theorem State.setResult_ras (s : State) (a : Nat) (b : ResultBlock) : (s.setResult a b).ras = s.ras := rfl
@[simp] theorem State.setResult_bsx (s : State) (a : Nat) (b : ResultBlock) : (s.setResult a b).bsx = s.bsx := rfl
@[simp] theorem State.setResult_banks (s : State) (a : Nat) (b : ResultBlock) : (s.setResult a b).banks = s.banks := rfl
@[simp] theorem State.setResult_crw (s : State) (a : Nat) (b : ResultBlock) : (s.setResult a b).crw = s.crw := rfl
@[simp] theorem State.setResult_wak (s : State) (a : Nat) (b : ResultBlock) : (s.setResult a b).wak = s.wak := rfl
@[simp] theorem State.setResult_bln (s : State) (a : Nat) (b : ResultBlock) : (s.setResult a b).bln = s.bln := rfl
@[simp] theorem State.setResult_stk (s : State) (a : Nat) (b : ResultBlock) : (s.setResult a b).stk = s.stk := rfl
@[simp] theorem State.setResult_cox (s : State) (a : Nat) (b : ResultBlock) : (s.setResult a b).cox = s.cox := rfl
@[simp] theorem State.setResult_int (s : State) (a : Nat) (b : ResultBlock) : (s.setResult a b).int = s.int := rfl
@[simp] theorem State.setResult_hbm (s : State) (a : Nat) (b : ResultBlock) : (s.setResult a b).hbm = s.hbm := rfl
@[simp] theorem State.setResult_str (s : State) (a : Nat) (b : ResultBlock) : (s.setResult a b).str = s.str := rfl
@[simp] theorem State.setResult_evt (s : State) (a : Nat) (b : ResultBlock) : (s.setResult a b).evt = s.evt := rfl
@[simp] theorem State.setResult_msix (s : State) (a : Nat) (b : ResultBlock) : (s.setResult a b).msix = s.msix := rfl
@[simp] theorem State.setResult_log (s : State) (a : Nat) (b : ResultBlock) : (s.setResult a b).log = s.log := rfl
@[simp] theorem State.setResult_mot (s : State) (a : Nat) (b : ResultBlock) : (s.setResult a b).mot = s.mot := rfl
@[simp] theorem State.setResult_saf (s : State) (a : Nat) (b : ResultBlock) : (s.setResult a b).saf = s.saf := rfl
@[simp] theorem State.setResult_mem (s : State) (a : Nat) (b : ResultBlock) : (s.setResult a b).mem = s.mem := rfl
@[simp] theorem State.setResult_arb (s : State) (a : Nat) (b : ResultBlock) : (s.setResult a b).arb = s.arb := rfl
@[simp] theorem State.setResult_dma (s : State) (a : Nat) (b : ResultBlock) : (s.setResult a b).dma = s.dma := rfl
@[simp] theorem State.setResult_moverTurn (s : State) (a : Nat) (b : ResultBlock) : (s.setResult a b).moverTurn = s.moverTurn := rfl
@[simp] theorem State.setResult_pwr (s : State) (a : Nat) (b : ResultBlock) : (s.setResult a b).pwr = s.pwr := rfl
@[simp] theorem State.setResult_keel (s : State) (a : Nat) (b : ResultBlock) : (s.setResult a b).keel = s.keel := rfl
@[simp] theorem State.setResult_jtag (s : State) (a : Nat) (b : ResultBlock) : (s.setResult a b).jtag = s.jtag := rfl
@[simp] theorem State.setResult_free (s : State) (a : Nat) (b : ResultBlock) : (s.setResult a b).free = s.free := rfl
@[simp] theorem State.setResult_out (s : State) (a : Nat) (b : ResultBlock) : (s.setResult a b).out = s.out := rfl
@[simp] theorem State.setResult_resp (s : State) (a : Nat) (b : ResultBlock) : (s.setResult a b).resp = s.resp := rfl
@[simp] theorem State.setResult_pending (s : State) (a : Nat) (b : ResultBlock) : (s.setResult a b).pending = s.pending := rfl

/-! ### `State.mapEntry` -/

@[simp] theorem State.mapEntry_clock (s : State) (i : Nat) (f : Entry → Entry) : (s.mapEntry i f).clock = s.clock := rfl
@[simp] theorem State.mapEntry_rtOfs (s : State) (i : Nat) (f : Entry → Entry) : (s.mapEntry i f).rtOfs = s.rtOfs := rfl
@[simp] theorem State.mapEntry_regs (s : State) (i : Nat) (f : Entry → Entry) : (s.mapEntry i f).regs = s.regs := rfl
@[simp] theorem State.mapEntry_inf (s : State) (i : Nat) (f : Entry → Entry) : (s.mapEntry i f).inf = s.inf := rfl
@[simp] theorem State.mapEntry_latch (s : State) (i : Nat) (f : Entry → Entry) : (s.mapEntry i f).latch = s.latch := rfl
@[simp] theorem State.mapEntry_shape (s : State) (i : Nat) (f : Entry → Entry) : (s.mapEntry i f).shape = s.shape := rfl
@[simp] theorem State.mapEntry_slz (s : State) (i : Nat) (f : Entry → Entry) : (s.mapEntry i f).slz = s.slz := rfl
@[simp] theorem State.mapEntry_ras (s : State) (i : Nat) (f : Entry → Entry) : (s.mapEntry i f).ras = s.ras := rfl
@[simp] theorem State.mapEntry_bsx (s : State) (i : Nat) (f : Entry → Entry) : (s.mapEntry i f).bsx = s.bsx := rfl
@[simp] theorem State.mapEntry_banks (s : State) (i : Nat) (f : Entry → Entry) : (s.mapEntry i f).banks = s.banks := rfl
@[simp] theorem State.mapEntry_crw (s : State) (i : Nat) (f : Entry → Entry) : (s.mapEntry i f).crw = s.crw := rfl
@[simp] theorem State.mapEntry_wak (s : State) (i : Nat) (f : Entry → Entry) : (s.mapEntry i f).wak = s.wak := rfl
@[simp] theorem State.mapEntry_bln (s : State) (i : Nat) (f : Entry → Entry) : (s.mapEntry i f).bln = s.bln := rfl
@[simp] theorem State.mapEntry_stk (s : State) (i : Nat) (f : Entry → Entry) : (s.mapEntry i f).stk = s.stk := rfl
@[simp] theorem State.mapEntry_cox (s : State) (i : Nat) (f : Entry → Entry) : (s.mapEntry i f).cox = s.cox := rfl
@[simp] theorem State.mapEntry_int (s : State) (i : Nat) (f : Entry → Entry) : (s.mapEntry i f).int = s.int := rfl
@[simp] theorem State.mapEntry_hbm (s : State) (i : Nat) (f : Entry → Entry) : (s.mapEntry i f).hbm = s.hbm := rfl
@[simp] theorem State.mapEntry_str (s : State) (i : Nat) (f : Entry → Entry) : (s.mapEntry i f).str = s.str := rfl
@[simp] theorem State.mapEntry_evt (s : State) (i : Nat) (f : Entry → Entry) : (s.mapEntry i f).evt = s.evt := rfl
@[simp] theorem State.mapEntry_msix (s : State) (i : Nat) (f : Entry → Entry) : (s.mapEntry i f).msix = s.msix := rfl
@[simp] theorem State.mapEntry_log (s : State) (i : Nat) (f : Entry → Entry) : (s.mapEntry i f).log = s.log := rfl
@[simp] theorem State.mapEntry_mot (s : State) (i : Nat) (f : Entry → Entry) : (s.mapEntry i f).mot = s.mot := rfl
@[simp] theorem State.mapEntry_saf (s : State) (i : Nat) (f : Entry → Entry) : (s.mapEntry i f).saf = s.saf := rfl
@[simp] theorem State.mapEntry_mem (s : State) (i : Nat) (f : Entry → Entry) : (s.mapEntry i f).mem = s.mem := rfl
@[simp] theorem State.mapEntry_arb (s : State) (i : Nat) (f : Entry → Entry) : (s.mapEntry i f).arb = s.arb := rfl
@[simp] theorem State.mapEntry_dma (s : State) (i : Nat) (f : Entry → Entry) : (s.mapEntry i f).dma = s.dma := rfl
@[simp] theorem State.mapEntry_moverTurn (s : State) (i : Nat) (f : Entry → Entry) : (s.mapEntry i f).moverTurn = s.moverTurn := rfl
@[simp] theorem State.mapEntry_pwr (s : State) (i : Nat) (f : Entry → Entry) : (s.mapEntry i f).pwr = s.pwr := rfl
@[simp] theorem State.mapEntry_keel (s : State) (i : Nat) (f : Entry → Entry) : (s.mapEntry i f).keel = s.keel := rfl
@[simp] theorem State.mapEntry_jtag (s : State) (i : Nat) (f : Entry → Entry) : (s.mapEntry i f).jtag = s.jtag := rfl
@[simp] theorem State.mapEntry_results (s : State) (i : Nat) (f : Entry → Entry) : (s.mapEntry i f).results = s.results := rfl
@[simp] theorem State.mapEntry_free (s : State) (i : Nat) (f : Entry → Entry) : (s.mapEntry i f).free = s.free := rfl
@[simp] theorem State.mapEntry_out (s : State) (i : Nat) (f : Entry → Entry) : (s.mapEntry i f).out = s.out := rfl
@[simp] theorem State.mapEntry_resp (s : State) (i : Nat) (f : Entry → Entry) : (s.mapEntry i f).resp = s.resp := rfl
@[simp] theorem State.mapEntry_pending (s : State) (i : Nat) (f : Entry → Entry) : (s.mapEntry i f).pending = s.pending := rfl

/-! ### `State.begin` -/

@[simp] theorem State.begin_clock (s : State) : (s.begin).clock = s.clock := rfl
@[simp] theorem State.begin_rtOfs (s : State) : (s.begin).rtOfs = s.rtOfs := rfl
@[simp] theorem State.begin_regs (s : State) : (s.begin).regs = s.regs := rfl
@[simp] theorem State.begin_inf (s : State) : (s.begin).inf = s.inf := rfl
@[simp] theorem State.begin_latch (s : State) : (s.begin).latch = s.latch := rfl
@[simp] theorem State.begin_shape (s : State) : (s.begin).shape = s.shape := rfl
@[simp] theorem State.begin_ing (s : State) : (s.begin).ing = s.ing := rfl
@[simp] theorem State.begin_slz (s : State) : (s.begin).slz = s.slz := rfl
@[simp] theorem State.begin_ras (s : State) : (s.begin).ras = s.ras := rfl
@[simp] theorem State.begin_bsx (s : State) : (s.begin).bsx = s.bsx := rfl
@[simp] theorem State.begin_banks (s : State) : (s.begin).banks = s.banks := rfl
@[simp] theorem State.begin_crw (s : State) : (s.begin).crw = s.crw := rfl
@[simp] theorem State.begin_wak (s : State) : (s.begin).wak = s.wak := rfl
@[simp] theorem State.begin_bln (s : State) : (s.begin).bln = s.bln := rfl
@[simp] theorem State.begin_stk (s : State) : (s.begin).stk = s.stk := rfl
@[simp] theorem State.begin_cox (s : State) : (s.begin).cox = s.cox := rfl
@[simp] theorem State.begin_int (s : State) : (s.begin).int = s.int := rfl
@[simp] theorem State.begin_hbm (s : State) : (s.begin).hbm = s.hbm := rfl
@[simp] theorem State.begin_str (s : State) : (s.begin).str = s.str := rfl
@[simp] theorem State.begin_msix (s : State) : (s.begin).msix = s.msix := rfl
@[simp] theorem State.begin_log (s : State) : (s.begin).log = s.log := rfl
@[simp] theorem State.begin_mot (s : State) : (s.begin).mot = s.mot := rfl
@[simp] theorem State.begin_saf (s : State) : (s.begin).saf = s.saf := rfl
@[simp] theorem State.begin_mem (s : State) : (s.begin).mem = s.mem := rfl
@[simp] theorem State.begin_arb (s : State) : (s.begin).arb = s.arb := rfl
@[simp] theorem State.begin_dma (s : State) : (s.begin).dma = s.dma := rfl
@[simp] theorem State.begin_moverTurn (s : State) : (s.begin).moverTurn = s.moverTurn := rfl
@[simp] theorem State.begin_pwr (s : State) : (s.begin).pwr = s.pwr := rfl
@[simp] theorem State.begin_keel (s : State) : (s.begin).keel = s.keel := rfl
@[simp] theorem State.begin_jtag (s : State) : (s.begin).jtag = s.jtag := rfl
@[simp] theorem State.begin_results (s : State) : (s.begin).results = s.results := rfl
@[simp] theorem State.begin_free (s : State) : (s.begin).free = s.free := rfl
@[simp] theorem State.begin_pending (s : State) : (s.begin).pending = s.pending := rfl

/-! ### `State.raiseIf` -/

@[simp] theorem State.raiseIf_clock (b : Bool) (g : Fld) (s : State) : (State.raiseIf b g s).clock = s.clock := by cases b <;> rfl
@[simp] theorem State.raiseIf_rtOfs (b : Bool) (g : Fld) (s : State) : (State.raiseIf b g s).rtOfs = s.rtOfs := by cases b <;> rfl
@[simp] theorem State.raiseIf_inf (b : Bool) (g : Fld) (s : State) : (State.raiseIf b g s).inf = s.inf := by cases b <;> rfl
@[simp] theorem State.raiseIf_latch (b : Bool) (g : Fld) (s : State) : (State.raiseIf b g s).latch = s.latch := by cases b <;> rfl
@[simp] theorem State.raiseIf_shape (b : Bool) (g : Fld) (s : State) : (State.raiseIf b g s).shape = s.shape := by cases b <;> rfl
@[simp] theorem State.raiseIf_ing (b : Bool) (g : Fld) (s : State) : (State.raiseIf b g s).ing = s.ing := by cases b <;> rfl
@[simp] theorem State.raiseIf_slz (b : Bool) (g : Fld) (s : State) : (State.raiseIf b g s).slz = s.slz := by cases b <;> rfl
@[simp] theorem State.raiseIf_ras (b : Bool) (g : Fld) (s : State) : (State.raiseIf b g s).ras = s.ras := by cases b <;> rfl
@[simp] theorem State.raiseIf_bsx (b : Bool) (g : Fld) (s : State) : (State.raiseIf b g s).bsx = s.bsx := by cases b <;> rfl
@[simp] theorem State.raiseIf_banks (b : Bool) (g : Fld) (s : State) : (State.raiseIf b g s).banks = s.banks := by cases b <;> rfl
@[simp] theorem State.raiseIf_crw (b : Bool) (g : Fld) (s : State) : (State.raiseIf b g s).crw = s.crw := by cases b <;> rfl
@[simp] theorem State.raiseIf_wak (b : Bool) (g : Fld) (s : State) : (State.raiseIf b g s).wak = s.wak := by cases b <;> rfl
@[simp] theorem State.raiseIf_bln (b : Bool) (g : Fld) (s : State) : (State.raiseIf b g s).bln = s.bln := by cases b <;> rfl
@[simp] theorem State.raiseIf_stk (b : Bool) (g : Fld) (s : State) : (State.raiseIf b g s).stk = s.stk := by cases b <;> rfl
@[simp] theorem State.raiseIf_cox (b : Bool) (g : Fld) (s : State) : (State.raiseIf b g s).cox = s.cox := by cases b <;> rfl
@[simp] theorem State.raiseIf_int (b : Bool) (g : Fld) (s : State) : (State.raiseIf b g s).int = s.int := by cases b <;> rfl
@[simp] theorem State.raiseIf_hbm (b : Bool) (g : Fld) (s : State) : (State.raiseIf b g s).hbm = s.hbm := by cases b <;> rfl
@[simp] theorem State.raiseIf_str (b : Bool) (g : Fld) (s : State) : (State.raiseIf b g s).str = s.str := by cases b <;> rfl
@[simp] theorem State.raiseIf_evt (b : Bool) (g : Fld) (s : State) : (State.raiseIf b g s).evt = s.evt := by cases b <;> rfl
@[simp] theorem State.raiseIf_msix (b : Bool) (g : Fld) (s : State) : (State.raiseIf b g s).msix = s.msix := by cases b <;> rfl
@[simp] theorem State.raiseIf_log (b : Bool) (g : Fld) (s : State) : (State.raiseIf b g s).log = s.log := by cases b <;> rfl
@[simp] theorem State.raiseIf_mot (b : Bool) (g : Fld) (s : State) : (State.raiseIf b g s).mot = s.mot := by cases b <;> rfl
@[simp] theorem State.raiseIf_saf (b : Bool) (g : Fld) (s : State) : (State.raiseIf b g s).saf = s.saf := by cases b <;> rfl
@[simp] theorem State.raiseIf_mem (b : Bool) (g : Fld) (s : State) : (State.raiseIf b g s).mem = s.mem := by cases b <;> rfl
@[simp] theorem State.raiseIf_arb (b : Bool) (g : Fld) (s : State) : (State.raiseIf b g s).arb = s.arb := by cases b <;> rfl
@[simp] theorem State.raiseIf_dma (b : Bool) (g : Fld) (s : State) : (State.raiseIf b g s).dma = s.dma := by cases b <;> rfl
@[simp] theorem State.raiseIf_moverTurn (b : Bool) (g : Fld) (s : State) : (State.raiseIf b g s).moverTurn = s.moverTurn := by cases b <;> rfl
@[simp] theorem State.raiseIf_pwr (b : Bool) (g : Fld) (s : State) : (State.raiseIf b g s).pwr = s.pwr := by cases b <;> rfl
@[simp] theorem State.raiseIf_keel (b : Bool) (g : Fld) (s : State) : (State.raiseIf b g s).keel = s.keel := by cases b <;> rfl
@[simp] theorem State.raiseIf_jtag (b : Bool) (g : Fld) (s : State) : (State.raiseIf b g s).jtag = s.jtag := by cases b <;> rfl
@[simp] theorem State.raiseIf_results (b : Bool) (g : Fld) (s : State) : (State.raiseIf b g s).results = s.results := by cases b <;> rfl
@[simp] theorem State.raiseIf_free (b : Bool) (g : Fld) (s : State) : (State.raiseIf b g s).free = s.free := by cases b <;> rfl
@[simp] theorem State.raiseIf_out (b : Bool) (g : Fld) (s : State) : (State.raiseIf b g s).out = s.out := by cases b <;> rfl
@[simp] theorem State.raiseIf_resp (b : Bool) (g : Fld) (s : State) : (State.raiseIf b g s).resp = s.resp := by cases b <;> rfl
@[simp] theorem State.raiseIf_pending (b : Bool) (g : Fld) (s : State) : (State.raiseIf b g s).pending = s.pending := by cases b <;> rfl

/-! ### What the updates do to their own field -/

@[simp] theorem State.emit_out (s : State) (o : Output) : (s.emit o).out = s.out ++ [o] := rfl
@[simp] theorem State.emits_out (s : State) (os : List Output) : (s.emits os).out = s.out ++ os := rfl
@[simp] theorem State.until_clock (s : State) (t : Int) : (s.until t).clock = max s.clock t := rfl
@[simp] theorem State.after_clock (s : State) (n : Nat) : (s.after n).clock = s.clock + n := rfl
@[simp] theorem State.begin_out (s : State) : s.begin.out = [] := rfl
@[simp] theorem State.begin_resp (s : State) : s.begin.resp = .none := rfl
@[simp] theorem State.begin_forced (s : State) : s.begin.evt.forced = [] := rfl
@[simp] theorem State.begin_reg (s : State) (a : Nat) : s.begin.reg a = s.reg a := rfl
@[simp] theorem State.begin_fget (s : State) (f : Fld) : s.begin.fget f = s.fget f := rfl
@[simp] theorem State.begin_flag (s : State) (f : Fld) : s.begin.flag f = s.flag f := rfl

end Sys2Proof.Machine
end

