-- ==== Sys2Proof/Laws/Settle.lean ====
section
/-! SUPPORT. Everything that settling an access can do: registers of the blocks EVT and LOG, the event unit, the recorder and the outputs
(R369 to R380). -/

namespace Sys2Proof.Machine

/-- One state is another with nothing changed but what recording an occurrence may change. -/
def Noted (s t : State) : Prop :=
  (∃ r e q w n d x o, t = { s with regs := r, evt := e, out := o
                                   log := { s.log with queue := q, writing := w, seq := n, drops := d, lost := x } }) ∧
    (∀ a, recorderReg a = false → t.reg a = s.reg a) ∧ s.out <+: t.out

theorem Noted.refl (s : State) : Noted s s :=
  ⟨⟨s.regs, s.evt, s.log.queue, s.log.writing, s.log.seq, s.log.drops, s.log.lost, s.out, rfl⟩, fun _ _ => rfl, List.prefix_rfl⟩

theorem Noted.trans {s t u : State} (h : Noted s t) (k : Noted t u) : Noted s u := by
  obtain ⟨⟨r, e, q, w, n, d, x, o, rfl⟩, h2, h3⟩ := h
  obtain ⟨⟨r', e', q', w', n', d', x', o', rfl⟩, k2, k3⟩ := k
  exact ⟨⟨r', e', q', w', n', d', x', o', rfl⟩, fun a ha => (k2 a ha).trans (h2 a ha), h3.trans k3⟩

theorem Noted.setReg (s : State) (a : Nat) (w : Word) (h : recorderReg a = true) : Noted s (s.setReg a w) :=
  ⟨⟨_, s.evt, s.log.queue, s.log.writing, s.log.seq, s.log.drops, s.log.lost, s.out, rfl⟩,
    fun b hb => State.reg_setReg_ne s a b w (fun e => by rw [e, h] at hb; cases hb), List.prefix_rfl⟩

theorem Noted.fset (s : State) (f : Fld) (v : Nat) (h : recorderReg f.addr = true) : Noted s (s.fset f v) := Noted.setReg s _ _ h

theorem Noted.unit (s : State) (e : Events) : Noted s { s with evt := e } :=
  ⟨⟨s.regs, e, s.log.queue, s.log.writing, s.log.seq, s.log.drops, s.log.lost, s.out, rfl⟩, fun _ _ => rfl, List.prefix_rfl⟩

theorem Noted.recorder (s : State) (q : List QueuedRec) (w : Option (Nat × Nat × QueuedRec)) (n : Nat) (d : List Nat)
    (x : Option LossRun) : Noted s { s with log := { s.log with queue := q, writing := w, seq := n, drops := d, lost := x } } :=
  ⟨⟨s.regs, s.evt, q, w, n, d, x, s.out, rfl⟩, fun _ _ => rfl, List.prefix_rfl⟩

theorem Noted.emit (s : State) (o : Output) : Noted s (s.emit o) :=
  ⟨⟨s.regs, s.evt, s.log.queue, s.log.writing, s.log.seq, s.log.drops, s.log.lost, _, rfl⟩, fun _ _ => rfl, List.prefix_append _ _⟩

theorem Noted.foldl {β : Type} (f : State → β → State) (l : List β) (h : ∀ s, ∀ b ∈ l, Noted s (f s b)) (s : State) :
    Noted s (l.foldl f s) := by
  induction l generalizing s with
  | nil => exact Noted.refl s
  | cons b t ih => exact (h s b (by simp)).trans (ih (fun u c hc => h u c (by simp [hc])) _)

theorem Noted.bump (s : State) (f : Fld) (h : recorderReg f.addr = true) : Noted s (s.bump f) := by
  unfold State.bump State.add
  exact Noted.fset s _ _ h

theorem Noted.raise (s : State) (f : Fld) (h : recorderReg f.addr = true) : Noted s (s.raise f) := by
  unfold State.raise
  exact Noted.fset s _ _ h

theorem noted_dropRec (r : QueuedRec) (s : State) : Noted s (dropRec r s) :=
  (Noted.recorder s _ _ _ _ _).trans (Noted.raise _ _ rfl)

theorem noted_startWrite (n : Nat) (s : State) : Noted s (startWrite n s) := by
  induction n generalizing s with
  | zero => exact Noted.refl s
  | succ n ih =>
    unfold startWrite
    split
    · split
      · exact Noted.recorder s _ _ _ _ _
      · exact (Noted.recorder s _ _ _ _ _).trans ((noted_dropRec _ _).trans (ih _))
    · exact Noted.refl s

theorem noted_countLoss (s : State) : Noted s (countLoss s) := by
  unfold countLoss
  exact Noted.recorder s _ _ _ _ _

theorem noted_lost (s : State) :
    Noted s (((countLoss s).bump F.LOG_QUEUE_LOST_COUNT).raise F.LOG_EVENTS_QUEUE_LOST) :=
  (noted_countLoss s).trans ((Noted.bump _ _ rfl).trans (Noted.raise _ _ rfl))

theorem noted_queued (n : Nat) (q : List QueuedRec) (s : State) :
    Noted s (startWrite n { s with log := { s.log with queue := q } }) :=
  (Noted.recorder s _ _ _ _ _).trans (noted_startWrite n _)

theorem noted_queueRec (r : QueuedRec) (s : State) : Noted s (queueRec r s) := by
  by_cases h : s.log.queue.length < 256
  · rw [queueRec, if_pos h]
    exact noted_queued 256 _ s
  · rw [queueRec, if_neg h]
    exact noted_lost s

theorem noted_makeRec (sev cls source : Nat) (payload : List Byte) (s : State) : Noted s (makeRec sev cls source payload s) :=
  noted_queueRec _ s

theorem noted_sendMsi (n : Nat) (s : State) : Noted s (sendMsi n s) := by
  unfold sendMsi
  split
  · exact Noted.emit s _
  · exact Noted.unit s _

theorem recorderReg_pend (n : Nat) (h : n < 128) : recorderReg (pendBit n).addr = true := by
  have h1 : 0x040020 ≤ 0x040020 + 0x4 * (n / 32) ∧ 0x040020 + 0x4 * (n / 32) < 0x040030 := by omega
  show recorderReg (0x040020 + 0x4 * (n / 32)) = true
  simp only [recorderReg, h1, decide_true, and_self, Bool.true_or]

theorem recorderReg_count (n : Nat) (h : n < 128) : recorderReg (F.EVT_SRC_COUNT_COUNT n).addr = true := by
  have h1 : 0x040300 ≤ 0x040300 + 0x4 * n ∧ 0x040300 + 0x4 * n < 0x040500 := by omega
  show recorderReg (0x040300 + 0x4 * n) = true
  simp only [recorderReg, h1, decide_true, and_self, Bool.true_or, Bool.or_true]

theorem noted_counted (n : Nat) (h : n < 128) (s : State) :
    Noted s ((s.bump (F.EVT_SRC_COUNT_COUNT n)).raise (pendBit n)) :=
  (Noted.bump s _ (recorderReg_count n h)).trans (Noted.raise _ _ (recorderReg_pend n h))

theorem noted_records (sev src : Nat) (regs : List (Nat × Nat)) (s : State) :
    Noted s (regs.foldl (fun t m => makeRec sev 1 src (eventPayload t m.1 m.2) t) s) :=
  Noted.foldl _ regs (fun t m _ => noted_makeRec sev 1 src (eventPayload t m.1 m.2) t) s

theorem noted_messaged (b : Bool) (n : Nat) (s u : State) (h : Noted s u) : Noted s (if b then sendMsi n u else u) := by
  cases b
  · exact h
  · exact h.trans (noted_sendMsi n u)

theorem noted_occur (e : EventSource) (he : e.src < 128) (forced : Bool) (risen : List (Nat × Nat)) (s : State) :
    Noted s (occur e forced risen s) := by
  have h2 := noted_messaged (!s.pend e.src && s.flag (F.EVT_SRC_CFG_MSG_EN e.src)) e.src s _ (noted_counted e.src he s)
  unfold occur
  dsimp only
  split
  · exact h2.trans (noted_records _ _ _ _)
  · exact h2

theorem eventSources_src : ∀ e ∈ eventSources, e.src < 128 := by decide

theorem noted_settlePass (s0 s1 : State) : Noted s1 (settlePass s0 s1) := by
  unfold settlePass
  refine (Noted.unit s1 _).trans (Noted.foldl _ _ (fun t e he => ?_) _)
  dsimp only
  split
  · exact Noted.refl t
  · exact noted_occur e (eventSources_src e he) _ _ t

/-- Everything that settling can do. -/
theorem noted_settle (s0 s1 : State) : Noted s1 (settle s0 s1) := by
  have h3 := ((noted_settlePass s0 s1).trans (noted_settlePass s1 _)).trans (noted_settlePass (settlePass s0 s1) _)
  unfold settle
  dsimp only
  split
  · exact h3.trans ((Noted.emit _ _).trans (Noted.unit _ _))
  · exact h3.trans (Noted.unit _ _)

/-- A register that recording does not write, after settling. -/
theorem settle_reg (s0 s1 : State) (a : Nat) (h : recorderReg a = false) : (settle s0 s1).reg a = s1.reg a := (noted_settle s0 s1).2.1 a h

/-- What an effect sent stands first among the outputs. -/
theorem settle_out (s0 s1 : State) : s1.out <+: (settle s0 s1).out := (noted_settle s0 s1).2.2

/-- A field of such a register after settling. -/
theorem settle_fget (s0 s1 : State) (f : Fld) (h : recorderReg f.addr = false) : (settle s0 s1).fget f = s1.fget f := by
  simp only [State.fget, settle_reg s0 s1 f.addr h]

/-! ### The fields that settling leaves alone -/

@[simp] theorem settle_clock (s0 s1 : State) : (settle s0 s1).clock = s1.clock := by obtain ⟨⟨r, e, q, w, n, d, x, o, h⟩, -⟩ := noted_settle s0 s1; rw [h]
@[simp] theorem settle_rtOfs (s0 s1 : State) : (settle s0 s1).rtOfs = s1.rtOfs := by obtain ⟨⟨r, e, q, w, n, d, x, o, h⟩, -⟩ := noted_settle s0 s1; rw [h]
@[simp] theorem settle_inf (s0 s1 : State) : (settle s0 s1).inf = s1.inf := by obtain ⟨⟨r, e, q, w, n, d, x, o, h⟩, -⟩ := noted_settle s0 s1; rw [h]
@[simp] theorem settle_latch (s0 s1 : State) : (settle s0 s1).latch = s1.latch := by obtain ⟨⟨r, e, q, w, n, d, x, o, h⟩, -⟩ := noted_settle s0 s1; rw [h]
@[simp] theorem settle_shape (s0 s1 : State) : (settle s0 s1).shape = s1.shape := by obtain ⟨⟨r, e, q, w, n, d, x, o, h⟩, -⟩ := noted_settle s0 s1; rw [h]
@[simp] theorem settle_ing (s0 s1 : State) : (settle s0 s1).ing = s1.ing := by obtain ⟨⟨r, e, q, w, n, d, x, o, h⟩, -⟩ := noted_settle s0 s1; rw [h]
@[simp] theorem settle_slz (s0 s1 : State) : (settle s0 s1).slz = s1.slz := by obtain ⟨⟨r, e, q, w, n, d, x, o, h⟩, -⟩ := noted_settle s0 s1; rw [h]
@[simp] theorem settle_ras (s0 s1 : State) : (settle s0 s1).ras = s1.ras := by obtain ⟨⟨r, e, q, w, n, d, x, o, h⟩, -⟩ := noted_settle s0 s1; rw [h]
@[simp] theorem settle_bsx (s0 s1 : State) : (settle s0 s1).bsx = s1.bsx := by obtain ⟨⟨r, e, q, w, n, d, x, o, h⟩, -⟩ := noted_settle s0 s1; rw [h]
@[simp] theorem settle_banks (s0 s1 : State) : (settle s0 s1).banks = s1.banks := by obtain ⟨⟨r, e, q, w, n, d, x, o, h⟩, -⟩ := noted_settle s0 s1; rw [h]
@[simp] theorem settle_crw (s0 s1 : State) : (settle s0 s1).crw = s1.crw := by obtain ⟨⟨r, e, q, w, n, d, x, o, h⟩, -⟩ := noted_settle s0 s1; rw [h]
@[simp] theorem settle_wak (s0 s1 : State) : (settle s0 s1).wak = s1.wak := by obtain ⟨⟨r, e, q, w, n, d, x, o, h⟩, -⟩ := noted_settle s0 s1; rw [h]
@[simp] theorem settle_bln (s0 s1 : State) : (settle s0 s1).bln = s1.bln := by obtain ⟨⟨r, e, q, w, n, d, x, o, h⟩, -⟩ := noted_settle s0 s1; rw [h]
@[simp] theorem settle_stk (s0 s1 : State) : (settle s0 s1).stk = s1.stk := by obtain ⟨⟨r, e, q, w, n, d, x, o, h⟩, -⟩ := noted_settle s0 s1; rw [h]
@[simp] theorem settle_cox (s0 s1 : State) : (settle s0 s1).cox = s1.cox := by obtain ⟨⟨r, e, q, w, n, d, x, o, h⟩, -⟩ := noted_settle s0 s1; rw [h]
@[simp] theorem settle_int (s0 s1 : State) : (settle s0 s1).int = s1.int := by obtain ⟨⟨r, e, q, w, n, d, x, o, h⟩, -⟩ := noted_settle s0 s1; rw [h]
@[simp] theorem settle_hbm (s0 s1 : State) : (settle s0 s1).hbm = s1.hbm := by obtain ⟨⟨r, e, q, w, n, d, x, o, h⟩, -⟩ := noted_settle s0 s1; rw [h]
@[simp] theorem settle_str (s0 s1 : State) : (settle s0 s1).str = s1.str := by obtain ⟨⟨r, e, q, w, n, d, x, o, h⟩, -⟩ := noted_settle s0 s1; rw [h]
@[simp] theorem settle_msix (s0 s1 : State) : (settle s0 s1).msix = s1.msix := by obtain ⟨⟨r, e, q, w, n, d, x, o, h⟩, -⟩ := noted_settle s0 s1; rw [h]
@[simp] theorem settle_mot (s0 s1 : State) : (settle s0 s1).mot = s1.mot := by obtain ⟨⟨r, e, q, w, n, d, x, o, h⟩, -⟩ := noted_settle s0 s1; rw [h]
@[simp] theorem settle_saf (s0 s1 : State) : (settle s0 s1).saf = s1.saf := by obtain ⟨⟨r, e, q, w, n, d, x, o, h⟩, -⟩ := noted_settle s0 s1; rw [h]
@[simp] theorem settle_mem (s0 s1 : State) : (settle s0 s1).mem = s1.mem := by obtain ⟨⟨r, e, q, w, n, d, x, o, h⟩, -⟩ := noted_settle s0 s1; rw [h]
@[simp] theorem settle_arb (s0 s1 : State) : (settle s0 s1).arb = s1.arb := by obtain ⟨⟨r, e, q, w, n, d, x, o, h⟩, -⟩ := noted_settle s0 s1; rw [h]
@[simp] theorem settle_dma (s0 s1 : State) : (settle s0 s1).dma = s1.dma := by obtain ⟨⟨r, e, q, w, n, d, x, o, h⟩, -⟩ := noted_settle s0 s1; rw [h]
@[simp] theorem settle_moverTurn (s0 s1 : State) : (settle s0 s1).moverTurn = s1.moverTurn := by obtain ⟨⟨r, e, q, w, n, d, x, o, h⟩, -⟩ := noted_settle s0 s1; rw [h]
@[simp] theorem settle_pwr (s0 s1 : State) : (settle s0 s1).pwr = s1.pwr := by obtain ⟨⟨r, e, q, w, n, d, x, o, h⟩, -⟩ := noted_settle s0 s1; rw [h]
@[simp] theorem settle_keel (s0 s1 : State) : (settle s0 s1).keel = s1.keel := by obtain ⟨⟨r, e, q, w, n, d, x, o, h⟩, -⟩ := noted_settle s0 s1; rw [h]
@[simp] theorem settle_jtag (s0 s1 : State) : (settle s0 s1).jtag = s1.jtag := by obtain ⟨⟨r, e, q, w, n, d, x, o, h⟩, -⟩ := noted_settle s0 s1; rw [h]
@[simp] theorem settle_results (s0 s1 : State) : (settle s0 s1).results = s1.results := by obtain ⟨⟨r, e, q, w, n, d, x, o, h⟩, -⟩ := noted_settle s0 s1; rw [h]
@[simp] theorem settle_free (s0 s1 : State) : (settle s0 s1).free = s1.free := by obtain ⟨⟨r, e, q, w, n, d, x, o, h⟩, -⟩ := noted_settle s0 s1; rw [h]
@[simp] theorem settle_resp (s0 s1 : State) : (settle s0 s1).resp = s1.resp := by obtain ⟨⟨r, e, q, w, n, d, x, o, h⟩, -⟩ := noted_settle s0 s1; rw [h]
@[simp] theorem settle_pending (s0 s1 : State) : (settle s0 s1).pending = s1.pending := by obtain ⟨⟨r, e, q, w, n, d, x, o, h⟩, -⟩ := noted_settle s0 s1; rw [h]
@[simp] theorem settle_log_slots (s0 s1 : State) : (settle s0 s1).log.slots = s1.log.slots := by obtain ⟨⟨r, e, q, w, n, d, x, o, h⟩, -⟩ := noted_settle s0 s1; rw [h]
@[simp] theorem settle_log_newest (s0 s1 : State) : (settle s0 s1).log.newest = s1.log.newest := by obtain ⟨⟨r, e, q, w, n, d, x, o, h⟩, -⟩ := noted_settle s0 s1; rw [h]
@[simp] theorem settle_log_optime (s0 s1 : State) : (settle s0 s1).log.optime = s1.log.optime := by obtain ⟨⟨r, e, q, w, n, d, x, o, h⟩, -⟩ := noted_settle s0 s1; rw [h]
@[simp] theorem settle_log_cycle (s0 s1 : State) : (settle s0 s1).log.cycle = s1.log.cycle := by obtain ⟨⟨r, e, q, w, n, d, x, o, h⟩, -⟩ := noted_settle s0 s1; rw [h]
@[simp] theorem settle_log_prevWall (s0 s1 : State) : (settle s0 s1).log.prevWall = s1.log.prevWall := by obtain ⟨⟨r, e, q, w, n, d, x, o, h⟩, -⟩ := noted_settle s0 s1; rw [h]
@[simp] theorem settle_log_erasing (s0 s1 : State) : (settle s0 s1).log.erasing = s1.log.erasing := by obtain ⟨⟨r, e, q, w, n, d, x, o, h⟩, -⟩ := noted_settle s0 s1; rw [h]
@[simp] theorem settle_log_exporting (s0 s1 : State) : (settle s0 s1).log.exporting = s1.log.exporting := by obtain ⟨⟨r, e, q, w, n, d, x, o, h⟩, -⟩ := noted_settle s0 s1; rw [h]
@[simp] theorem settle_log_audit (s0 s1 : State) : (settle s0 s1).log.audit = s1.log.audit := by obtain ⟨⟨r, e, q, w, n, d, x, o, h⟩, -⟩ := noted_settle s0 s1; rw [h]

/-- The alert condition rests on the registers alone (R372). -/
theorem alert_congr (s t : State) (h : s.regs = t.regs) : s.alert = t.alert := by
  simp only [State.alert, State.flag, State.fget, State.pend, State.reg, h]

/-- ALERT_N is driven as R372 says after every access. -/
theorem settle_alertOn (s0 s1 : State) : (settle s0 s1).evt.alertOn = (settle s0 s1).alert := by
  unfold settle
  dsimp only
  apply alert_congr
  split <;> rfl

/-- A command whose operands are in range completes, with its effect settled. -/
theorem done_next (f : State → State) (s : State) :
    done true f s = .next { settle s.begin (f s.begin) with pending := s.pending } := rfl

/-- A command whose operands are out of range is refused by name. -/
theorem done_refused (f : State → State) (s : State) : done false f s = .refused .illFormed := rfl

end Sys2Proof.Machine
end

