-- ==== Sys2Proof/Laws/Frame.lean ====
section
/-! SUPPORT. Frames put together: what an effect leaves alone, from what its steps leave alone. -/

namespace Sys2Proof.Machine

/-- A part is the same as itself. -/
theorem Part.same_refl (p : Part) (s : State) : p.same s s := by cases p <;> simp [Part.same]

/-- A part that is the same twice. -/
theorem Part.same_trans (p : Part) {s t u : State} (h : p.same s t) (k : p.same t u) : p.same s u := by
  cases p <;> simp_all [Part.same]

/-- Nothing done changes nothing. -/
theorem Frame.refl (ps : List Part) (rs : List Nat) (s : State) : Frame ps rs s s :=
  ⟨fun p _ => p.same_refl s, fun _ _ _ => rfl⟩

/-- Two effects one after the other. -/
theorem Frame.trans {ps : List Part} {rs : List Nat} {s t u : State} (h : Frame ps rs s t) (k : Frame ps rs t u) : Frame ps rs s u :=
  ⟨fun p hp => p.same_trans (h.1 p hp) (k.1 p hp), fun a ha hr => (k.2 a ha hr).trans (h.2 a ha hr)⟩

/-- A frame with more listed. -/
theorem Frame.mono {ps qs : List Part} {rs vs : List Nat} {s t : State} (h : Frame ps rs s t) (hp : ∀ p ∈ ps, p ∈ qs)
    (hr : ∀ a ∈ rs, a ∈ vs) : Frame qs vs s t :=
  ⟨fun p hq => h.1 p (fun m => hq (hp p m)), fun a ha => h.2 a (fun m => ha (hr a m))⟩

/-- A register written. -/
theorem Frame.setReg (ps : List Part) (rs : List Nat) (s : State) (a : Nat) (w : Word) (h : a ∈ rs) : Frame ps rs s (s.setReg a w) :=
  ⟨fun p _ => by cases p <;> simp [Part.same], fun b hb _ => State.reg_setReg_ne s a b w (fun e => hb (e ▸ h))⟩

/-- A field written. -/
theorem Frame.fset (ps : List Part) (rs : List Nat) (s : State) (f : Fld) (v : Nat) (h : f.addr ∈ rs) : Frame ps rs s (s.fset f v) :=
  Frame.setReg ps rs s _ _ h

/-- A bit set. -/
theorem Frame.raise (ps : List Part) (rs : List Nat) (s : State) (f : Fld) (h : f.addr ∈ rs) : Frame ps rs s (s.raise f) :=
  Frame.fset ps rs s f _ h

/-- A field cleared. -/
theorem Frame.clear (ps : List Part) (rs : List Nat) (s : State) (f : Fld) (h : f.addr ∈ rs) : Frame ps rs s (s.clear f) :=
  Frame.fset ps rs s f _ h

/-- A counter increased. -/
theorem Frame.bump (ps : List Part) (rs : List Nat) (s : State) (f : Fld) (h : f.addr ∈ rs) : Frame ps rs s (s.bump f) :=
  Frame.fset ps rs s f _ h

/-- A bit set on a condition. -/
theorem Frame.raiseIf (ps : List Part) (rs : List Nat) (s : State) (b : Bool) (f : Fld) (h : f.addr ∈ rs) :
    Frame ps rs s (State.raiseIf b f s) := by
  cases b
  · exact Frame.refl ps rs s
  · exact Frame.raise ps rs s f h

/-- An effect on a condition. -/
theorem Frame.ite {ps : List Part} {rs : List Nat} {s t u : State} (c : Prop) [Decidable c] (h : c → Frame ps rs s t)
    (k : ¬ c → Frame ps rs s u) : Frame ps rs s (if c then t else u) := by
  by_cases hc : c
  · rw [if_pos hc]; exact h hc
  · rw [if_neg hc]; exact k hc

/-- An effect repeated over a list. -/
theorem Frame.foldl {β : Type} {ps : List Part} {rs : List Nat} (f : State → β → State) (l : List β)
    (h : ∀ s, ∀ b ∈ l, Frame ps rs s (f s b)) (s : State) : Frame ps rs s (l.foldl f s) := by
  induction l generalizing s with
  | nil => exact Frame.refl ps rs s
  | cons b t ih => exact (h s b (by simp)).trans (ih (fun u c hc => h u c (by simp [hc])) _)

/-- A change that writes no register. -/
theorem Frame.parts (ps : List Part) (rs : List Nat) (s t : State) (hr : t.regs = s.regs) (h : ∀ p, p ∉ ps → p.same s t) :
    Frame ps rs s t := ⟨h, fun a _ _ => by simp only [State.reg, hr]⟩

/-- Two states with nothing different but the outputs and the answer. -/
theorem Frame.begun (ps : List Part) (rs : List Nat) (s : State) : Frame ps rs s s.begin :=
  ⟨fun p _ => by cases p <;> simp [Part.same], fun _ _ _ => rfl⟩

/-- The frame of an effect is the frame of its command. -/
theorem Frame.settled {ps : List Part} {rs : List Nat} {s u : State} (q : List Instr) (h : Frame ps rs s.begin u) :
    Frame ps rs s { settle s.begin u with pending := q } := by
  refine ((Frame.begun ps rs s).trans h).trans ⟨fun p _ => by cases p <;> simp [Part.same], fun a _ hr => ?_⟩
  exact settle_reg s.begin u a hr

/-- A command completes where its meaning is an effect and its operands are in range. -/
theorem completes_of {c : Instr} {s : State} {P : State → Prop} (f : State → State) (h : exec c s = done true f s)
    (hp : P { settle s.begin (f s.begin) with pending := s.pending }) : Completes c s P :=
  ⟨_, h.trans (done_next f s), rfl, hp⟩

end Sys2Proof.Machine
end

