-- ==== Sys2Proof/Laws/Memory.lean ====
section
/-! SUPPORT. What the operations on HBM and on the keel store do: each keeps the canonical form, and each leaves every byte outside the
words it names as it was. -/

namespace Sys2Proof.Machine

/-- HBM after a reset of everything is in canonical form. -/
theorem Memory.wf_reset : Memory.wf State.reset.hbm.bytes = true := rfl

/-- Steps that each keep a property keep it together. -/
theorem foldl_keeps {α β : Type} (P : α → Prop) (f : α → β → α) (h : ∀ a b, P a → P (f a b)) (l : List β) (a : α) (k : P a) :
    P (l.foldl f a) := by
  induction l generalizing a with
  | nil => exact k
  | cons b t ih => exact ih _ (h a b k)

/-! ### What reading does -/

@[simp] theorem keelWrite_hbm (a : Nat) (bs : List Byte) (s : State) : (keelWrite a bs s).hbm = s.hbm := rfl

/-- A proposal saved leaves HBM alone. -/
@[simp] theorem saveRepair_hbm (s : State) : (saveRepair s).hbm = s.hbm := by
  unfold saveRepair
  split
  · rfl
  · dsimp only
    split <;> simp

/-- A proposal leaves HBM alone. -/
@[simp] theorem propose_hbm (kind trigger which : Nat) (addr : Word) (s : State) : (propose kind trigger which addr s).hbm = s.hbm := by
  unfold propose
  split
  · rfl
  · dsimp only
    split <;> simp

@[simp] theorem proposeHbm_hbm (trigger addr : Nat) (s : State) : (proposeHbm trigger addr s).hbm = s.hbm := propose_hbm ..

@[simp] theorem noteCe_hbm (w : Nat) (s : State) : (noteCe w s).hbm = s.hbm := by simp [noteCe]

@[simp] theorem noteUe_hbm (scrub : Bool) (port w : Nat) (s : State) : (noteUe scrub port w s).hbm = s.hbm := by simp [noteUe]

/-- The counts of a word read leave HBM alone. -/
@[simp] theorem State.countWord_hbm (s : State) (scrub : Bool) (port w : Nat) : (s.countWord scrub port w).hbm = s.hbm := by
  unfold State.countWord
  split <;> simp

@[simp] theorem countRow_hbm (w : Nat) (s : State) : (countRow w s).hbm = s.hbm := by
  unfold countRow
  dsimp only
  split
  · rw [proposeHbm_hbm]
  · rfl

/-- A word read is counted and proposed; HBM stays as it was until its correction is written back. -/
@[simp] theorem noteRead_hbm (scrub : Bool) (port w : Nat) (s : State) : (noteRead scrub port w s).hbm = s.hbm := by
  unfold noteRead
  dsimp only
  split
  · simp
  · split <;> simp
  · simp

/-! ### What writing a word does -/

/-- The bytes of HBM after check bits are written. -/
@[simp] theorem State.putChk_bytes (s : State) (w m : Nat) : (s.putChk w m).hbm.bytes = s.hbm.bytes := by
  unfold State.putChk
  dsimp only
  split <;> simp

/-- The bytes of HBM after a word is stored: those of the list put one after another. -/
@[simp] theorem State.storeWord_bytes (s : State) (w m : Nat) (bs : List (Nat × Byte)) :
    (s.storeWord w m bs).hbm.bytes = sparsePutAll hbmDefault s.hbm.bytes bs := by
  simp [State.storeWord]

/-- The bytes of HBM after one word is written: those that the list does not name first, as the merge reads them. -/
theorem State.hbmPutWord_bytes (s : State) (port w : Nat) (bs : List (Nat × Byte)) :
    (s.hbmPutWord port w bs).hbm.bytes = sparsePutAll hbmDefault s.hbm.bytes (s.mergeBytes w bs ++ bs) := by
  unfold State.hbmPutWord
  dsimp only
  split
  · next h => rw [State.storeWord_bytes, List.isEmpty_iff.mp h, List.nil_append]
  · simp

/-- A word written keeps the canonical form. -/
theorem State.hbmPutWord_wf (s : State) (port w : Nat) (bs : List (Nat × Byte)) (h : Memory.wf s.hbm.bytes = true) :
    Memory.wf (s.hbmPutWord port w bs).hbm.bytes = true := by
  rw [State.hbmPutWord_bytes]
  exact sparseWf_putAll hbmDefault _ _ h

/-- The bytes that a merge reads lie in its word. -/
theorem State.mem_mergeBytes (s : State) (w : Nat) (bs : List (Nat × Byte)) (p : Nat × Byte) (h : p ∈ s.mergeBytes w bs) :
    p.1 / 8 = w := by
  obtain ⟨a, ha, hp⟩ := List.mem_filterMap.mp h
  obtain ⟨i, hi, rfl⟩ := List.mem_map.mp ha
  have := List.mem_range.mp hi
  split at hp
  · cases hp
  · cases hp; simp; omega

/-- An undefined stretch cut around an interval holds the same addresses outside it. -/
theorem carve_find (lo hi x : Nat) (hle : lo ≤ hi) (hx : x < lo ∨ hi ≤ x) (hs : List Haze) :
    ((carve lo hi hs).find? (fun h => h.holds x)).map (fun h => (h.stamp, h.raw)) =
      (hs.find? (fun h => h.holds x)).map (fun h => (h.stamp, h.raw)) := by
  induction hs with
  | nil => rfl
  | cons h t ih =>
    unfold carve at ih ⊢
    rw [List.flatMap_cons, List.find?_append, List.find?_cons]
    by_cases hold : h.base ≤ x ∧ x < h.base + h.len
    · have e : h.holds x = true := by simpa [Haze.holds] using hold
      rw [e]
      by_cases out : h.base + h.len ≤ lo ∨ hi ≤ h.base
      · simp [out, e]
      · rw [if_neg out]
        rcases hx with hl | hh
        · rw [if_pos (by omega)]
          simp [Haze.holds, hold.1, show x < h.base + (lo - h.base) by omega]
        · rw [if_pos (show hi < h.base + h.len by omega)]
          by_cases b : h.base < lo
          · simp [b, Haze.holds, show ¬ x < h.base + (lo - h.base) by omega, show hi ≤ x by omega,
              show x < hi + (h.base + h.len - hi) by omega]
          · simp [b, Haze.holds, show hi ≤ x by omega, show x < hi + (h.base + h.len - hi) by omega]
    · have e : h.holds x = false := by simpa [Haze.holds] using hold
      rw [e]
      have none' : (if h.base + h.len ≤ lo ∨ hi ≤ h.base then [h]
          else (if h.base < lo then [{ h with len := lo - h.base }] else [])
            ++ (if hi < h.base + h.len then [{ h with base := hi, len := h.base + h.len - hi }] else [])).find? (fun h => h.holds x) = none := by
        refine List.find?_eq_none.mpr (fun q hq => ?_)
        split at hq
        · simp_all
        · simp only [List.mem_append] at hq
          rcases hq with hq | hq <;> split at hq <;> simp_all [Haze.holds] <;> omega
      rw [none']
      simpa using ih

/-- A byte reads alike where the undefined stretches and the listed bytes do. -/
theorem State.hbmByte_congr (s t : State) (x : Nat)
    (hz : (t.hazeAt x).map (fun h => (h.stamp, h.raw)) = (s.hazeAt x).map (fun h => (h.stamp, h.raw)))
    (hb : sparseGet hbmDefault x t.hbm.bytes = sparseGet hbmDefault x s.hbm.bytes) : t.hbmByte x = s.hbmByte x := by
  unfold State.hbmByte
  revert hz
  cases t.hazeAt x <;> cases s.hazeAt x <;> simp_all

/-- A byte of HBM depends on HBM alone. -/
theorem State.hbmByte_of_hbm (s t : State) (x : Nat) (h : t.hbm = s.hbm) : t.hbmByte x = s.hbmByte x := by
  simp only [State.hbmByte, State.hazeAt, h]

/-- A word stored leaves every byte of another word. -/
theorem State.storeWord_byte_ne (s : State) (w m x : Nat) (bs : List (Nat × Byte)) (h : ∀ p ∈ bs, p.1 / 8 = w) (hx : x / 8 ≠ w) :
    (s.storeWord w m bs).hbmByte x = s.hbmByte x := by
  refine State.hbmByte_congr _ _ x ?_ ?_
  · have e : (s.storeWord w m bs).hbm.hazes = carve (8 * w) (8 * w + 8) s.hbm.hazes := by
      unfold State.storeWord State.putChk
      dsimp only
      split <;> simp
    unfold State.hazeAt
    rw [e]
    exact carve_find _ _ x (by omega) (by omega) _
  · rw [State.storeWord_bytes]
    exact sparseGet_putAll_ne hbmDefault x bs _ (fun p hp e => hx (e ▸ h p hp))

/-- A word written leaves every byte of another word. -/
theorem State.hbmPutWord_byte_ne (s : State) (port w x : Nat) (bs : List (Nat × Byte)) (h : ∀ p ∈ bs, p.1 / 8 = w) (hx : x / 8 ≠ w) :
    (s.hbmPutWord port w bs).hbmByte x = s.hbmByte x := by
  have all : ∀ p ∈ s.mergeBytes w bs ++ bs, p.1 / 8 = w := fun p hp =>
    (List.mem_append.mp hp).elim (s.mem_mergeBytes w bs p) (h p)
  unfold State.hbmPutWord
  dsimp only
  split
  · exact s.storeWord_byte_ne w 0 x bs h hx
  · refine Eq.trans (b := ((noteRead false port w s).storeWord w (if (s.wordClass w == .uncorrectable) = true then 3 else 0)
        (s.mergeBytes w bs ++ bs)).hbmByte x) (State.hbmByte_of_hbm _ _ x (State.raiseIf_hbm ..)) ?_
    exact (State.storeWord_byte_ne _ w _ x _ all hx).trans (State.hbmByte_of_hbm _ _ x (noteRead_hbm ..))

/-! ### What writing a range does -/

/-- A write keeps the canonical form. -/
theorem State.hbmWrite_wf (s : State) (port a : Nat) (bs : List Byte) (h : Memory.wf s.hbm.bytes = true) :
    Memory.wf (s.hbmWrite port a bs).hbm.bytes = true := by
  unfold State.hbmWrite
  split
  · exact h
  · refine foldl_keeps (fun (t : State) => Memory.wf t.hbm.bytes = true) _ (fun t w k => ?_) _ _ h
    split
    · exact State.hbmPutWord_wf t port w _ k
    · exact k

/-- The addresses that a write names lie in its range. -/
theorem mem_writeList (a : Nat) (bs : List Byte) (p : Nat × Byte)
    (h : p ∈ ((List.range bs.length).zip bs).map (fun q => (a + q.1, q.2))) : a ≤ p.1 ∧ p.1 < a + bs.length := by
  obtain ⟨⟨i, b⟩, hq, rfl⟩ := List.mem_map.mp h
  have hi : i < bs.length := List.mem_range.mp (List.of_mem_zip hq).1
  dsimp only
  omega

/-- A write leaves every byte whose word it does not touch. -/
theorem State.hbmWrite_byte_ne (s : State) (port a x : Nat) (bs : List Byte) (h : x / 8 ∉ wordsOf a bs.length) :
    (s.hbmWrite port a bs).hbmByte x = s.hbmByte x := by
  unfold State.hbmWrite
  split
  · rfl
  · generalize wordsOf a bs.length = ws at h
    suffices key : ∀ (l : List Nat) (t : State), (∀ w ∈ l, x / 8 ≠ w) → t.hbmByte x = s.hbmByte x →
        (l.foldl (fun t w => if 8 * w < hbmSize then
          t.hbmPutWord port w ((((List.range bs.length).zip bs).map (fun p => (a + p.1, p.2))).filter (fun p => p.1 / 8 == w)) else t) t).hbmByte x =
          s.hbmByte x from key ws s (fun w hw e => h (e ▸ hw)) rfl
    intro l
    induction l with
    | nil => exact fun t _ k => k
    | cons w l ih =>
      intro t hl k
      rw [List.foldl_cons]
      refine ih _ (fun v hv => hl v (List.mem_cons_of_mem _ hv)) ?_
      split
      · exact (State.hbmPutWord_byte_ne t port w x _ (fun p hp => by simpa using (List.mem_filter.mp hp).2)
          (hl w List.mem_cons_self)).trans k
      · exact k

/-- A range replaced keeps the canonical form. -/
theorem State.fillRange_wf (s : State) (base len : Nat) (hs : List Haze) (h : Memory.wf s.hbm.bytes = true) :
    Memory.wf (s.fillRange base len hs).hbm.bytes = true := by
  unfold State.fillRange
  split
  · exact h
  · dsimp only
    split
    · exact sparseWfFrom_filter hbmDefault none _ _ h
    · rw [State.putChk_bytes]
      exact sparseWfFrom_filter hbmDefault none _ _ h

/-- A range zeroed keeps the canonical form. -/
theorem zeroHbm_wf (base len : Nat) (s : State) (h : Memory.wf s.hbm.bytes = true) : Memory.wf (zeroHbm base len s).hbm.bytes = true :=
  s.fillRange_wf base len [] h

/-- A range left undefined keeps the canonical form. -/
theorem hazeHbm_wf (raw : Bool) (base len : Nat) (s : State) (h : Memory.wf s.hbm.bytes = true) :
    Memory.wf (hazeHbm raw base len s).hbm.bytes = true := by
  unfold hazeHbm
  split
  · exact h
  · exact State.fillRange_wf _ base len _ h

/-- An entry of the shadow marked leaves HBM alone. -/
@[simp] theorem markEntry_hbm (i : Nat) (s : State) : (markEntry i s).hbm = s.hbm := by
  unfold markEntry
  dsimp only
  split <;> rfl

/-- An ignored table write leaves HBM alone. -/
@[simp] theorem tableIgnored_hbm (y : TableId) (s : State) : (tableIgnored y s).hbm = s.hbm := by cases y <;> simp [tableIgnored]

/-- A write of any client keeps the canonical form where each part that it puts does. -/
theorem clientRange_wf (a n : Nat) (put : Nat → Nat → State → State) (s : State)
    (hp : ∀ x k t, Memory.wf t.hbm.bytes = true → Memory.wf (put x k t).hbm.bytes = true) (h : Memory.wf s.hbm.bytes = true) :
    Memory.wf (clientRange a n put s).hbm.bytes = true := by
  unfold clientRange
  dsimp only
  split
  · exact hp _ _ _ h
  · split
    · rw [tableIgnored_hbm]
      exact hp _ _ _ (hp _ _ _ h)
    · exact foldl_keeps (fun (t : State) => Memory.wf t.hbm.bytes = true) _ (fun t i k => by simpa using k) _ _ (hp _ _ _ h)

/-- A client's write keeps the canonical form. -/
theorem clientWrite_wf (port a : Nat) (bs : List Byte) (s : State) (h : Memory.wf s.hbm.bytes = true) :
    Memory.wf (clientWrite port a bs s).hbm.bytes = true :=
  clientRange_wf a bs.length _ s (fun x _ t k => t.hbmWrite_wf port x _ k) h

/-- A range that a stopped writer leaves undefined keeps the canonical form. -/
theorem scramble_wf (a n : Nat) (s : State) (h : Memory.wf s.hbm.bytes = true) : Memory.wf (scramble a n s).hbm.bytes = true :=
  clientRange_wf a n _ s (fun x k t w => hazeHbm_wf false x k t w) h

/-! ### The keel store -/

/-- A write to the keel store keeps its canonical form. -/
theorem keelWrite_wf (a : Nat) (bs : List Byte) (s : State) (h : sparseWf (fun _ => 0xFF#8) s.keel.bytes = true) :
    sparseWf (fun _ => 0xFF#8) (keelWrite a bs s).keel.bytes = true :=
  sparseWf_putAll (fun _ => 0xFF#8) _ _ h

/-- A write to the keel store leaves every byte outside its range. -/
theorem keelWrite_byte_ne (a x : Nat) (bs : List Byte) (s : State) (h : x < a ∨ a + bs.length ≤ x) :
    (keelWrite a bs s).keelByte x = s.keelByte x :=
  sparseGet_putAll_ne (fun _ => 0xFF#8) x _ _ (fun p hp => by
    have := mem_writeList a bs p hp
    omega)

end Sys2Proof.Machine
end

