-- ==== Sys2Proof/Tests/Slice0.lean ====
section
/-! SUPPORT. Tests: ill-formed commands for each check, the worked examples of the spec, and a witness for the hypotheses of each clause of each
statement. -/

set_option Elab.async false
set_option linter.unusedVariables false

namespace Sys2Proof.Tests
open Sys2Proof Sys2Proof.Machine

/-- Fields set on a state. -/
def put (l : List (Fld × Nat)) (s : State) : State := l.foldl (fun t p => t.fset p.1 p.2) s

/-- A state where HBM is in use. -/
def hbmUp : State := { put [(F.HBM_STATUS_READY, 1)] State.reset with hbm := { bytes := [], chk := [], hazes := [] } }

/-- A state with the safety lock open. -/
def unlocked : State := { put [(F.SAF_STATUS_LOCK_OPEN, 1)] State.reset with saf := { State.reset.saf with openedAt := some 0 } }

/-- A course of 64 tracks with one seat each and tiles of 64 pixels. -/
def small : Shape := { shapeDefault with cols := 8, rows := 8, tile := 64 }

/-- The header section of a course of eight bands. -/
def head : StreamHead :=
  { lengthPx := 512, plateId := 1, courseNo := 1, passes := 1, poly := List.replicate 20 0, classes := [{ dose := 1024, bse := false }]
    blocks := [{ offX := 0, offY := 0, scale := 32768 }], indexAt := 0, headEnd := 512, spills := false }

/-- A queue entry. -/
def entryIn (st : EntryState) : Entry :=
  { idx := 0, desc := List.replicate 16 0#32, seq := 1, state := st, err := 0, band := 0, tile := 0, off := 0, inHeader := false
    head := some head, work := none, spills := false }

/-- A state whose queue holds one entry. -/
def queued (st : EntryState) (s : State) : State := { s with shape := small, ing := { s.ing with queue := [entryIn st] } }

/-- A state in which a course runs. -/
def courseRuns : State :=
  let s := queued .running hbmUp
  { s with ras := { s.ras with stopped := false }, crw := { s.crw with stop := false } }

/-- The register of a result block with a visible result. -/
def slot : ResultSlot := { fields := [], seen := false, overrun := false }

/-- A frame of beam lane 0. -/
def frame : TxFrame :=
  { head := { beamLane := 0, phys := 0, deviceId := 0, courseSeq := 1, stroke := 7, gen := 0, replay := false, last := false, wtBank := 0
              trimBank := 0, tag := 0, recatches := 0, pass := 0, fseq := 0 }
    payload := [], badCrc := false, entered := 0, sentOn := none, acked := false, ackAt := 0 }

/-- A block of words closed by its CRC (R172). -/
def block (ws : List DWord) : List DWord := ws ++ [BitVec.setWidth 64 (crc32c (wordBytes ws))]

/-- A strait packet of a TYPE (R356). -/
def packet (typ vc dest src : Nat) (bcast : Bool) (p3 : DWord) : Packet :=
  { vc := vc, typ := typ, bcast := bcast, dest := dest, src := src, lseq := 0, hops := 1, ttx := 0#64, group := 0, seq := 9, tag := 0
    p3 := p3, payload := [], owed := none }

/-- A state whose four strait links are up in a division of 8 devices and a regatta of 4 divisions. -/
def linked : State :=
  let fs := (List.range 4).map (fun k => (F.STR_LINK_STATUS_STATE k, 2)) ++
    [(F.STR_CTL_ENABLE, 1), (F.STR_DIV_SIZE_N, 8), (F.STR_REG_SIZE_N, 4), (F.STR_GROUP_SIZE_N, 2), (F.STR_STATUS_DIST, 1),
     (F.STR_STATUS_MASTER_ID, 1), (F.STR_STATUS_TIME_LOCKED, 1)]
  let s := put fs State.reset
  { s with inf := s.regs }

/-- A strait link of `linked` replaced. -/
def withLink (k : Nat) (f : StraitLink → StraitLink) : State := linked.setLink k (f (linked.link k))

/-- A descriptor of a DMA channel (R339). -/
def descriptor (src dst len flags : Nat) (own : Bool) : List DWord :=
  [BitVec.ofNat 64 src, BitVec.ofNat 64 dst, BitVec.ofNat 64 (len + flags * 2 ^ 32), BitVec.ofNat 64 (bitOf own)]

/-- A state in which DMA channel 31 executes. -/
def channel (d : Option (List DWord)) (links : Nat) : State :=
  (put [(F.DMA_CH_STATUS_STATE 31, 2)] hbmUp).setChan 31 { chanReset with desc := d, fetch := d.isNone, links := links }

/-- A state in which both axes are enabled and at rest. -/
def axesUp : State :=
  put ([0, 1].flatMap (fun a => [(F.MOT_AX_STATUS_ENABLED a, 1), (F.MOT_AX_STATUS_STATE a, 1), (F.MOT_AX_STATUS_AT_REST a, 1)])) State.reset

/-- A state with an axis changed. -/
def withAxis (a : Nat) (f : Axis → Axis) (s : State) : State := s.setAxis a (f (s.axis a))

/-- A side job with a frame outstanding. -/
def sideJob (read : Bool) : SideJob :=
  { wave := false, src := 0, space := 1, read := read, addr := 16, words := 4, targets := [0], donewords := 0
    flight := some { head := { space := 1, read := read, beamLane := 0, len := 4, tag := 7, address := 16 }, data := [], tries := 2, sentAt := 0
                     lane := 0, waiting := false }
    abort := false, tag := 7 }

/-- The outstanding frame of `sideJob`. -/
def sideFlight (read : Bool) : SideFlight :=
  { head := { space := 1, read := read, beamLane := 0, len := 4, tag := 7, address := 16 }, data := [], tries := 2, sentAt := 0, lane := 0
    waiting := false }

/-- The four words of a status message with its CRC (R179). -/
def statusWords : List DWord := block [BitVec.ofNat 64 (0xB4 + 2 ^ 8 + 2000 * 2 ^ 32 + 2 ^ 48), 1#64, 0#64, 0#64]

/-- A queued log record. -/
def queuedRec : QueuedRec := { sev := 1, cls := 1, source := 0, payload := List.replicate 40 0#8, optime := 0, cycle := 1, again := false }

/-- An export to address 0x1000000. -/
def exportRun : ExportRun := { seq := 1, upto := 4, base := 0x1000000, cap := 4, start := 1 }

/-- A demand on a state. -/
def demandOn (c : Nat) (s : State) : State := put [(F.SAF_CAUSE_CAUSES, 2 ^ c)] s

/-- A stop of SF-STAGE that has begun. -/
def stageStop : StageStop := { cat2 := false, begun := some 5, checked := false }

/-! ### Well-formed commands: for each check, terms just outside its range -/

/-- Offsets of BAR0 (R7, R11): not a multiple of 4, past 16 MiB, byte enables of more than four bits, or reads of no word or of over 1,024. -/
theorem test_wf_registers : ∀ c ∈ [Instr.registerWrite 2 [⟨15, 1#32⟩], .registerWrite 0xFFFFFC [⟨15, 1#32⟩, ⟨15, 1#32⟩],
    .registerWrite 0 [⟨16, 1#32⟩], .lowWordRead ⟨1, 1⟩, .lowWordRead ⟨0x1000000, 1⟩, .lowWordRead ⟨0, 0⟩, .lowWordRead ⟨0, 1025⟩, .rcRead ⟨2, 1⟩,
    .rcRead ⟨0xFFFFFC, 2⟩, .resultRead ⟨3, 1⟩, .resultRead ⟨0x1000000, 1⟩, .resultAck 1, .resultAck 0x1000000, .tableWrite 2 1#32, .tableWrite 0x1000000 1#32], c.wf = false := by
  decide +kernel

/-- Transmit lanes 0 to 135 (R18), and lanes 136 to 143 of the strait links for a burst (R192). -/
theorem test_wf_lanes : ∀ c ∈ [Instr.frameSend 136, .laneEnable 136 true, .train 136, .laneTest 136 true, .stageAEnd 136, .rungPass 136,
    .rungTimeout 136, .rungSwitch 136, .trainingBurst 144, .injectBit 136 true 1, .injectBit 0 true (2 ^ 24), .injectSymbols 136 1 true 1,
    .injectSymbols 0 32 true 1, .injectSymbols 0 1 true (2 ^ 24), .injectCrc 136 true 1, .injectCrc 0 true (2 ^ 24), .injectPeriod 136,
    .fifoParityError (.toLane 136)], c.wf = false := by decide +kernel

/-- Echo lanes 0 to 3 and lanes of strait links 0 to 7. -/
theorem test_wf_echo : ∀ c ∈ [Instr.echoLocked 4, .echoLockLost 4, .ackBlock 4 [], .statusMessage 4 [], .framingError 4, .sideResponse 4 [],
    .eqFreeze 4, .eqThaw 4, .trainingWord (.echo 4) ⟨1#64, false⟩, .trainingWord (.strait 8) ⟨1#64, false⟩, .failover 8, .fifoParityError (.fromEcho 4)],
    c.wf = false := by decide +kernel

/-- Axes 0 and 1, their inputs and sides, and the widths of what the host writes for them. -/
theorem test_wf_axes : ∀ c ∈ [Instr.positionSample 2 1#64 0, .posLost 2, .locked 2, .unlocked 2, .servoPeriodWrite 128, .statusWord 2 1#32,
    .statusWordMissing 2, .driverLost 2, .move 2, .velocity 2, .stop 2, .home 2, .clear 2, .axisPowerWrite 2 true, .adistQuery 2 1,
    .adistQuery 0 (2 ^ 24), .inputEdge 2 0 true, .inputEdge 0 3 true, .limitTrip 2 0, .limitTrip 0 2, .limitClear 2 0, .limitClear 0 2,
    .homeChange 2, .indexEdge ⟨2, true⟩, .follow 2, .driver 2], c.wf = false := by decide +kernel

/-- Islets, slots, tracks, tiles, seats, queue entries and classes of the course's own size. -/
theorem test_wf_course : ∀ c ∈ [Instr.tileComputeDone 128 0 .pass, .tileComputeDone 0 2 .pass, .tileComputeDone 0 0 (.step 1023 0 0 0),
    .tileComputeDone 0 0 (.round 1 0 0 0 0 0), .tileComputeDone 0 0 (.write 262144 0), .tileComputeDone 0 0 (.write 0 2048),
    .tileComputeDone 0 0 (.localParity 131072), .slowTile 128 0, .slowTile 0 2, .rasProbe 65536 0 0, .rasProbe 0 32 0, .rasProbe 0 0 8,
    .strokeSplit (some ⟨8192, 0, 0, 0⟩), .strokeSplit (some ⟨0, 128, 0, 0⟩),
    .strokeSplit (some ⟨0, 0, 2048, 0⟩), .strokeSplit (some ⟨0, 0, 0, 128⟩), .crwProbe 8192 0 0, .crwProbe 0 128 0, .crwProbe 0 0 2048, .wakPeek 8192, .injectResidue 128, .injectArea 128,
    .injectPlace 128, .injectWake 8192, .injectSplit 8192], c.wf = false := by decide +kernel

/-- Ports, ranges and pseudo-channels of HBM, its training, its temperatures and the checker tests. -/
theorem test_wf_store : ∀ c ∈ [Instr.hbmReadDone 16 0 ⟨8, 0⟩, .hbmReadDone 0 0 ⟨0, 0⟩, .hbmReadDone 0 (96 * 2 ^ 30) ⟨1, 0⟩, .hbmReadDone 0 0 ⟨8, 3⟩, .hbmTrainDone [],
    .hbmTrainDone [(true, 16), (true, 0), (true, 0), (true, 0)], .stackTempRead 4 0, .stackTempRead 0 128, .stackTempRead 0 (-129),
    .refreshIssue 128 true, .urgent 128, .flip 4 0, .flip 0 256, .selftestDone 65536, .fifoParityError (.toHbm (96 * 2 ^ 30) 0#64),
    .fifoParityError (.fromHbm 16 0 8), .fifoParityError (.fromHbm 0 0 0)], c.wf = false := by decide +kernel

/-- BAR2, configuration space, vectors, words of the event block and the link's speed and width. -/
theorem test_wf_host : ∀ c ∈ [Instr.bar2Read 0 0, .bar2Read (2 ^ 37) 1, .bar2Write 0 [] true, .bar2Write (2 ^ 37) [1#8] true,
    .configRequest 1 none, .configRequest 4096 none, .msixUnmask 128, .pendClear 4 1#32, .evtForce 4 1#32, .degraded 0 1, .degraded 7 1,
    .degraded 1 3, .linkUp 0 1 true, .linkUp 1 32 true], c.wf = false := by decide +kernel

/-- DMA channels 0 to 31, a descriptor's four words, ports and pseudo-channels of the arbiter. -/
theorem test_wf_movers : ∀ c ∈ [Instr.dmaRun 32, .doorbell 32, .dmaResume 32, .dmaReset 32, .descriptorFetch 32 [0, 0, 0, 0],
    .descriptorFetch 0 [0, 0, 0], .descriptorDone 32 [] true, .arbiterRound 128 [] true, .arbiterRound 0 [⟨16, 1, true, false⟩] true,
    .tdmSlotStart [(128, 1)], .tdmSlotStart [(1, 16)]], c.wf = false := by decide +kernel

/-- Strait links 0 to 3, packets of the command's own TYPE, device IDs of 12 bits and lengths of 8. -/
theorem test_wf_straits : ∀ c ∈ [Instr.message 4 [], .message 0 (packetWords (packet 2 0 0 3 false 0#64)), .courseEvent 4 [],
    .courseEvent 0 (packetWords (packet 1 0 0 3 false 0#64)), .beacon 4 [], .beacon 0 (packetWords (packet 1 0 0 3 false 0#64)),
    .stopToken 4 [], .stopToken 0 (packetWords (packet 5 0 0 3 false 0#64)), .resumeReady 4 [],
    .resumeReady 0 (packetWords (packet 4 0 0 3 false 0#64)), .linkWord 4 1#64, .packetResendTimeout 4, .sendMessage 4096 0,
    .sendMessage 0 256, .broadcastMessage 4096 0, .broadcastMessage 0 256, .vcStall 4 0, .vcStall 0 3, .transitPacket 4 []],
    c.wf = false := by decide +kernel

/-- Keys, diagnostics, test steps, rails, temperatures, the bits that PWR_RESET's values carry, boots, image slots and the scan chain. -/
theorem test_wf_power : ∀ c ∈ [Instr.lockKey 65536, .diag 10 true, .testDone true 256, .supplySample [], .supplySample (List.replicate 9 0),
    .tjRead 128, .tjRead (-129), .warm 0#32, .cold 0#32, .courseAbort 0#32, .standby 65536 true true, .coldBoot true [] 100,
    .coldBoot true (List.replicate 4 (true, 0)) 156, .warmBoot true 121, .cfgWriteSlot 2, .cfgCheckImage 2,
    .jtagSamplePreload (List.replicate 61 true) (List.replicate 62 true), .jtagSamplePreload (List.replicate 62 true) []],
    c.wf = false := by decide +kernel

/-! ### The spec's worked examples -/

/-- The tile segment of TARN-14 as encoded: the example that follows R73. -/
def segmentCode : List Byte :=
  [0x1F, 0x10, 0x01, 0x00, 0x00, 0x20, 0x00, 0x00, 0x00, 0x00, 0x8A, 0x02, 0x00, 0x80, 0x8C, 0x02, 0x00, 0x00, 0x19, 0xDC, 0x05, 0x00, 0x4B,
   0xDC, 0x05, 0x20, 0x19, 0xDC, 0x05, 0x20, 0x4B, 0xDC, 0x05] ++
  [0xB0, 0x1F, 0x04, 0x8F, 0x02, 0x00, 0x80, 0x91, 0xCF, 0x1F, 0x00, 0x00, 0x07, 0x7F, 0x00, 0x00, 0x00, 0x08, 0x00, 0x00, 0x00, 0xFF]

/-- The same segment decoded. -/
def segmentRaw : List Byte :=
  [0x10, 0x01, 0x00, 0x00, 0x20, 0x00, 0x00, 0x00, 0x00, 0x8A, 0x02, 0x00, 0x80, 0x8C, 0x02, 0x00, 0x00, 0x19, 0xDC, 0x05, 0x00, 0x4B, 0xDC,
   0x05, 0x20, 0x19, 0xDC, 0x05, 0x20, 0x4B, 0xDC, 0x05] ++
  [0x10, 0x01, 0x00, 0x00, 0x20, 0x00, 0x00, 0x00, 0x00, 0x8F, 0x02, 0x00, 0x80, 0x91, 0x02, 0x00, 0x00, 0x19, 0xDC, 0x05, 0x00, 0x4B, 0xDC,
   0x05, 0x20, 0x19, 0xDC, 0x05, 0x20, 0x4B, 0xDC, 0x05] ++ [0x7F, 0x00, 0x00, 0x00, 0x08, 0x00, 0x00, 0x00]

/-- R66 to R69 on the segment of TARN-14: 55 bytes decode to 72. -/
theorem test_slz_segment : slzDecode segmentCode 72 = { bytes := segmentRaw, name := .none, inOffset := 0 } := by decide +kernel

/-- The altered streams of that example (R70): name, offset of the failing token and bytes produced. -/
theorem test_slz_errors :
    (let z := slzDecode (segmentCode.set 33 0xE4) 72; (z.name, z.inOffset, z.bytes.length)) = (.illegalCode, 33, 32) ∧
    (let z := slzDecode (segmentCode.set 34 0x3F) 72; (z.name, z.inOffset, z.bytes.length)) = (.distance, 33, 32) ∧
    (let z := slzDecode segmentCode 64; (z.name, z.inOffset, z.bytes.length)) = (.lengthOverrun, 45, 64) ∧
    (let z := slzDecode (segmentCode.take 54) 72; (z.name, z.inOffset, z.bytes.length)) = (.illegalCode, 54, 72) := by decide +kernel

/-- Job level 1 produces that stream from those bytes (R80). -/
theorem test_slz_encode : slzEncode segmentRaw 1 = segmentCode := by decide +kernel

/-- The trapezoid over 4 × 4 pixels that follows R98: the coverage of every pixel, rows 0 to 3, columns 0 to 3. -/
theorem test_trapezoid_coverage :
    (List.range 4).map (fun j => (List.range 4).map (fun i =>
      coverage (pixelS (coverEdges [(16, 16), (240, 80), (240, 176), (16, 208)]) i j))) =
    [[1975, 1609, 448, 0], [3072, 4096, 4087, 2633], [3072, 4096, 3803, 2469], [603, 293, 0, 0]] := by decide +kernel

/-- The sum S of pixel (2, 1) in that example (R95). -/
theorem test_trapezoid_sum : pixelS (coverEdges [(16, 16), (240, 80), (240, 176), (16, 208)]) 2 1 = 16739767 := by decide +kernel

/-- The worked pixels that follow R135: 439 du without saturation, and 1,920 du with it (R112, R113). -/
theorem test_pixel_dose :
    pixelDose (4096 * 12288) 18878 0x7F00 0x4000 1920 = (439, false) ∧ pixelDose 100663296 22197 0x8000 0x8000 1920 = (1920, true) := by
  decide +kernel

/-- The interpolation of the worked pixel from its four cell factors (R128). -/
theorem test_interpolate :
    interpolate (fun i j => if i = 40 then (if j = 24002 then 18842 else 18911) else (if j = 24002 then 18806 else 18870)) 2604 1536200 =
      18878 := by decide +kernel

/-- The beam map of the second split example: seats 10 and 11 STUCK_OFF and seat 50 STUCK_ON with ON_DOSE 6. -/
def deadBeams (i : Nat) : Nat :=
  if i = 128 * 2604 + 10 ∨ i = 128 * 2604 + 11 then 1 else if i = 128 * 2604 + 50 then 2 + 6 * 16 else 0

/-- The split of the TARN-14 pixel, all seats LIVE (R147, R148). -/
theorem test_split_whole :
    (List.range 128).map (fun s => seatCode shapeDefault (fun _ => 0) true 2604 s 1536200 439) =
      List.replicate 7 4 ++ List.replicate 73 3 ++ List.replicate 48 4 ∧ splitOff true 2604 1536200 128 = 48 := by decide +kernel

/-- The split of the TARN-14 pixel with dead beams: L is 125, CREW_ON is 6, and the seats with Q from 10 to 67 get 4 (R147, R148). -/
theorem test_split_dead : crewOf shapeDefault deadBeams 2604 = { live := 125, onDose := 6 } ∧ splitOff true 2604 1536200 125 = 115 ∧
    (List.range 128).map (fun s => seatCode shapeDefault deadBeams true 2604 s 1536200 439) =
      List.replicate 10 3 ++ [0, 0] ++ List.replicate 38 4 ++ [0] ++ List.replicate 20 4 ++ List.replicate 57 3 := by decide +kernel

/-- The header of the example frame of TARN-14 (R170). -/
theorem test_frame_header :
    let h : FrameHead := { frame.head with beamLane := 40, phys := 40, deviceId := 0x0A3, courseSeq := 0x31, stroke := 1538264
                                           tag := 0x0E090000 }
    frameH0 h = 0x003100A32828015A#64 ∧ frameH1 h = 0x0E090000001778D8#64 := by decide +kernel

/-- The ack entry of that frame (R177). -/
theorem test_ack_entry :
    ackEntryWord { beamLane := 40, valid := true, stroke6 := 24, gen := 0 } = 0x18A8 ∧
    ackEntry 0x18A8 = { beamLane := 40, valid := true, stroke6 := 24, gen := 0 } := by decide +kernel

/-- The route of the example that follows R358: from 0x0A3 on RN, in division 23 on DN, over the dateline onto VC 1. -/
theorem test_route :
    let at' : Nat → State := fun id =>
      let s := put [(F.STR_DIV_SIZE_N, 64), (F.STR_REG_SIZE_N, 64), (F.CFG_DEVICE_ID_ID, id)] State.reset
      { s with inf := s.regs }
    routeOf (at' 0x0A3) 0x5C1 0 none = some (2, 0) ∧ routeOf (at' (64 * 23 + 35)) 0x5C1 0 (some 1) = some (0, 0) ∧
    routeOf (at' (64 * 23 + 63)) 0x5C1 0 (some 0) = some (0, 1) ∧ routeOf (at' 0x5C1) 0x5C1 1 (some 0) = none := by decide +kernel

/-- The first two refreshes of the example that follows R311, at 40 ns and at 390 ns. -/
theorem test_hot_refreshes :
    let s : State := { put [(F.HBM_STK_STATUS_HOT 2, 1)] State.reset with
      clock := 23440 * ticksPerNs, mem := { State.reset.mem with urgent := [70] } }
    let t := refreshOp 70 true s
    let u := refreshOp 70 true { t with clock := t.clock + 350 * ticksPerNs }
    refDebt t 70 = 21490 ∧ refDebt u 70 = 19890 ∧ u.mem.urgent = [70] := by decide +kernel

/-! ### Witnesses of the statement on rising members -/

/-- FRAMING_ERROR raises a member bit of source 81. -/
theorem witness_risingMemberSetsPend_1 :
    ∃ (s : State) (c : Instr) (t : State) (e : EventSource) (m : Nat × Nat) (i : Nat), exec c s = .next t ∧ e ∈ eventSources ∧ m ∈ e.members ∧
      i < 32 ∧ m.2.testBit i = true ∧ (s.reg m.1).getLsbD i = false ∧ (t.reg m.1).getLsbD i = true :=
  ⟨State.reset, .framingError 0, _, .mk 81 1 [(R.BLN_ECHO_EVENTS 0, 0x1F)], (R.BLN_ECHO_EVENTS 0, 0x1F), 3, rfl, by decide +kernel⟩

/-- Source 84 is one that EVT_FORCE names. -/
theorem witness_risingMemberSetsPend_2 :
    ∃ w i : Nat, ∃ v : Word, w < 4 ∧ i < 32 ∧ v.getLsbD i = true ∧ (eventSource (32 * w + i)).isSome = true :=
  ⟨2, 20, 0x100000#32, by decide +kernel⟩

/-! ### Witnesses: hypotheses that can be met together -/

theorem witness_stepTakesTheFront :
    ∃ (s : State) (c : Instr) (rest : List Instr), s.pending = c :: rest :=
  ⟨{ State.reset with pending := [.post, .flush] }, .post, [.flush], rfl⟩

theorem witness_stepIdlesOnAnEmptyQueue :
    ∃ s : State, s.pending = [] :=
  ⟨State.reset, rfl⟩

theorem witness_commandsEndByNameOrComplete_1 :
    ∃ (c : Instr) (s : State), c.wf = true :=
  ⟨.frameSend 135, State.reset, by decide +kernel⟩

theorem witness_commandsEndByNameOrComplete_2 :
    ∃ (c : Instr) (s : State), c.wf = false :=
  ⟨.frameSend 136, State.reset, by decide +kernel⟩

theorem witness_alertPinInvariantOfEveryStep :
    ∃ s t : State, Settled s ∧ step s = .next t :=
  ⟨State.reset, { State.reset with clock := 1 }, ⟨by decide +kernel, rfl⟩, rfl⟩

theorem witness_memoryStaysCanonical :
    ∃ s t : State, Memory.wf s.hbm.bytes = true ∧ step s = .next t :=
  ⟨State.reset, { State.reset with clock := 1 }, rfl, rfl⟩

theorem witness_partialWritesAreDiscarded :
    ∃ (s : State) (a be : Nat) (v : Word), a % 4 = 0 ∧ a + 4 ≤ 0x1000000 ∧ be < 15 :=
  ⟨State.reset, 0xFFFFFC, 14, 1#32, by decide +kernel⟩

theorem witness_holesReadZeroAndIgnoreWrites :
    ∃ (s : State) (a : Nat) (v : Word), a % 4 = 0 ∧ a < 0x800000 ∧ descOf a = none ∧ s.latched a = none :=
  ⟨State.reset, 0x7FFFFC, 1#32, by decide +kernel⟩

theorem witness_registerWriteAccessCodes_1 :
    ∃ (s : State) (v : Word), ∃ i : Nat, i < 16 :=
  ⟨State.reset, 1#32, 15, by decide +kernel⟩

theorem witness_registerWriteAccessCodes_2 :
    ∃ (s : State) (v : Word), s.lockOpen = false :=
  ⟨State.reset, 1#32, by decide +kernel⟩

theorem witness_registerWriteAccessCodes_3 :
    ∃ (s : State) (v : Word), s.lockOpen = true :=
  ⟨unlocked, 1#32, by decide +kernel⟩

theorem witness_registerWriteAccessCodes_4 :
    ∃ (s : State) (v : Word), ∃ (a : Nat) (ls : List WriteLane), (Instr.registerWrite a ls).wf = true ∧ 16 < ls.length :=
  ⟨State.reset, 1#32, 0xFFFFBC, List.replicate 17 ⟨15, 1#32⟩, by decide +kernel⟩

theorem witness_lowWordReadLatches_1 :
    ∃ (s : State) (a : Nat), ∃ w, a % 4 = 0 ∧ a < 0x1000000 ∧ s.mem.flips = [] ∧ s.latched a = some w :=
  ⟨{ State.reset with latch := [(R.HBM_ERR_ADDR_HI, 5#32)] }, R.HBM_ERR_ADDR_HI, 5#32, by decide +kernel⟩

theorem witness_lowWordReadLatches_2 :
    ∃ (s : State) (a : Nat), a % 4 = 0 ∧ a < 0x1000000 ∧ s.mem.flips = [] ∧ isLowWord a = true ∧ s.latched a = none ∧ a + 8 ≤ 0x1000000 :=
  ⟨State.reset, R.HBM_ERR_ADDR_LO, by decide +kernel⟩

theorem witness_readClearsRcFields :
    ∃ (s : State) (a : Nat) (d : RegDesc), a % 4 = 0 ∧ descOf a = some d ∧ s.latched a = none ∧ resultBase a = none ∧
      isLowWord a = false ∧ s.mem.flips = [] :=
  ⟨State.reset, R.ING_FENCE_HITS, (descOf R.ING_FENCE_HITS).get (by decide +kernel), by decide +kernel⟩

theorem witness_resultBlocksHoldTwo_1 :
    ∃ (s : State) (a b : Nat) (v : ResultSlot), resultBase a = some a ∧ (s.result a).vis = some v :=
  ⟨State.reset.setResult R.SLZ_RESULT { vis := some slot, beh := none }, R.SLZ_RESULT, 0, slot, by decide +kernel⟩

theorem witness_resultBlocksHoldTwo_2 :
    ∃ (s : State) (a b : Nat) (v : ResultSlot), ackBase a = some b ∧ (s.result b).vis = some v :=
  ⟨State.reset.setResult R.SAF_TEST_RESULT { vis := some slot, beh := none }, R.SAF_TEST_ACK, R.SAF_TEST_RESULT, slot, by decide +kernel⟩

theorem witness_resultBlocksHoldTwo_3 :
    ∃ (s : State) (a b : Nat) (v : ResultSlot), ackBase a = some b ∧ (s.result b).vis = none :=
  ⟨State.reset, R.SLZ_RESULT_ACK, R.SLZ_RESULT, slot, by decide +kernel⟩

theorem witness_postTakesTheNextEntry_1 :
    ∃ s : State, s.ing.queue.length < 8 :=
  ⟨{ State.reset with ing := { State.reset.ing with queue := List.replicate 7 (entryIn .ready) } }, by decide +kernel⟩

theorem witness_postTakesTheNextEntry_2 :
    ∃ s : State, 8 ≤ s.ing.queue.length :=
  ⟨{ State.reset with ing := { State.reset.ing with queue := List.replicate 8 (entryIn .ready) } }, by decide +kernel⟩

theorem witness_queueControlCommands_1 :
    ∃ s : State, ∃ e rest, s.ing.queue = e :: rest ∧ e.state = .failed :=
  ⟨queued .failed State.reset, entryIn .failed, [], by decide +kernel⟩

theorem witness_queueControlCommands_2 :
    ∃ s : State, ∃ e rest, s.ing.queue = e :: rest ∧ e.state ≠ .failed :=
  ⟨queued .ready State.reset, entryIn .ready, [], by decide +kernel⟩

theorem witness_admissionCommands_1 :
    ∃ (s : State) (e : Entry) (a : Admission) (f : AdmitFail), s.ing.adm = none ∧
      s.ing.queue.find? (fun x => x.state == .admitting) = some e :=
  ⟨queued .admitting State.reset, entryIn .admitting,
   { idx := 0, fail := none, todo := [], flight := [], paused := false, header := false },
   { err := .tileCrc, band := 0, tile := 0, off := 0, inHeader := false }, by decide +kernel⟩

theorem witness_admissionCommands_2 :
    ∃ (s : State) (e : Entry) (a : Admission) (f : AdmitFail), s.ing.adm = some a ∧ a.fail = none ∧ a.todo = [] ∧ a.flight = [] ∧
      a.paused = false ∧ a.header = false :=
  ⟨{ queued .admitting State.reset with ing := { (queued .admitting State.reset).ing with adm := some { idx := 0, fail := none, todo := [], flight := [], paused := false, header := false } } },
   entryIn .ready, { idx := 0, fail := none, todo := [], flight := [], paused := false, header := false },
   { err := .tileCrc, band := 0, tile := 0, off := 0, inHeader := false }, by decide +kernel⟩

theorem witness_admissionCommands_3 :
    ∃ (s : State) (e : Entry) (a : Admission) (f : AdmitFail), s.ing.adm = some a ∧ a.fail = some f ∧ a.flight = [] :=
  ⟨{ queued .admitting State.reset with ing := { (queued .admitting State.reset).ing with adm := some { idx := 0, fail := some { err := .tileCrc, band := 0, tile := 0, off := 0, inHeader := false }, todo := [], flight := [], paused := false, header := false } } },
   entryIn .ready,
   { idx := 0, fail := some { err := .tileCrc, band := 0, tile := 0, off := 0, inHeader := false }, todo := [], flight := [], paused := false, header := false },
   { err := .tileCrc, band := 0, tile := 0, off := 0, inHeader := false }, by decide +kernel⟩

theorem witness_courseStartRunsTheOldestReadyEntry :
    ∃ (s : State) (e : Entry), dueEntry s = some e ∧ spillFails (closeLock s) e = false ∧ 16 ≤ (closeLock s).willServeCount ∧
      depthShort (closeLock s) = false ∧ (closeLock s).echoMin ≤ (closeLock s).echoLocked ∧ startWaits (closeLock s) = false ∧
      (readLaneMap (swapBanks (closeLock s))).badInService = false ∧ (readLaneMap (swapBanks (closeLock s))).stk.loadDue = false ∧
      lanesMissing (spareStart (readLaneMap (swapBanks (closeLock s)))) = [] :=
  let s := put [(F.ING_CTL_RUN, 1), (F.STK_DEPTH_DEPTH, 8), (F.STK_GATE_GATE, 192), (F.STK_RTT_BUDGET_NS, 100), (F.STK_COMMIT_LEAD, 100), (F.BLN_ECHO_STATUS_STATE 0, 2), (F.BLN_CTL_ECHO_MIN, 1), (F.BLN_LANE_STATUS_STATE 0, 3)] (queued .ready hbmUp)
  ⟨{ s with stk := { s.stk with loadDue := false } }, entryIn .ready, by decide +kernel⟩

theorem witness_codecJobsStart_1 :
    ∃ s : State, s.slz = none :=
  ⟨State.reset, by decide +kernel⟩

theorem witness_codecJobsStart_2 :
    ∃ s : State, s.slz.isSome = true :=
  ⟨{ State.reset with slz := some { decompress := false, table := 0, count := 1, dst := 4096, cap := 64, level := 1, refused := none, abort := false } },
   by decide +kernel⟩

theorem witness_codecJobsEndWithTheirResult_1 :
    ∃ (s : State) (j : SlzJob), ∃ c, s.slz = some j ∧ j.refused = some c :=
  ⟨{ State.reset with slz := some { decompress := false, table := 0, count := 1, dst := 4096, cap := 64, level := 1, refused := some 9, abort := false } },
   { decompress := false, table := 0, count := 1, dst := 4096, cap := 64, level := 1, refused := some 9, abort := false }, 9,
   by decide +kernel⟩

theorem witness_codecJobsEndWithTheirResult_2 :
    ∃ (s : State) (j : SlzJob), s.slz = some j ∧ j.refused = none ∧ j.abort = true :=
  ⟨{ State.reset with slz := some { decompress := false, table := 0, count := 1, dst := 4096, cap := 64, level := 1, refused := none, abort := true } },
   { decompress := false, table := 0, count := 1, dst := 4096, cap := 64, level := 1, refused := none, abort := true }, by decide +kernel⟩

theorem witness_bandsBecomeEligible :
    ∃ s : State, wouldBeEligible s = true ∧ s.ras.eligible < s.covered :=
  ⟨{ courseRuns with inf := (put [(F.DOS_CTL_BSX_EN, 0)] State.reset).regs }, by decide +kernel⟩

theorem witness_tileDispatchOrder_1 :
    ∃ (s : State) (e : Entry) (i j b k : Nat), ∃ r, s.ras.stopped = false ∧ s.running = some e ∧ (waitingRedos s).head? = some r ∧
      redoTaker s r = some (i, j) :=
  ⟨{ courseRuns with ras := { courseRuns.ras with dispBand := 1, redo := [{ band := 0, tile := 0, kind := 2, avoid := [0], never := true, bad := false }] } },
   entryIn .running, 1, 0, 0, 0, { band := 0, tile := 0, kind := 2, avoid := [0], never := true, bad := false }, by decide +kernel⟩

theorem witness_tileDispatchOrder_2 :
    ∃ (s : State) (e : Entry) (i j b k : Nat), s.ras.stopped = false ∧ s.running = some e ∧ waitingRedos s = [] ∧
      nextFirst s = some (b, k) ∧ (takers s (fun n => s.role n == 0 || s.role n == 1)).head? = some (i, j) :=
  ⟨{ courseRuns with ras := { courseRuns.ras with eligible := 1 } }, entryIn .running, 0, 0, 0, 0, by decide +kernel⟩

theorem witness_tileDispatchOrder_3 :
    ∃ (s : State) (e : Entry) (i j b k : Nat), ∃ a todo, s.running = none ∧ s.ing.adm = some a ∧ a.todo = (b, k) :: todo ∧
      a.paused = false ∧ (takers s (fun n => s.role n == 2 || s.role n == 0)).head? = some (i, j) :=
  let s := { queued .admitting State.reset with ing := { (queued .admitting State.reset).ing with adm := some { idx := 0, fail := none, todo := [(7, 0)], flight := [], paused := false, header := false } } }
  ⟨s, entryIn .ready, 0, 0, 7, 0, { idx := 0, fail := none, todo := [(7, 0)], flight := [], paused := false, header := false }, [],
   by decide +kernel⟩

theorem witness_tileComputationsEndTheirSlot :
    ∃ (s : State) (islet slot : Nat) (check : TileCheck) (w : IsletWork), (Instr.tileComputeDone islet slot check).wf = true ∧
      s.slotWork islet slot = some w :=
  ⟨{ courseRuns with hbm := { bytes := [(27, 2#8)], chk := [], hazes := [] }, ras := { courseRuns.ras with slots := [(255, { kind := 1, band := 0, tile := 0, entry := 0, since := 0, overrun := false })] } },
   127, 1, .pass, { kind := 1, band := 0, tile := 0, entry := 0, since := 0, overrun := false }, by decide +kernel⟩

theorem witness_slowTilesAndProbes_1 :
    ∃ s : State, ∃ (i j : Nat) (w : IsletWork), i < 128 ∧ j < 2 ∧ s.slotWork i j = some w ∧ s.fget F.RAS_SLOW_LIMIT_LIMIT ≠ 0 ∧
      w.overrun = false :=
  ⟨{ courseRuns with ras := { courseRuns.ras with slots := [(255, { kind := 1, band := 0, tile := 0, entry := 0, since := 0, overrun := false })] } },
   127, 1, { kind := 1, band := 0, tile := 0, entry := 0, since := 0, overrun := false }, by decide +kernel⟩

theorem witness_slowTilesAndProbes_2 :
    ∃ s : State, ∃ b k e : Nat, b < 65536 ∧ k < 32 ∧ e < 8 :=
  ⟨State.reset, 65535, 31, 7, by decide +kernel⟩

theorem witness_slowTilesAndProbes_3 :
    ∃ s : State, ∃ (b k e : Nat) (x : Entry) (h : StreamHead), s.ras.probe = some (b, k, e) ∧ s.entry e = some x ∧ x.state ≠ .admitting ∧
      x.head = some h :=
  ⟨{ courseRuns with ras := { courseRuns.ras with probe := some (7, 0, 0) } }, 7, 0, 0, entryIn .running, head, by decide +kernel⟩

theorem witness_slowTilesAndProbes_4 :
    ∃ s : State, ∃ b k e : Nat, s.ras.probe = some (b, k, e) ∧ s.entry e = none :=
  ⟨{ courseRuns with ras := { courseRuns.ras with probe := some (7, 0, 3) } }, 7, 0, 3, by decide +kernel⟩

theorem witness_backscatterEngineTiles_1 :
    ∃ s : State, s.bsx.on = true ∧ s.bsx.busy = false ∧ s.running.isSome = true ∧ s.int.loss = none ∧
      s.bsx.next / s.shape.tilesPerBand < s.bands ∧ s.bsx.next / s.shape.tilesPerBand ≤ s.doneBand + s.gov F.DOS_BSX_AHEAD_BANDS :=
  ⟨{ courseRuns with bsx := { courseRuns.bsx with on := true } }, by decide +kernel⟩

theorem witness_backscatterEngineTiles_2 :
    ∃ s : State, ∃ (e : Entry) (h : StreamHead), s.bsx.busy = true ∧ s.running = some e ∧ e.head = some h ∧
      lossOf s 8 e h (s.bsx.next / s.shape.tilesPerBand) (s.bsx.next % s.shape.tilesPerBand) = none ∧
      (decodeTileAt (s.stream e) s.shape h (s.bsx.next / s.shape.tilesPerBand) (s.bsx.next % s.shape.tilesPerBand)).err = none :=
  ⟨{ courseRuns with hbm := { bytes := [(27, 2#8)], chk := [], hazes := [] }, bsx := { courseRuns.bsx with on := true, busy := true } },
   entryIn .running, head, by decide +kernel⟩

theorem witness_bankOpenAndClone_1 :
    ∃ (s : State) (x : TableId), (s.bank x).cloning = false :=
  ⟨State.reset, .map, by decide +kernel⟩

theorem witness_bankOpenAndClone_2 :
    ∃ (s : State) (x : TableId), (s.bank x).pending = false :=
  ⟨State.reset, .krn, by decide +kernel⟩

theorem witness_bankOpenAndClone_3 :
    ∃ (s : State) (x : TableId), (s.bank x).pending = true :=
  ⟨{ State.reset with banks := { State.reset.banks with lanes := { bankReset with pending := true } } }, .lanes, by decide +kernel⟩

theorem witness_cloneDoneFillsTheShadow :
    ∃ (s : State) (x : TableId), (s.bank x).cloning = true ∧ x ≠ .map ∧ s.mem.flips = [] ∧ s.fget F.SRM_CHK_CTL_MODE ≠ 1 ∧
      (s.bank x).active < 2 :=
  ⟨{ State.reset with banks := { State.reset.banks with lanes := { bankReset with cloning := true, active := 1 } } }, .lanes,
   by decide +kernel⟩

theorem witness_bankCommitChecksItsShadow_1 :
    ∃ (s : State) (x : TableId), (s.bank x).pending = false ∧ (s.bank x).cloning = false ∧ bankComplete x (s.bank x) = true ∧
      shadowValid s x = true :=
  ⟨{ State.reset with banks := { State.reset.banks with tgn := { bankReset with allMarked := true } } }, .tgn, by decide +kernel⟩

theorem witness_bankCommitChecksItsShadow_2 :
    ∃ (s : State) (x : TableId), (s.bank x).pending = false ∧ (s.bank x).cloning = false ∧ bankComplete x (s.bank x) = false :=
  ⟨State.reset, .krn, by decide +kernel⟩

theorem witness_bankCommitChecksItsShadow_3 :
    ∃ (s : State) (x : TableId), (s.bank x).pending = false ∧ (s.bank x).cloning = false ∧ bankComplete x (s.bank x) = true ∧
      shadowValid s x = false :=
  ⟨{ { State.reset with banks := { State.reset.banks with map := { bankReset with allMarked := true } } } with crw := { State.reset.crw with invalid := [3] } },
   .map, by decide +kernel⟩

theorem witness_tableWritesMarkTheShadow :
    ∃ (s : State) (v : Word) (g m : Nat), g < 3 ∧ m < 151 ∧ s.banks.krn.active < 2 ∧ s.banks.krn.pending = false ∧
      s.banks.krn.cloning = false ∧ s.banks.krn.allMarked = false :=
  ⟨State.reset, 5#32, 2, 150, by decide +kernel⟩

theorem witness_beamMapShadowAndExchange_1 :
    ∃ (s : State) (v : Word), ∃ high : Bool, s.banks.map.pending = false ∧ s.banks.map.cloning = false :=
  ⟨State.reset, 5#32, true, by decide +kernel⟩

theorem witness_beamMapShadowAndExchange_2 :
    ∃ (s : State) (v : Word), ∃ high : Bool, s.banks.map.pending = true :=
  ⟨{ State.reset with banks := { State.reset.banks with map := { bankReset with pending := true } } }, 5#32, false, by decide +kernel⟩

theorem witness_beamMapShadowAndExchange_3 :
    ∃ (s : State) (v : Word), s.banks.map.pending = true ∧ s.running = none :=
  ⟨{ State.reset with banks := { State.reset.banks with map := { bankReset with pending := true } } }, 5#32, by decide +kernel⟩

theorem witness_beamMapShadowAndExchange_4 :
    ∃ (s : State) (v : Word), (s.banks.map.pending = false ∨ s.running.isSome = true) :=
  ⟨State.reset, 5#32, by decide +kernel⟩

theorem witness_beamMapShadowAndExchange_5 :
    ∃ (s : State) (v : Word), s.crw.exchanging = false :=
  ⟨State.reset, 5#32, by decide +kernel⟩

theorem witness_beamMapShadowAndExchange_6 :
    ∃ (s : State) (v : Word), s.crw.exchanging = true ∧ s.mem.flips = [] ∧ s.fget F.SRM_CHK_CTL_MODE ≠ 1 :=
  ⟨{ State.reset with crw := { State.reset.crw with exchanging := true } }, 5#32, by decide +kernel⟩

theorem witness_strokesAreSplitIntoFrames_1 :
    ∃ (s : State) (e : Entry), s.mayFrame = true ∧ s.running = some e ∧ (s.strokeRows s.crw.split).all s.rowValid = true ∧
      s.mem.flips = [] ∧ s.mem.bad = [] ∧ strokeFaults s s.crw.split = [] ∧ s.fget F.INT_INJECT_KIND ≠ 5 :=
  ⟨{ courseRuns with wak := { courseRuns.wak with slots := [(0, { band := 0, held := true, mask := [0] })], cells := (List.range 64).map (fun i => (i, some 0)) } },
   entryIn .running, by decide +kernel⟩

theorem witness_strokesAreSplitIntoFrames_2 :
    ∃ (s : State) (e : Entry), ∃ check, s.mayFrame = true ∧ s.running = some e ∧ (s.strokeRows s.crw.split).all s.rowValid = false ∧
      (Instr.strokeSplit check).wf = true :=
  ⟨courseRuns, entryIn .running, some { track := 8191, seat := 127, base := 7, rem := 127 }, by decide +kernel⟩

theorem witness_splitProbeAndWakePeek_1 :
    ∃ s : State, ∃ track seat p : Nat, track < 8192 ∧ seat < 128 ∧ p < 2048 :=
  ⟨State.reset, 8191, 127, 2047, by decide +kernel⟩

theorem witness_splitProbeAndWakePeek_2 :
    ∃ s : State, ∃ track : Nat, track < 8192 :=
  ⟨State.reset, 8191, by decide +kernel⟩

theorem witness_splitProbeAndWakePeek_3 :
    ∃ s : State, ∃ p : Nat, s.wak.peeking = some p :=
  ⟨{ State.reset with wak := { State.reset.wak with peeking := some 8191 } }, 8191, by decide +kernel⟩

theorem witness_laneControlCommands_1 :
    ∃ (s : State) (l : Nat), l < 136 ∧ s.flag (F.BLN_LANE_CTL_ENABLE l) = true ∧ s.laneState l ≠ 4 :=
  ⟨put [(F.BLN_LANE_CTL_ENABLE 135, 1)] State.reset, 135, by decide +kernel⟩

theorem witness_laneControlCommands_2 :
    ∃ (s : State) (l : Nat), l < 136 ∧ (s.laneState l = 2 ∨ s.laneState l = 3 ∨ s.laneState l = 5) :=
  ⟨put [(F.BLN_LANE_STATUS_STATE 135, 5)] State.reset, 135, by decide +kernel⟩

theorem witness_laneControlCommands_3 :
    ∃ (s : State) (l : Nat), l < 136 ∧ s.laneState l = 4 :=
  ⟨put [(F.BLN_LANE_STATUS_STATE 135, 4)] State.reset, 135, by decide +kernel⟩

theorem witness_laneControlCommands_4 :
    ∃ (s : State) (l : Nat), l < 136 ∧ s.laneState l < 2 :=
  ⟨put [(F.BLN_LANE_STATUS_STATE 135, 1)] State.reset, 135, by decide +kernel⟩

theorem witness_laneControlCommands_5 :
    ∃ (s : State) (l : Nat), l < 136 ∧ s.laneState l = 6 :=
  ⟨put [(F.BLN_LANE_STATUS_STATE 135, 6)] State.reset, 135, by decide +kernel⟩

theorem witness_laneTrainingSteps_1 :
    ∃ (s : State) (l : Nat), l < 136 ∧ (s.train l).phase = .stageA :=
  ⟨put [(F.BLN_LANE_STATUS_REMOTE_LOCK 135, 0)] (State.reset.setTrain 135 { trainNone with phase := .stageA }), 135, by decide +kernel⟩

theorem witness_laneTrainingSteps_2 :
    ∃ (s : State) (l : Nat), ∃ a, l < 136 ∧ (s.train l).phase = .stageB ∧ lockInTime (s.train l) = some a ∧ (s.train l).rung = 3 ∧
      s.cox.flushDue = false ∧ s.flag (F.BLN_LANE_CTL_TEST l) = false :=
  ⟨put [(F.BLN_LANE_STATUS_REMOTE_LOCK 135, 1)] (State.reset.setTrain 135 { trainNone with phase := .stageB, rung := 3, lockAt := some 0 }),
   135, 0, by decide +kernel⟩

theorem witness_laneTrainingSteps_3 :
    ∃ (s : State) (l : Nat), ∃ a, l < 136 ∧ (s.train l).phase = .stageB ∧ lockInTime (s.train l) = some a ∧ (s.train l).rung ≠ 3 :=
  ⟨put [(F.BLN_LANE_STATUS_REMOTE_LOCK 135, 1)] (State.reset.setTrain 135 { trainNone with phase := .stageB, rung := 2, lockAt := some 0 }),
   135, 0, by decide +kernel⟩

theorem witness_laneTrainingSteps_4 :
    ∃ (s : State) (l : Nat), l < 136 ∧ (s.train l).phase = .stageB ∧ lockInTime (s.train l) = none ∧
      (s.train l).tries + 1 < (if (s.train l).ladder then 2 else 4) :=
  ⟨put [(F.BLN_LANE_STATUS_REMOTE_LOCK 135, 0)] (State.reset.setTrain 135 { trainNone with phase := .stageB, tries := 2 }), 135,
   by decide +kernel⟩

theorem witness_laneTrainingSteps_5 :
    ∃ (s : State) (l : Nat), l < 136 ∧ (s.train l).phase = .stageB ∧ lockInTime (s.train l) = none ∧
      (if (s.train l).ladder then 2 else 4) ≤ (s.train l).tries + 1 ∧ s.bln.side = none ∧ s.flag (F.BLN_LANE_CTL_TEST l) = false :=
  ⟨put [(F.BLN_LANE_STATUS_REMOTE_LOCK 135, 0)] (State.reset.setTrain 135 { trainNone with phase := .stageB, tries := 3 }), 135,
   by decide +kernel⟩

theorem witness_laneTrainingSteps_6 :
    ∃ (s : State) (l : Nat), l < 136 ∧ (s.train l).phase = .announce :=
  ⟨put [(F.BLN_LANE_STATUS_REMOTE_LOCK 135, 0)] (State.reset.setTrain 135 { trainNone with phase := .announce, rung := 2 }), 135,
   by decide +kernel⟩

theorem witness_framesLeaveOnActiveLanes_1 :
    ∃ (s : State) (l : Nat), ∃ f : TxFrame, l < 136 ∧ s.laneState l = 4 ∧ s.nextFrame l = some f ∧ (s.train l).crcArm = false ∧
      s.mem.flips = [] ∧ s.laneMapBad = false ∧ s.bln.side = none :=
  ⟨put [(F.BLN_LANE_STATUS_STATE 0, 4)] { State.reset with bln := { State.reset.bln with frames := [frame] } }, 0, frame,
   by decide +kernel⟩

theorem witness_framesLeaveOnActiveLanes_2 :
    ∃ (s : State) (l : Nat), l < 136 ∧ s.laneState l ≠ 4 :=
  ⟨State.reset, 135, by decide +kernel⟩

theorem witness_framesLeaveOnActiveLanes_3 :
    ∃ (s : State) (l : Nat), l < 136 ∧ s.running = none ∧ (s.laneState l = 2 ∨ s.laneState l = 3 ∨ s.laneState l = 4) :=
  ⟨put [(F.BLN_LANE_STATUS_STATE 135, 3)] State.reset, 135, by decide +kernel⟩

theorem witness_framesLeaveOnActiveLanes_4 :
    ∃ (s : State) (l : Nat), ∃ j : Nat, l < 136 ∧ j < 8 ∧ s.running = none ∧ s.linkUp (j / 2) = true ∧ s.straitLocked j = true ∧
      (s.link (j / 2)).primary ≠ j % 2 :=
  ⟨withLink 3 (fun l => { l with lock1 := true, primary := 0 }), 135, 7, by decide +kernel⟩

theorem witness_framesLeaveOnActiveLanes_5 :
    ∃ (s : State) (l : Nat), ∃ k : Nat, l < 136 ∧ k < 4 :=
  ⟨State.reset, 135, 3, by decide +kernel⟩

theorem witness_echoLaneCommands_1 :
    ∃ (s : State) (k : Nat), ∃ (w : DWord) (inv : Bool) (x : TrainingWord), k < 4 ∧ readTrainingWord w = some x ∧
      s.bln.echoHeld.contains k = false :=
  ⟨State.reset, 3, trainingWord { laneId := 3, rung := 2, nextRung := 2, countdown := 0, deviceId := 0, echoReady := 0 }, true,
   { laneId := 3, rung := 2, nextRung := 2, countdown := 0, deviceId := 0, echoReady := 0 }, by decide +kernel⟩

theorem witness_echoLaneCommands_2 :
    ∃ (s : State) (k : Nat), k < 4 ∧ s.flag (F.BLN_ECHO_CTL_ENABLE k) = true ∧ s.flag (F.BLN_ECHO_CTL_TEST k) = false ∧
      s.bln.echoKnown.contains k = false :=
  ⟨put [(F.BLN_ECHO_CTL_ENABLE 3, 1)] State.reset, 3, by decide +kernel⟩

theorem witness_echoLaneCommands_3 :
    ∃ (s : State) (k : Nat), k < 4 ∧ s.flag (F.BLN_ECHO_CTL_ENABLE k) = true ∧ s.flag (F.BLN_ECHO_CTL_TEST k) = false ∧
      s.bln.echoKnown.contains k = true ∧ s.fget (F.BLN_ECHO_STATUS_STATE k) ≠ 2 ∧ s.idClash k = false :=
  ⟨put [(F.BLN_ECHO_CTL_ENABLE 3, 1)] { State.reset with bln := { State.reset.bln with echoHeld := [3], echoKnown := [3] } }, 3,
   by decide +kernel⟩

theorem witness_echoLaneCommands_4 :
    ∃ (s : State) (k : Nat), k < 4 ∧ s.flag (F.BLN_ECHO_CTL_ENABLE k) = true ∧ s.flag (F.BLN_ECHO_CTL_TEST k) = false ∧
      s.bln.echoKnown.contains k = true ∧ s.fget (F.BLN_ECHO_STATUS_STATE k) ≠ 2 ∧ s.idClash k = true :=
  ⟨put [(F.BLN_ECHO_CTL_ENABLE 3, 1), (F.BLN_ECHO_STATUS_STATE 0, 2)] { State.reset with bln := { State.reset.bln with echoHeld := [3], echoKnown := [0, 3] } },
   3, by decide +kernel⟩

theorem witness_echoLaneCommands_5 :
    ∃ (s : State) (k : Nat), k < 4 ∧ s.fget (F.BLN_ECHO_STATUS_STATE k) = 2 ∧ s.echoMin < s.echoLocked :=
  ⟨put ((List.range 4).map (fun k => (F.BLN_ECHO_STATUS_STATE k, 2)) ++ [(F.BLN_CTL_ECHO_MIN, 3)]) State.reset, 3, by decide +kernel⟩

theorem witness_echoStreamMessages_1 :
    ∃ (s : State) (k : Nat) (ws : List DWord), ∃ es, k < 4 ∧ s.fget (F.BLN_ECHO_STATUS_STATE k) = 2 ∧ ackBlock ws = some es :=
  ⟨put [(F.BLN_ECHO_STATUS_STATE 3, 2)] State.reset, 3,
   block [BitVec.ofNat 64 (0xA6 + 2 ^ 8), BitVec.ofNat 64 (ackEntryWord { beamLane := 0, valid := true, stroke6 := 7, gen := 0 })],
   (ackBlock (block [BitVec.ofNat 64 (0xA6 + 2 ^ 8), BitVec.ofNat 64 (ackEntryWord { beamLane := 0, valid := true, stroke6 := 7, gen := 0 })])).getD [],
   by decide +kernel⟩

theorem witness_echoStreamMessages_2 :
    ∃ (s : State) (k : Nat) (ws : List DWord), k < 4 ∧ s.fget (F.BLN_ECHO_STATUS_STATE k) = 2 ∧ ackBlock ws = none ∧ kindOf ws = 0xA6 :=
  ⟨put [(F.BLN_ECHO_STATUS_STATE 3, 2)] State.reset, 3, [0x1A6#64, 6#64], by decide +kernel⟩

theorem witness_echoStreamMessages_3 :
    ∃ (s : State) (k : Nat) (ws : List DWord), k < 4 ∧ s.fget (F.BLN_ECHO_STATUS_STATE k) = 2 ∧ ackBlock ws = none ∧ kindOf ws ≠ 0xA6 :=
  ⟨put [(F.BLN_ECHO_STATUS_STATE 3, 2)] State.reset, 3, [5#64, 6#64], by decide +kernel⟩

theorem witness_echoStreamMessages_4 :
    ∃ (s : State) (k : Nat) (ws : List DWord), ∃ m, k < 4 ∧ s.fget (F.BLN_ECHO_STATUS_STATE k) = 2 ∧ statusMsg ws = some m ∧
      m.fault = false ∧ m.mismatch = false ∧ m.overflow = false ∧ s.bln.haltCatch = none :=
  ⟨put [(F.BLN_ECHO_STATUS_STATE 3, 2)] State.reset, 3, statusWords, (statusMsg statusWords).get (by decide +kernel), by decide +kernel⟩

theorem witness_echoStreamMessages_5 :
    ∃ (s : State) (k : Nat) (ws : List DWord), k < 4 ∧ s.bln.stale = false :=
  ⟨State.reset, 3, [], by decide +kernel⟩

theorem witness_sideJobs_1 :
    ∃ (s : State) (k l : Nat), k < 4 ∧ s.bln.side = none ∧ (s.fget F.BLN_SIDE_COUNT_BEAM_LANE) < 128 ∧
      (s.fget F.BLN_SIDE_ADDR_SPACE) ≤ 2 ∧ 0 < (s.fget F.BLN_SIDE_COUNT_WORDS) ∧
      (s.fget F.BLN_SIDE_ADDR_ADDRESS) + (s.fget F.BLN_SIDE_COUNT_WORDS) ≤ sideWords (s.fget F.BLN_SIDE_ADDR_SPACE) ∧
      s.pair F.BLN_SIDE_SRC_LO_ADDR F.BLN_SIDE_SRC_HI_ADDR % 8 = 0 ∧ s.flag F.BLN_SIDE_ADDR_READ = true ∧
      s.sideLane (s.fget F.BLN_SIDE_COUNT_BEAM_LANE) = some l ∧ s.mem.flips = [] :=
  ⟨put [(F.BLN_SIDE_COUNT_WORDS, 1), (F.BLN_SIDE_ADDR_READ, 1), (F.BLN_SIDE_ADDR_SPACE, 1), (F.BLN_LANE_STATUS_STATE 0, 3)] State.reset,
   3, 0, by decide +kernel⟩

theorem witness_sideJobs_2 :
    ∃ (s : State) (k l : Nat), ∃ j f, k < 4 ∧ s.bln.side = some j ∧ j.wave = false ∧ j.flight = some f ∧ f.waiting = false :=
  ⟨{ State.reset with bln := { State.reset.bln with side := some (sideJob true) } }, 3, 0, sideJob true, sideFlight true,
   by decide +kernel⟩

theorem witness_sideJobs_3 :
    ∃ (s : State) (k l : Nat), ∃ j f b bs, k < 4 ∧ s.bln.side = some j ∧ j.wave = false ∧ j.flight = some f ∧ f.waiting = true ∧
      j.targets = b :: bs :=
  ⟨{ State.reset with bln := { State.reset.bln with side := some ({ sideJob true with flight := some { sideFlight true with waiting := true } }) } },
   3, 0, { sideJob true with flight := some { sideFlight true with waiting := true } }, { sideFlight true with waiting := true }, 0, [],
   by decide +kernel⟩

theorem witness_sideJobs_4 :
    ∃ (s : State) (k l : Nat), ∃ j f ws data, k < 4 ∧ s.fget (F.BLN_ECHO_STATUS_STATE k) = 2 ∧ s.bln.side = some j ∧ j.wave = false ∧
      j.flight = some f ∧ f.waiting = false ∧ f.head.read = false ∧ sideResponse ws = some (f.head.tag, f.head.beamLane, 0, data) ∧
      j.words ≤ j.donewords + f.head.len ∧ j.targets.length ≤ 1 :=
  ⟨put [(F.BLN_ECHO_STATUS_STATE 3, 2)] { State.reset with bln := { State.reset.bln with side := some (sideJob false) } }, 3, 0,
   sideJob false, sideFlight false, block [BitVec.ofNat 64 (0xD2 + 2 ^ 8 + 7 * 2 ^ 35)], [], by decide +kernel⟩

theorem witness_sideJobs_5 :
    ∃ (s : State) (k l : Nat), ∃ j f, k < 4 ∧ s.bln.side = some j ∧ j.flight = some f ∧ f.waiting = false ∧ s.mem.flips = [] ∧
      f.tries < 3 ∧ s.sideLane f.head.beamLane = some l :=
  ⟨put [(F.BLN_LANE_STATUS_STATE 0, 4)] { State.reset with bln := { State.reset.bln with side := some (sideJob true) } }, 3, 0,
   sideJob true, sideFlight true, by decide +kernel⟩

theorem witness_laneInjections_1 :
    ∃ (s : State) (l nsym period : Nat) (per : Bool), l < 136 ∧ nsym < 32 ∧ period < 2 ^ 24 ∧ s.lockOpen = true :=
  ⟨unlocked, 135, 31, 2 ^ 24 - 1, true, by decide +kernel⟩

theorem witness_laneInjections_2 :
    ∃ (s : State) (l nsym period : Nat) (per : Bool), l < 136 ∧ nsym < 32 ∧ period < 2 ^ 24 ∧ s.lockOpen = false :=
  ⟨State.reset, 135, 31, 2 ^ 24 - 1, true, by decide +kernel⟩

theorem witness_laneInjections_3 :
    ∃ (s : State) (l nsym period : Nat) (per : Bool), l < 136 ∧ nsym < 32 ∧ period < 2 ^ 24 ∧ s.fget (F.BLN_LANE_INJECT_KIND l) = 3 ∧
      s.flag (F.BLN_LANE_INJECT_PERIODIC l) = true :=
  ⟨put [(F.BLN_LANE_INJECT_KIND 135, 3), (F.BLN_LANE_INJECT_PERIODIC 135, 1)] State.reset, 135, 31, 2 ^ 24 - 1, true, by decide +kernel⟩

theorem witness_positionSamplesDriveTheLoops_1 :
    ∃ (s : State) (a : Nat), ∃ (w : DWord) (tf : Int), a < 2 ∧ a = 1 ∧
      (loopSample s a (posFrame w) (tf - s.fget (if a = 0 then F.STK_POS_LAT_X_LAT else F.STK_POS_LAT_Y_LAT))).fits = true ∧
      sampleGood (s.loop a) (posFrame w) = false :=
  ⟨State.reset, 1, 5#64, 100, by decide +kernel⟩

theorem witness_positionSamplesDriveTheLoops_2 :
    ∃ (s : State) (a : Nat), a < 2 ∧ (s.loop a).locked = false ∧ (s.loop a).init = true ∧
      s.gov F.STK_LOCK_COUNT_COUNT ≤ (s.loop a).nearRun :=
  ⟨{ State.reset with stk := { State.reset.stk with loopY := { loopReset with init := true, nearRun := 100000 } } }, 1, by decide +kernel⟩

theorem witness_positionSamplesDriveTheLoops_3 :
    ∃ (s : State) (a : Nat), a < 2 ∧ 4 ≤ (s.loop a).farRun ∧ (s.loop a).locked = true :=
  ⟨{ State.reset with stk := { State.reset.stk with loopY := { loopReset with farRun := 4, locked := true } } }, 1, by decide +kernel⟩

theorem witness_positionSamplesDriveTheLoops_4 :
    ∃ (s : State) (a : Nat), a < 2 ∧ (s.loop a).posOk = true ∧ max 1 (s.fget F.STK_POS_CTL_BAD_LIMIT) ≤ (s.loop a).badRun :=
  ⟨{ State.reset with stk := { State.reset.stk with loopY := { loopReset with posOk := true, badRun := 100000 } } }, 1, by decide +kernel⟩

theorem witness_strokesCommitCatchAndFire_1 :
    ∃ (s : State), ∃ (e : Entry) (p : Int), s.stk.pred = some p ∧ s.running = some e ∧ s.stk.halted = false ∧
      (s.coxState = 2 ∨ s.coxState = 3) ∧ s.stk.next ≤ s.lastStroke ∧ (∀ c ∈ s.stk.commits, c.n < s.stk.next) :=
  ⟨put [(F.COX_STATUS_STATE, 3)] { courseRuns with stk := { courseRuns.stk with pred := some 5 } }, entryIn .running, 5,
   by decide +kernel⟩

theorem witness_strokesCommitCatchAndFire_2 :
    ∃ (s : State), ∃ c rest, s.stk.commits = c :: rest ∧ s.cox.ending = none :=
  ⟨{ courseRuns with stk := { courseRuns.stk with commits := [{ n := 3, t := 50, fire := true }] } }, { n := 3, t := 50, fire := true },
   [], by decide +kernel⟩

theorem witness_strokesCommitCatchAndFire_3 :
    ∃ (s : State), ∃ (e : Entry), ∃ n at', s.stk.train = some (n, at') ∧ s.running = some e :=
  ⟨{ courseRuns with stk := { courseRuns.stk with train := some (3, 50) } }, entryIn .running, 3, 50, by decide +kernel⟩

theorem witness_haltsPausesAndTheLineTest_1 :
    ∃ s : State, s.haltable = true ∧ s.stk.halted = false ∧ s.stk.next ≤ s.lastStroke :=
  ⟨courseRuns, by decide +kernel⟩

theorem witness_haltsPausesAndTheLineTest_2 :
    ∃ s : State, ∃ p, s.cox.pauseFrom = some p ∧ s.gov F.COX_PAUSE_WARN_MS ≠ 0 ∧ s.cox.warned = false :=
  ⟨{ courseRuns with cox := { courseRuns.cox with pauseFrom := some 5 }, inf := (put [(F.COX_PAUSE_WARN_MS, 1)] State.reset).regs }, 5,
   by decide +kernel⟩

theorem witness_haltsPausesAndTheLineTest_3 :
    ∃ s : State, ∃ p, s.cox.pauseFrom = some p ∧ s.gov F.COX_PAUSE_LIMIT_MS ≠ 0 ∧ s.cox.limited = false ∧
      s.govFlag F.COX_CTL_PAUSE_ACTION = true :=
  ⟨{ courseRuns with cox := { courseRuns.cox with pauseFrom := some 5 }, inf := (put [(F.COX_PAUSE_LIMIT_MS, 1), (F.COX_CTL_PAUSE_ACTION, 1)] State.reset).regs },
   5, by decide +kernel⟩

theorem witness_haltsPausesAndTheLineTest_4 :
    ∃ s : State, ∃ p, s.cox.pauseFrom = some p ∧ s.gov F.COX_PAUSE_LIMIT_MS ≠ 0 ∧ s.cox.limited = false ∧
      s.govFlag F.COX_CTL_PAUSE_ACTION = false ∧ s.running.isSome = true ∧ s.cox.ending = none :=
  ⟨{ courseRuns with cox := { courseRuns.cox with pauseFrom := some 5 }, inf := (put [(F.COX_PAUSE_LIMIT_MS, 1), (F.COX_CTL_PAUSE_ACTION, 0)] State.reset).regs },
   5, by decide +kernel⟩

theorem witness_haltsPausesAndTheLineTest_5 :
    ∃ s : State, ∃ p, s.cox.supplyClear = some p :=
  ⟨{ courseRuns with cox := { courseRuns.cox with supplyClear := some 5 }, inf := (put [] State.reset).regs }, 5, by decide +kernel⟩

theorem witness_haltsPausesAndTheLineTest_6 :
    ∃ s : State, s.demanded = false ∧ (s.coxState = 2 ∨ s.coxState = 3) ∧ s.saf.lineStep = some 0 :=
  ⟨put [(F.COX_STATUS_STATE, 2)] { State.reset with saf := { State.reset.saf with lineStep := some 0 } }, by decide +kernel⟩

theorem witness_haltsPausesAndTheLineTest_7 :
    ∃ s : State, s.demanded = false ∧ (s.coxState = 2 ∨ s.coxState = 3) ∧ s.saf.lineStep = some 1 ∧ s.flag F.SAF_CTL_INHIBIT = false ∧
      s.harbour = false ∧ s.saf.startupOk = true :=
  ⟨put [(F.COX_STATUS_STATE, 3), (F.SAF_CTL_INHIBIT, 0)] { State.reset with saf := { State.reset.saf with lineStep := some 1, startupOk := true } },
   by decide +kernel⟩

theorem witness_axisOrders_1 :
    ∃ (s : State) (a : Nat), a < 2 ∧ s.coxState = 0 ∧ (s.axis a).next = none ∧
      mayTake s a (NewOrder.order (.move (s.pos48 (F.MOT_AX_TARGET_LO_POS a) (F.MOT_AX_TARGET_HI_POS a)))) = true :=
  ⟨axesUp, 1, by decide +kernel⟩

theorem witness_axisOrders_2 :
    ∃ (s : State) (a : Nat), a < 2 ∧ s.coxState = 0 ∧ (s.axis a).next = none ∧
      mayTake s a (.order (.velocity (s.sget (F.MOT_AX_JOG_V a)))) = true :=
  ⟨axesUp, 1, by decide +kernel⟩

theorem witness_axisOrders_3 :
    ∃ (s : State) (a : Nat), a < 2 ∧ s.coxState = 0 ∧ (s.axis a).next = none ∧ mayTake s a .home = true :=
  ⟨axesUp, 1, by decide +kernel⟩

theorem witness_axisOrders_4 :
    ∃ (s : State) (a : Nat), a < 2 ∧ s.coxState ≠ 0 :=
  ⟨put [(F.COX_STATUS_STATE, 1)] State.reset, 1, by decide +kernel⟩

theorem witness_axisOrders_5 :
    ∃ (s : State) (a : Nat), a < 2 ∧ s.axisState a = 6 ∧ s.flag (F.MOT_AX_STATUS_LIM_POS a) = false ∧
      s.flag (F.MOT_AX_STATUS_LIM_NEG a) = false ∧ s.flag (F.MOT_AX_STATUS_DRV_FAULT a) = false ∧
      (s.axis a).badRun < max 1 (s.fget F.MOT_DRV_CTL_STS_LIMIT) :=
  ⟨put [(F.MOT_AX_STATUS_STATE 1, 6)] State.reset, 1, by decide +kernel⟩

theorem witness_axisOrders_6 :
    ∃ (s : State) (a : Nat), a < 2 ∧ (s.axis a).moving = false :=
  ⟨State.reset, 1, by decide +kernel⟩

theorem witness_axisOrders_7 :
    ∃ (s : State) (a : Nat), a < 2 ∧ (s.axis a).moving = true ∧ s.axisState a = 2 :=
  ⟨put [(F.MOT_AX_STATUS_STATE 1, 2)] (withAxis 1 (fun x => { x with sp := { pos := 0, vel := 1, acc := 0 } }) State.reset), 1,
   by decide +kernel⟩

theorem witness_axisOrders_8 :
    ∃ (s : State) (a : Nat), ∃ v : Nat, a < 2 ∧ v < 2 ^ 24 :=
  ⟨State.reset, 1, 2 ^ 24 - 1, by decide +kernel⟩

theorem witness_axisOrders_9 :
    ∃ (s : State) (a : Nat), ∃ v : Nat, a < 2 ∧ v < 128 ∧ s.running = none ∧ s.atRest 0 = true ∧ s.atRest 1 = true :=
  ⟨axesUp, 1, 127, by decide +kernel⟩

theorem witness_axisOrders_10 :
    ∃ (s : State) (a : Nat), ∃ v : Nat, a < 2 ∧ v < 128 ∧ (s.running.isSome = true ∨ s.atRest 0 = false ∨ s.atRest 1 = false) :=
  ⟨courseRuns, 1, 127, by decide +kernel⟩

theorem witness_driverStatusAndTables_1 :
    ∃ (s : State) (a : Nat), ∃ (w : Word), ∃ q due, a < 2 ∧ (s.axis a).awaiting = some (q, due) ∧ s.clock ≤ due ∧ statusCrcOk w = true ∧
      bits 3 1 w.toNat = a ∧ bits 4 4 w.toNat = q ∧ w.getLsbD 1 = true ∧ w.getLsbD 2 = false :=
  ⟨withAxis 1 (fun x => { x with awaiting := some (5, 0) }) State.reset, 1,
   BitVec.ofNat 32 (0x5A + (crc8 (leBytes 3 0x5A)).toNat * 2 ^ 24), 5, 0, by decide +kernel⟩

theorem witness_driverStatusAndTables_2 :
    ∃ (s : State) (a : Nat), ∃ (w : Word), ∃ q due, a < 2 ∧ (s.axis a).awaiting = some (q, due) ∧ (statusCrcOk w = false ∨ due < s.clock) :=
  ⟨withAxis 1 (fun x => { x with awaiting := some (15, 0) }) State.reset, 1, 1#32, 15, 0, by decide +kernel⟩

theorem witness_driverStatusAndTables_3 :
    ∃ (s : State) (a : Nat), a < 2 ∧ max 1 (s.fget F.MOT_DRV_CTL_STS_LIMIT) ≤ (s.axis a).badRun :=
  ⟨withAxis 1 (fun x => { x with badRun := 100 }) State.reset, 1, by decide +kernel⟩

theorem witness_driverStatusAndTables_4 :
    ∃ (s : State) (a : Nat), a < 2 ∧ s.coxState = 0 ∧ s.flag F.MOT_TBL_STATUS_RUNNING = false ∧ s.flag F.MOT_TBL_STATUS_LOADED = true ∧
      s.enabled 0 = true ∧ s.enabled 1 = true ∧ s.stageStopping = false :=
  ⟨put [(F.MOT_TBL_STATUS_LOADED, 1)] axesUp, 1, by decide +kernel⟩

theorem witness_driverStatusAndTables_5 :
    ∃ (s : State) (a : Nat), ∃ ps, a < 2 ∧ s.mot.loading = true ∧ tableCheck s = (none, ps) :=
  let s := { put [(F.MOT_TBL_COUNT_COUNT, 2)] hbmUp with mot := { State.reset.mot with loading := true }, hbm := { bytes := [(38, 5#8)], chk := [], hazes := [] } }
  ⟨s, 1, (tableCheck s).2, by decide +kernel⟩

theorem witness_driverStatusAndTables_6 :
    ∃ (s : State) (a : Nat), ∃ code ps, a < 2 ∧ s.mot.loading = true ∧ tableCheck s = (some code, ps) :=
  ⟨{ State.reset with mot := { State.reset.mot with loading := true } }, 1, 1, [], by decide +kernel⟩

theorem witness_driverStatusAndTables_7 :
    ∃ (s : State) (a : Nat), ∃ r, a < 2 ∧ s.coxState = 0 ∧ s.mot.table = some r ∧ s.flag F.MOT_TBL_STATUS_RUNNING = true :=
  ⟨put [(F.MOT_TBL_STATUS_RUNNING, 1)] { State.reset with mot := { State.reset.mot with table := some { ticks := 5 } } }, 1,
   { ticks := 5 }, by decide +kernel⟩

theorem witness_limitAndHomeInputs_1 :
    ∃ (s : State) (a : Nat), ∃ (i : Nat) (level : Bool), a < 2 ∧ i < 3 ∧ ((s.axis a).input i).raw ≠ level :=
  ⟨State.reset, 1, 2, true, by decide +kernel⟩

theorem witness_limitAndHomeInputs_2 :
    ∃ (s : State) (a : Nat), ∃ (i : Nat), ∃ at', a < 2 ∧ i < 2 ∧ ((s.axis a).input i).since = some at' ∧
      ((s.axis a).input i).level = false ∧ (s.axis a).homing = none :=
  ⟨withAxis 1 (fun x => { x with limNeg := { raw := true, level := false, since := some 5 } }) State.reset, 1, 1, 5, by decide +kernel⟩

theorem witness_limitAndHomeInputs_3 :
    ∃ (s : State) (a : Nat), ∃ (i : Nat), ∃ at', a < 2 ∧ i < 2 ∧ ((s.axis a).input i).since = some at' ∧ ((s.axis a).input i).level = true :=
  ⟨withAxis 1 (fun x => { x with limNeg := { raw := true, level := true, since := some 5 } }) State.reset, 1, 1, 5, by decide +kernel⟩

theorem witness_limitAndHomeInputs_4 :
    ∃ (s : State) (a : Nat), ∃ at', a < 2 ∧ (s.axis a).home.since = some at' ∧ (s.axis a).homing = none :=
  ⟨withAxis 1 (fun x => { x with home := { raw := true, level := false, since := some 5 } }) State.reset, 1, 5, by decide +kernel⟩

theorem witness_limitAndHomeInputs_5 :
    ∃ (s : State) (a : Nat), ∃ (level : Bool), a < 2 ∧ (s.axis a).homing = none :=
  ⟨State.reset, 1, true, by decide +kernel⟩

theorem witness_limitAndHomeInputs_6 :
    ∃ (s : State) (a : Nat), ∃ (level : Bool), ∃ h, a < 2 ∧ (s.axis a).homing = some h ∧ h.phase = .creep ∧ s.axisState a = 3 ∧
      (s.axis a).index ≠ level ∧ level ≠ s.flag (F.MOT_AX_CTL_IDX_INV a) :=
  ⟨put [(F.MOT_AX_STATUS_STATE 1, 3)] (withAxis 1 (fun x => { x with homing := some { phase := .creep, neg := true, trips := 0, from4 := 5 } }) State.reset),
   1, true, { phase := .creep, neg := true, trips := 0, from4 := 5 }, by decide +kernel⟩

theorem witness_lossesAreResentAndFaultsPlanted_1 :
    ∃ s : State, s.int.loss = none :=
  ⟨State.reset, by decide +kernel⟩

theorem witness_lossesAreResentAndFaultsPlanted_2 :
    ∃ s : State, ∃ l, s.int.loss = some l ∧ s.int.rereads = true ∧ s.hbmBad 9 l.addr l.len = true :=
  ⟨{ State.reset with int := { State.reset.int with loss := some { addr := 16, len := 16, band := 0, tile := 0, entry := 0, index := false, atAdmission := true }, rereads := true } },
   { addr := 16, len := 16, band := 0, tile := 0, entry := 0, index := false, atAdmission := true }, by decide +kernel⟩

theorem witness_lossesAreResentAndFaultsPlanted_3 :
    ∃ s : State, ∃ l, ∃ e, s.int.loss = some l ∧ s.int.rereads = true ∧ s.hbmBad 9 l.addr l.len = false ∧ s.entry l.entry = some e ∧
      resendFailure s e l = none :=
  let s := { courseRuns with hbm := { bytes := [(27, 2#8)], chk := [], hazes := [] } }
  ⟨{ s with int := { State.reset.int with loss := some { addr := 16, len := 16, band := 0, tile := 0, entry := 0, index := false, atAdmission := true }, rereads := true } },
   { addr := 16, len := 16, band := 0, tile := 0, entry := 0, index := false, atAdmission := true }, entryIn .running, by decide +kernel⟩

theorem witness_lossesAreResentAndFaultsPlanted_4 :
    ∃ s : State, ∃ n : Nat, n < 128 ∧ s.lockOpen = true :=
  ⟨unlocked, 127, by decide +kernel⟩

theorem witness_lossesAreResentAndFaultsPlanted_5 :
    ∃ s : State, ∃ n : Nat, n < 128 ∧ s.lockOpen = false :=
  ⟨State.reset, 127, by decide +kernel⟩

theorem witness_lossesAreResentAndFaultsPlanted_6 :
    ∃ s : State, ∃ n : Nat, n < 8192 ∧ s.lockOpen = true :=
  ⟨unlocked, 8191, by decide +kernel⟩

theorem witness_lossesAreResentAndFaultsPlanted_7 :
    ∃ s : State, ∃ n : Nat, n < 8192 ∧ s.lockOpen = false :=
  ⟨State.reset, 8191, by decide +kernel⟩

theorem witness_stacksTrainAndRefresh_1 :
    ∃ s : State, ∃ ends, (Instr.hbmTrainDone ends).wf = true ∧ s.mem.training = true :=
  ⟨{ State.reset with mem := { State.reset.mem with training := true } }, [(true, 15), (false, 0), (false, 0), (false, 0)],
   by decide +kernel⟩

theorem witness_stacksTrainAndRefresh_2 :
    ∃ s : State, s.ing.queue = [] :=
  ⟨State.reset, by decide +kernel⟩

theorem witness_stacksTrainAndRefresh_3 :
    ∃ s : State, s.ing.queue ≠ [] :=
  ⟨queued .ready State.reset, by decide +kernel⟩

theorem witness_stacksTrainAndRefresh_4 :
    ∃ s : State, ∃ (k : Nat) (temp : Int), k < 4 ∧ -128 ≤ temp ∧ temp < 128 :=
  ⟨State.reset, 3, 127, by decide +kernel⟩

theorem witness_stacksTrainAndRefresh_5 :
    ∃ s : State, ∃ (q : Nat) (waiting : Bool), q < 128 ∧ q < s.mem.debtFrom.length ∧ s.mem.urgent.contains q = false ∧
      (refDebt s q) < 8 * (refInterval s q) ∧
      ((refDebt s q) < (refInterval s q) ∨ ((refDebt s q) < (max 1 (s.fget F.HBM_CTL_REF_PRESS)) * (refInterval s q) ∧ waiting = true) ∨ s.burstOn q = true) :=
  ⟨State.reset, 127, false, by decide +kernel⟩

theorem witness_stacksTrainAndRefresh_6 :
    ∃ s : State, ∃ (q : Nat) (waiting : Bool), q < 128 ∧ q < s.mem.debtFrom.length ∧
      (s.mem.urgent.contains q = true ∨ 8 * (refInterval s q) ≤ (refDebt s q) ∨ ((refInterval s q) ≤ (refDebt s q) ∧ ((refDebt s q) < (max 1 (s.fget F.HBM_CTL_REF_PRESS)) * (refInterval s q) → waiting = false) ∧ s.burstOn q = false)) :=
  ⟨{ State.reset with clock := 64 * 1000000 }, 127, false, by decide +kernel⟩

theorem witness_readsScrubAndRestore_1 :
    ∃ s : State, ∃ port addr stack, port < 16 ∧ stack < 3 ∧ addr + 8 ≤ 96 * 2 ^ 30 ∧ addr % 8 = 0 ∧ s.running = none ∧ port ≠ 14 ∧
      s.mem.marked.contains (port, addr / 8) = false ∧ s.fget F.SRM_CHK_CTL_MODE ≠ 1 ∧ s.wordClass (addr / 8) = .clean ∧ stack = 0 :=
  ⟨put [(F.HBM_CTL_NBR_EN, 0)] hbmUp, 15, 96 * 2 ^ 30 - 8, 0, by decide +kernel⟩

theorem witness_readsScrubAndRestore_2 :
    ∃ s : State, ∃ port addr stack, port < 16 ∧ stack < 3 ∧ addr + 8 ≤ 96 * 2 ^ 30 ∧ addr % 8 = 0 ∧ s.running = none ∧ port ≠ 14 ∧
      s.mem.marked.contains (port, addr / 8) = false ∧ s.fget F.SRM_CHK_CTL_MODE ≠ 1 ∧ stack < 2 ∧
      ((∃ b, s.wordClass (addr / 8) = .corrected b) ∨ (s.wordClass (addr / 8) = .clean ∧ stack = 1)) :=
  ⟨{ put [(F.HBM_CTL_NBR_EN, 0)] hbmUp with hbm := { bytes := [], chk := [(12 * 2 ^ 30 - 1, 1)], hazes := [] } }, 13, 96 * 2 ^ 30 - 8, 0,
   by decide +kernel, by decide +kernel, by decide +kernel, by decide +kernel, by decide +kernel, by decide +kernel, by decide +kernel,
   by decide +kernel, by decide +kernel, .inl ⟨_, rfl⟩⟩

theorem witness_readsScrubAndRestore_3 :
    ∃ s : State, ∃ port addr stack, port < 16 ∧ stack < 3 ∧ addr + 8 ≤ 96 * 2 ^ 30 ∧ addr % 8 = 0 ∧ s.running = none ∧ port ≠ 14 ∧
      s.mem.marked.contains (port, addr / 8) = false ∧ s.fget F.SRM_CHK_CTL_MODE ≠ 1 ∧
      (s.wordClass (addr / 8) = .uncorrectable ∨ stack = 2) :=
  ⟨{ put [(F.HBM_CTL_NBR_EN, 0)] hbmUp with hbm := { bytes := [], chk := [(12 * 2 ^ 30 - 1, 3)], hazes := [] } }, 13, 96 * 2 ^ 30 - 8, 0,
   by decide +kernel⟩

theorem witness_readsScrubAndRestore_4 :
    ∃ s : State, ∃ late : Bool, s.flag F.HBM_SCRUB_CTL_EN = true ∧
      s.wordClass ((s.pair F.HBM_SCRUB_POS_LO_ADDR F.HBM_SCRUB_POS_HI_ADDR) / 8) = .clean ∧
      s.mem.marked.contains (15, (s.pair F.HBM_SCRUB_POS_LO_ADDR F.HBM_SCRUB_POS_HI_ADDR) / 8) = false ∧
      (s.pair F.HBM_SCRUB_POS_LO_ADDR F.HBM_SCRUB_POS_HI_ADDR) + 8 < hbmSize :=
  ⟨put [(F.HBM_SCRUB_CTL_EN, 1)] hbmUp, true, by decide +kernel⟩

theorem witness_readsScrubAndRestore_5 :
    ∃ s : State, ∃ late : Bool, s.flag F.HBM_SCRUB_CTL_EN = true ∧
      s.wordClass ((s.pair F.HBM_SCRUB_POS_LO_ADDR F.HBM_SCRUB_POS_HI_ADDR) / 8) = .clean ∧
      s.mem.marked.contains (15, (s.pair F.HBM_SCRUB_POS_LO_ADDR F.HBM_SCRUB_POS_HI_ADDR) / 8) = false ∧
      hbmSize ≤ (s.pair F.HBM_SCRUB_POS_LO_ADDR F.HBM_SCRUB_POS_HI_ADDR) + 8 :=
  ⟨put [(F.HBM_SCRUB_CTL_EN, 1), (F.HBM_SCRUB_POS_LO_ADDR, 2 ^ 32 - 8), (F.HBM_SCRUB_POS_HI_ADDR, 23)] hbmUp, false, by decide +kernel⟩

theorem witness_readsScrubAndRestore_6 :
    ∃ s : State, ∃ (late : Bool) (a : Nat), s.flag F.SRM_CTL_SCRUB_EN = true ∧ walkTable s.mem.sramPos = some a ∧ a % 4 = 0 ∧
      s.mem.sramPos + 1 < walkTables ∧ (∀ i < 4, sparseGet (fun _ => 0) (a + i) s.mem.flips = 0) :=
  ⟨put [(F.SRM_CTL_SCRUB_EN, 1)] State.reset, true, (walkAt walkParts 0).getD 0, by decide +kernel⟩

theorem witness_readsScrubAndRestore_7 :
    ∃ s : State, ∃ (late : Bool) (a : Nat), s.flag F.SRM_CTL_SCRUB_EN = true ∧ walkTable s.mem.sramPos = some a ∧ a % 4 = 0 ∧
      s.mem.sramPos + 1 < walkTables ∧ byteClass (sparseGet (fun _ => 0) a s.mem.flips) = .uncorrectable ∧
      (∀ i, 0 < i → i < 4 → sparseGet (fun _ => 0) (a + i) s.mem.flips = 0) ∧ a ∉ s.mem.bad ∧ a < 0x1000000 ∧ s.running = none :=
  ⟨{ put [(F.SRM_CTL_SCRUB_EN, 1)] State.reset with mem := { State.reset.mem with flips := [((walkAt walkParts 0).getD 0, 3)] } }, true,
   (walkAt walkParts 0).getD 0, by decide +kernel, by decide +kernel, by decide +kernel, by decide +kernel, by decide +kernel,
   fun i h1 h2 => (by decide +kernel : ∀ i < 4, 0 < i → sparseGet (fun _ => 0) ((walkAt walkParts 0).getD 0 + i) [((walkAt walkParts 0).getD 0, 3)] = 0) i h2 h1,
   by decide +kernel⟩

theorem witness_readsScrubAndRestore_8 :
    ∃ s : State, (s.fget F.SRM_RESTORE_ADDR_OFFSET) ∉ s.mem.bad :=
  ⟨State.reset, by decide +kernel⟩

theorem witness_readsScrubAndRestore_9 :
    ∃ s : State, (s.fget F.SRM_RESTORE_ADDR_OFFSET) ∈ s.mem.bad :=
  ⟨{ put [(F.SRM_RESTORE_ADDR_OFFSET, R.DOS_KRN_TAP 0 0 0)] State.reset with mem := { State.reset.mem with bad := [R.DOS_KRN_TAP 0 0 0] } },
   by decide +kernel⟩

theorem witness_checksRepairsAndInitialisation_1 :
    ∃ s : State, ∃ target mask, target < 4 ∧ mask < 256 ∧ s.lockOpen = true :=
  ⟨unlocked, 3, 255, by decide +kernel⟩

theorem witness_checksRepairsAndInitialisation_2 :
    ∃ s : State, ∃ target mask, target < 4 ∧ mask < 256 ∧ s.lockOpen = false :=
  ⟨State.reset, 3, 255, by decide +kernel⟩

theorem witness_checksRepairsAndInitialisation_3 :
    ∃ s : State, s.lockOpen = true ∧ s.mem.selftest = none ∧ s.coxState = 0 ∧ s.running = none :=
  ⟨unlocked, by decide +kernel⟩

theorem witness_checksRepairsAndInitialisation_4 :
    ∃ s : State, s.lockOpen = true ∧ s.mem.selftest = none ∧ (s.coxState ≠ 0 ∨ s.running.isSome = true) ∧
      (s.result R.SRM_CHK_RESULT).vis = none :=
  ⟨{ put [(F.COX_STATUS_STATE, 1)] unlocked with results := [] }, by decide +kernel⟩

theorem witness_checksRepairsAndInitialisation_5 :
    ∃ s : State, ∃ failed : Nat, failed < 65536 ∧ s.mem.selftest.isSome = true ∧ (s.result R.SRM_CHK_RESULT).vis = none :=
  ⟨{ State.reset with mem := { State.reset.mem with selftest := some true } }, 65535, by decide +kernel⟩

theorem witness_checksRepairsAndInitialisation_6 :
    ∃ s : State, ∃ i : Nat, s.flag F.SRM_REPAIR_CAND_VALID = true ∧ i < 512 ∧ s.repairFree i = true ∧ (∀ j < i, s.repairFree j = false) :=
  ⟨{ put [(F.SRM_REPAIR_CAND_VALID, 1)] State.reset with keel := { bytes := [(0x1C01000, 0#8)], bad := [] } }, 1, by decide +kernel⟩

theorem witness_checksRepairsAndInitialisation_7 :
    ∃ s : State, s.flag F.SRM_REPAIR_CAND_VALID = true ∧ (∀ i < 512, s.repairFree i = false) :=
  ⟨{ put [(F.SRM_REPAIR_CAND_VALID, 1)] State.reset with keel := { bytes := (List.range 512).map (fun i => (0x1C01000 + 16 * i, 0#8)), bad := [] } },
   by decide +kernel⟩

theorem witness_checksRepairsAndInitialisation_8 :
    ∃ s : State, (s.pair F.HBM_INIT_BASE_LO_ADDR F.HBM_INIT_BASE_HI_ADDR) % 4096 = 0 ∧
      (s.pair F.HBM_INIT_LEN_LO_LEN F.HBM_INIT_LEN_HI_LEN) % 4096 = 0 ∧ 0 < (s.pair F.HBM_INIT_LEN_LO_LEN F.HBM_INIT_LEN_HI_LEN) ∧
      (s.pair F.HBM_INIT_BASE_LO_ADDR F.HBM_INIT_BASE_HI_ADDR) + (s.pair F.HBM_INIT_LEN_LO_LEN F.HBM_INIT_LEN_HI_LEN) ≤ hbmSize ∧
      s.fencedRange (s.pair F.HBM_INIT_BASE_LO_ADDR F.HBM_INIT_BASE_HI_ADDR) (s.pair F.HBM_INIT_LEN_LO_LEN F.HBM_INIT_LEN_HI_LEN) = false ∧
      s.flag F.HBM_STATUS_INIT_BUSY = false :=
  ⟨put [(F.HBM_INIT_LEN_HI_LEN, 24)] hbmUp, by decide +kernel⟩

theorem witness_checksRepairsAndInitialisation_9 :
    ∃ s : State,
      ((s.pair F.HBM_INIT_BASE_LO_ADDR F.HBM_INIT_BASE_HI_ADDR) % 4096 ≠ 0 ∨ (s.pair F.HBM_INIT_LEN_LO_LEN F.HBM_INIT_LEN_HI_LEN) % 4096 ≠ 0 ∨ (s.pair F.HBM_INIT_LEN_LO_LEN F.HBM_INIT_LEN_HI_LEN) = 0 ∨ hbmSize < (s.pair F.HBM_INIT_BASE_LO_ADDR F.HBM_INIT_BASE_HI_ADDR) + (s.pair F.HBM_INIT_LEN_LO_LEN F.HBM_INIT_LEN_HI_LEN) ∨ s.fencedRange (s.pair F.HBM_INIT_BASE_LO_ADDR F.HBM_INIT_BASE_HI_ADDR) (s.pair F.HBM_INIT_LEN_LO_LEN F.HBM_INIT_LEN_HI_LEN) = true ∨ s.flag F.HBM_STATUS_INIT_BUSY = true) :=
  ⟨State.reset, by decide +kernel⟩

theorem witness_checksRepairsAndInitialisation_10 :
    ∃ s : State, ∃ base len, s.mem.init = some (base, len) ∧ s.hbmReady = true ∧ Memory.wf s.hbm.bytes = true ∧
      shadowTouched s base len = [] ∧ s.fget F.SRM_CHK_CTL_MODE ≠ 1 :=
  ⟨{ hbmUp with mem := { State.reset.mem with init := some (2 ^ 24, 96 * 2 ^ 30 - 2 ^ 24) } }, 2 ^ 24, 96 * 2 ^ 30 - 2 ^ 24,
   by decide +kernel⟩

theorem witness_hostWindowsAndErrors_1 :
    ∃ s : State, ∃ addr len, 0 < len ∧ addr + len ≤ hbmSize ∧ PlainRead s 11 addr len :=
  ⟨hbmUp, 96 * 2 ^ 30 - 8, 8, by decide +kernel, by decide +kernel, by unfold PlainRead; decide +kernel⟩

theorem witness_hostWindowsAndErrors_2 :
    ∃ s : State, ∃ addr len, 0 < len ∧ addr + len ≤ hbmSize ∧ s.hbmBad 11 addr len = true :=
  ⟨State.reset, 0, 8, by decide +kernel⟩

theorem witness_hostWindowsAndErrors_3 :
    ∃ s : State, ∃ addr len, 0 < len ∧ hbmSize ≤ addr ∧ addr + len ≤ 2 ^ 37 :=
  ⟨State.reset, 2 ^ 37 - 8, 8, by decide +kernel⟩

theorem witness_hostWindowsAndErrors_4 :
    ∃ s : State, ∃ addr : Nat, ∃ bytes : List Byte, bytes ≠ [] ∧ PlainWrite s addr bytes.length :=
  ⟨hbmUp, 96 * 2 ^ 30 - 1, [1#8], by decide +kernel, by unfold PlainWrite; decide +kernel⟩

theorem witness_hostWindowsAndErrors_5 :
    ∃ s : State, ∃ addr : Nat, ∃ bytes : List Byte, bytes ≠ [] ∧ hbmSize ≤ addr ∧ addr + bytes.length ≤ 2 ^ 37 :=
  ⟨State.reset, 2 ^ 37 - 1, [1#8], by decide +kernel⟩

theorem witness_hostWindowsAndErrors_6 :
    ∃ s : State, ∃ off : Nat, ∃ c : Option (Bool × Bool), s.flag F.CFG_STATUS_READY = false ∧ off % 4 = 0 ∧ off < 4096 :=
  ⟨State.reset, 4092, none, by decide +kernel⟩

theorem witness_hostWindowsAndErrors_7 :
    ∃ s : State, ∃ off : Nat, ∃ en fm : Bool, s.flag F.CFG_STATUS_READY = true ∧ off % 4 = 0 ∧ off < 4096 :=
  ⟨put [(F.CFG_STATUS_READY, 1)] State.reset, 4092, true, false, by decide +kernel⟩

theorem witness_hostWindowsAndErrors_8 :
    ∃ s : State, ∃ n : Nat, n < 128 :=
  ⟨State.reset, 127, by decide +kernel⟩

theorem witness_hostWindowsAndErrors_9 :
    ∃ s : State, ∃ (w : Nat) (v : Word), w < 4 :=
  ⟨State.reset, 3, 5#32, by decide +kernel⟩

theorem witness_hostWindowsAndErrors_10 :
    ∃ s : State, ∃ speed width, ∃ flit : Bool, linkWf speed width = true :=
  ⟨State.reset, 6, 16, true, by decide +kernel⟩

theorem witness_pcieResetsAndPerst_1 :
    ∃ s : State, s.absorbs = true :=
  ⟨State.reset, by decide +kernel⟩

theorem witness_pcieResetsAndPerst_2 :
    ∃ s : State, s.absorbs = false ∧ s.pwr.job = none :=
  ⟨{ State.reset with pwr := { State.reset.pwr with phase := .running } }, by decide +kernel⟩

theorem witness_channelControl_1 :
    ∃ s : State, ∃ c : Nat, s.dma.length = 32 ∧ c < 32 ∧ s.flag F.DMA_STATUS_HALTED = false ∧ s.chanState c = 0 :=
  ⟨State.reset, 31, by decide +kernel⟩

theorem witness_channelControl_2 :
    ∃ s : State, ∃ c : Nat, s.dma.length = 32 ∧ c < 32 ∧ s.flag F.DMA_STATUS_HALTED = false ∧ s.chanState c = 1 ∧ (s.chan c).parked = true :=
  ⟨(put [(F.DMA_CH_STATUS_STATE 31, 1)] State.reset).setChan 31 { chanReset with parked := true }, 31, by decide +kernel⟩

theorem witness_channelControl_3 :
    ∃ s : State, ∃ c : Nat, s.dma.length = 32 ∧ c < 32 ∧
      (1 < s.chanState c ∨ (s.chanState c = 1 ∧ (s.chan c).parked = false) ∨ s.flag F.DMA_STATUS_HALTED = true) :=
  ⟨put [(F.DMA_CH_STATUS_STATE 31, 2)] State.reset, 31, by decide +kernel⟩

theorem witness_channelControl_4 :
    ∃ s : State, ∃ c : Nat, s.dma.length = 32 ∧ c < 32 ∧ s.chanState c ≠ 1 :=
  ⟨put [(F.DMA_CH_STATUS_STATE 31, 3)] State.reset, 31, by decide +kernel⟩

theorem witness_channelControl_5 :
    ∃ s : State, ∃ c : Nat, s.dma.length = 32 ∧ c < 32 ∧ s.chanState c = 3 :=
  ⟨put [(F.DMA_CH_STATUS_STATE 31, 3)] State.reset, 31, by decide +kernel⟩

theorem witness_channelControl_6 :
    ∃ s : State, ∃ c : Nat, s.dma.length = 32 ∧ c < 32 ∧ s.chanState c = 4 ∧ s.flag F.DMA_STATUS_HALTED = false ∧
      (s.chan c).desc.isSome = true :=
  ⟨(put [(F.DMA_CH_STATUS_STATE 31, 4)] State.reset).setChan 31 { chanReset with desc := some [] }, 31, by decide +kernel⟩

theorem witness_channelControl_7 :
    ∃ s : State, ∃ c : Nat, s.dma.length = 32 ∧ c < 32 ∧ s.chanState c = 4 ∧ s.flag F.DMA_STATUS_HALTED = true :=
  ⟨put [(F.DMA_CH_STATUS_STATE 31, 4), (F.DMA_STATUS_HALTED, 1)] State.reset, 31, by decide +kernel⟩

theorem witness_channelControl_8 :
    ∃ s : State, ∃ c : Nat, s.dma.length = 32 ∧ c < 32 ∧ s.chanState c < 3 :=
  ⟨put [(F.DMA_CH_STATUS_STATE 31, 2)] State.reset, 31, by decide +kernel⟩

theorem witness_descriptorsMoveDataAndPortsTakeTurns_1 :
    ∃ s : State, ∃ c : Nat, ∃ ws : List DWord, s.dma.length = 32 ∧ c < 32 ∧ s.chanState c = 2 ∧ (s.chan c).ringHbm = false ∧
      ws.length = 4 ∧ (s.chan c).fetch = true ∧ (dmaDesc ws).own = false :=
  ⟨channel none 0, 31, descriptor 0 0x1000000 24 16 false, by decide +kernel⟩

theorem witness_descriptorsMoveDataAndPortsTakeTurns_2 :
    ∃ s : State, ∃ c : Nat, ∃ ws : List DWord, s.dma.length = 32 ∧ c < 32 ∧ s.chanState c = 2 ∧ (s.chan c).ringHbm = false ∧
      ws.length = 4 ∧ (s.chan c).fetch = true ∧ (dmaDesc ws).own = true ∧ (dmaDesc ws).typ ≠ 1 ∧ descCheck (dmaDesc ws) = 0 :=
  ⟨channel none 0, 31, descriptor 0 0x1000000 24 16 true, by decide +kernel⟩

theorem witness_descriptorsMoveDataAndPortsTakeTurns_3 :
    ∃ s : State, ∃ c : Nat, ∃ ws : List DWord, s.dma.length = 32 ∧ c < 32 ∧ s.chanState c = 2 ∧ (s.chan c).ringHbm = false ∧
      ws.length = 4 ∧ (s.chan c).fetch = true ∧ (dmaDesc ws).own = true ∧ (dmaDesc ws).typ ≠ 1 ∧ descCheck (dmaDesc ws) ≠ 0 :=
  ⟨channel none 0, 31, descriptor 0 0 0 16 true, by decide +kernel⟩

theorem witness_descriptorsMoveDataAndPortsTakeTurns_4 :
    ∃ s : State, ∃ c : Nat, ∃ ws : List DWord, s.dma.length = 32 ∧ c < 32 ∧ s.chanState c = 2 ∧ (s.chan c).ringHbm = false ∧
      ws.length = 4 ∧ (s.chan c).fetch = true ∧ (dmaDesc ws).own = true ∧ (dmaDesc ws).typ = 1 ∧ (s.chan c).links ≠ 4 :=
  ⟨channel none 3, 31, descriptor 64 0 0 1 true, by decide +kernel⟩

theorem witness_descriptorsMoveDataAndPortsTakeTurns_5 :
    ∃ s : State, ∃ c : Nat, ∃ ws : List DWord, s.dma.length = 32 ∧ c < 32 ∧ s.chanState c = 2 ∧ (s.chan c).ringHbm = false ∧
      ws.length = 4 ∧ (s.chan c).fetch = true ∧ (dmaDesc ws).own = true ∧ (dmaDesc ws).typ = 1 ∧ (s.chan c).links = 4 :=
  ⟨channel none 4, 31, descriptor 64 0 0 1 true, by decide +kernel⟩

theorem witness_descriptorsMoveDataAndPortsTakeTurns_6 :
    ∃ s : State, ∃ c : Nat, ∃ (ws : List DWord) (host : List Byte), s.dma.length = 32 ∧ c < 32 ∧ s.chanState c = 2 ∧
      (s.chan c).ringHbm = false ∧ (s.chan c).desc = some ws ∧ (s.chan c).served = true ∧ (dmaDesc ws).srcHbm = false ∧
      (dmaDesc ws).dstHbm = true ∧ (dmaDesc ws).dstFixed = false ∧ host.length = (dmaDesc ws).len ∧ 0 < (dmaDesc ws).len ∧
      PlainWrite s (dmaDesc ws).dst (dmaDesc ws).len :=
  ⟨(channel (some (descriptor 0 0x1000000 24 16 true)) 0).setChan 31 { chanReset with desc := some (descriptor 0 0x1000000 24 16 true), served := true },
   31, descriptor 0 0x1000000 24 16 true, List.replicate 24 0#8, by decide +kernel, by decide +kernel, by decide +kernel,
   by decide +kernel, by decide +kernel, by decide +kernel, by decide +kernel, by decide +kernel, by decide +kernel, by decide +kernel,
   by decide +kernel, by unfold PlainWrite; decide +kernel⟩

theorem witness_descriptorsMoveDataAndPortsTakeTurns_7 :
    ∃ s : State, ∃ c : Nat, ∃ (ws : List DWord) (host : List Byte), s.dma.length = 32 ∧ c < 32 ∧ s.chanState c = 2 ∧
      (s.chan c).ringHbm = false ∧ (s.chan c).desc = some ws ∧ (s.chan c).served = true ∧ (dmaDesc ws).srcHbm = true ∧
      (dmaDesc ws).dstHbm = false ∧ (dmaDesc ws).srcFixed = false ∧ (dmaDesc ws).dstFixed = false ∧ 0 < (dmaDesc ws).len ∧
      (dmaDesc ws).src + (dmaDesc ws).len ≤ hbmSize ∧ PlainRead s 10 (dmaDesc ws).src (dmaDesc ws).len :=
  ⟨(channel (some (descriptor 0 0x1000 24 8 true)) 0).setChan 31 { chanReset with desc := some (descriptor 0 0x1000 24 8 true), served := true },
   31, descriptor 0 0x1000 24 8 true, [], by decide +kernel, by decide +kernel, by decide +kernel, by decide +kernel, by decide +kernel,
   by decide +kernel, by decide +kernel, by decide +kernel, by decide +kernel, by decide +kernel, by decide +kernel, by decide +kernel,
   by unfold PlainRead; decide +kernel⟩

theorem witness_descriptorsMoveDataAndPortsTakeTurns_8 :
    ∃ s : State, ∃ c : Nat, ∃ (ws : List DWord) (host : List Byte), s.dma.length = 32 ∧ c < 32 ∧ s.chanState c = 2 ∧
      (s.chan c).ringHbm = false ∧ (s.chan c).desc = some ws ∧ (s.chan c).served = true ∧ (dmaDesc ws).srcHbm = false ∧ host = [] :=
  ⟨(channel (some (descriptor 0 0x1000000 24 16 true)) 0).setChan 31 { chanReset with desc := some (descriptor 0 0x1000000 24 16 true), served := true },
   31, descriptor 0 0x1000000 24 16 true, [], by decide +kernel⟩

theorem witness_descriptorsMoveDataAndPortsTakeTurns_9 :
    ∃ s : State, ∃ q : Nat, ∃ (waiting : List HbmRequest), ∃ p r0, ∃ i : Nat, q < 128 ∧ waiting.all requestWf = true ∧
      (∀ x ∈ waiting, mayIssue s x = true) ∧ refState s q < 2 ∧ s.burstOn q = false ∧ waiting.find? (fun x => x.port == p) = some r0 ∧
      (∀ r ∈ (waiting.map HbmRequest.port), effectivePrio s q r ≤ effectivePrio s q p) ∧ i < 16 ∧
      (∀ j < i, (sparseGet (fun _ => 0) q s.arb.pointers + j) % 16 ∉ (waiting.map HbmRequest.port) ∨ effectivePrio s q ((sparseGet (fun _ => 0) q s.arb.pointers + j) % 16) < effectivePrio s q p) ∧
      p = (sparseGet (fun _ => 0) q s.arb.pointers + i) % 16 :=
  ⟨State.reset, 127,
   [{ port := 15, wait := 8, read := false, activates := true }, { port := 14, wait := 4, read := true, activates := true }], 14,
   { port := 14, wait := 4, read := true, activates := true }, 14, by decide +kernel⟩

theorem witness_descriptorsMoveDataAndPortsTakeTurns_10 :
    ∃ s : State, ∃ q : Nat, ∃ (waiting : List HbmRequest), ∃ b r0, q < 128 ∧ waiting.all requestWf = true ∧
      (∀ x ∈ waiting, mayIssue s x = true) ∧ refState s q < 3 ∧ s.burstAt q = some b ∧ waiting.find? (fun x => x.port == b.port) = some r0 :=
  ⟨{ State.reset with arb := { State.reset.arb with bursts := [{ q := 127, port := 15, left := 3, begun := true }] } }, 127,
   [{ port := 15, wait := 8, read := false, activates := true }], { q := 127, port := 15, left := 3, begun := true },
   { port := 15, wait := 8, read := false, activates := true }, by decide +kernel⟩

theorem witness_descriptorsMoveDataAndPortsTakeTurns_11 :
    ∃ s : State, ∃ q : Nat, ∃ (waiting : List HbmRequest), q < 128 ∧ waiting.all requestWf = true ∧ (∀ x ∈ waiting, mayIssue s x = true) ∧
      refState s q = 2 ∧ s.burstOn q = false :=
  ⟨put [(F.HBM_CTL_REF_PRESS, 0)] { State.reset with clock := 4000 * ticksPerNs, mem := { State.reset.mem with debtFrom := List.replicate 128 0 } },
   127, [{ port := 15, wait := 8, read := false, activates := true }], by decide +kernel⟩

theorem witness_descriptorsMoveDataAndPortsTakeTurns_12 :
    ∃ s : State, ∃ q : Nat, ∃ (waiting : List HbmRequest), q < 128 ∧ waiting.all requestWf = true ∧ (∀ x ∈ waiting, mayIssue s x = true) ∧
      refState s q = 3 :=
  ⟨{ State.reset with mem := { State.reset.mem with urgent := [127] } }, 127,
   [{ port := 15, wait := 8, read := false, activates := true }], by decide +kernel⟩

theorem witness_descriptorsMoveDataAndPortsTakeTurns_13 :
    ∃ s : State, ∃ q : Nat, ∃ r : HbmRequest, q < 128 ∧ requestWf r = true ∧ mayIssue s r = false ∧ s.burstOn q = false ∧ refState s q < 3 :=
  ⟨put [(F.ARB_PORT_MAX_OUT 14, 0)] State.reset, 127, { port := 14, wait := 4, read := true, activates := true }, by decide +kernel⟩

theorem witness_descriptorsMoveDataAndPortsTakeTurns_14 :
    ∃ s : State, ∃ waiting : List (Nat × Nat), (∀ x ∈ waiting, x.1 < 128 ∧ x.2 < 16) ∧ s.flag F.ARB_CTL_TDM_EN = false :=
  ⟨put [(F.ARB_CTL_TDM_EN, 0)] State.reset, [(127, 15)], by decide +kernel⟩

theorem witness_descriptorsMoveDataAndPortsTakeTurns_15 :
    ∃ s : State, ∃ waiting : List (Nat × Nat), (∀ x ∈ waiting, x.1 < 128 ∧ x.2 < 16) ∧ s.flag F.ARB_CTL_TDM_EN = true :=
  ⟨put [(F.ARB_CTL_TDM_EN, 1)] State.reset, [(127, 15)], by decide +kernel⟩

theorem witness_linksCarryPacketsAndFailOver_1 :
    ∃ s : State, ∃ k : Nat, ∃ w : DWord, ∃ a p b, s.str.links.length = 4 ∧ k < 4 ∧ s.linkUp k = true ∧ bits 0 8 w.toNat = 0x78 ∧
      (s.link k).queue = [] ∧ (s.link k).unacked = a ++ p :: b ∧ (∀ x ∈ a, x.lseq ≠ bits 8 8 w.toNat) ∧ p.lseq = bits 8 8 w.toNat :=
  ⟨withLink 3 (fun l => { l with unacked := [packet 1 0 5 0 false 0#64] }), 3, linkWord 0 1 1 1, [], packet 1 0 5 0 false 0#64, [],
   by decide +kernel⟩

theorem witness_linksCarryPacketsAndFailOver_2 :
    ∃ s : State, ∃ k : Nat, s.str.links.length = 4 ∧ k < 4 ∧ s.linkUp k = true ∧ (s.link k).unacked ≠ [] :=
  ⟨withLink 3 (fun l => { l with unacked := [packet 1 0 5 0 false 0#64] }), 3, by decide +kernel⟩

theorem witness_linksCarryPacketsAndFailOver_3 :
    ∃ s : State, ∃ k : Nat, ∃ upper : Bool, s.str.links.length = 4 ∧ k < 4 ∧ s.linkUp k = true ∧
      (if upper then (s.link k).lock0 else (s.link k).lock1) = true ∧ (s.link k).primary = (if upper then 1 else 0) :=
  ⟨withLink 3 (fun l => { l with lock0 := true, primary := 1 }), 3, true, by decide +kernel⟩

theorem witness_linksCarryPacketsAndFailOver_4 :
    ∃ s : State, ∃ k : Nat, ∃ upper : Bool, s.str.links.length = 4 ∧ k < 4 ∧ s.linkUp k = true ∧
      (if upper then (s.link k).lock0 else (s.link k).lock1) = false :=
  ⟨linked, 3, true, by decide +kernel⟩

theorem witness_linksCarryPacketsAndFailOver_5 :
    ∃ s : State, ∃ k : Nat, ∃ upper : Bool, ∃ (w : DWord) (inv : Bool), ∃ tw id, s.str.links.length = 4 ∧ k < 4 ∧
      readTrainingWord w = some tw ∧ neighbour s k = some id ∧ s.govFlag F.STR_CTL_ENABLE = true ∧ tw.deviceId = id ∧ tw.rung = 2 ∧
      tw.nextRung = 2 :=
  ⟨linked, 3, true, trainingWord { laneId := 3, rung := 2, nextRung := 2, countdown := 0, deviceId := 192, echoReady := 0 }, false,
   { laneId := 3, rung := 2, nextRung := 2, countdown := 0, deviceId := 192, echoReady := 0 }, 192, by decide +kernel⟩

theorem witness_linksCarryPacketsAndFailOver_6 :
    ∃ s : State, ∃ k : Nat, ∃ upper : Bool, ∃ (w : DWord) (inv : Bool), ∃ tw id, s.str.links.length = 4 ∧ k < 4 ∧
      readTrainingWord w = some tw ∧ neighbour s k = some id ∧ s.govFlag F.STR_CTL_ENABLE = true ∧ tw.deviceId ≠ id ∧ s.linkUp k = false ∧
      (if upper then (s.link k).lock0 else (s.link k).lock1) = false :=
  ⟨(put [(F.STR_LINK_STATUS_STATE 3, 0)] linked), 3, true,
   trainingWord { laneId := 3, rung := 2, nextRung := 2, countdown := 0, deviceId := 5, echoReady := 0 }, false,
   { laneId := 3, rung := 2, nextRung := 2, countdown := 0, deviceId := 5, echoReady := 0 }, 192, by decide +kernel⟩

theorem witness_linksCarryPacketsAndFailOver_7 :
    ∃ s : State, ∃ k : Nat, ∃ vc : Nat, s.str.links.length = 4 ∧ k < 4 ∧ vc < 3 ∧ (s.link k).queue.any (fun p => p.vc == vc) = true ∧
      (s.link k).stalled.contains vc = false :=
  ⟨withLink 3 (fun l => { l with queue := [packet 1 2 5 0 false 0#64] }), 3, 2, by decide +kernel⟩

theorem witness_linksCarryPacketsAndFailOver_8 :
    ∃ s : State, ∃ k : Nat, ∃ ws, s.str.links.length = 4 ∧ k < 4 ∧ readPacket ws = none :=
  ⟨linked, 3, [], by decide +kernel⟩

theorem witness_linksCarryPacketsAndFailOver_9 :
    ∃ s : State, ∃ k : Nat, ∃ ws, ∃ p, s.str.links.length = 4 ∧ k < 4 ∧ readPacket ws = some p ∧ s.linkUp k = true ∧
      p.lseq ≠ (s.link k).rxSeq :=
  ⟨withLink 3 (fun l => { l with rxSeq := 1 }), 3, packetWords (packet 1 0 0 3 false 0#64), packet 1 0 0 3 false 0#64, by decide +kernel⟩

theorem witness_linksCarryPacketsAndFailOver_10 :
    ∃ s : State, ∃ k : Nat, ∃ ws, ∃ p, ∃ x, s.str.links.length = 4 ∧ k < 4 ∧ readPacket ws = some p ∧ s.linkUp k = true ∧
      p.lseq = (s.link k).rxSeq ∧ p.bcast = false ∧ x ∈ [(1, Instr.message k ws), (2, .courseEvent k ws)] ∧ p.typ = x.1 ∧
      p.dest = s.deviceId ∧ s.str.used < 16 :=
  ⟨linked, 3, packetWords (packet 1 0 0 3 false 0#64), packet 1 0 0 3 false 0#64,
   (1, Instr.message 3 (packetWords (packet 1 0 0 3 false 0#64))), by decide +kernel⟩

theorem witness_linksCarryPacketsAndFailOver_11 :
    ∃ s : State, ∃ k : Nat, ∃ ws, ∃ p, ∃ x, s.str.links.length = 4 ∧ k < 4 ∧ readPacket ws = some p ∧ s.linkUp k = true ∧
      p.lseq = (s.link k).rxSeq ∧ p.bcast = false ∧ x ∈ [(1, Instr.message k ws), (2, .courseEvent k ws)] ∧ p.typ = x.1 ∧
      p.dest = s.deviceId ∧ 16 ≤ s.str.used :=
  ⟨{ linked with str := { linked.str with used := 16 } }, 3, packetWords (packet 2 0 0 3 false 0#64), packet 2 0 0 3 false 0#64,
   (2, Instr.courseEvent 3 (packetWords (packet 2 0 0 3 false 0#64))), by decide +kernel⟩

theorem witness_linksCarryPacketsAndFailOver_12 :
    ∃ s : State, ∃ k : Nat, ∃ ws, ∃ p, ∃ x, ∃ out vc, s.str.links.length = 4 ∧ k < 4 ∧ readPacket ws = some p ∧ s.linkUp k = true ∧
      p.lseq = (s.link k).rxSeq ∧ p.bcast = false ∧ x ∈ [(1, Instr.message k ws), (2, .courseEvent k ws)] ∧ p.typ = x.1 ∧
      p.dest ≠ s.deviceId ∧ routeOf s p.dest p.vc (some (k / 2)) = some (out, vc) ∧ LinkFree s out vc :=
  ⟨linked, 3, packetWords (packet 1 0 3 5 false 0#64), packet 1 0 3 5 false 0#64,
   (1, Instr.message 3 (packetWords (packet 1 0 3 5 false 0#64))), 0, 0, by unfold LinkFree; decide +kernel⟩

theorem witness_linksCarryPacketsAndFailOver_13 :
    ∃ s : State, ∃ k : Nat, ∃ ws, ∃ p, ∃ x, ∃ out vc, s.str.links.length = 4 ∧ k < 4 ∧ readPacket ws = some p ∧ s.linkUp k = true ∧
      p.lseq = (s.link k).rxSeq ∧ p.bcast = false ∧ x ∈ [(1, Instr.message k ws), (2, .courseEvent k ws)] ∧ p.typ = x.1 ∧
      p.dest ≠ s.deviceId ∧ routeOf s p.dest p.vc (some (k / 2)) = some (out, vc) ∧ s.linkUp out = false :=
  ⟨put [(F.STR_LINK_STATUS_STATE 0, 0)] linked, 3, packetWords (packet 1 0 3 5 false 0#64), packet 1 0 3 5 false 0#64,
   (1, Instr.message 3 (packetWords (packet 1 0 3 5 false 0#64))), 0, 0, by decide +kernel⟩

theorem witness_linksCarryPacketsAndFailOver_14 :
    ∃ s : State, ∃ k : Nat, ∃ dest len, ∃ out vc, s.str.links.length = 4 ∧ k < 4 ∧ dest < 4096 ∧ len < 256 ∧ s.txBusy = false ∧
      routeOf s dest 0 none = some (out, vc) ∧ LinkFree s out vc :=
  ⟨linked, 3, 3, 255, 0, 0, by unfold LinkFree; decide +kernel⟩

theorem witness_regattaTimeTokensAndReadys_1 :
    ∃ s : State, ∃ k : Nat, ∃ ws p, s.str.links.length = 4 ∧ k < 4 ∧ readPacket ws = some p ∧ s.linkUp k = true ∧
      p.lseq = (s.link k).rxSeq ∧ p.typ = 3 ∧ s.govFlag F.STR_CTL_MASTER = true :=
  let s := put [(F.STR_CTL_MASTER, 1)] linked
  ⟨{ s with inf := s.regs }, 3, packetWords (packet 3 2 0 1 true 1#64), packet 3 2 0 1 true 1#64, by decide +kernel⟩

theorem witness_regattaTimeTokensAndReadys_2 :
    ∃ s : State, ∃ k : Nat, ∃ ws p, s.str.links.length = 4 ∧ k < 4 ∧ readPacket ws = some p ∧ s.linkUp k = true ∧
      p.lseq = (s.link k).rxSeq ∧ p.typ = 3 ∧ s.govFlag F.STR_CTL_MASTER = false ∧ bits 0 12 p.p3.toNat ≠ s.deviceId ∧
      s.fget F.STR_STATUS_MASTER_ID = bits 0 12 p.p3.toNat ∧ s.flag F.STR_STATUS_HOLDOVER = false ∧ upstream s = some k ∧ s.running = none :=
  ⟨linked, 0, packetWords (packet 3 2 0 1 true 1#64), packet 3 2 0 1 true 1#64, by decide +kernel⟩

theorem witness_regattaTimeTokensAndReadys_3 :
    ∃ s : State, ∃ k : Nat, ∃ ws p, s.str.links.length = 4 ∧ k < 4 ∧ readPacket ws = some p ∧ s.linkUp k = true ∧
      p.lseq = (s.link k).rxSeq ∧ p.typ = 4 ∧ p.src ≠ s.deviceId ∧ s.str.seen.contains (p.src, p.seq) = true :=
  ⟨{ linked with str := { linked.str with seen := [(3, 9)] } }, 3, packetWords (packet 4 2 0 3 true 0#64), packet 4 2 0 3 true 0#64,
   by decide +kernel⟩

theorem witness_regattaTimeTokensAndReadys_4 :
    ∃ s : State, ∃ k : Nat, ∃ ws p, s.str.links.length = 4 ∧ k < 4 ∧ readPacket ws = some p ∧ s.linkUp k = true ∧
      p.lseq = (s.link k).rxSeq ∧ p.typ = 4 ∧ p.src ≠ s.deviceId ∧ s.str.seen.contains (p.src, p.seq) = false ∧
      p.group = s.gov F.STR_CTL_GROUP ∧ s.running = none :=
  ⟨linked, 3, packetWords (packet 4 2 0 3 true 0#64), packet 4 2 0 3 true 0#64, by decide +kernel⟩

theorem witness_regattaTimeTokensAndReadys_5 :
    ∃ s : State, ∃ k : Nat, ∃ ws p, s.str.links.length = 4 ∧ k < 4 ∧ readPacket ws = some p ∧ s.linkUp k = true ∧
      p.lseq = (s.link k).rxSeq ∧ p.typ = 4 ∧ p.src ≠ s.deviceId ∧ s.str.seen.contains (p.src, p.seq) = false ∧
      p.group = s.gov F.STR_CTL_GROUP ∧ s.haltable = true ∧ s.stk.halted = false ∧ 1 ≤ s.coxState ∧ s.coxState ≤ 3 ∧
      s.stk.next ≤ s.lastStroke :=
  let s := put [(F.COX_STATUS_STATE, 1)] { linked with shape := small, ing := courseRuns.ing }
  ⟨s, 3, packetWords (packet 4 2 0 3 true 0#64), packet 4 2 0 3 true 0#64, by decide +kernel⟩

theorem witness_regattaTimeTokensAndReadys_6 :
    ∃ s : State, ∃ k : Nat, ∃ ws p, s.str.links.length = 4 ∧ k < 4 ∧ readPacket ws = some p ∧ s.linkUp k = true ∧
      p.lseq = (s.link k).rxSeq ∧ p.typ = 5 ∧ p.src ≠ s.deviceId ∧ p.group = s.gov F.STR_CTL_GROUP ∧ s.str.own = none :=
  ⟨linked, 3, packetWords (packet 5 2 0 3 true 100#64), packet 5 2 0 3 true 100#64, by decide +kernel⟩

theorem witness_regattaTimeTokensAndReadys_7 :
    ∃ s : State, ∃ k : Nat, ∃ ws p, ∃ o, s.str.links.length = 4 ∧ k < 4 ∧ readPacket ws = some p ∧ s.linkUp k = true ∧
      p.lseq = (s.link k).rxSeq ∧ p.typ = 5 ∧ p.src ≠ s.deviceId ∧ p.group = s.gov F.STR_CTL_GROUP ∧ s.str.own = some o ∧
      s.str.fixed = none ∧
      s.gov F.STR_GROUP_SIZE_N ≤ ((p.src, (signedOf 64 p.p3.toNat)) :: s.str.readys.filter (fun r => r.1 != p.src)).length + 1 :=
  ⟨{ linked with str := { linked.str with own := some 5 } }, 3, packetWords (packet 5 2 0 3 true 100#64), packet 5 2 0 3 true 100#64, 5,
   by decide +kernel⟩

theorem witness_regattaTimeTokensAndReadys_8 :
    ∃ s : State, ∃ k : Nat, s.str.links.length = 4 ∧ k < 4 ∧ upstream s = some k ∧ s.govFlag F.STR_CTL_ENABLE = true ∧
      s.govFlag F.STR_CTL_MASTER = false ∧ s.flag F.STR_STATUS_HOLDOVER = false ∧ s.str.swapped = false :=
  ⟨linked, 0, by decide +kernel⟩

theorem witness_regattaTimeTokensAndReadys_9 :
    ∃ s : State, ∃ k : Nat, s.str.links.length = 4 ∧ k < 4 ∧ upstream s = some k ∧ s.govFlag F.STR_CTL_ENABLE = true ∧
      s.govFlag F.STR_CTL_MASTER = false ∧ s.flag F.STR_STATUS_HOLDOVER = false ∧ s.str.swapped = true :=
  ⟨{ linked with str := { linked.str with swapped := true } }, 1, by decide +kernel⟩

theorem witness_regattaTimeTokensAndReadys_10 :
    ∃ s : State, ∃ k : Nat, ∃ t0, s.str.links.length = 4 ∧ k < 4 ∧ s.str.holdFrom = some t0 ∧ s.flag F.STR_STATUS_TIME_LOCKED = true ∧
      s.running = none :=
  ⟨{ linked with str := { linked.str with holdFrom := some 5 } }, 3, 5, by decide +kernel⟩

theorem witness_recordsAreWrittenReadAndExported_1 :
    ∃ s : State, ∃ seq i r, s.log.writing = some (seq, i, r) :=
  ⟨{ State.reset with log := { State.reset.log with writing := some (5, 3, queuedRec) } }, 5, 3, queuedRec, by decide +kernel⟩

theorem witness_recordsAreWrittenReadAndExported_2 :
    ∃ s : State, ∃ i, s.logEn = true ∧ s.log.writing = none ∧ s.log.erasing = none ∧ s.log.queue = [] ∧ chooseSlot s.log 1 = some i :=
  ⟨put [(F.LOG_CTL_EN, 1)] State.reset, 0, by decide +kernel⟩

theorem witness_recordsAreWrittenReadAndExported_3 :
    ∃ s : State, ∃ i, s.logEn = true ∧ s.log.writing = none ∧ s.log.erasing = none ∧ s.log.queue = [] ∧
      chooseSlot s.log (s.fget F.LOG_NOTE_CFG_SEV) = some i :=
  ⟨put [(F.LOG_CTL_EN, 1)] State.reset, 0, by decide +kernel⟩

theorem witness_recordsAreWrittenReadAndExported_4 :
    ∃ s : State, s.logEn = false :=
  ⟨put [(F.LOG_CTL_EN, 0)] State.reset, by decide +kernel⟩

theorem witness_recordsAreWrittenReadAndExported_5 :
    ∃ s : State, s.lockOpen = true ∧ s.log.erasing = none ∧ s.log.exporting = none :=
  ⟨unlocked, by decide +kernel⟩

theorem witness_recordsAreWrittenReadAndExported_6 :
    ∃ s : State, s.lockOpen = true ∧ s.log.erasing = none ∧ s.log.exporting.isSome = true :=
  ⟨{ unlocked with log := { State.reset.log with exporting := some exportRun } }, by decide +kernel⟩

theorem witness_recordsAreWrittenReadAndExported_7 :
    ∃ s : State, s.lockOpen = false :=
  ⟨State.reset, by decide +kernel⟩

theorem witness_recordsAreWrittenReadAndExported_8 :
    ∃ s : State, ∃ n, s.log.erasing = some n :=
  ⟨{ State.reset with log := { State.reset.log with erasing := some 5 } }, 5, by decide +kernel⟩

theorem witness_recordsAreWrittenReadAndExported_9 :
    ∃ s : State, ∃ q, s.log.audit = some q :=
  ⟨{ State.reset with log := { State.reset.log with audit := some 5 } }, 5, by decide +kernel⟩

theorem witness_recordsAreWrittenReadAndExported_10 :
    ∃ s : State, (s.log.exporting.isSome || s.log.erasing.isSome) = false ∧
      (s.pair F.LOG_EXP_BASE_LO_ADDR F.LOG_EXP_BASE_HI_ADDR) % 64 = 0 ∧ (s.fget F.LOG_EXP_CAP_RECORDS) ≠ 0 ∧
      s.fencedRange (s.pair F.LOG_EXP_BASE_LO_ADDR F.LOG_EXP_BASE_HI_ADDR) (64 * (s.fget F.LOG_EXP_CAP_RECORDS)) = false :=
  ⟨put [(F.LOG_EXP_CAP_RECORDS, 4)] State.reset, by decide +kernel⟩

theorem witness_recordsAreWrittenReadAndExported_11 :
    ∃ s : State, (s.result R.LOG_EXP_RESULT).vis = none ∧
      ((s.log.exporting.isSome || s.log.erasing.isSome) = true ∨ (s.pair F.LOG_EXP_BASE_LO_ADDR F.LOG_EXP_BASE_HI_ADDR) % 64 ≠ 0 ∨ (s.fget F.LOG_EXP_CAP_RECORDS) = 0 ∨ s.fencedRange (s.pair F.LOG_EXP_BASE_LO_ADDR F.LOG_EXP_BASE_HI_ADDR) (64 * (s.fget F.LOG_EXP_CAP_RECORDS)) = true) :=
  ⟨State.reset, by decide +kernel⟩

theorem witness_recordsAreWrittenReadAndExported_12 :
    ∃ s : State, ∃ x, s.log.exporting = some x ∧ (s.result R.LOG_EXP_RESULT).vis = none ∧
      PlainWrite s x.base (((exportRecs s.log x).take x.cap).flatMap LogRec.bytes).length :=
  ⟨{ hbmUp with log := { State.reset.log with exporting := some exportRun } }, exportRun, by unfold PlainWrite; decide +kernel⟩

theorem witness_demandsTakeTheBeam_1 :
    ∃ (s : State), ∃ (c : Instr) (k : Nat), Demands s c k ∧ bitAt k (s.fget F.SAF_CAUSE_CAUSES) = false ∧ s.running = none ∧
      s.stk.train = none :=
  ⟨State.reset, .hostStop, 1, .inr (.inl ⟨rfl, rfl⟩), by decide +kernel⟩

theorem witness_demandsTakeTheBeam_2 :
    ∃ (s : State), ∃ (c : Instr) (k : Nat), ∃ x, Demands s c k ∧ bitAt k (s.fget F.SAF_CAUSE_CAUSES) = false ∧ s.haltable = true ∧
      s.stk.halted = false ∧ s.stk.train = none ∧ s.stk.commits.find? Committed.fire = some x :=
  ⟨{ courseRuns with stk := { courseRuns.stk with commits := [{ n := 3, t := 50, fire := true }] } }, .hostStop, 1,
   { n := 3, t := 50, fire := true }, .inr (.inl ⟨rfl, rfl⟩), by decide +kernel⟩

theorem witness_demandsTakeTheBeam_3 :
    ∃ (s : State), ∃ (c : Instr) (k : Nat), Demands s c k ∧ bitAt k (s.fget F.SAF_CAUSE_CAUSES) = false ∧ s.haltable = true ∧
      s.stk.halted = false ∧ s.stk.train = none ∧ s.stk.commits.find? Committed.fire = none ∧ s.stk.next ≤ s.lastStroke :=
  ⟨courseRuns, .hostStop, 1, .inr (.inl ⟨rfl, rfl⟩), by decide +kernel⟩

theorem witness_demandsTakeTheBeam_4 :
    ∃ (s : State), ∃ (c : Instr) (k : Nat), Demands s c k ∧ bitAt k (s.fget F.SAF_CAUSE_CAUSES) = true :=
  ⟨demandOn 1 State.reset, .hostStop, 1, .inr (.inl ⟨rfl, rfl⟩), by decide +kernel⟩

theorem witness_demandsTakeTheBeam_5 :
    ∃ (s : State), ∃ bit : Nat, bit < 10 :=
  ⟨State.reset, 9, by decide +kernel⟩

theorem witness_demandsTakeTheBeam_6 :
    ∃ (s : State), s.flag F.SAF_STATUS_BEAM_PERMIT = false :=
  ⟨State.reset, by decide +kernel⟩

theorem witness_clearLockAndProofTest_1 :
    ∃ s : State, s.demanded = true ∧ (∀ c < 19, bitAt c (s.fget F.SAF_CAUSE_CAUSES) = true → causeHolds s c = false) :=
  ⟨demandOn 1 State.reset, by decide +kernel⟩

theorem witness_clearLockAndProofTest_2 :
    ∃ s : State, s.demanded = true ∧ (∃ c < 19, bitAt c (s.fget F.SAF_CAUSE_CAUSES) = true ∧ causeHolds s c = true) :=
  ⟨demandOn 4 State.reset, by decide +kernel⟩

theorem witness_clearLockAndProofTest_3 :
    ∃ s : State, s.coxState = 0 ∧ s.demanded = false ∧ s.saf.keyed = true ∧ s.lockOpen = false :=
  ⟨{ State.reset with saf := { State.reset.saf with keyed := true } }, by decide +kernel⟩

theorem witness_clearLockAndProofTest_4 :
    ∃ s : State, ∃ key : Nat, s.coxState = 0 ∧ s.demanded = false ∧ key < 65536 ∧ key ≠ 0x0A5F ∧ (key ≠ 0xF5A0 ∨ s.saf.keyed = false) :=
  ⟨State.reset, 65535, by decide +kernel⟩

theorem witness_clearLockAndProofTest_5 :
    ∃ s : State, ∃ key : Nat, (s.coxState ≠ 0 ∨ s.demanded = true) ∧ key < 65536 :=
  ⟨put [(F.COX_STATUS_STATE, 1)] State.reset, 65535, by decide +kernel⟩

theorem witness_clearLockAndProofTest_6 :
    ∃ s : State, ∃ t0, s.lockOpen = true ∧ s.saf.openedAt = some t0 :=
  ⟨unlocked, 0, by decide +kernel⟩

theorem witness_clearLockAndProofTest_7 :
    ∃ s : State, ∃ st t0, s.saf.stop = some st ∧ st.begun = some t0 ∧ st.checked = false ∧ (s.safAxis 0).moved = false ∧
      (s.safAxis 1).moved = false :=
  ⟨{ State.reset with saf := { State.reset.saf with stop := some stageStop } }, stageStop, 5, by decide +kernel⟩

theorem witness_clearLockAndProofTest_8 :
    ∃ s : State, ∃ st t0, ∃ a : Nat, s.saf.stop = some st ∧ st.begun = some t0 ∧ st.checked = false ∧ a < 2 ∧ (s.safAxis a).moved = true ∧
      (s.loop a).posOk = false :=
  ⟨{ State.reset with saf := { State.reset.saf with stop := some stageStop, y := { safAxisReset with moved := true } } }, stageStop, 5, 1,
   by decide +kernel⟩

theorem witness_clearLockAndProofTest_9 :
    ∃ s : State, s.flag F.SAF_STATUS_BEAM_PERMIT = false ∧ s.saf.lineStep = none ∧ s.saf.testing = none :=
  ⟨State.reset, by decide +kernel⟩

theorem witness_clearLockAndProofTest_10 :
    ∃ s : State, s.lockOpen = true ∧ s.coxState = 0 ∧ s.saf.testing = none :=
  ⟨unlocked, by decide +kernel⟩

theorem witness_clearLockAndProofTest_11 :
    ∃ s : State, s.lockOpen = true ∧ (s.coxState ≠ 0 ∨ s.saf.testing.isSome = true) ∧ (s.result R.SAF_TEST_RESULT).vis = none :=
  ⟨put [(F.COX_STATUS_STATE, 1)] unlocked, by decide +kernel⟩

theorem witness_clearLockAndProofTest_12 :
    ∃ s : State, ∃ k step, ∃ ok : Bool, step < 256 ∧ s.saf.testing = some k ∧ (s.result R.SAF_TEST_RESULT).vis = none :=
  ⟨{ State.reset with saf := { State.reset.saf with testing := some 3 } }, 3, 255, true, by decide +kernel⟩

theorem witness_powerResetsAndStandby_1 :
    ∃ s : State, s.pwr.job = none ∧ s.pwr.phase = .coldHeld ∧ s.pwr.railEn = false :=
  ⟨{ State.reset with pwr := { State.reset.pwr with phase := .coldHeld, railEn := false } }, by decide +kernel⟩

theorem witness_powerResetsAndStandby_2 :
    ∃ s : State, s.pwr.job = none ∧ s.pwr.phase = .coldHeld ∧ s.pwr.railEn = true :=
  ⟨{ State.reset with pwr := { State.reset.pwr with phase := .coldHeld } }, by decide +kernel⟩

theorem witness_powerResetsAndStandby_3 :
    ∃ s : State, s.pwr.job = none ∧ s.powered = false :=
  ⟨{ State.reset with pwr := { State.reset.pwr with phase := .standby } }, by decide +kernel⟩

theorem witness_powerResetsAndStandby_4 :
    ∃ s : State, ∃ rails : List Nat, s.pwr.job = none ∧ rails.length = 8 ∧ s.powered = true ∧ s.pwr.phase ≠ .coldHeld ∧
      (∀ i < 8, belowWarn s i (rails.getD i 0) = false ∧ belowReset i (rails.getD i 0) = false) ∧
      s.flag F.PWR_STATUS_SUPPLY_WARN = false ∧ s.flag F.PWR_STATUS_TJ_WARN = false :=
  ⟨State.reset, List.replicate 8 4000, by decide +kernel⟩

theorem witness_powerResetsAndStandby_5 :
    ∃ s : State, ∃ rails : List Nat, s.pwr.job = none ∧ rails.length = 8 ∧ s.powered = true ∧ s.pwr.phase ≠ .coldHeld ∧
      rails.getD 3 0 < 520 ∧ 1 ≤ s.pwr.deepRuns.getD 3 0 :=
  ⟨{ State.reset with pwr := { State.reset.pwr with deepRuns := [0, 0, 0, 1, 0, 0, 0, 0] } },
   [4000, 4000, 4000, 519, 4000, 4000, 4000, 4000], by decide +kernel⟩

theorem witness_powerResetsAndStandby_6 :
    ∃ s : State, ∃ temp : Int, s.pwr.job = none ∧ -128 ≤ temp ∧ temp < 128 ∧ s.powered = true ∧ s.pwr.phase ≠ .coldHeld ∧ 112 ≤ temp :=
  ⟨State.reset, 112, by decide +kernel⟩

theorem witness_powerResetsAndStandby_7 :
    ∃ s : State, ∃ temp : Int, s.pwr.job = none ∧ -128 ≤ temp ∧ temp < 128 ∧ s.powered = true ∧ s.pwr.phase ≠ .coldHeld ∧ temp < 112 ∧
      temp < s.fget F.PWR_TJ_WARN_C ∧ s.flag F.PWR_STATUS_SUPPLY_WARN = false ∧ s.pwr.lowRuns.all (fun n => decide (n < 2)) = true :=
  ⟨put [(F.PWR_TJ_WARN_C, 105)] State.reset, 104, by decide +kernel⟩

theorem witness_powerResetsAndStandby_8 :
    ∃ s : State, ∃ temp : Int, s.pwr.job = none ∧ -128 ≤ temp ∧ temp < 128 ∧ s.powered = true ∧ s.pwr.phase = .coldHeld ∧ temp < 95 :=
  ⟨{ State.reset with pwr := { State.reset.pwr with phase := .coldHeld } }, 94, by decide +kernel⟩

theorem witness_powerResetsAndStandby_9 :
    ∃ s : State, s.pwr.job = none ∧ s.absorbs = false :=
  ⟨{ State.reset with pwr := { State.reset.pwr with phase := .running } }, by decide +kernel⟩

theorem witness_powerResetsAndStandby_10 :
    ∃ s : State, s.pwr.job = none ∧ s.pwr.phase = .running :=
  ⟨{ State.reset with pwr := { State.reset.pwr with phase := .running } }, by decide +kernel⟩

theorem witness_powerResetsAndStandby_11 :
    ∃ s : State, ∃ v : Word, ∃ p, s.pwr.job = none ∧ v.toNat % 65536 ≠ 0x5A3C ∧
      p ∈ [(16, Instr.warm v), (17, .cold v), (18, .courseAbort v)] ∧ v.getLsbD p.1 = true :=
  ⟨State.reset, 0x5A3D#32 ||| 0x20000#32, (17, .cold (0x5A3D#32 ||| 0x20000#32)), by decide +kernel⟩

theorem witness_powerResetsAndStandby_12 :
    ∃ s : State, s.pwr.job = none ∧ s.coxState = 0 ∧ s.running = none :=
  ⟨State.reset, by decide +kernel⟩

theorem witness_powerResetsAndStandby_13 :
    ∃ s : State, ∃ wakeN : Bool, s.pwr.job = none ∧ (s.coxState ≠ 0 ∨ s.running.isSome = true ∨ wakeN = false) :=
  ⟨State.reset, false, by decide +kernel⟩

theorem witness_powerResetsAndStandby_14 :
    ∃ s : State, ∃ key : Nat, ∃ go wakeN : Bool, s.pwr.job = none ∧ key < 65536 ∧ (key ≠ 0x5B7A ∨ go = false) :=
  ⟨State.reset, 65535, true, true, by decide +kernel⟩

theorem witness_powerResetsAndStandby_15 :
    ∃ s : State, s.pwr.job = none ∧ s.pwr.phase = .standby :=
  ⟨{ State.reset with pwr := { State.reset.pwr with phase := .standby } }, by decide +kernel⟩

theorem witness_powerResetsAndStandby_16 :
    ∃ s : State, s.pwr.job = none ∧ s.pwr.phase ≠ .standby :=
  ⟨State.reset, by decide +kernel⟩

theorem witness_bootsSlotsAndScan_1 :
    ∃ s : State, ∃ (testOk : Bool) (ms : Nat), ∃ c,
      ((∃ ends, c = Instr.coldBoot testOk ends ms ∧ c.wf = true ∧ s.pwr.phase = .coldBoot) ∨ c = .warmBoot testOk ms ∧ ms ≤ 120 ∧ s.pwr.phase = .warmBoot) ∧
      imageCheck (slotRead s 0) ≠ 0 ∧ imageCheck (slotRead s 1) ≠ 0 :=
  ⟨State.reset, true, 155, .coldBoot true (List.replicate 4 (false, 0)) 155, .inl ⟨_, rfl, by decide +kernel⟩, by decide +kernel⟩

theorem witness_bootsSlotsAndScan_2 :
    ∃ s : State, ∃ slot : Nat, slot < 2 ∧ s.pwr.job = none :=
  ⟨State.reset, 1, by decide +kernel⟩

theorem witness_bootsSlotsAndScan_3 :
    ∃ s : State, ∃ slot : Nat, slot < 2 ∧ s.pwr.job.isSome = true ∧ (s.result R.CFG_JOB_RESULT).vis = none :=
  ⟨{ State.reset with pwr := { State.reset.pwr with job := some (true, 0, 0) } }, 1, by decide +kernel⟩

theorem witness_bootsSlotsAndScan_4 :
    ∃ s : State, ∃ checkOnly slot src, s.pwr.job = some (checkOnly, slot, src) ∧ (s.result R.CFG_JOB_RESULT).vis = none :=
  ⟨{ hbmUp with pwr := { State.reset.pwr with job := some (true, 1, 0x100000) } }, true, 1, 0x100000, by decide +kernel⟩

theorem witness_bootsSlotsAndScan_5 :
    ∃ s : State, ∃ lands cells : List Bool, lands.length = 62 ∧ cells.length = 62 :=
  ⟨State.reset, List.replicate 62 true, List.replicate 62 false, by decide +kernel⟩

theorem witness_bootsSlotsAndScan_6 :
    ∃ s : State, s.coxState = 0 :=
  ⟨State.reset, by decide +kernel⟩

theorem witness_bootsSlotsAndScan_7 :
    ∃ s : State, s.coxState ≠ 0 :=
  ⟨put [(F.COX_STATUS_STATE, 1)] State.reset, by decide +kernel⟩

end Sys2Proof.Tests
end

section
/-! SUPPORT. What a whole access of BAR0 leaves: a command that completes, registers after settling, and a settling in which no bit has
risen (R369). -/

namespace Sys2Proof.Machine

/-- A well-formed command completes with its effect settled. -/
theorem completes_of_wf {c : Instr} {s : State} {P : State → Prop} (f : State → State) (h : exec c s = done c.wf f s)
    (hw : c.wf = true) (hp : P { settle s.begin (f s.begin) with pending := s.pending }) : Completes c s P :=
  completes_of f (by rw [h, hw]) hp

/-- Recording writes registers of the blocks EVT and LOG alone. -/
theorem recorderReg_of_block {a : Nat} (h4 : a / 65536 ≠ 4) (h5 : a / 65536 ≠ 5) : recorderReg a = false := by
  simp [recorderReg]
  omega

/-- A register that recording does not write, after a command. -/
theorem reg_settled (s0 u : State) (q : List Instr) (a : Nat) (h : recorderReg a = false) :
    ({ settle s0 u with pending := q } : State).reg a = u.reg a := settle_reg s0 u a h

/-- A field of such a register after a command. -/
theorem fget_settled (s0 u : State) (q : List Instr) (f : Fld) (h : recorderReg f.addr = false) :
    ({ settle s0 u with pending := q } : State).fget f = u.fget f := settle_fget s0 u f h

/-- A one-bit field of such a register after a command. -/
theorem flag_settled (s0 u : State) (q : List Instr) (f : Fld) (h : recorderReg f.addr = false) :
    ({ settle s0 u with pending := q } : State).flag f = u.flag f := by
  simp only [State.flag, fget_settled s0 u q f h]

/-- An answer changes no part and no register. -/
theorem Frame.answered (ps : List Part) (rs : List Nat) (s : State) (r : Response) : Frame ps rs s { s with resp := r } :=
  Frame.parts _ _ _ _ rfl (fun p _ => by cases p <;> simp [Part.same])

/-- A bit of a field after a write of the field. -/
theorem withField_testBit_inside (lo w v : Nat) (x : Word) (i : Nat) (h : lo + w ≤ 32) (hl : lo ≤ i) (hi : i < lo + w) :
    (withField lo w v x).toNat.testBit i = v.testBit (i - lo) := by
  have hw : i - lo < w := by omega
  have read := fieldOf_testBit lo w (withField lo w v x) (i - lo)
  rw [fieldOf_withField _ _ _ _ h, Nat.testBit_mod_two_pow, Nat.sub_add_cancel hl] at read
  simpa [hw] using read.symm

/-- No bit of any register rises from one state to another. -/
def NoRise (s t : State) : Prop := ∀ a, t.reg a &&& ~~~ s.reg a = 0#32

theorem NoRise.of_regs {s t : State} (h : t.regs = s.regs) : NoRise s t := fun a => by
  simp [State.reg, h]

theorem NoRise.refl (s : State) : NoRise s s := NoRise.of_regs rfl

theorem NoRise.trans {s t u : State} (h : NoRise s t) (k : NoRise t u) : NoRise s u := fun a => by
  have h1 := h a
  have h2 := k a
  ext i hi
  have b1 := congrArg (fun w : Word => w.getLsbD i) h1
  have b2 := congrArg (fun w : Word => w.getLsbD i) h2
  simp [hi] at b1 b2 ⊢
  exact fun hu => b1 (b2 hu)

/-- Where no bit has risen, no member of a source has. -/
theorem risenMembers_of_noRise {s t : State} (h : NoRise s t) (e : EventSource) : risenMembers s t e = [] := by
  simp [risenMembers, h _]

/-- A pass of settling finds no occurrence where no bit has risen and none is forced. -/
theorem settlePass_of_noRise {s t : State} (h : NoRise s t) (hf : t.evt.forced = []) : settlePass s t = t := by
  have same : ({ t with evt := { t.evt with forced := [] } } : State) = t := by rw [← hf]
  have fold : ∀ (l : List EventSource) (u : State), l.foldl (fun u _ => u) u = u := fun l u => by
    induction l <;> simp_all
  simp [settlePass, risenMembers_of_noRise h, hf, same, fold]

/-- Settling writes no register where no bit has risen and no occurrence is forced (R369). -/
theorem settle_regs_of_noRise {s t : State} (h : NoRise s t) (hf : t.evt.forced = []) : (settle s t).regs = t.regs := by
  have h1 := settlePass_of_noRise h hf
  have h2 := settlePass_of_noRise (NoRise.refl t) hf
  unfold settle
  simp only [h1, h2]
  split <;> rfl

end Sys2Proof.Machine
end

section
/-! SUPPORT. Reads of BAR0 (R5, R8 to R10): what a read of one word answers and does. -/

namespace Sys2Proof.Machine

/-- No table word is read where the set of its bytes is empty. -/
theorem readTables_of_no_hit (hit : Nat → Bool) (s : State) (h : ∀ a, hit a = false) : readTables hit s = s := by
  have none : hit = fun _ => false := funext h
  simp [readTables, none]

/-- A read of table words changes nothing where no check bit is wrong (R318). -/
theorem readTables_of_flips_nil (hit : Nat → Bool) (s : State) (h : s.mem.flips = []) : readTables hit s = s := by
  simp [readTables, h]

/-- A read of a word whose check bits are right. -/
theorem readWord_of_tables {a : Nat} {s : State} (h : readTables (s.readsTable a) s = s) :
    readWord a s = ((s.latched a).getD (peek s a), markSeen a (clearRc a (latchHigh a s))) := by
  simp only [readWord, h]

/-- The command of a read: its answer and its effect. -/
theorem readRegOp_one (a : Nat) (s : State) :
    readRegOp a 1 s = { (readWord a s).2 with resp := .data [(readWord a s).1] } := rfl

theorem readRegOp_two (a : Nat) (s : State) :
    readRegOp a 2 s = { (readWord (a + 4) (readWord a s).2).2 with
      resp := .data [(readWord a s).1, (readWord (a + 4) (readWord a s).2).1] } := rfl

/-- A read of up to 1,024 words in BAR0 is well-formed. -/
theorem readWf_intro {a n : Nat} (h4 : a % 4 = 0) (h0 : 0 < n) (hn : n ≤ 1024) (h : a + 4 * n ≤ 0x1000000) :
    readWf ⟨a, n⟩ = true := by
  simp [readWf, h4, h0, hn, h]

/-! ### What a read shows does not rest on the last access -/

@[simp] theorem State.begin_axis (s : State) (a : Nat) : s.begin.axis a = s.axis a := rfl

@[simp] theorem State.begin_adist (s : State) (a : Nat) : s.begin.adist a = s.adist a := by
  unfold State.adist
  rw [State.begin_axis, State.begin_mot, State.begin_fget]

@[simp] theorem State.begin_latched (s : State) (a : Nat) : s.begin.latched a = s.latched a := rfl

theorem peekMot_begin (s : State) (a : Nat) : peekMot s.begin a = peekMot s a := by
  unfold peekMot
  simp only [State.begin_adist, State.begin_axis, State.begin_reg]

theorem peekUnit_begin (s : State) (a : Nat) : peekUnit s.begin a = peekUnit s a := by
  have gen : peekGen s.begin a = peekGen s a := rfl
  have evt : peekEvt s.begin a = peekEvt s a := rfl
  have log : peekLog s.begin a = peekLog s a := rfl
  have link : peekLink s.begin a = peekLink s a := rfl
  have mem : peekMem s.begin a = peekMem s a := rfl
  have ing : peekIng s.begin a = peekIng s a := rfl
  have slz : peekSlz s.begin a = peekSlz s a := rfl
  have ras : peekRas s.begin a = peekRas s a := rfl
  have dos : peekDos s.begin a = peekDos s a := rfl
  have crw : peekCrw s.begin a = peekCrw s a := rfl
  have wak : peekWak s.begin a = peekWak s a := rfl
  have bln : peekBln s.begin a = peekBln s a := rfl
  have stk : peekStk s.begin a = peekStk s a := rfl
  have cox : peekCox s.begin a = peekCox s a := rfl
  have int : peekInt s.begin a = peekInt s a := rfl
  unfold peekUnit
  rw [gen, evt, log, link, mem, ing, slz, ras, dos, crw, wak, bln, stk, cox, int, peekMot_begin]

@[simp] theorem peek_begin (s : State) (a : Nat) : peek s.begin a = peek s a := by
  have entry (i : Nat) : s.begin.mapEntryFull i = s.mapEntryFull i := rfl
  have result (b : Nat) : s.begin.result b = s.result b := rfl
  have word (t : TableId) (b : Nat) : s.begin.tableWord t b a = s.tableWord t b a := by cases t <;> rfl
  simp only [peek, peekUnit_begin, entry, result, word, State.begin_reg]

/-! ### Latches -/

/-- The word that a read of a low word latches (R5). -/
theorem latched_latchHigh_self {a : Nat} (s : State) (h : isLowWord a = true) :
    (latchHigh a s).latched (a + 4) = some (peek s (a + 4)) := by
  simp [latchHigh, h, State.latched]

/-- The other latched words stay (R5). -/
theorem latched_latchHigh_ne {a b : Nat} (s : State) (h : b ≠ a + 4) : (latchHigh a s).latched b = s.latched b := by
  unfold latchHigh
  split
  · have hb : (a + 4 == b) = false := by simpa using fun e => h e.symm
    have kept (p : Nat × Word) : decide ((p.1 != a + 4) = true ∧ (p.1 == b) = true) = (p.1 == b) := by
      by_cases e : p.1 = b
      · simp [e, h]
      · simp [e]
    simp only [State.latched, List.find?_cons, hb, List.find?_filter, kept]
  · rfl

theorem latchHigh_of_not_low {a : Nat} (s : State) (h : isLowWord a = false) : latchHigh a s = s := by
  simp [latchHigh, h]

/-- A read latches a word and nothing more. -/
theorem frame_latchHigh (a : Nat) (s : State) : Frame [.latch] [] s (latchHigh a s) := by
  unfold latchHigh
  split
  · exact Frame.parts _ _ _ _ rfl (fun p hp => by cases p <;> simp_all [Part.same])
  · exact Frame.refl _ _ s

/-- Only the register of a result block that holds VALID marks it seen (R300). -/
theorem markSeen_of_ne {a : Nat} (s : State) (h : resultBase a ≠ some a) : markSeen a s = s := by
  simp [markSeen, h]

/-- The addresses of the low words below the beam map window. -/
def lowAddresses : List Nat :=
  (lowWords.filter (fun p => decide (p.1 < 0x800000))).flatMap (fun p => (List.range p.2.2).map (fun i => p.1 + p.2.1 * i))

/-- A low word is one of those listed, or lies in the beam map window (R5). -/
theorem mem_lowAddresses {a : Nat} (h : isLowWord a = true) : a ∈ lowAddresses ∨ 0x800000 ≤ a := by
  obtain ⟨p, hp, hc⟩ := List.any_eq_true.mp h
  unfold copyOf at hc
  split at hc
  next hcopy =>
    obtain ⟨hle, hmod, hlt⟩ := hcopy
    by_cases hlow : p.1 < 0x800000
    · refine .inl (List.mem_flatMap.mpr ⟨p, by simpa using ⟨hp, hlow⟩, List.mem_map.mpr ⟨(a - p.1) / p.2.1, by simpa using hlt, ?_⟩⟩)
      have := Nat.div_add_mod (a - p.1) p.2.1
      omega
    · exact .inr (by omega)
  next => simp at hc

/-- Every low word outside the window is a register with no RC field, and it holds no VALID. -/
theorem lowAddresses_quiet : ∀ a ∈ lowAddresses,
    (descOf a).any (fun d => d.fields.all (fun f => f.acc != .rc)) = true ∧ resultBase a ≠ some a := by decide +kernel

/-- The offsets of BAR0 above the register blocks hold no register of the table. -/
theorem descOf_window {a : Nat} (h : 0x800000 ≤ a) : descOf a = none := by simp [descOf, h]

/-- A read of an offset that holds no register clears nothing. -/
theorem clearRc_of_hole {a : Nat} (s : State) (h : descOf a = none) : clearRc a s = s := by simp [clearRc, h]

/-- A register without RC fields is not cleared by its read (R10). -/
theorem clearRc_of_no_rc {a : Nat} {d : RegDesc} (s : State) (hd : descOf a = some d) (h : ∀ f ∈ d.fields, f.acc ≠ .rc) :
    clearRc a s = s := by
  have : d.fields.filter (fun f => f.acc == .rc) = [] := by simpa using h
  simp [clearRc, hd, this]

/-- The registers that hold VALID are registers of BAR0 (R300). -/
theorem descOf_result {a : Nat} (h : resultBase a = some a) : descOf a ≠ none := by
  have base : a ∈ [R.SLZ_RESULT, R.BLN_SIDE_RESULT, R.INT_RESULT, R.SRM_CHK_RESULT, R.LOG_EXP_RESULT, R.SAF_TEST_RESULT, R.CFG_JOB_RESULT] := by
    unfold resultBase at h
    split_ifs at h <;> simp_all
  have : ∀ b ∈ [R.SLZ_RESULT, R.BLN_SIDE_RESULT, R.INT_RESULT, R.SRM_CHK_RESULT, R.LOG_EXP_RESULT, R.SAF_TEST_RESULT, R.CFG_JOB_RESULT],
      descOf b ≠ none := by decide +kernel
  exact this a base

/-- A read of a low word does nothing but latch (R5). -/
theorem readWord_of_low {a : Nat} {s : State} (hl : isLowWord a = true) (hf : s.mem.flips = []) :
    readWord a s = ((s.latched a).getD (peek s a), latchHigh a s) := by
  have quiet (u : State) : markSeen a (clearRc a u) = u := by
    rcases mem_lowAddresses hl with hm | hw
    · obtain ⟨hrc, hres⟩ := lowAddresses_quiet a hm
      obtain ⟨d, hd, hall⟩ := (Option.any_eq_true _ _).mp hrc
      rw [clearRc_of_no_rc u hd (by simpa using hall), markSeen_of_ne u hres]
    · rw [clearRc_of_hole u (descOf_window hw), markSeen_of_ne u (fun h => descOf_result h (descOf_window hw))]
  rw [readWord_of_tables (readTables_of_flips_nil _ s hf), quiet]

end Sys2Proof.Machine
end

section
/-! PROOF. The statements on reads and on offsets that hold no register (R5, R8 to R10). -/

namespace Sys2Proof.Machine

/-! ### Holes -/

/-- An offset below the beam map window that holds no register holds no table word (R139, R451). -/
theorem tableAt_of_hole {a : Nat} (hw : a < 0x800000) (h : descOf a = none) : tableAt a = none := by
  simp [tableAt, h, bankPlace, Nat.not_le.mpr hw]

/-- A low word is a register or lies in the beam map window (R5). -/
theorem isLowWord_of_hole {a : Nat} (hw : a < 0x800000) (h : descOf a = none) : isLowWord a = false := by
  rw [Bool.eq_false_iff]
  intro hl
  rcases mem_lowAddresses hl with hm | hge
  · simpa [h] using (lowAddresses_quiet a hm).1
  · omega

/-- A write of an offset that holds no register does nothing (R8). -/
theorem writeReg_of_hole {a : Nat} (hw : a < 0x800000) (h : descOf a = none) (v : Word) (s : State) : writeReg a v s = s := by
  simp [writeReg, tableAt_of_hole hw h, h]

/-- A read of an offset that holds no register answers 0 and does nothing (R8). -/
theorem readWord_of_hole {a : Nat} {s : State} (hw : a < 0x800000) (h : descOf a = none) (hl : s.latched a = none) :
    readWord a s = (0#32, s) := by
  have hp : peek s a = 0#32 := by simp [peek, Nat.not_le.mpr hw, h]
  have hm : resultBase a ≠ some a := fun hr => descOf_result hr h
  rw [readWord_of_tables (readTables_of_no_hit _ s (fun x => by simp [State.readsTable, tableAt_of_hole hw h])),
    latchHigh_of_not_low s (isLowWord_of_hole hw h), clearRc_of_hole s h, markSeen_of_ne s hm, hl, hp, Option.getD_none]

/-- A write of one whole word of BAR0 is the write of its register (R6, R334). -/
theorem registerWriteOp_word (a : Nat) (v : Word) (s : State) : registerWriteOp a [⟨15, v⟩] s = writeReg a v s := rfl

/-- The write of one whole word in BAR0 is well-formed. -/
theorem registerWrite_wf {a : Nat} (v : Word) (h4 : a % 4 = 0) (h : a + 4 ≤ 0x1000000) : (Instr.registerWrite a [⟨15, v⟩]).wf = true := by
  simp [Instr.wf, h4, h]

/-- Settles O9: a hole is no register, no table word, no low word and no result block, so neither access finds anything to do. -/
theorem holesReadZeroAndIgnoreWrites : Obligations.HolesReadZeroAndIgnoreWrites := by
  unfold Obligations.HolesReadZeroAndIgnoreWrites
  intro s a v h4 hw hd hl
  refine ⟨completes_of_wf _ rfl (registerWrite_wf v h4 (by omega)) (Frame.settled _ ?_),
    completes_of_wf _ rfl (readWf_intro h4 (by omega) (by omega) (by omega)) ?_⟩
  · rw [registerWriteOp_word, writeReg_of_hole hw hd]
    exact Frame.refl _ _ _
  · rw [readRegOp_one, readWord_of_hole hw hd (by simpa using hl)]
    refine ⟨by simp, Frame.settled _ (Frame.answered _ _ _ _)⟩

/-! ### Low words -/

/-- The state after the read of a low word, settled: what is latched. -/
theorem latched_settled (s0 u : State) (q : List Instr) (r : Response) (b : Nat) :
    ({ settle s0 { u with resp := r } with pending := q } : State).latched b = u.latched b := by
  simp [State.latched]

/-- The answer to a read of one word whose check bits are right: what is latched, or the live value (R5). -/
theorem readWord_answer {a : Nat} {s : State} (hf : s.mem.flips = []) : (readWord a s).1 = (s.latched a).getD (peek s a) := by
  rw [readWord_of_tables (readTables_of_flips_nil _ s hf)]

/-- Settles O11: a low word's read does nothing but latch the next word, and a read answers what is latched before the live value. -/
theorem lowWordReadLatches : Obligations.LowWordReadLatches := by
  unfold Obligations.LowWordReadLatches
  intro s a h4 ha hf
  have wf1 : (Instr.lowWordRead ⟨a, 1⟩).wf = true := readWf_intro h4 (by omega) (by omega) (by omega)
  have flips : s.begin.mem.flips = [] := by simpa using hf
  refine ⟨fun hlow hnone => ?_, fun w hw => ?_, fun hnone => ?_, fun hlow hnone h8 => ?_⟩
  · refine completes_of_wf _ rfl wf1 ?_
    rw [readRegOp_one, readWord_of_low hlow flips]
    refine ⟨by simp [hnone], ?_, fun b hb => ?_, Frame.settled _ ?_⟩
    · rw [latched_settled, latched_latchHigh_self _ hlow, peek_begin]
    · rw [latched_settled, latched_latchHigh_ne _ hb, State.begin_latched]
    · exact (frame_latchHigh a _).trans (Frame.answered _ _ _ _)
  · refine completes_of_wf _ rfl wf1 ?_
    rw [readRegOp_one, readWord_answer flips]
    simp [hw]
  · refine completes_of_wf _ rfl wf1 ?_
    rw [readRegOp_one, readWord_answer flips]
    simp [hnone]
  · refine completes_of_wf _ rfl (readWf_intro h4 (by omega) (by omega) (by omega)) ?_
    have flips1 : (latchHigh a s.begin).mem.flips = [] := by
      have := (frame_latchHigh a s.begin).1 .mem (by simp)
      rw [this, flips]
    rw [readRegOp_two, readWord_of_low hlow flips, readWord_answer flips1, latched_latchHigh_self _ hlow]
    simp [hnone]

/-! ### Fields that a read clears -/

/-- Whether a register's fields lie in 32 bits and no two share a bit (R4, R7). -/
def RegDesc.fieldsApart (d : RegDesc) : Bool :=
  d.fields.all (fun f => decide (f.lo + f.width ≤ 32)
    && d.fields.all (fun g => f == g || decide (f.lo + f.width ≤ g.lo ∨ g.lo + g.width ≤ f.lo)))

/-- The fields of every register of the block tables lie apart. -/
theorem blockTable_fieldsApart : ∀ b < 23, ∀ d ∈ blockTable b, d.fieldsApart = true := by decide +kernel

/-- The register blocks end at number 22 (R451). -/
theorem blockTable_of_ge {b : Nat} (h : 23 ≤ b) : blockTable b = [] := by
  obtain ⟨k, rfl⟩ := Nat.exists_eq_add_of_le' h
  rfl

/-- The fields of every register lie apart. -/
theorem descOf_fieldsApart {a : Nat} {d : RegDesc} (h : descOf a = some d) : d.fieldsApart = true := by
  unfold descOf at h
  split at h
  · cases h
  · have hm := List.mem_of_find?_eq_some h
    by_cases hb : a / 65536 < 23
    · exact blockTable_fieldsApart _ hb d hm
    · simp [blockTable_of_ge (Nat.not_lt.mp hb)] at hm

/-- Fields of one register cleared one after another. -/
def clearFields (a : Nat) (fs : List FieldDesc) (s : State) : State := fs.foldl (fun t f => t.fset (.mk a f.lo f.width) 0) s

/-- The read of a register clears its RC fields (R10). -/
theorem clearRc_eq {a : Nat} {d : RegDesc} (s : State) (h : descOf a = some d) :
    clearRc a s = clearFields a (d.fields.filter (fun f => f.acc == .rc)) s := by
  simp [clearRc, clearFields, h]

/-- Clearing fields of a register writes that register alone. -/
theorem frame_clearFields (a : Nat) (fs : List FieldDesc) (s : State) : Frame [] [a] s (clearFields a fs s) :=
  Frame.foldl _ fs (fun t f _ => Frame.fset _ _ t _ _ (by simp)) s

/-- A field stays where none of the fields cleared shares a bit with it. -/
theorem fget_clearFields_apart {a lo width : Nat} {fs : List FieldDesc}
    (h : ∀ g ∈ fs, lo + width ≤ g.lo ∨ g.lo + g.width ≤ lo) (s : State) :
    (clearFields a fs s).fget ⟨a, lo, width⟩ = s.fget ⟨a, lo, width⟩ := by
  induction fs generalizing s with
  | nil => rfl
  | cons g t ih =>
    rw [show clearFields a (g :: t) s = clearFields a t (s.fset ⟨a, g.lo, g.width⟩ 0) from rfl,
      ih (fun x hx => h x (by simp [hx])), State.fget_fset_other _ _ _ _ (.inr (by simpa using h g (by simp)))]

/-- A field among those cleared reads 0, where each of the others is the same or shares no bit with it. -/
theorem fget_clearFields_mem {a : Nat} {f : FieldDesc} {fs : List FieldDesc} (hm : f ∈ fs) (h32 : f.lo + f.width ≤ 32)
    (h : ∀ g ∈ fs, f = g ∨ f.lo + f.width ≤ g.lo ∨ g.lo + g.width ≤ f.lo) (s : State) :
    (clearFields a fs s).fget ⟨a, f.lo, f.width⟩ = 0 := by
  have zero (t : State) : (t.fset ⟨a, f.lo, f.width⟩ 0).fget ⟨a, f.lo, f.width⟩ = 0 := by
    rw [State.fget_fset_self _ _ _ h32, Nat.zero_mod]
  have stays : ∀ (gs : List FieldDesc) (t : State), (∀ g ∈ gs, f = g ∨ f.lo + f.width ≤ g.lo ∨ g.lo + g.width ≤ f.lo) →
      t.fget ⟨a, f.lo, f.width⟩ = 0 → (clearFields a gs t).fget ⟨a, f.lo, f.width⟩ = 0 := by
    intro gs
    induction gs with
    | nil => exact fun t _ h0 => h0
    | cons g gs ih =>
      intro t hg h0
      refine ih (t.fset ⟨a, g.lo, g.width⟩ 0) (fun x hx => hg x (by simp [hx])) ?_
      rcases hg g (by simp) with rfl | hd
      · exact zero t
      · rw [State.fget_fset_other _ _ _ _ (.inr (by simpa using hd)), h0]
  obtain ⟨l, r, rfl⟩ := List.append_of_mem hm
  rw [show clearFields a (l ++ f :: r) s = clearFields a r ((clearFields a l s).fset ⟨a, f.lo, f.width⟩ 0) by
    simp [clearFields]]
  exact stays r _ (fun g hg => h g (by simp [hg])) (zero _)

/-- Clearing a field raises no bit. -/
theorem noRise_fset_zero (s : State) (f : Fld) (h : f.lo + f.width ≤ 32) : NoRise s (s.fset f 0) := by
  intro a
  by_cases ha : a = f.addr
  · subst ha
    rw [State.reg_fset_self]
    ext i hi
    simp only [BitVec.getElem_and, BitVec.getElem_not, BitVec.getElem_zero, Bool.and_eq_false_imp, Bool.not_eq_false']
    intro hbit
    rw [BitVec.getElem_eq_testBit_toNat] at hbit ⊢
    by_cases hin : f.lo ≤ i ∧ i < f.lo + f.width
    · simp [withField_testBit_inside _ _ _ _ _ h hin.1 hin.2] at hbit
    · rwa [withField_testBit _ _ _ _ _ (by omega)] at hbit
  · rw [State.reg_fset_ne _ _ _ _ ha]
    exact NoRise.refl s a

/-- Clearing fields raises no bit. -/
theorem noRise_clearFields {a : Nat} {fs : List FieldDesc} (h : ∀ f ∈ fs, f.lo + f.width ≤ 32) (s : State) :
    NoRise s (clearFields a fs s) := by
  induction fs generalizing s with
  | nil => exact NoRise.refl s
  | cons f t ih =>
    exact (noRise_fset_zero s _ (h f (by simp))).trans (ih (fun g hg => h g (by simp [hg])) _)

/-- Clearing fields forces no event. -/
theorem clearFields_evt (a : Nat) (fs : List FieldDesc) (s : State) : (clearFields a fs s).evt = s.evt := by
  induction fs generalizing s with
  | nil => rfl
  | cons f t ih => exact ih _

/-- Settles O12: the read clears the RC fields and nothing else, no two fields share a bit, and a cleared bit is no occurrence. -/
theorem readClearsRcFields : Obligations.ReadClearsRcFields := by
  unfold Obligations.ReadClearsRcFields
  intro s a d h4 hd hl hr hlow hf
  have hlt : a < 0x800000 := by
    by_contra hge
    simp [descOf_window (Nat.not_lt.mp hge)] at hd
  have apart := descOf_fieldsApart hd
  simp only [RegDesc.fieldsApart, List.all_eq_true, Bool.and_eq_true, Bool.or_eq_true, decide_eq_true_eq, beq_iff_eq] at apart
  refine completes_of_wf _ rfl (readWf_intro h4 (by omega) (by omega) (by omega)) ?_
  rw [readRegOp_one, readWord_of_tables (readTables_of_flips_nil _ _ (by simpa using hf)), latchHigh_of_not_low _ hlow,
    clearRc_eq _ hd, markSeen_of_ne _ (by simp [hr])]
  dsimp only
  generalize hrc : d.fields.filter (fun f => f.acc == .rc) = rc
  have mem_rc {f : FieldDesc} : f ∈ rc ↔ f ∈ d.fields ∧ f.acc = .rc := by simp [← hrc]
  have regs (r : Response) : (settle s.begin { clearFields a rc s.begin with resp := r }).regs = (clearFields a rc s.begin).regs :=
    settle_regs_of_noRise
      ((noRise_clearFields (fun f h => (apart f (mem_rc.mp h).1).1) s.begin).trans (NoRise.of_regs rfl))
      (by rw [clearFields_evt]; rfl)
  have field (r : Response) (f : Fld) :
      ({ settle s.begin { clearFields a rc s.begin with resp := r } with pending := s.pending } : State).fget f =
        (clearFields a rc s.begin).fget f := by
    simp only [State.fget, State.reg, regs]
  refine ⟨by simp [hl], fun f hm hacc => ?_, fun f hm hacc => ?_, Frame.settled _ ?_⟩
  · rw [field]
    exact fget_clearFields_mem (mem_rc.mpr ⟨hm, hacc⟩) (apart f hm).1 (fun g hg => (apart f hm).2 g (mem_rc.mp hg).1) _
  · rw [field, fget_clearFields_apart (fun g hg => ?_), State.begin_fget]
    rcases (apart f hm).2 g (mem_rc.mp hg).1 with rfl | h
    · exact absurd (mem_rc.mp hg).2 hacc
    · exact h
  · exact (frame_clearFields a rc _).trans (Frame.answered _ _ _ _)

end Sys2Proof.Machine
end

section
/-! PROOF. REGISTER_WRITE by the access code of the field (R9, R11, R334, R402). -/

namespace Sys2Proof.Machine

/-- A register that a write stores field by field, and that no unit acts on. -/
def PlainReg (a : Nat) : Prop :=
  tableAt a = none ∧ (∀ v s, writeSpecial a v s = none) ∧ a ≠ R.STR_CTL ∧ copyOf (R.MOT_AX_CTL 0) 256 2 a = none ∧
    copyOf (R.DMA_CH_CTL 0) 64 32 a = none ∧ ∀ v s, act a v s = s

/-- A write of such a register stores its fields, and one that meets a closed LCK field is a violation (R9, R11, R402). -/
theorem writePlain_of_plainReg {a : Nat} (h : PlainReg a) (d : RegDesc) (v : Word) (s : State) :
    writePlain d a v s = if meetsLock s d a then lockViolation (storeFields d a v s) else storeFields d a v s := by
  obtain ⟨-, -, hstr, hmot, hdma, hact⟩ := h
  simp only [writePlain, if_neg hstr, hmot, hdma, hact]

/-- A write of such a register outside the block of the safety controller. -/
theorem writeReg_of_plainReg {a : Nat} {d : RegDesc} (h : PlainReg a) (hd : descOf a = some d) (hb : a / 65536 ≠ 3)
    (hl : ∀ f ∈ d.fields, accessOf d a f ≠ .lck) (v : Word) (s : State) : writeReg a v s = storeFields d a v s := by
  have free : meetsLock s d a = false := by simpa [meetsLock] using fun _ => hl
  obtain ⟨ht, hspecial, -⟩ := id h
  simp only [writeReg, ht, hd, hb, false_and, if_false, hspecial, Option.getD_none, writePlain_of_plainReg h, free,
    Bool.false_eq_true]

/-- A write of such a register in the block of the safety controller is no first key (R401). -/
theorem writeReg_of_plainReg_saf {a : Nat} {d : RegDesc} (h : PlainReg a) (hd : descOf a = some d) (hb : a / 65536 = 3)
    (hk : a ≠ R.SAF_LOCK) (v : Word) (s : State) :
    writeReg a v s = if meetsLock (unkey s) d a then lockViolation (storeFields d a v (unkey s)) else storeFields d a v (unkey s) := by
  obtain ⟨ht, hspecial, -⟩ := id h
  simp only [writeReg, ht, hd, hb, hk, ne_eq, not_false_eq_true, and_self, if_true, hspecial, Option.getD_none, writePlain_of_plainReg h]

/-! ### The registers of the statement -/

/-- The bits of one-bit fields as a mask. -/
def bitMask (fs : List FieldDesc) : Word := fs.foldr (fun f m => BitVec.twoPow 32 f.lo ||| m) 0#32

theorem plainReg_staging {i : Nat} (hi : i < 16) : PlainReg (R.ING_CQ_DESC i) := by
  interval_cases i <;> exact ⟨rfl, fun _ _ => rfl, by decide, rfl, rfl, fun _ _ => rfl⟩

theorem plainReg_ingEvents : PlainReg R.ING_EVENTS := ⟨rfl, fun _ _ => rfl, by decide, rfl, rfl, fun _ _ => rfl⟩

theorem plainReg_ingStatus : PlainReg R.ING_STATUS := ⟨rfl, fun _ _ => rfl, by decide, rfl, rfl, fun _ _ => rfl⟩

theorem plainReg_stopFilter : PlainReg R.SAF_STOP_FILTER := ⟨rfl, fun _ _ => rfl, by decide, rfl, rfl, fun _ _ => rfl⟩

theorem descOf_staging {i : Nat} (hi : i < 16) :
    descOf (R.ING_CQ_DESC i) = some ⟨"ING_CQ_DESC", R.ING_CQ_DESC 0, [(0x4, 16)], [⟨0, 32, .rw, .i, 0, 0, 0xFFFFFFFF⟩]⟩ := by
  interval_cases i <;> rfl

theorem descOf_ingEvents : ∃ d, descOf R.ING_EVENTS = some d ∧ bitMask d.fields = 63#32 ∧
    ∀ f ∈ d.fields, accessOf d R.ING_EVENTS f = .w1c ∧ f.width = 1 ∧ f.lo < 32 :=
  ⟨_, rfl, by decide, by decide⟩

theorem descOf_ingStatus : ∃ d, descOf R.ING_STATUS = some d ∧ ∀ f ∈ d.fields, accessOf d R.ING_STATUS f = .ro :=
  ⟨_, rfl, by decide⟩

theorem descOf_stopFilter :
    descOf R.SAF_STOP_FILTER = some ⟨"SAF_STOP_FILTER", R.SAF_STOP_FILTER, [], [⟨0, 11, .lck, .i, 500, 100, 1500⟩]⟩ := rfl

/-! ### What a write stores in them -/

/-- A field of all 32 bits is the word. -/
theorem withField_word (v w : Word) : withField 0 32 v.toNat w = v := by
  have hv : v.toNat < 4294967296 := v.isLt
  have hw : w.toNat < 4294967296 := w.isLt
  apply BitVec.eq_of_toNat_eq
  simp [withField, Nat.mod_one, Nat.div_eq_of_lt hw, hv]

/-- A staging word takes the value written (R9). -/
theorem storeFields_staging {i : Nat} (hi : i < 16) {d : RegDesc} (hd : descOf (R.ING_CQ_DESC i) = some d) (v : Word) (s : State) :
    storeFields d (R.ING_CQ_DESC i) v s = s.setReg (R.ING_CQ_DESC i) v := by
  have hv := v.isLt
  have gate : R.ING_CQ_DESC i ≠ R.STK_GATE := by simp only [R.ING_CQ_DESC, R.STK_GATE]; omega
  have depth : R.ING_CQ_DESC i ≠ R.STK_DEPTH := by simp only [R.ING_CQ_DESC, R.STK_DEPTH]; omega
  obtain rfl := Option.some.inj ((descOf_staging hi).symm.trans hd)
  have x : min 0xFFFFFFFF (fieldOf 0 32 v) = v.toNat := by
    simp only [fieldOf, pow_zero, Nat.div_one]
    omega
  simp [storeFields, writeField, boundsOf, gate, depth, accessOf, x, withField_word]

/-- A W1C field of one bit after a write (R9). -/
theorem withField_w1c (i : Nat) (hi : i < 32) (v w : Word) :
    withField i 1 (fieldOf i 1 (w &&& ~~~v)) w = w &&& ~~~(v &&& BitVec.twoPow 32 i) := by
  apply BitVec.eq_of_getLsbD_eq
  intro j hj
  rw [← BitVec.testBit_toNat]
  by_cases h : j = i
  · subst h
    rw [withField_testBit_inside _ _ _ _ _ (by omega) (by omega) (by omega), fieldOf_testBit, BitVec.testBit_toNat]
    simp [hj]
  · rw [withField_testBit _ _ _ _ _ (by omega), BitVec.testBit_toNat]
    simp [hj, h]

/-- Bits cleared one after another. -/
theorem and_not_and_not (w v a b : Word) : w &&& ~~~(v &&& a) &&& ~~~(v &&& b) = w &&& ~~~(v &&& (a ||| b)) := by
  ext j hj
  simp
  cases w[j] <;> cases v[j] <;> simp

/-- One-bit W1C fields of a register after a write: the bits written as 1 are cleared (R9). -/
theorem storeFields_w1c {d : RegDesc} {a : Nat} (h : ∀ f ∈ d.fields, accessOf d a f = .w1c ∧ f.width = 1 ∧ f.lo < 32) (v : Word) (s : State) :
    storeFields d a v s = s.setReg a (s.reg a &&& ~~~(v &&& bitMask d.fields)) := by
  have fold : ∀ (fs : List FieldDesc) (w : Word), (∀ f ∈ fs, accessOf d a f = .w1c ∧ f.width = 1 ∧ f.lo < 32) →
      fs.foldl (writeField s d a v) w = w &&& ~~~(v &&& bitMask fs) := by
    intro fs
    induction fs with
    | nil => exact fun w _ => by rw [List.foldl_nil, bitMask, List.foldr_nil, BitVec.and_zero, BitVec.not_zero, BitVec.and_allOnes]
    | cons f fs ih =>
      intro w hf
      obtain ⟨hacc, hwidth, hlo⟩ := hf f (by simp)
      have one : writeField s d a v w f = w &&& ~~~(v &&& BitVec.twoPow 32 f.lo) := by
        simp only [writeField, hacc, hwidth, withField_w1c f.lo hlo]
      rw [List.foldl_cons, ih _ (fun g hg => hf g (by simp [hg])), one, and_not_and_not]
      rfl
  rw [storeFields, fold _ _ h]

/-- A write of a register with RO fields alone leaves its word (R9). -/
theorem storeFields_ro {d : RegDesc} {a : Nat} (h : ∀ f ∈ d.fields, accessOf d a f = .ro) (v : Word) (s : State) :
    storeFields d a v s = s.setReg a (s.reg a) := by
  have same : ∀ (fs : List FieldDesc) (w : Word), (∀ f ∈ fs, accessOf d a f = .ro) → fs.foldl (writeField s d a v) w = w := by
    intro fs
    induction fs with
    | nil => exact fun w _ => rfl
    | cons f fs ih =>
      intro w hf
      rw [List.foldl_cons, ih _ (fun g hg => hf g (by simp [hg]))]
      simp [writeField, hf f (by simp)]
  rw [storeFields, same _ _ h]

/-- SAF_STOP_FILTER takes a value within its bounds while the lock is open, and stays while it is closed (R11, R402). -/
theorem storeFields_stopFilter {d : RegDesc} (hd : descOf R.SAF_STOP_FILTER = some d) (v : Word) (s : State) :
    storeFields d R.SAF_STOP_FILTER v s = s.setReg R.SAF_STOP_FILTER
      (if s.lockOpen then withField 0 11 (max 100 (min 1500 (fieldOf 0 11 v))) (s.reg R.SAF_STOP_FILTER) else s.reg R.SAF_STOP_FILTER) := by
  obtain rfl := Option.some.inj (descOf_stopFilter.symm.trans hd)
  rfl

theorem meetsLock_stopFilter {d : RegDesc} (hd : descOf R.SAF_STOP_FILTER = some d) (s : State) :
    meetsLock s d R.SAF_STOP_FILTER = !s.lockOpen := by
  obtain rfl := Option.some.inj (descOf_stopFilter.symm.trans hd)
  exact Bool.and_true _

/-- A register written with the word it holds. -/
theorem frame_setReg_reg (s : State) (a : Nat) : Frame [] [] s (s.setReg a (s.reg a)) := by
  refine ⟨fun p _ => by cases p <;> simp [Part.same], fun b _ _ => ?_⟩
  by_cases h : b = a
  · rw [h, State.reg_setReg_self]
  · rw [State.reg_setReg_ne _ _ _ _ h]

/-! ### The lock (R11, R401, R402) -/

/-- The first key given up touches the safety controller's part alone. -/
theorem frame_unkey (rs : List Nat) (s : State) : Frame [.saf] rs s (unkey s) :=
  Frame.parts _ _ _ _ rfl (fun p hp => by cases p <;> simp_all [Part.same, unkey])

/-- A violation is counted and reported, and nothing else. -/
theorem frame_lockViolation (ps : List Part) (rs : List Nat) (s : State) : Frame ps (R.SAF_LOCK_VIOL :: R.SAF_EVENTS :: rs) s (lockViolation s) :=
  (Frame.bump _ _ _ _ (by simp [F.SAF_LOCK_VIOL_COUNT])).trans (Frame.raise _ _ _ _ (by simp [F.SAF_EVENTS_LOCK_VIOLATION]))

theorem flag_lockViolation (s : State) : (lockViolation s).flag F.SAF_EVENTS_LOCK_VIOLATION = true :=
  State.flag_raise_self _ _ (by decide) (by decide)

/-- The count of violations stops at all ones (R402). -/
theorem fget_lockViolation (s : State) :
    (lockViolation s).fget F.SAF_LOCK_VIOL_COUNT = min (s.fget F.SAF_LOCK_VIOL_COUNT + 1) 0xFFFFFFFF := by
  have apart : F.SAF_LOCK_VIOL_COUNT.addr ≠ F.SAF_EVENTS_LOCK_VIOLATION.addr := by decide
  rw [lockViolation, State.raise, State.fget_fset_other _ _ _ _ (.inl apart), State.bump, State.add, State.fget_fset_self _ _ _ (by decide)]
  simp only [satAdd, F.SAF_LOCK_VIOL_COUNT]
  omega

/-- Settles O10: each register is stored field by field and no unit acts on it, so that the access code alone says what is stored. -/
theorem registerWriteAccessCodes : Obligations.RegisterWriteAccessCodes := by
  unfold Obligations.RegisterWriteAccessCodes
  intro s v
  refine ⟨fun i hi => ?_, ?_, ?_, fun hopen => ?_, fun hopen => ?_, fun a ls hw hlen => ?_⟩
  · have hr : recorderReg (R.ING_CQ_DESC i) = false := by interval_cases i <;> rfl
    refine completes_of_wf _ rfl (registerWrite_wf v (by simp only [R.ING_CQ_DESC]; omega) (by simp only [R.ING_CQ_DESC]; omega)) ?_
    rw [registerWriteOp_word, writeReg_of_plainReg (plainReg_staging hi) (descOf_staging hi) (by simp only [R.ING_CQ_DESC]; omega)
      (by simp [accessOf]), storeFields_staging hi (descOf_staging hi)]
    exact ⟨by rw [reg_settled _ _ _ _ hr, State.reg_setReg_self], Frame.settled _ (Frame.setReg _ _ _ _ _ (by simp))⟩
  · obtain ⟨d, hd, hmask, hw1c⟩ := descOf_ingEvents
    refine completes_of_wf _ rfl (registerWrite_wf v (by decide) (by decide)) ?_
    rw [registerWriteOp_word, writeReg_of_plainReg plainReg_ingEvents hd (by decide) (fun f hf => by simp [hw1c f hf]),
      storeFields_w1c hw1c, hmask]
    exact ⟨by rw [reg_settled _ _ _ _ rfl, State.reg_setReg_self, State.begin_reg], Frame.settled _ (Frame.setReg _ _ _ _ _ (by simp))⟩
  · obtain ⟨d, hd, hro⟩ := descOf_ingStatus
    refine completes_of_wf _ rfl (registerWrite_wf v (by decide) (by decide)) ?_
    rw [registerWriteOp_word, writeReg_of_plainReg plainReg_ingStatus hd (by decide) (fun f hf => by simp [hro f hf]), storeFields_ro hro]
    exact Frame.settled _ (frame_setReg_reg _ _)
  · refine completes_of_wf _ rfl (registerWrite_wf v (by decide) (by decide)) ?_
    have closed : (unkey s.begin).lockOpen = false := hopen
    rw [registerWriteOp_word, writeReg_of_plainReg_saf plainReg_stopFilter descOf_stopFilter (by decide) (by decide),
      meetsLock_stopFilter descOf_stopFilter, storeFields_stopFilter descOf_stopFilter, closed]
    simp only [Bool.not_false, if_true, Bool.false_eq_true, if_false]
    refine ⟨?_, ?_, ?_, Frame.settled _ ?_⟩
    · rw [flag_settled _ _ _ _ rfl, flag_lockViolation]
    · rw [fget_settled _ _ _ _ rfl, fget_lockViolation, State.fget_setReg_ne _ _ _ _ (by decide)]
      rfl
    · simp [lockViolation, unkey]
    · exact (frame_unkey _ _).trans (((frame_setReg_reg _ _).mono (by simp) (by simp)).trans (frame_lockViolation _ _ _))
  · refine completes_of_wf _ rfl (registerWrite_wf v (by decide) (by decide)) ?_
    have isOpen : (unkey s.begin).lockOpen = true := hopen
    rw [registerWriteOp_word, writeReg_of_plainReg_saf plainReg_stopFilter descOf_stopFilter (by decide) (by decide),
      meetsLock_stopFilter descOf_stopFilter, storeFields_stopFilter descOf_stopFilter, isOpen]
    simp only [Bool.not_true, if_true, Bool.false_eq_true, if_false]
    refine ⟨?_, by simp [unkey], Frame.settled _ ((frame_unkey _ _).trans (Frame.setReg _ _ _ _ _ (by simp)))⟩
    have bound : max 100 (min 1500 (fieldOf 0 11 v)) < 2 ^ 11 := by omega
    rw [fget_settled _ _ _ _ rfl]
    exact (State.fget_setReg_self _ F.SAF_STOP_FILTER_NS _).trans ((fieldOf_withField _ _ _ _ (by decide)).trans (Nat.mod_eq_of_lt bound))
  · refine completes_of_wf _ rfl hw ?_
    rw [registerWriteOp, if_pos hlen]
    exact ⟨by simp, Frame.settled _ (Frame.answered _ _ _ _)⟩

end Sys2Proof.Machine
end

section
/-! PROOF. Injections into a lane (R11, R194). -/

namespace Sys2Proof.Machine

/-- The fields of an injection register, packed into its word (R194). -/
theorem fieldOf_injectWord {k n b p : Nat} (hk : k < 4) (hn : n < 32) (hb : b < 2) (hp : p < 2 ^ 24) :
    let w := BitVec.ofNat 32 (k + n * 2 ^ 2 + b * 2 ^ 7 + p % 2 ^ 24 * 2 ^ 8)
    fieldOf 0 2 w = k ∧ fieldOf 2 5 w = n ∧ fieldOf 7 1 w = b ∧ fieldOf 8 24 w = p := by
  simp only [fieldOf, BitVec.toNat_ofNat]
  omega

theorem bitOf_lt (b : Bool) : bitOf b < 2 := by cases b <;> decide

/-- A lane's training after it is replaced. -/
@[simp] theorem State.train_setTrain_self (s : State) (l : Nat) (t : LaneTrain) : (s.setTrain l t).train l = t := by
  simp [State.train, State.setTrain]

/-- A lane's training replaced touches no register and no other part. -/
theorem frame_setTrain (rs : List Nat) (s : State) (l : Nat) (t : LaneTrain) : Frame [.bln] rs s (s.setTrain l t) :=
  Frame.parts _ _ _ _ rfl (fun p hp => by cases p <;> simp_all [Part.same, State.setTrain])

/-- The register of a lane's injection is none that recording writes. -/
theorem recorderReg_inject {l : Nat} (hl : l < 136) : recorderReg (R.BLN_LANE_INJECT l) = false := by
  apply recorderReg_of_block <;> simp only [R.BLN_LANE_INJECT] <;> omega

/-- What an injection leaves in its register and its lane (R194). -/
theorem injectOp_spec {l kind nsym period : Nat} (per : Bool) (s : State) (hk : kind < 4) (hn : nsym < 32) (hp : period < 2 ^ 24) :
    let t := injectOp l kind nsym per period s
    t.fget (F.BLN_LANE_INJECT_KIND l) = (if kind = 3 ∨ per = true then kind else 0) ∧ t.fget (F.BLN_LANE_INJECT_NSYM l) = nsym ∧
      t.fget (F.BLN_LANE_INJECT_PERIODIC l) = bitOf per ∧ t.fget (F.BLN_LANE_INJECT_PERIOD l) = period ∧
      (t.train l).crcArm = (kind == 3) ∧ Frame [.bln] [R.BLN_LANE_INJECT l] s t := by
  intro t
  have hk' : (if (kind != 3 && !per) = true then 0 else kind) < 4 := by split <;> omega
  obtain ⟨h0, h1, h2, h3⟩ := fieldOf_injectWord hk' hn (bitOf_lt per) hp
  have field (lo width : Nat) : t.fget ⟨R.BLN_LANE_INJECT l, lo, width⟩ = fieldOf lo width
      (BitVec.ofNat 32 ((if (kind != 3 && !per) = true then 0 else kind) + nsym * 2 ^ 2 + bitOf per * 2 ^ 7 + period % 2 ^ 24 * 2 ^ 8)) :=
    State.fget_setReg_self s ⟨R.BLN_LANE_INJECT l, lo, width⟩ _
  refine ⟨(field 0 2).trans (h0.trans ?_), (field 2 5).trans h1, (field 7 1).trans h2, (field 8 24).trans h3,
    congrArg LaneTrain.crcArm (State.train_setTrain_self _ _ _), (Frame.setReg _ _ _ _ _ (by simp)).trans (frame_setTrain _ _ _ _)⟩
  by_cases h : kind = 3 <;> cases per <;> simp [h]

/-- A command that needs the open lock counts a violation, and does nothing else, while the lock is closed (R11, R402). -/
theorem completes_locked_closed {c : Instr} {s : State} (f : State → State) (h : exec c s = done c.wf (locked f) s) (hw : c.wf = true)
    (hc : s.lockOpen = false) :
    Completes c s (fun t => t.flag F.SAF_EVENTS_LOCK_VIOLATION = true ∧ Frame [] [R.SAF_LOCK_VIOL, R.SAF_EVENTS] s t) := by
  refine completes_of_wf _ h hw ?_
  have closed : s.begin.lockOpen = false := hc
  rw [locked, closed, if_neg (by simp)]
  exact ⟨by rw [flag_settled _ _ _ _ rfl, flag_lockViolation], Frame.settled _ (frame_lockViolation _ _ _)⟩

/-- An injection with the lock open (R194). -/
theorem completes_inject {c : Instr} {s : State} {l kind nsym period : Nat} {per : Bool} (f : State → State)
    (h : exec c s = done c.wf (locked f) s) (hf : f s.begin = injectOp l kind nsym per period s.begin) (hw : c.wf = true)
    (ho : s.lockOpen = true) (hl : l < 136) (hk : kind < 4) (hn : nsym < 32) (hp : period < 2 ^ 24) :
    Completes c s (fun t =>
      t.fget (F.BLN_LANE_INJECT_KIND l) = (if kind = 3 ∨ per = true then kind else 0) ∧
      t.fget (F.BLN_LANE_INJECT_NSYM l) = nsym ∧ t.flag (F.BLN_LANE_INJECT_PERIODIC l) = per ∧
      t.fget (F.BLN_LANE_INJECT_PERIOD l) = period ∧ ((t.train l).crcArm = true ↔ kind = 3) ∧
      Frame [.bln] [R.BLN_LANE_INJECT l] s t) := by
  refine completes_of_wf _ h hw ?_
  have isOpen : s.begin.lockOpen = true := ho
  have hr := recorderReg_inject hl
  obtain ⟨hkind, hnsym, hper, hperiod, harm, hframe⟩ := injectOp_spec (l := l) per s.begin hk hn hp
  rw [locked, isOpen, if_pos rfl, hf]
  refine ⟨?_, ?_, ?_, ?_, ?_, Frame.settled _ hframe⟩
  · rw [fget_settled _ _ _ _ hr, hkind]
  · rw [fget_settled _ _ _ _ hr, hnsym]
  · rw [flag_settled _ _ _ _ hr, State.flag, hper]
    cases per <;> rfl
  · rw [fget_settled _ _ _ _ hr, hperiod]
  · simpa [State.train] using Bool.eq_iff_iff.mp harm

/-- Settles O38: the three injections are one write of the lane's register, with NSYM given or as held. -/
theorem laneInjections : Obligations.LaneInjections := by
  unfold Obligations.LaneInjections
  intro s l nsym period per hl hn hp
  have held : s.fget (F.BLN_LANE_INJECT_NSYM l) < 32 := Nat.mod_lt _ (show 0 < 2 ^ 5 by decide)
  have wf1 : decide (l < 136 ∧ period < 2 ^ 24) = true := by simpa using ⟨hl, hp⟩
  have wf2 : decide (l < 136 ∧ nsym < 32 ∧ period < 2 ^ 24) = true := by simpa using ⟨hl, hn, hp⟩
  refine ⟨fun ho => ?_, fun hc => ?_, fun hk hper => ?_⟩
  · exact List.forall_mem_cons.mpr ⟨completes_inject (injectKind l 1 per period) rfl rfl wf1 ho hl (by simp) held hp,
      List.forall_mem_cons.mpr ⟨completes_inject (injectOp l 2 nsym per period) rfl rfl wf2 ho hl (by simp) hn hp,
      List.forall_mem_singleton.mpr (completes_inject (injectKind l 3 per period) rfl rfl wf1 ho hl (by simp) held hp)⟩⟩
  · exact List.forall_mem_cons.mpr ⟨completes_locked_closed (injectKind l 1 per period) rfl wf1 hc,
      List.forall_mem_cons.mpr ⟨completes_locked_closed (injectOp l 2 nsym per period) rfl wf2 hc,
      List.forall_mem_singleton.mpr (completes_locked_closed (injectKind l 3 per period) rfl wf1 hc)⟩⟩
  · refine completes_of_wf _ rfl (by simpa [Instr.wf] using hl) ?_
    rw [injectPeriodOp, if_pos ⟨hk, hper⟩]
    exact ⟨by simp [State.train, State.setTrain], Frame.settled _ (frame_setTrain _ _ _ _)⟩

end Sys2Proof.Machine
end

section
/-! PROOF. TABLE_WRITE into a kernel bank (R7, R130, R131, R319). -/

namespace Sys2Proof.Machine

/-- A key added to a list is in it. -/
theorem mem_insertKey_self (k : Nat) (l : List Nat) : k ∈ insertKey k l := by
  induction l with
  | nil => simp [insertKey]
  | cons h t ih =>
    unfold insertKey
    split_ifs with h1 h2
    · simp
    · simp [h2]
    · simp [ih]

/-! ### A bank control replaced -/

@[simp] theorem State.reg_setBank (s : State) (x : TableId) (b : Bank) (a : Nat) : (s.setBank x b).reg a = s.reg a := by cases x <;> rfl

@[simp] theorem State.bank_setBank_self (s : State) (x : TableId) (b : Bank) : (s.setBank x b).bank x = b := by cases x <;> rfl

theorem State.bank_setBank_ne (s : State) {x y : TableId} (b : Bank) (h : y ≠ x) : (s.setBank x b).bank y = s.bank y := by
  cases x <;> cases y <;> simp_all [State.bank, State.setBank]

/-- The bank controls are the part `banks`. -/
theorem State.bank_congr {s t : State} (h : t.banks = s.banks) (x : TableId) : t.bank x = s.bank x := by
  cases x <;> simp [State.bank, h]

/-- A bank control replaced touches no register and no other part. -/
theorem frame_setBank (rs : List Nat) (s : State) (x : TableId) (b : Bank) : Frame [.banks] rs s (s.setBank x b) :=
  Frame.parts _ _ _ _ (by cases x <;> rfl) (fun p hp => by cases p <;> cases x <;> simp_all [Part.same, State.setBank])

/-! ### Fresh check bits -/

/-- The memory part replaced touches no register and no other part. -/
theorem frame_setMem (rs : List Nat) (s : State) (m : MemAux) : Frame [.mem] rs s { s with mem := m } :=
  Frame.parts _ _ _ _ rfl (fun p hp => by cases p <;> simp_all [Part.same])

/-- A table word written leaves the bank controls and every register but SRM_CHK_CTL, which an armed FLIP disarms (R317, R327). -/
theorem frame_freshTable (hit : Nat → Bool) (s : State) : Frame [.mem] [R.SRM_CHK_CTL] s (freshTable hit s) := by
  unfold freshTable
  dsimp only
  split
  · exact frame_setMem _ s _
  · exact (frame_setMem _ s _).trans ((frame_setMem _ _ _).trans (Frame.fset _ _ _ _ _ (by simp [F.SRM_CHK_CTL_MODE])))

/-! ### The kernel banks -/

/-- A tap word of a kernel bank. -/
theorem descOf_kernelTap {b g m : Nat} (hb : b < 2) (hg : g < 3) (hm : m < 151) :
    descOf (R.DOS_KRN_TAP b g m) = some ⟨"DOS_KRN_TAP", 0x0E2100, [(0x1000, 2), (0x300, 3), (0x4, 151)], [⟨0, 16, .rw, .c, 0, 0, 65535⟩]⟩ := by
  have all : ∀ b < 2, ∀ g < 3, ∀ m < 151, descOf (R.DOS_KRN_TAP b g m) =
      some ⟨"DOS_KRN_TAP", 0x0E2100, [(0x1000, 2), (0x300, 3), (0x4, 151)], [⟨0, 16, .rw, .c, 0, 0, 65535⟩]⟩ := by decide +kernel
  exact all b hb g hg m hm

/-- A tap word lies in its kernel bank (R129). -/
theorem tableAt_kernelTap {b g m : Nat} (hb : b < 2) (hg : g < 3) (hm : m < 151) :
    ∃ off, tableAt (R.DOS_KRN_TAP b g m) = some (.krn, b, off) := by
  have lo : 0x0E2000 ≤ R.DOS_KRN_TAP b g m := by simp only [R.DOS_KRN_TAP]; omega
  have hi : R.DOS_KRN_TAP b g m < 0x0E2000 + 2 * 4096 := by simp only [R.DOS_KRN_TAP]; omega
  have bank : (R.DOS_KRN_TAP b g m - 0x0E2000) / 4096 = b := by simp only [R.DOS_KRN_TAP]; omega
  refine ⟨(R.DOS_KRN_TAP b g m - 0x0E2000) % 4096, ?_⟩
  simp only [tableAt, List.find?_cons, bankPlace, descOf_kernelTap hb hg hm, lo]
  simp [hi, bank]

/-- The report of an ignored write of a kernel bank (R130). -/
theorem frame_tableIgnored_krn (s : State) : Frame [] [R.DOS_KRN_BANK, R.DOS_EVENTS] s (tableIgnored .krn s) :=
  (Frame.raise _ _ _ _ (by simp [F.DOS_EVENTS_TBL_WRITE_IGNORED])).trans (Frame.raise _ _ _ _ (by simp [ignoredBit, F.DOS_KRN_BANK_IGNORED]))

theorem flags_tableIgnored_krn (s : State) :
    (tableIgnored .krn s).flag F.DOS_KRN_BANK_IGNORED = true ∧ (tableIgnored .krn s).flag F.DOS_EVENTS_TBL_WRITE_IGNORED = true := by
  refine ⟨State.flag_raise_self _ _ (by decide) (by decide), ?_⟩
  have apart : F.DOS_EVENTS_TBL_WRITE_IGNORED.addr ≠ F.DOS_KRN_BANK_IGNORED.addr := by decide
  have stays := State.fget_fset_other (s.raise F.DOS_EVENTS_TBL_WRITE_IGNORED) _ _ (2 ^ F.DOS_KRN_BANK_IGNORED.width - 1) (.inl apart)
  exact (congrArg (· != 0) stays).trans (State.flag_raise_self s _ (by decide) (by decide))

/-- A bank control with the unit of a word marked (R131). -/
def Bank.mark (k : Bank) (a : Nat) : Bank :=
  { k with
    marks := if k.allMarked then k.marks else insertKey a k.marks
    sure := if k.hazy.isSome then insertKey a k.sure else k.sure }

/-- The write of a word of the shadow (R7, R130). -/
theorem tableWriteOp_shadow {s : State} {a b off : Nat} {x : TableId} {d : RegDesc} (ht : tableAt a = some (x, b, off)) (hd : descOf a = some d)
    (hx : x ≠ .map) (hb : b ≠ (s.bank x).active) (hp : (s.bank x).pending = false) (hc : (s.bank x).cloning = false) (v : Word) :
    tableWriteOp a v s = (s.setReg a (v &&& BitVec.ofNat 32 (d.fields.map (fun f => (2 ^ f.width - 1) * 2 ^ f.lo)).sum)).setBank x
      ((s.bank x).mark a) := by
  have opens : ¬ (x = .map ∨ b = (s.bank x).active ∨ (s.bank x).pending = true ∨ (s.bank x).cloning = true) := by simp [hx, hb, hp, hc]
  simp only [tableWriteOp, ht, hd, if_neg opens]
  rfl

/-- What a write of a word of the shadow leaves (R7, R130, R131, R319): the word stored, its unit marked, and the word not BAD. -/
theorem tableStore_shadow {s : State} {a b off : Nat} {x : TableId} {d : RegDesc} (ht : tableAt a = some (x, b, off)) (hd : descOf a = some d)
    (hx : x ≠ .map) (hb : b ≠ (s.bank x).active) (hp : (s.bank x).pending = false) (hc : (s.bank x).cloning = false)
    (hr : recorderReg a = false) (hctl : a ≠ R.SRM_CHK_CTL) (v : Word) :
    let t := tableStore a v s
    t.reg a = v &&& BitVec.ofNat 32 (d.fields.map (fun f => (2 ^ f.width - 1) * 2 ^ f.lo)).sum ∧ t.bank x = (s.bank x).mark a ∧
      a ∉ t.mem.bad ∧ (∀ y, y ≠ x → t.bank y = s.bank y) ∧ Frame [.banks, .mem] [a, R.SRM_CHK_CTL] s t := by
  intro t
  let hit := fun y => decide (a ≤ y ∧ y < a + 4)
  let u := freshTable hit (tableWriteOp a v s)
  have ht' : t = { u with mem := { u.mem with bad := u.mem.bad.filter (fun y => y != a) } } := by
    have opens : ¬ (x = .map ∨ b = (s.bank x).active ∨ (s.bank x).pending = true ∨ (s.bank x).cloning = true) := by simp [hx, hb, hp, hc]
    simp only [t, tableStore, ht, if_neg opens]
    rfl
  have fresh : Frame [.mem] [R.SRM_CHK_CTL] (tableWriteOp a v s) t := by
    rw [ht']
    exact (frame_freshTable hit _).trans (frame_setMem _ _ _)
  have write := tableWriteOp_shadow ht hd hx hb hp hc v
  have banks (y : TableId) : t.bank y = (tableWriteOp a v s).bank y := State.bank_congr (fresh.1 .banks (by simp)) y
  refine ⟨?_, ?_, ?_, fun y hy => ?_, ?_⟩
  · rw [fresh.2 a (by simpa using hctl) hr, write, State.reg_setBank, State.reg_setReg_self]
  · rw [banks, write, State.bank_setBank_self]
  · simp [ht']
  · rw [banks, write, State.bank_setBank_ne _ _ hy]
    rfl
  · refine Frame.trans ?_ (fresh.mono (by simp) (by simp))
    rw [write]
    exact (Frame.setReg _ _ _ _ _ (by simp)).trans ((frame_setBank [] _ _ _).mono (by simp) (by simp))

/-- A write that lands in the bank in service is ignored (R130). -/
theorem tableStore_inService {s : State} {a b off : Nat} {x : TableId} (ht : tableAt a = some (x, b, off)) (hb : b = (s.bank x).active) (v : Word) :
    tableStore a v s = tableIgnored x s := by
  simp [tableStore, tableWriteOp, ht, hb]

/-- Settles O28: the tap word lies in the bank its address names, and the shadow is the bank not in service. -/
theorem tableWritesMarkTheShadow : Obligations.TableWritesMarkTheShadow := by
  unfold Obligations.TableWritesMarkTheShadow
  intro s v g m hg hm hact
  have wf {b : Nat} (hb : b < 2) : (Instr.tableWrite (R.DOS_KRN_TAP b g m) v).wf = true := by
    refine Bool.and_eq_true_iff.mpr ⟨beq_iff_eq.mpr ?_, decide_eq_true ?_⟩ <;> simp only [R.DOS_KRN_TAP] <;> omega
  refine ⟨fun hp hc hall => ?_, ?_⟩
  · have hb : 1 - s.banks.krn.active < 2 := by omega
    have shadow : 1 - s.banks.krn.active ≠ s.banks.krn.active := by omega
    intro a
    have hr : recorderReg a = false := by
      apply recorderReg_of_block <;> simp only [a, R.DOS_KRN_TAP] <;> omega
    have ctl : a ≠ R.SRM_CHK_CTL := by simp only [a, R.DOS_KRN_TAP, R.SRM_CHK_CTL]; omega
    obtain ⟨off, ht⟩ := tableAt_kernelTap hb hg hm
    obtain ⟨hreg, hbank, hbad, hother, hframe⟩ :=
      tableStore_shadow (s := s.begin) (x := .krn) ht (descOf_kernelTap hb hg hm) (by simp) shadow hp hc hr ctl v
    have banks (y : TableId) : ({ settle s.begin (tableStore a v s.begin) with pending := s.pending } : State).bank y =
        (tableStore a v s.begin).bank y := State.bank_congr (by simp) y
    refine completes_of_wf _ rfl (wf hb) ⟨?_, ?_, by simpa using hbad, fun y hy => ?_, Frame.settled _ hframe⟩
    · rw [reg_settled _ _ _ _ hr, hreg]
      rfl
    · have marks := congrArg Bank.marks ((banks .krn).trans hbank)
      have unmarked : (s.begin.bank .krn).allMarked = false := hall
      simp only [Bank.mark, unmarked, Bool.false_eq_true, if_false] at marks
      exact marks ▸ mem_insertKey_self a _
    · rw [banks, hother y hy]
      exact State.bank_congr rfl y
  · obtain ⟨off, ht⟩ := tableAt_kernelTap hact hg hm
    refine completes_of_wf _ rfl (wf hact) ?_
    rw [tableStore_inService (s := s.begin) ht rfl]
    obtain ⟨hbank, hevent⟩ := flags_tableIgnored_krn s.begin
    exact ⟨by rw [flag_settled _ _ _ _ rfl, hbank], by rw [flag_settled _ _ _ _ rfl, hevent], Frame.settled _ (frame_tableIgnored_krn _)⟩

end Sys2Proof.Machine
end

section
/-! PROOF. The start of a course (R62) from a state whose lane map bank in service is neither of the two of R195. -/

namespace Sys2Proof.Machine

/-- A queue entry that is READY. -/
def readyEntry : Entry :=
  { idx := 0, desc := List.replicate 16 0#32, seq := 1, state := .ready, err := 0, band := 0, tile := 0, off := 0, inHeader := false
    head := none, work := none, spills := false }

/-- A device of one beam lane with RUN set and READY, its settings and its lanes in order, and one entry to start. -/
def startDue : State :=
  let s := [(F.HBM_STATUS_READY, 1), (F.ING_CTL_RUN, 1), (F.STK_DEPTH_DEPTH, 8), (F.STK_GATE_GATE, 192), (F.STK_RTT_BUDGET_NS, 100),
    (F.STK_COMMIT_LEAD, 100), (F.BLN_ECHO_STATUS_STATE 0, 2), (F.BLN_CTL_ECHO_MIN, 1), (F.BLN_LANE_STATUS_STATE 0, 3)].foldl
      (fun t p => t.fset p.1 p.2) State.reset
  { s with
    shape := { shapeDefault with cols := 8, rows := 8, tile := 64 }
    ing := { s.ing with queue := [readyEntry] }
    stk := { s.stk with loadDue := false } }

/-- The last word of a lane map bank 344: it lies in block 0x17 of BAR0, which holds no register (R195, R451). -/
def strayWord : Nat := 0x1703FC

/-- The same device with bank 344 of the lane map in service, and check bits that name data bit 0 of its last word (R317). -/
def strayBank : State :=
  { startDue with
    banks := { startDue.banks with lanes := { startDue.banks.lanes with active := 344 } }
    mem := { startDue.mem with flips := [(strayWord, 19)] } }

/-- The conditions of a start hold of it (R62). -/
theorem strayBank_starts :
    let u := closeLock strayBank
    let r := readLaneMap (swapBanks u)
    dueEntry strayBank = some readyEntry ∧ spillFails u readyEntry = false ∧ 16 ≤ u.willServeCount ∧ depthShort u = false ∧
      u.echoMin ≤ u.echoLocked ∧ startWaits u = false ∧ r.badInService = false ∧ r.stk.loadDue = false ∧ lanesMissing (spareStart r) = [] := by
  decide +kernel

/-- The start reads the bank in service, and writes the correction of the stray word back (R318). -/
theorem strayBank_corrected : (courseStartOp strayBank.begin).reg strayWord = 1#32 ∧ strayBank.reg strayWord = 0#32 := by
  decide +kernel

/-- Refutes O17: nothing in the statement keeps the number of the lane map's bank in service below 2. With bank 344 in service the start's
read of the lane map corrects a word at 0x1703FC, in a block that the frame of the statement does not exempt. The model's own commands bring
that number to 0 and 1 alone, so that no run from reset reaches the state. -/
theorem not_courseStartRunsTheOldestReadyEntry : ¬ Obligations.CourseStartRunsTheOldestReadyEntry := by
  unfold Obligations.CourseStartRunsTheOldestReadyEntry
  intro h
  obtain ⟨hdue, hspill, hserve, hdepth, hecho, hwaits, hbad, hload, hmissing⟩ := strayBank_starts
  obtain ⟨hafter, hbefore⟩ := strayBank_corrected
  obtain ⟨t, ht, -, -, -, -, -, -, hframe⟩ := h strayBank readyEntry hdue hspill hserve hdepth hecho hwaits hbad hload hmissing
  obtain rfl := Host.Outcome.next.inj (ht.symm.trans (done_next courseStartOp strayBank))
  have same := hframe strayWord (by decide) (by decide)
  rw [reg_settled _ _ _ _ (by decide), hafter, hbefore] at same
  exact absurd same (by decide)

end Sys2Proof.Machine
end

section
/-! PROOF. The course queue: POST, ING_RUN, FLUSH and SKIP (R59, R62 to R64). -/

namespace Sys2Proof.Machine

/-! ### Posting -/

/-- The queue replaced touches no register and no other part. -/
theorem frame_setIng (rs : List Nat) (s : State) (i : Ingest) : Frame [.queue] rs s { s with ing := i } :=
  Frame.parts _ _ _ _ rfl (fun p hp => by cases p <;> simp_all [Part.same])

/-- The islets' work replaced touches no register and no other part. -/
theorem frame_setRas (rs : List Nat) (s : State) (r : Raster) : Frame [.ras] rs s { s with ras := r } :=
  Frame.parts _ _ _ _ rfl (fun p hp => by cases p <;> simp_all [Part.same])

/-- The entry that a POST makes of the staging words (R59). -/
def postedEntry (s : State) : Entry :=
  { idx := s.ing.nextIdx, desc := (List.range 16).map (fun w => s.reg (R.ING_CQ_DESC w)), seq := s.ing.nextSeq, state := .admitting
    err := 0, band := 0, tile := 0, off := 0, inHeader := false, head := none, work := none, spills := false }

/-- The course queue after a POST that is taken (R59). -/
def postedQueue (s : State) : Ingest :=
  { s.ing with queue := s.ing.queue ++ [postedEntry s], nextIdx := nextEntry s.ing.nextIdx
               nextSeq := if s.ing.nextSeq = 65535 then 1 else s.ing.nextSeq + 1 }

/-- ING_CQ_LAST shows the entry and the sequence number of a POST that is taken (R59). -/
def showPosted (i n : Nat) (s : State) : State := (s.fset F.ING_CQ_LAST_ENTRY i).fset F.ING_CQ_LAST_SEQ n

/-- The tile error registers of an entry cleared (R72). -/
def clearTileErr (i : Nat) (s : State) : State :=
  ((s.setReg (R.SLZ_TILE_ERR i) 0#32).setReg (R.SLZ_TILE_ERR_IN i) 0#32).setReg (R.SLZ_TILE_ERR_OUT i) 0#32

/-- A POST with room (R59). -/
theorem postOp_of_room {s : State} (h : s.ing.queue.length < 8) :
    postOp s = clearTileErr s.ing.nextIdx (showPosted s.ing.nextIdx s.ing.nextSeq { s with ing := postedQueue s }) :=
  if_neg (Nat.not_le.mpr h)

/-- A POST to a full queue (R59). -/
theorem postOp_of_full {s : State} (h : 8 ≤ s.ing.queue.length) : postOp s = s.raise F.ING_EVENTS_POST_REFUSED := if_pos h

theorem fget_clearTileErr (i : Nat) (s : State) (f : Fld) (h : f.addr < 0x0C0100) : (clearTileErr i s).fget f = s.fget f := by
  unfold clearTileErr
  rw [State.fget_setReg_ne, State.fget_setReg_ne, State.fget_setReg_ne] <;>
    simp only [R.SLZ_TILE_ERR, R.SLZ_TILE_ERR_IN, R.SLZ_TILE_ERR_OUT] <;> omega

theorem frame_clearTileErr (ps : List Part) (rs : List Nat) (i : Nat) (s : State) :
    Frame ps (R.SLZ_TILE_ERR i :: R.SLZ_TILE_ERR_IN i :: R.SLZ_TILE_ERR_OUT i :: rs) s (clearTileErr i s) :=
  ((Frame.setReg _ _ _ _ _ (by simp)).trans (Frame.setReg _ _ _ _ _ (by simp))).trans (Frame.setReg _ _ _ _ _ (by simp))

theorem frame_showPosted (ps : List Part) (rs : List Nat) (i n : Nat) (s : State) : Frame ps (R.ING_CQ_LAST :: rs) s (showPosted i n s) :=
  (Frame.fset _ _ _ _ _ (by simp [F.ING_CQ_LAST_ENTRY])).trans (Frame.fset _ _ _ _ _ (by simp [F.ING_CQ_LAST_SEQ]))

theorem fget_showPosted (i n : Nat) (s : State) :
    (showPosted i n s).fget F.ING_CQ_LAST_ENTRY = i % 8 ∧ (showPosted i n s).fget F.ING_CQ_LAST_SEQ = n % 65536 :=
  ⟨(State.fget_fset_other _ _ _ _ (by decide)).trans (State.fget_fset_self _ _ _ (by decide)), State.fget_fset_self _ _ _ (by decide)⟩

/-- Settles O14: a POST is the queue with the entry appended and four registers written, or one bit raised. -/
theorem postTakesTheNextEntry : Obligations.PostTakesTheNextEntry := by
  unfold Obligations.PostTakesTheNextEntry
  intro s
  refine ⟨fun hroom => completes_of postOp rfl ?_, fun hfull => completes_of postOp rfl ?_⟩
  · rw [postOp_of_room (s := s.begin) hroom, State.begin_ing]
    obtain ⟨hentry, hseq⟩ := fget_showPosted s.ing.nextIdx s.ing.nextSeq { s.begin with ing := postedQueue s.begin }
    refine ⟨⟨postedEntry s, by rw [settle_ing]; rfl, rfl, rfl, rfl, rfl, rfl, rfl, rfl⟩, by rw [settle_ing]; rfl, by rw [settle_ing]; rfl,
      by rw [settle_ing]; rfl, ?_, ?_, Frame.settled _ ?_⟩
    · rw [fget_settled _ _ _ _ rfl, fget_clearTileErr _ _ _ (by decide), hentry]
    · rw [fget_settled _ _ _ _ rfl, fget_clearTileErr _ _ _ (by decide), hseq]
    · exact ((frame_setIng _ _ _).trans ((frame_showPosted _ _ _ _ _).trans
        ((frame_clearTileErr _ [R.ING_CQ_LAST] _ _).mono (fun _ h => h) (by simp))))
  · rw [postOp_of_full (s := s.begin) hfull]
    exact ⟨by rw [flag_settled _ _ _ _ rfl]; exact State.flag_raise_self _ _ (by decide) (by decide), Frame.settled _ (Frame.raise _ _ _ _ (by simp [F.ING_EVENTS_POST_REFUSED]))⟩

/-! ### ING_RUN, FLUSH and SKIP -/

/-- The stroke part replaced touches no register and no other part. -/
theorem frame_setStk (rs : List Nat) (s : State) (k : Strokes) : Frame [.stk] rs s { s with stk := k } :=
  Frame.parts _ _ _ _ rfl (fun p hp => by cases p <;> simp_all [Part.same])

/-- RUN reads as ING_RUN stores it (R64). -/
theorem flag_ingRunOp (run : Bool) (s : State) : (ingRunOp run s).flag F.ING_CTL_RUN = run := by
  have stored : (ingRunOp run s).flag F.ING_CTL_RUN = (s.fset F.ING_CTL_RUN (bitOf run)).flag F.ING_CTL_RUN := rfl
  rw [stored, State.flag, State.fget_fset_self _ _ _ (by decide)]
  cases run <;> rfl

/-- ING_RUN writes ING_CTL and what the wave table's load waits for (R64, R226). -/
theorem frame_ingRunOp (run : Bool) (s : State) : Frame [.stk] [R.ING_CTL] s (ingRunOp run s) :=
  (Frame.fset _ _ s F.ING_CTL_RUN (bitOf run) (by simp [F.ING_CTL_RUN])).trans
    (frame_setStk _ (s.fset F.ING_CTL_RUN (bitOf run)) { s.stk with loadTried := s.stk.loadTried && !run })

/-- An admission's own loss given up changes the integrity unit alone (R302). -/
theorem dropAdmitLoss_eq (s : State) : ∃ i, dropAdmitLoss s = { s with int := i } := by
  unfold dropAdmitLoss
  split
  · split
    · exact ⟨_, rfl⟩
    · exact ⟨s.int, rfl⟩
  · exact ⟨s.int, rfl⟩

/-- An admission abandoned (R63, R106). -/
theorem dropAdmission_eq (s : State) : ∃ i, dropAdmission s = { s with
    ing := { s.ing with adm := none }, ras := { s.ras with slots := s.ras.slots.filter (fun p => p.2.kind != 3) }, int := i } := by
  obtain ⟨i, hi⟩ := dropAdmitLoss_eq
    { s with ing := { s.ing with adm := none }, ras := { s.ras with slots := s.ras.slots.filter (fun p => p.2.kind != 3) } }
  exact ⟨i, hi⟩

/-- The course queue after FLUSH (R63): the next post takes the index after the running entry. -/
def flushedQueue (s : State) : Ingest :=
  { queue := s.ing.queue.filter (fun e => e.state == .running), nextIdx := (s.running.map (fun e => nextEntry e.idx)).getD s.ing.nextIdx
    nextSeq := s.ing.nextSeq, adm := none }

/-- FLUSH (R63): the first entry kept is the running one. -/
theorem flushOp_eq (s : State) : ∃ i, flushOp s = { s with
    ing := flushedQueue s, ras := { s.ras with slots := s.ras.slots.filter (fun p => p.2.kind != 3) }, int := i } := by
  obtain ⟨i, hi⟩ := dropAdmission_eq s
  refine ⟨i, ?_⟩
  have first : s.running = (s.ing.queue.filter (fun e => e.state == .running)).head? := List.head?_filter.symm
  unfold flushOp flushedQueue
  rw [hi, first]
  dsimp only
  cases s.ing.queue.filter (fun e => e.state == .running) <;> rfl

/-- The queue, the islets' work and the integrity unit replaced touch no register and no other part. -/
theorem frame_setQueueRasInt (rs : List Nat) (s : State) (q : Ingest) (r : Raster) (i : Integrity) :
    Frame [.queue, .ras, .int] rs s { s with ing := q, ras := r, int := i } :=
  Frame.parts _ _ _ _ rfl (fun p hp => by cases p <;> simp_all [Part.same])

/-- SKIP of a queue whose oldest entry is FAILED (R63). -/
theorem skipOp_of_failed {s : State} {e : Entry} {rest : List Entry} (h : s.ing.queue = e :: rest) (hf : e.state = .failed) :
    skipOp s = { s with ing := { s.ing with queue := rest } } := by simp [skipOp, h, hf]

/-- SKIP of a queue whose oldest entry is not FAILED (R63). -/
theorem skipOp_of_not_failed {s : State} {e : Entry} {rest : List Entry} (h : s.ing.queue = e :: rest) (hf : e.state ≠ .failed) :
    skipOp s = s := by simp [skipOp, h, hf]

/-- Settles O15: FLUSH keeps the running entry, which is the first of those it leaves. -/
theorem queueControlCommands : Obligations.QueueControlCommands := by
  unfold Obligations.QueueControlCommands
  intro s
  refine ⟨fun run => completes_of (ingRunOp run) rfl ?_, completes_of flushOp rfl ?_, fun e rest hq hf => completes_of skipOp rfl ?_,
    fun e rest hq hf => completes_of skipOp rfl ?_⟩
  · exact ⟨by rw [flag_settled _ _ _ _ rfl, flag_ingRunOp], by rw [settle_stk]; rfl, Frame.settled _ (frame_ingRunOp run _)⟩
  · obtain ⟨i, hi⟩ := flushOp_eq s.begin
    rw [hi]
    refine ⟨?_, ?_, ?_, ?_, ?_, Frame.settled _ (frame_setQueueRasInt _ _ _ _ _)⟩
    · rw [settle_ing]; rfl
    · rw [settle_ing]; rfl
    · rw [settle_ing]; rfl
    · have same : s.begin.running = s.running := rfl
      rw [settle_ing, flushedQueue, same]
      cases s.running <;> rfl
    · rw [settle_ras]; rfl
  · rw [skipOp_of_failed (s := s.begin) hq hf]
    exact ⟨by simp, Frame.settled _ (frame_setIng _ _ _)⟩
  · rw [skipOp_of_not_failed (s := s.begin) hq hf]
    exact Frame.settled _ (Frame.refl _ _ _)

end Sys2Proof.Machine
end

section
/-! PROOF. TILE_DISPATCH (R61, R83, R104, R106). -/

namespace Sys2Proof.Machine

/-! ### The steps of a dispatch -/

theorem frame_takeSlot (rs : List Nat) (i j : Nat) (w : IsletWork) (s : State) : Frame [.ras] rs s (takeSlot i j w s) :=
  frame_setRas rs s _

/-- Noting a tile as dispatched changes the dispatch of its band alone: no slot, no pointer, no waiting recomputation (R103). -/
theorem noteDispatched_eq (k : Nat) (s : State) : ∃ ts b, noteDispatched k s = { s with ras := { s.ras with dispTiles := ts, dispBand := b } } := by
  unfold noteDispatched
  dsimp only
  split
  · exact ⟨[], s.ras.dispBand + 1, rfl⟩
  · exact ⟨k :: s.ras.dispTiles, s.ras.dispBand, rfl⟩

/-- BSX_WAIT and BSX_LATE are in registers (R125). -/
theorem frame_checkLate (ps : List Part) (rs : List Nat) (s : State) : Frame ps (R.DOS_STATUS :: R.DOS_EVENTS :: rs) s (checkLate s) := by
  unfold checkLate
  split
  · split
    · exact Frame.refl _ _ _
    · exact (Frame.raise _ _ _ _ (by simp [F.DOS_STATUS_BSX_WAIT])).trans (Frame.raise _ _ _ _ (by simp [F.DOS_EVENTS_BSX_LATE]))
  · exact Frame.clear _ _ _ _ (by simp [F.DOS_STATUS_BSX_WAIT])

@[simp] theorem checkLate_ras (s : State) : (checkLate s).ras = s.ras := (frame_checkLate [] [] s).1 .ras (by simp)

/-! ### Which work goes -/

/-- A waiting recomputation goes before everything else (R104). -/
theorem tileDispatchOp_of_redo {s t : State} {e : Entry} (hs : s.ras.stopped = false) (hr : s.running = some e)
    (h : dispatchRedo e s = some t) : tileDispatchOp s = t := by
  simp [tileDispatchOp, hs, hr, h]

/-- The first of the waiting recomputations, to the slot that takes it (R104). -/
theorem dispatchRedo_of_head {s : State} {e : Entry} {r : Recompute} {i j : Nat} (hr : (waitingRedos s).head? = some r)
    (ht : redoTaker s r = some (i, j)) :
    dispatchRedo e s = some (takeSlot i j (newWork s r.kind r.band r.tile e.idx) { s with ras := { s.ras with redo := s.ras.redo.erase r } }) := by
  obtain ⟨rest, hrest⟩ := List.head?_eq_some_iff.mp hr
  simp [dispatchRedo, hrest, ht]

/-- With no recomputation waiting, the next first computation goes before admission decodes (R104). -/
theorem tileDispatchOp_of_first {s t : State} {e : Entry} (hs : s.ras.stopped = false) (hr : s.running = some e) (hw : waitingRedos s = [])
    (h : dispatchFirst e s = some t) : tileDispatchOp s = t := by
  have none : dispatchRedo e s = none := by simp [dispatchRedo, hw]
  simp [tileDispatchOp, hs, hr, none, h]

/-- The next tile of an eligible band, to the first islet that computes and has a free slot: RESERVE islets take part while no recomputation
waits (R83, R104). -/
theorem dispatchFirst_of_taker {s : State} {e : Entry} {i j b k : Nat} (hw : waitingRedos s = []) (hn : nextFirst s = some (b, k))
    (ht : (takers s (fun n => s.role n == 0 || s.role n == 1)).head? = some (i, j)) :
    dispatchFirst e s = some (checkLate (noteDispatched k (takeSlot i j (newWork s 1 b k e.idx) s))) := by
  obtain ⟨rest, hrest⟩ := List.head?_eq_some_iff.mp ht
  simp [dispatchFirst, hw, hn, hrest]

/-- With no course running, an admission decode goes (R61, R104). -/
theorem tileDispatchOp_of_admission {s t : State} (hr : s.running = none) (h : dispatchAdmission false s = some t) : tileDispatchOp s = t := by
  have idle : (if s.ras.stopped then none else s.running) = none := by rw [hr, ite_self]
  simp [tileDispatchOp, idle, h]

/-- The next tile to check, to the first islet of a role for it with a free slot (R61, R83). -/
theorem dispatchAdmission_of_taker {s : State} {a : Admission} {todo : List (Nat × Nat)} {i j b k : Nat} (ha : s.ing.adm = some a)
    (htodo : a.todo = (b, k) :: todo) (hp : a.paused = false) (ht : (takers s (fun n => s.role n == 2 || s.role n == 0)).head? = some (i, j)) :
    dispatchAdmission false s = some (takeSlot i j (newWork s 3 b k a.idx)
      { s with ing := { s.ing with adm := some { a with todo := todo, flight := (b, k) :: a.flight } } }) := by
  obtain ⟨rest, hrest⟩ := List.head?_eq_some_iff.mp ht
  simp [dispatchAdmission, ha, htodo, hp, hrest]

/-! ### The statement -/

theorem waitingRedos_begin (s : State) : waitingRedos s.begin = waitingRedos s := rfl

theorem redoTaker_begin (s : State) (r : Recompute) : redoTaker s.begin r = redoTaker s r := rfl

theorem nextFirst_begin (s : State) : nextFirst s.begin = nextFirst s := rfl

theorem takers_begin (s : State) (ok : Nat → Bool) : takers s.begin ok = takers s ok := rfl

/-- Settles O21: each kind of work waits for those before it, and takes one slot. -/
theorem tileDispatchOrder : Obligations.TileDispatchOrder := by
  unfold Obligations.TileDispatchOrder
  intro s e i j b k
  refine ⟨fun hs hr r hw ht => completes_of tileDispatchOp rfl ?_, fun hs hr hw hn ht => completes_of tileDispatchOp rfl ?_,
    fun hr a todo ha htodo hp ht => completes_of tileDispatchOp rfl ?_⟩
  · rw [tileDispatchOp_of_redo (s := s.begin) hs hr (dispatchRedo_of_head (by rw [waitingRedos_begin, hw]) (by rw [redoTaker_begin, ht]))]
    exact ⟨by rw [settle_ras]; rfl, Frame.settled _ ((frame_setRas _ _ _).trans (frame_takeSlot _ _ _ _ _))⟩
  · rw [tileDispatchOp_of_first (s := s.begin) hs hr (by rw [waitingRedos_begin, hw])
      (dispatchFirst_of_taker (by rw [waitingRedos_begin, hw]) (by rw [nextFirst_begin, hn]) (by rw [takers_begin]; exact ht))]
    obtain ⟨ts, n, noted⟩ := noteDispatched_eq k (takeSlot i j (newWork s.begin 1 b k e.idx) s.begin)
    rw [noted]
    refine ⟨by rw [settle_ras, checkLate_ras]; rfl, by rw [settle_ras, checkLate_ras]; rfl, by rw [settle_ras, checkLate_ras]; rfl, Frame.settled _ ?_⟩
    exact ((frame_takeSlot _ _ _ _ _).trans (frame_setRas _ _ _)).trans (frame_checkLate _ _ _)
  · rw [tileDispatchOp_of_admission (s := s.begin) hr (dispatchAdmission_of_taker ha htodo hp (by rw [takers_begin]; exact ht))]
    refine ⟨by rw [settle_ras]; rfl, by rw [settle_ras]; rfl, by rw [settle_ing]; rfl, Frame.settled _ ?_⟩
    exact ((frame_setIng [] _ _).mono (by simp) (by simp)).trans ((frame_takeSlot [] _ _ _ _).mono (by simp) (by simp))

end Sys2Proof.Machine
end

section
/-! SUPPORT. What compound steps leave alone, block by block of BAR0 (R451): reads and writes of HBM (R305, R306, R314, R324 to R326) and
the journal (R292). -/

namespace Sys2Proof.Machine

/-! ### Block frames put together -/

theorem BlockFrame.refl (ps : List Part) (bs : List Nat) (s : State) : BlockFrame ps bs s s :=
  ⟨fun p _ => p.same_refl s, fun _ _ _ => rfl⟩

theorem BlockFrame.trans {ps : List Part} {bs : List Nat} {s t u : State} (h : BlockFrame ps bs s t) (k : BlockFrame ps bs t u) :
    BlockFrame ps bs s u :=
  ⟨fun p hp => p.same_trans (h.1 p hp) (k.1 p hp), fun a ha hr => (k.2 a ha hr).trans (h.2 a ha hr)⟩

/-- A block frame with more listed. -/
theorem BlockFrame.mono {ps qs : List Part} {bs cs : List Nat} {s t : State} (h : BlockFrame ps bs s t) (hp : ∀ p ∈ ps, p ∈ qs)
    (hb : ∀ b ∈ bs, b ∈ cs) : BlockFrame qs cs s t :=
  ⟨fun p hq => h.1 p (fun m => hq (hp p m)), fun a ha => h.2 a (fun m => ha (hb _ m))⟩

/-- A frame whose registers lie in the blocks listed. -/
theorem BlockFrame.of_frame {ps : List Part} {rs bs : List Nat} {s t : State} (h : Frame ps rs s t) (hb : ∀ a ∈ rs, a / 65536 ∈ bs) :
    BlockFrame ps bs s t := ⟨h.1, fun a ha => h.2 a (fun m => ha (hb a m))⟩

/-- A change that writes no register. -/
theorem BlockFrame.parts {ps : List Part} {bs : List Nat} {s t : State} (h : Frame ps [] s t) : BlockFrame ps bs s t :=
  BlockFrame.of_frame h (by simp)

/-- A field written in a block listed. -/
theorem BlockFrame.fset (ps : List Part) {bs : List Nat} (s : State) (f : Fld) (v : Nat) (h : f.addr / 65536 ∈ bs) :
    BlockFrame ps bs s (s.fset f v) := BlockFrame.of_frame (Frame.fset _ [f.addr] _ _ _ (by simp)) (by simpa using h)

theorem BlockFrame.setReg (ps : List Part) {bs : List Nat} (s : State) (a : Nat) (w : Word) (h : a / 65536 ∈ bs) :
    BlockFrame ps bs s (s.setReg a w) := BlockFrame.of_frame (Frame.setReg _ [a] _ _ _ (by simp)) (by simpa using h)

theorem BlockFrame.raise (ps : List Part) {bs : List Nat} (s : State) (f : Fld) (h : f.addr / 65536 ∈ bs) :
    BlockFrame ps bs s (s.raise f) := BlockFrame.fset ps s f _ h

theorem BlockFrame.bump (ps : List Part) {bs : List Nat} (s : State) (f : Fld) (h : f.addr / 65536 ∈ bs) :
    BlockFrame ps bs s (s.bump f) := BlockFrame.fset ps s f _ h

theorem BlockFrame.raiseIf (ps : List Part) {bs : List Nat} (s : State) (b : Bool) (f : Fld) (h : f.addr / 65536 ∈ bs) :
    BlockFrame ps bs s (State.raiseIf b f s) := by
  cases b
  · exact BlockFrame.refl ps bs s
  · exact BlockFrame.raise ps s f h

theorem BlockFrame.setPair (ps : List Part) {bs : List Nat} (s : State) (lo hi : Fld) (v : Nat) (hl : lo.addr / 65536 ∈ bs)
    (hh : hi.addr / 65536 ∈ bs) : BlockFrame ps bs s (s.setPair lo hi v) :=
  (BlockFrame.fset ps s lo v hl).trans (BlockFrame.fset ps _ hi _ hh)

theorem BlockFrame.foldl {β : Type} {ps : List Part} {bs : List Nat} (f : State → β → State) (h : ∀ s b, BlockFrame ps bs s (f s b))
    (l : List β) (s : State) : BlockFrame ps bs s (l.foldl f s) :=
  foldl_keeps (fun t => BlockFrame ps bs s t) f (fun t b k => k.trans (h t b)) l s (BlockFrame.refl ps bs s)

/-- A field of a register that lies in no block listed, nor is one that recording writes. -/
theorem BlockFrame.fget {ps : List Part} {bs : List Nat} {s t : State} (h : BlockFrame ps bs s t) (f : Fld) (hb : f.addr / 65536 ∉ bs)
    (hr : recorderReg f.addr = false) : t.fget f = s.fget f := by
  simp only [State.fget, h.2 f.addr hb hr]

/-- The block frame of an effect is the block frame of its command. -/
theorem BlockFrame.settled {ps : List Part} {bs : List Nat} {s u : State} (q : List Instr) (h : BlockFrame ps bs s.begin u) :
    BlockFrame ps bs s { settle s.begin u with pending := q } :=
  ((BlockFrame.parts (Frame.begun ps [] s)).trans h).trans
    ⟨fun p _ => by cases p <;> simp [Part.same], fun a _ hr => settle_reg s.begin u a hr⟩

/-! ### Parts replaced -/

theorem frame_setHbm (rs : List Nat) (s : State) (h : Hbm) : Frame [.hbm] rs s { s with hbm := h } :=
  Frame.parts _ _ _ _ rfl (fun p hp => by cases p <;> simp_all [Part.same])

theorem frame_setArb (rs : List Nat) (s : State) (a : Arbiter) : Frame [.arb] rs s { s with arb := a } :=
  Frame.parts _ _ _ _ rfl (fun p hp => by cases p <;> simp_all [Part.same])

theorem frame_setCrw (rs : List Nat) (s : State) (c : Crews) : Frame [.crw] rs s { s with crw := c } :=
  Frame.parts _ _ _ _ rfl (fun p hp => by cases p <;> simp_all [Part.same])

theorem frame_setInt (rs : List Nat) (s : State) (i : Integrity) : Frame [.int] rs s { s with int := i } :=
  Frame.parts _ _ _ _ rfl (fun p hp => by cases p <;> simp_all [Part.same])

theorem frame_keelWrite (rs : List Nat) (a : Nat) (bs : List Byte) (s : State) : Frame [.keel] rs s (keelWrite a bs s) :=
  Frame.parts _ _ _ _ rfl (fun p hp => by cases p <;> simp_all [Part.same, keelWrite])

/-! ### Repair proposals: the block SRM and the keel store (R325, R326) -/

theorem blockFrame_saveRepair (s : State) : BlockFrame [.keel] [0x0A] s (saveRepair s) := by
  unfold saveRepair
  split
  · exact BlockFrame.refl _ _ s
  · dsimp only
    have taken := BlockFrame.setReg [.keel] s R.SRM_REPAIR_CAND 0#32 (bs := [0x0A]) (by decide)
    split
    · exact taken.trans (BlockFrame.raise _ _ _ (by decide))
    · exact (taken.trans (BlockFrame.parts (frame_keelWrite _ _ _ _))).trans (BlockFrame.raise _ _ _ (by decide))

theorem blockFrame_propose (kind trigger which : Nat) (addr : Word) (s : State) :
    BlockFrame [.keel] [0x0A] s (propose kind trigger which addr s) := by
  unfold propose
  split
  · exact BlockFrame.refl _ _ s
  · dsimp only
    have held (u : State) : BlockFrame [.keel] [0x0A] u (((((u.fset F.SRM_REPAIR_CAND_KIND kind).fset F.SRM_REPAIR_CAND_TRIGGER trigger).fset
        F.SRM_REPAIR_CAND_VALID 1).fset F.SRM_REPAIR_CAND_MACRO_MACRO which).fset F.SRM_REPAIR_CAND_ADDR_ADDR addr.toNat |>.raise
          F.SRM_EVENTS_REPAIR_CAND) :=
      (((((BlockFrame.fset _ _ _ _ (by decide)).trans (BlockFrame.fset _ _ _ _ (by decide))).trans (BlockFrame.fset _ _ _ _ (by decide))).trans
        (BlockFrame.fset _ _ _ _ (by decide))).trans (BlockFrame.fset _ _ _ _ (by decide))).trans (BlockFrame.raise _ _ _ (by decide))
    split
    · exact (held s).trans (blockFrame_saveRepair _)
    · exact held s

/-! ### A word of HBM read: the blocks HBM and SRM (R314, R324, R326) -/

theorem blockFrame_noteCe (ps : List Part) (w : Nat) (s : State) : BlockFrame ps [0x09, 0x0A] s (noteCe w s) := by
  have place : (F.HBM_STK_CE_COUNT (8 * w / 256 % 128 / 32)).addr / 65536 = 0x09 := by
    simp only [F.HBM_STK_CE_COUNT, R.HBM_STK_CE]
    omega
  have stack : (F.HBM_STK_CE_COUNT (8 * w / 256 % 128 / 32)).addr / 65536 ∈ [0x09, 0x0A] := by simp [place]
  exact ((BlockFrame.bump _ _ _ (by decide)).trans (BlockFrame.bump _ _ _ stack)).trans (BlockFrame.raise _ _ _ (by decide))

theorem blockFrame_noteUe (ps : List Part) (scrub : Bool) (port w : Nat) (s : State) : BlockFrame ps [0x09, 0x0A] s (noteUe scrub port w s) :=
  (((BlockFrame.bump _ _ _ (by decide)).trans (BlockFrame.raise _ _ _ (by decide))).trans
    (BlockFrame.setPair _ _ _ _ _ (by decide) (by decide))).trans (BlockFrame.setReg _ _ _ _ (by decide))

theorem blockFrame_countWord (ps : List Part) (s : State) (scrub : Bool) (port w : Nat) :
    BlockFrame ps [0x09, 0x0A] s (s.countWord scrub port w) := by
  unfold State.countWord
  split
  · exact BlockFrame.refl _ _ s
  · exact blockFrame_noteCe ps w s
  · exact blockFrame_noteUe ps scrub port w s

theorem blockFrame_proposeHbm (trigger addr : Nat) (s : State) : BlockFrame [.keel, .mem] [0x09, 0x0A] s (proposeHbm trigger addr s) :=
  (blockFrame_propose ..).mono (by simp) (by simp)

theorem blockFrame_countRow (w : Nat) (s : State) : BlockFrame [.keel, .mem] [0x09, 0x0A] s (countRow w s) := by
  unfold countRow
  dsimp only
  have counted (m : MemAux) : BlockFrame [.keel, .mem] [0x09, 0x0A] s { s with mem := m } :=
    BlockFrame.parts ((frame_setMem [] s m).mono (by simp) (by simp))
  split
  · exact (counted _).trans (blockFrame_proposeHbm _ _ _)
  · exact counted _

theorem blockFrame_noteRead (scrub : Bool) (port w : Nat) (s : State) : BlockFrame [.keel, .mem] [0x09, 0x0A] s (noteRead scrub port w s) := by
  have counted := blockFrame_countWord [.keel, .mem] s scrub port w
  unfold noteRead
  dsimp only
  split
  · exact counted
  · split
    · exact counted
    · exact counted.trans (blockFrame_proposeHbm _ _ _)
  · exact counted.trans (blockFrame_countRow _ _)

/-! ### A word of HBM written, and corrected (R305, R306, R327) -/

theorem blockFrame_putChk (s : State) (w m : Nat) : BlockFrame [.hbm] [0x0A] s (s.putChk w m) := by
  unfold State.putChk
  dsimp only
  split
  · exact BlockFrame.parts (frame_setHbm _ _ _)
  · exact (BlockFrame.parts (frame_setHbm _ _ _)).trans (BlockFrame.fset _ _ _ _ (by decide))

theorem blockFrame_storeWord (s : State) (w m : Nat) (bs : List (Nat × Byte)) : BlockFrame [.hbm] [0x0A] s (s.storeWord w m bs) :=
  (BlockFrame.parts (frame_setHbm _ s _)).trans (blockFrame_putChk _ w m)

theorem blockFrame_correctWord (s : State) (w : Nat) : BlockFrame [.hbm] [0x0A] s (s.correctWord w) := by
  unfold State.correctWord
  split
  · exact blockFrame_storeWord _ _ _ _
  · exact BlockFrame.refl _ _ s

theorem blockFrame_readHbmWord (scrub : Bool) (port w : Nat) (s : State) :
    BlockFrame [.hbm, .keel, .mem] [0x09, 0x0A] s (readHbmWord scrub port w s) :=
  (((blockFrame_noteRead scrub port w s).mono (by simp) (by simp)).trans ((blockFrame_correctWord _ w).mono (by simp) (by simp))).trans
    (BlockFrame.parts ((frame_setMem [] _ _).mono (by simp) (by simp)))

/-- A read of a range of HBM (R314). -/
theorem blockFrame_readHbm (port a n : Nat) (s : State) : BlockFrame [.hbm, .keel, .mem, .arb] [0x09, 0x0A] s (readHbm port a n s) :=
  (BlockFrame.foldl _ (fun t w => (blockFrame_readHbmWord false port w t).mono (by simp) (by simp)) _ s).trans
    (BlockFrame.parts ((frame_setArb [] _ _).mono (by simp) (by simp)))

theorem blockFrame_hbmPutWord (s : State) (port w : Nat) (bs : List (Nat × Byte)) :
    BlockFrame [.hbm, .keel, .mem] [0x09, 0x0A] s (s.hbmPutWord port w bs) := by
  have stored (u : State) (m : Nat) (cs : List (Nat × Byte)) : BlockFrame [.hbm, .keel, .mem] [0x09, 0x0A] u (u.storeWord w m cs) :=
    (blockFrame_storeWord u w m cs).mono (by simp) (by simp)
  unfold State.hbmPutWord
  dsimp only
  split
  · exact stored s 0 bs
  · exact (((blockFrame_noteRead false port w s).mono (by simp) (by simp)).trans (stored _ _ _)).trans (BlockFrame.raiseIf _ _ _ _ (by decide))

theorem blockFrame_hbmWrite (s : State) (port a : Nat) (bs : List Byte) :
    BlockFrame [.hbm, .keel, .mem] [0x09, 0x0A] s (s.hbmWrite port a bs) := by
  unfold State.hbmWrite
  split
  · exact BlockFrame.refl _ _ s
  · refine BlockFrame.foldl _ (fun t w => ?_) _ s
    split
    · exact blockFrame_hbmPutWord _ _ _ _
    · exact BlockFrame.refl _ _ t

/-! ### A client's write: the shadow of the beam map beside it (R143, R144) -/

theorem blockFrame_markEntry (bs : List Nat) (i : Nat) (s : State) : BlockFrame [.banks, .crw] bs s (markEntry i s) := by
  have crews (u : State) (c : Crews) : BlockFrame [.banks, .crw] bs u { u with crw := c } :=
    BlockFrame.parts ((frame_setCrw [] u c).mono (by simp) (by simp))
  unfold markEntry
  dsimp only
  split
  · exact crews s _
  · exact (BlockFrame.parts ((frame_setBank [] s .map _).mono (by simp) (by simp))).trans (crews _ _)

theorem blockFrame_tableIgnored_map (ps : List Part) (s : State) : BlockFrame ps [0x0E, 0x0F] s (tableIgnored .map s) :=
  ((BlockFrame.raise _ _ _ (by decide)).trans (BlockFrame.raise _ _ _ (by decide))).trans (BlockFrame.raise _ _ _ (by decide))

/-- A write of any client leaves what its parts, the marks and the IGNORED reports leave. -/
theorem blockFrame_clientRange {ps : List Part} {bs : List Nat} (hp : ∀ p ∈ [Part.banks, .crw], p ∈ ps) (hb : ∀ b ∈ [0x0E, 0x0F], b ∈ bs)
    (a n : Nat) (put : Nat → Nat → State → State) (h : ∀ x k t, BlockFrame ps bs t (put x k t)) (s : State) :
    BlockFrame ps bs s (clientRange a n put s) := by
  unfold clientRange
  dsimp only
  split
  · exact h _ _ _
  · split
    · exact ((h _ _ _).trans (h _ _ _)).trans ((blockFrame_tableIgnored_map [] _).mono (by simp) hb)
    · exact (h _ _ _).trans (BlockFrame.foldl _ (fun t i => (blockFrame_markEntry [] i t).mono hp (by simp)) _ _)

theorem blockFrame_clientWrite (port a : Nat) (bs : List Byte) (s : State) :
    BlockFrame [.hbm, .keel, .mem, .banks, .crw] [0x09, 0x0A, 0x0E, 0x0F] s (clientWrite port a bs s) :=
  blockFrame_clientRange (by simp) (by simp) _ _ _ (fun _ _ t => (blockFrame_hbmWrite t _ _ _).mono (by simp) (by simp)) s

/-! ### The journal (R292, R293) -/

/-- A journal record is a client's write, and its sequence number is counted on. -/
theorem journal_cases (kind : Nat) (ids : Nat × Nat) (q3 q4 : Nat) (injected : Bool) (s : State) :
    journal kind ids q3 q4 injected s = s ∨ ∃ a bs n,
      journal kind ids q3 q4 injected s = (clientWrite 9 a bs s).setPair F.INT_JRNL_SEQ_LO_SEQ F.INT_JRNL_SEQ_HI_SEQ n := by
  unfold journal
  split
  · exact .inr ⟨_, _, _, rfl⟩
  · exact .inl rfl

theorem blockFrame_journal (kind : Nat) (ids : Nat × Nat) (q3 q4 : Nat) (injected : Bool) (s : State) :
    BlockFrame [.hbm, .keel, .mem, .banks, .crw] [0x09, 0x0A, 0x0E, 0x0F, 0x15] s (journal kind ids q3 q4 injected s) := by
  obtain h | ⟨a, bs, n, h⟩ := journal_cases kind ids q3 q4 injected s <;> rw [h]
  · exact BlockFrame.refl _ _ s
  · exact ((blockFrame_clientWrite 9 a bs s).mono (by simp) (by simp)).trans (BlockFrame.setPair _ _ _ _ _ (by decide) (by decide))

/-- The journal leaves the events of the integrity unit alone. -/
theorem journal_intEvents (kind : Nat) (ids : Nat × Nat) (q3 q4 : Nat) (injected : Bool) (s : State) :
    (journal kind ids q3 q4 injected s).reg R.INT_EVENTS = s.reg R.INT_EVENTS := by
  obtain h | ⟨a, bs, n, h⟩ := journal_cases kind ids q3 q4 injected s <;> rw [h]
  rw [State.setPair, State.reg_fset_ne _ _ _ _ (by decide), State.reg_fset_ne _ _ _ _ (by decide)]
  exact (blockFrame_clientWrite 9 a bs s).2 R.INT_EVENTS (by decide) (by decide)

end Sys2Proof.Machine
end

section
/-! PROOF. Admission: ADMISSION_START and ADMISSION_DONE (R58, R60, R61, R63, R289). -/

namespace Sys2Proof.Machine

/-! ### A source loss at admission (R289) -/

/-- The admission of a course paused by the loss of tile (b, k), or of its index entry while the header section is read (R289). -/
def Admission.pauseAt (b k : Nat) (a : Admission) : Admission :=
  { a with todo := if a.header then a.todo else (b, k) :: a.todo, flight := a.flight.filter (fun q => q != (b, k)), paused := true }

/-- A loss held raises SOURCE_LOSS, and is journalled (R289, R293). -/
theorem holdLoss_spec (l : Loss) (e : Entry) (s : State) :
    (holdLoss l e s).ing = s.ing ∧ (holdLoss l e s).flag F.INT_EVENTS_SOURCE_LOSS = true ∧
      BlockFrame [.int, .hbm, .keel, .mem, .banks, .crw] [0x09, 0x0A, 0x0E, 0x0F, 0x15] s (holdLoss l e s) := by
  have journalled (kind : Nat) (ids : Nat × Nat) (q3 q4 : Nat) (u : State) := blockFrame_journal kind ids q3 q4 false u
  refine ⟨(journalled _ _ _ _ _).1 .queue (by decide), ?_, ?_⟩
  · have raised : (s.raise F.INT_EVENTS_SOURCE_LOSS).flag F.INT_EVENTS_SOURCE_LOSS = true := State.flag_raise_self _ _ (by decide) (by decide)
    rw [← raised]
    simp only [State.flag, State.fget]
    exact congrArg (fun w => fieldOf _ _ w != 0) (journal_intEvents _ _ _ _ _ _)
  · refine ((BlockFrame.raise _ s F.INT_EVENTS_SOURCE_LOSS (by decide)).trans ?_).trans ((journalled _ _ _ _ _).mono (by simp) (by simp))
    exact BlockFrame.parts ((frame_setInt [] _ _).mono (by simp) (by simp))

/-- The admission in progress paused (R289). -/
def pauseAdmission (b k : Nat) (s : State) : State := { s with ing := { s.ing with adm := s.ing.adm.map (Admission.pauseAt b k) } }

/-- A source loss at admission is held where no loss is (R289). -/
theorem foundLoss_atAdmission_eq (e : Entry) (b k : Nat) (r : Nat × Nat × Bool) (s : State) :
    foundLoss e b k r true s = if s.int.loss.isNone then
      holdLoss { addr := r.1, len := r.2.1, band := b, tile := k, entry := e.idx, index := r.2.2, atAdmission := true } e
        (pauseAdmission b k (s.bump F.INT_LOSS_COUNT_COUNT))
      else pauseAdmission b k (s.bump F.INT_LOSS_COUNT_COUNT) := rfl

/-- What the pause and the count of a loss do. -/
theorem pauseAdmission_spec (b k : Nat) (s : State) :
    (pauseAdmission b k (s.bump F.INT_LOSS_COUNT_COUNT)).ing = { s.ing with adm := s.ing.adm.map (Admission.pauseAt b k) } ∧
      (pauseAdmission b k (s.bump F.INT_LOSS_COUNT_COUNT)).flag F.INT_EVENTS_SOURCE_LOSS = s.flag F.INT_EVENTS_SOURCE_LOSS ∧
      BlockFrame [.queue] [0x15] s (pauseAdmission b k (s.bump F.INT_LOSS_COUNT_COUNT)) :=
  have apart : (s.bump F.INT_LOSS_COUNT_COUNT).fget F.INT_EVENTS_SOURCE_LOSS = s.fget F.INT_EVENTS_SOURCE_LOSS :=
    State.fget_fset_other _ _ _ _ (by decide)
  ⟨rfl, congrArg (fun n => n != 0) apart, (BlockFrame.bump _ s _ (by decide)).trans (BlockFrame.parts (frame_setIng [] _ _))⟩

/-- A source loss at admission pauses the admission, and SOURCE_LOSS rises where no loss is held (R289). -/
theorem foundLoss_atAdmission (e : Entry) (b k : Nat) (r : Nat × Nat × Bool) (s : State) :
    (foundLoss e b k r true s).ing = { s.ing with adm := s.ing.adm.map (Admission.pauseAt b k) } ∧
      (foundLoss e b k r true s).flag F.INT_EVENTS_SOURCE_LOSS = (s.int.loss.isNone || s.flag F.INT_EVENTS_SOURCE_LOSS) ∧
      BlockFrame [.queue, .int, .hbm, .keel, .mem, .banks, .crw] [0x09, 0x0A, 0x0E, 0x0F, 0x15] s (foundLoss e b k r true s) := by
  obtain ⟨hing, hflag, hframe⟩ := pauseAdmission_spec b k s
  have paused := hframe.mono (qs := [.queue, .int, .hbm, .keel, .mem, .banks, .crw]) (cs := [0x09, 0x0A, 0x0E, 0x0F, 0x15]) (by simp) (by simp)
  rw [foundLoss_atAdmission_eq]
  cases s.int.loss.isNone with
  | true =>
    rw [if_pos rfl, Bool.true_or]
    obtain ⟨king, kflag, kframe⟩ := holdLoss_spec
      { addr := r.1, len := r.2.1, band := b, tile := k, entry := e.idx, index := r.2.2, atAdmission := true } e
      (pauseAdmission b k (s.bump F.INT_LOSS_COUNT_COUNT))
    exact ⟨king.trans hing, kflag, paused.trans (kframe.mono (by simp) (by simp))⟩
  | false =>
    rw [if_neg Bool.false_ne_true, Bool.false_or]
    exact ⟨hing, hflag, paused⟩

/-! ### ADMISSION_START -/

/-- What an entry keeps of its header section: the size of its work area, and the section where it passed (R58, R61). -/
def Entry.keepHead (w : Option Nat) (h : Option StreamHead) (x : Entry) : Entry :=
  { x with work := w, head := h, spills := (h.map StreamHead.spills).getD false }

/-- The header section of an entry read with an end `r` of its check (R58, R61). -/
def readHeader (e : Entry) (w : Option Nat) (h : Option StreamHead) (r : HeadEnd) (s : State) : State :=
  (readHbm 14 e.base (headReads e r) s).mapEntry e.idx (Entry.keepHead w h)

/-- An admission of an entry as it begins (R61). -/
def newAdmission (e : Entry) : Admission := { idx := e.idx, fail := none, todo := [], flight := [], paused := false, header := false }

/-- An admission put in progress. -/
def State.withAdmission (s : State) (a : Admission) : State := { s with ing := { s.ing with adm := some a } }

/-- What the read of a header section leaves: the entries change in place, so that what the next post takes stays (R59). -/
theorem readHeader_spec (e : Entry) (w : Option Nat) (h : Option StreamHead) (r : HeadEnd) (s : State) :
    (readHeader e w h r s).ing.nextIdx = s.ing.nextIdx ∧ (readHeader e w h r s).ing.nextSeq = s.ing.nextSeq ∧
      BlockFrame [.queue, .hbm, .keel, .mem, .arb] [0x09, 0x0A] s (readHeader e w h r s) := by
  have read := blockFrame_readHbm 14 e.base (headReads e r) s
  unfold readHeader
  generalize readHbm 14 e.base (headReads e r) s = u at read
  have same : u.ing = s.ing := read.1 .queue (by decide)
  exact ⟨by rw [← same]; rfl, by rw [← same]; rfl,
    (read.mono (by simp) (by simp)).trans (BlockFrame.parts ((frame_setIng [] _ _).mono (by simp) (by simp)))⟩

/-- ADMISSION_START once the check of the header section has ended (R61, R289). -/
def startAfter (e : Entry) (w : Option Nat) (s : State) : HeadEnd → State
  | .fails f => (readHeader e w none (.fails f) s).withAdmission { newAdmission e with fail := some f }
  | .lost i off => foundLoss e (i / s.shape.tilesPerBand) (i % s.shape.tilesPerBand) (e.base + off, 16, true) true
      ((readHeader e w none (.lost i off) s).withAdmission { newAdmission e with header := true })
  | .passes h => (readHeader e w (some h) (.passes h) s).withAdmission
      { newAdmission e with todo := if e.preparse then allTiles s.shape h else [] }

/-- The entry due is checked, and its admission begins. The check stands as a variable in the proof, so that nothing evaluates it. -/
theorem admissionStartOp_of_due {s : State} {e : Entry} {w : Option Nat} {r : HeadEnd} (hd : s.headerDue = some e)
    (h : admitHead s e = (w, r)) : admissionStartOp s = startAfter e w s r := by
  obtain ⟨check, hc⟩ := exists_eq (a' := admitHead)
  unfold admissionStartOp startAfter readHeader
  rw [← hc] at h ⊢
  simp only [hd, h]
  cases r <;> rfl

/-- What an ADMISSION_START leaves of the state, and the admission it begins, in every way that the check of the header section ends. -/
structure AdmissionStarts (s : State) (e : Entry) (t : State) (b : Admission) : Prop where
  adm : t.ing.adm = some b
  idx : b.idx = e.idx
  flight : b.flight = []
  next : t.ing.nextIdx = s.ing.nextIdx ∧ t.ing.nextSeq = s.ing.nextSeq
  frame : BlockFrame [.queue, .int, .hbm, .mem, .arb, .keel, .banks, .crw] [0x09, 0x0A, 0x0E, 0x0F, 0x15] s t

/-- An admission put in progress once the header section is read. -/
theorem admissionStarts_with {s u : State} {e : Entry} (b : Admission) (hi : b.idx = e.idx) (hf : b.flight = [])
    (hu : u.ing.nextIdx = s.ing.nextIdx ∧ u.ing.nextSeq = s.ing.nextSeq ∧ BlockFrame [.queue, .hbm, .keel, .mem, .arb] [0x09, 0x0A] s u) :
    AdmissionStarts s e (u.withAdmission b) b where
  adm := rfl
  idx := hi
  flight := hf
  next := ⟨hu.1, hu.2.1⟩
  frame := (hu.2.2.mono (by simp) (by simp)).trans (BlockFrame.parts ((frame_setIng [] _ _).mono (by simp) (by simp)))

/-- A source loss pauses the admission that has begun (R289). -/
theorem AdmissionStarts.lost {s u : State} {e : Entry} {a : Admission} (h : AdmissionStarts s e u a) (b k : Nat) (r : Nat × Nat × Bool) :
    AdmissionStarts s e (foundLoss e b k r true u) (a.pauseAt b k) := by
  obtain ⟨hing, -, hframe⟩ := foundLoss_atAdmission e b k r u
  exact
    { adm := by rw [hing, h.adm]; rfl
      idx := h.idx
      flight := by simp [Admission.pauseAt, h.flight]
      next := by rw [hing]; exact h.next
      frame := h.frame.trans (hframe.mono (by simp) (by simp)) }

/-- SOURCE_LOSS after an index entry that cannot be read: it rises where no loss is held (R289). -/
theorem sourceLoss_lost {s u : State} {e : Entry} (a : Admission) (b k : Nat) (r : Nat × Nat × Bool)
    (hu : BlockFrame [.queue, .hbm, .keel, .mem, .arb] [0x09, 0x0A] s u) :
    (foundLoss e b k r true (u.withAdmission a)).flag F.INT_EVENTS_SOURCE_LOSS =
      (s.int.loss.isNone || s.flag F.INT_EVENTS_SOURCE_LOSS) := by
  obtain ⟨-, hflag, -⟩ := foundLoss_atAdmission e b k r (u.withAdmission a)
  have hint : (u.withAdmission a).int = s.int := hu.1 .int (by decide)
  have hevt : (u.withAdmission a).fget F.INT_EVENTS_SOURCE_LOSS = s.fget F.INT_EVENTS_SOURCE_LOSS :=
    hu.fget F.INT_EVENTS_SOURCE_LOSS (by decide) (by decide)
  rw [hflag, hint, State.flag, hevt, State.flag]

theorem stream_begin (s : State) (e : Entry) : s.begin.stream e = s.stream e := rfl

theorem hbmBad_begin (s : State) : s.begin.hbmBad = s.hbmBad := rfl

theorem workOk_begin (s : State) : workOk s.begin = workOk s := rfl

theorem admitFront_begin (s : State) (e : Entry) : admitFront s.begin e = admitFront s e := by
  unfold admitFront
  rw [stream_begin, workOk_begin, State.begin_shape]

/-- The check of a header section does not rest on the last access. -/
theorem admitHead_begin (s : State) : admitHead s.begin = admitHead s := by
  delta admitHead
  funext e
  rw [admitFront_begin, stream_begin, hbmBad_begin, State.begin_shape, State.begin_flag]

/-- The start of an admission, settled. -/
theorem AdmissionStarts.settled {s t : State} {e : Entry} {b : Admission} (q : List Instr) (h : AdmissionStarts s.begin e t b) :
    AdmissionStarts s e { settle s.begin t with pending := q } b where
  adm := by rw [settle_ing]; exact h.adm
  idx := h.idx
  flight := h.flight
  next := by rw [settle_ing]; exact h.next
  frame := BlockFrame.settled _ h.frame

/-! ### ADMISSION_DONE -/

/-- An admission with every check made and no error (R61). -/
theorem admissionDoneOp_ready {s : State} {a : Admission} (ha : s.ing.adm = some a) (hf : a.fail = none) (ht : a.todo = [])
    (hl : a.flight = []) (hp : a.paused = false) (hh : a.header = false) :
    admissionDoneOp s = { s with ing := { s.ing with
      adm := none, queue := s.ing.queue.map (fun x => if x.idx = a.idx then { x with state := .ready } else x) } } := by
  simp only [admissionDoneOp, ha, hf, ht, hl, hp, hh]
  rfl

/-- A queue entry with the first error of its admission (R53, R63). -/
def Entry.failed (f : AdmitFail) (x : Entry) : Entry :=
  { x with state := .failed, err := layoutCode f.err, band := f.band, tile := f.tile, off := f.off, inHeader := f.inHeader }

/-- An admission that failed, with no decode of it in flight (R61, R63). -/
theorem admissionDoneOp_failed {s : State} {a : Admission} {f : AdmitFail} (ha : s.ing.adm = some a) (hf : a.fail = some f)
    (hl : a.flight = []) : admissionDoneOp s = (dropAdmission (s.mapEntry a.idx (Entry.failed f))).raise F.ING_EVENTS_ADMIT_FAIL := by
  simp only [admissionDoneOp, ha, hf, hl]
  rfl

/-- Settles O16: the check of the header section ends in one of three ways, and each leaves one admission; an admission whose checks are made
is over. -/
theorem admissionCommands : Obligations.AdmissionCommands := by
  unfold Obligations.AdmissionCommands
  intro s e a f
  refine ⟨fun hnone hfind => completes_of admissionStartOp rfl ?_, fun ha hf ht hl hp hh => completes_of admissionDoneOp rfl ?_,
    fun ha hf hl => completes_of admissionDoneOp rfl ?_⟩
  · have due : s.begin.headerDue = some e := by
      rw [State.headerDue, State.begin_ing, hnone]
      exact hfind
    rcases hend : admitHead s e with ⟨w, r⟩
    rw [admissionStartOp_of_due due (by rw [admitHead_begin, hend])]
    cases r with
    | fails g =>
      obtain ⟨hadm, hidx, hflight, hnext, hframe⟩ :=
        (admissionStarts_with { newAdmission e with fail := some g } rfl rfl (readHeader_spec _ _ _ _ _)).settled s.pending
      exact ⟨⟨_, hadm, hidx, hflight, fun g' hg => by cases hg; exact ⟨rfl, rfl⟩, nofun, nofun⟩, hnext.1, hnext.2, hframe⟩
    | lost i off =>
      obtain ⟨hadm, hidx, hflight, hnext, hframe⟩ :=
        ((admissionStarts_with { newAdmission e with header := true } rfl rfl (readHeader_spec _ _ _ _ _)).lost _ _ _).settled s.pending
      refine ⟨⟨_, hadm, hidx, hflight, nofun, fun o p _ => ⟨rfl, rfl, rfl, ?_⟩, nofun⟩, hnext.1, hnext.2, hframe⟩
      rw [flag_settled _ _ _ _ rfl, startAfter, sourceLoss_lost _ _ _ _ (readHeader_spec _ _ _ _ _).2.2, State.begin_int, State.begin_flag]
    | passes h =>
      obtain ⟨hadm, hidx, hflight, hnext, hframe⟩ := (admissionStarts_with
        { newAdmission e with todo := if e.preparse then allTiles s.begin.shape h else [] } rfl rfl (readHeader_spec _ _ _ _ _)).settled s.pending
      exact ⟨⟨_, hadm, hidx, hflight, nofun, nofun, fun h' hh => by cases hh; exact ⟨rfl, rfl, rfl⟩⟩, hnext.1, hnext.2, hframe⟩
  · rw [admissionDoneOp_ready (s := s.begin) ha hf ht hl hp hh]
    exact ⟨by rw [settle_ing]; rfl, Frame.settled _ (frame_setIng _ _ _)⟩
  · obtain ⟨i, hi⟩ := dropAdmission_eq (s.begin.mapEntry a.idx (Entry.failed f))
    rw [admissionDoneOp_failed (s := s.begin) ha hf hl, hi]
    refine ⟨by rw [settle_ing]; rfl, by rw [settle_ing]; rfl, ?_, Frame.settled _ ?_⟩
    · rw [flag_settled _ _ _ _ rfl]
      exact State.flag_raise_self _ _ (by decide) (by decide)
    · exact (frame_setQueueRasInt _ _ _ _ _).trans (Frame.raise _ _ _ _ (by simp [F.ING_EVENTS_ADMIT_FAIL]))

end Sys2Proof.Machine
end

section
/-! PROOF. The end of an admission decode (R61, R72, R105) for an entry whose number is none of the eight of R57. -/

namespace Sys2Proof.Machine

/-- A course of eight bands, its tile index at the start of its stream (R41, R42). -/
def zeroHead : StreamHead :=
  { lengthPx := 512, plateId := 1, courseNo := 1, passes := 1, poly := List.replicate 20 0, classes := [{ dose := 1024, bse := false }]
    blocks := [{ offX := 0, offY := 0, scale := 32768 }], indexAt := 0, headEnd := 512, spills := false }

/-- The number of the entry: its SLZ_TILE_ERR register would lie at 0x170000 (R72). -/
def strayEntry : Nat := 0xAFF0

/-- The decode of its tile (0, 0) for admission (R61). -/
def strayWork : IsletWork := { kind := 3, band := 0, tile := 0, entry := strayEntry, since := 0, overrun := false }

/-- A device with HBM in use and zeroed, and that entry in admission; the decode is in flight in islet 1. -/
def strayAdmission : State :=
  let s := State.reset.fset F.HBM_STATUS_READY 1
  { s with
    shape := { shapeDefault with cols := 8, rows := 8, tile := 64 }
    hbm := { bytes := [], chk := [], hazes := [] }
    ing := { s.ing with
      queue := [{ readyEntry with idx := strayEntry, state := .admitting, head := some zeroHead }]
      adm := some { idx := strayEntry, fail := none, todo := [], flight := [(0, 0)], paused := false, header := false } }
    ras := { s.ras with slots := [(2, strayWork)] } }

theorem strayAdmission_holds : (Instr.tileComputeDone 1 0 .pass).wf = true ∧ strayAdmission.slotWork 1 0 = some strayWork := by
  decide +kernel

/-- The decode fails in the codec, and its report names islet 1 and ILLEGAL_CODE (R70, R72). -/
theorem strayAdmission_reported : (tileComputeDoneOp 1 0 .pass strayAdmission.begin).reg (R.SLZ_TILE_ERR strayEntry) = 5#32 ∧
    strayAdmission.reg (R.SLZ_TILE_ERR strayEntry) = 0#32 := by
  decide +kernel

/-- Refutes O22: nothing in the statement keeps the number of an entry below 8. The report of a failed decode for the admission of an entry
45,040 goes to 0x170000, in a block that the frame of the statement does not exempt. A POST gives numbers 0 to 7 alone, so that no run from
reset reaches the state. -/
theorem not_tileComputationsEndTheirSlot : ¬ Obligations.TileComputationsEndTheirSlot := by
  unfold Obligations.TileComputationsEndTheirSlot
  intro h
  obtain ⟨hwf, hslot⟩ := strayAdmission_holds
  obtain ⟨hafter, hbefore⟩ := strayAdmission_reported
  obtain ⟨t, ht, -, -, -, -, hframe⟩ := h strayAdmission 1 0 .pass strayWork hwf hslot
  obtain rfl := Host.Outcome.next.inj (ht.symm.trans (done_next (tileComputeDoneOp 1 0 .pass) strayAdmission))
  have same := hframe.2 (R.SLZ_TILE_ERR strayEntry) (by decide) (by decide)
  rw [reg_settled _ _ _ _ (by decide), hafter, hbefore] at same
  exact absurd same (by decide)

end Sys2Proof.Machine
end

section
/-! SUPPORT. What the SLZ job engine leaves alone, and how a job ends (R74 to R82, R300). -/

namespace Sys2Proof.Machine

/-! ### Result blocks (R300) -/

@[simp] theorem State.result_setResult_self (s : State) (a : Nat) (b : ResultBlock) : (s.setResult a b).result a = b :=
  sparseGet_put_self _ _ _ _

/-- A result block replaced touches no register and no other part. -/
theorem frame_setResult (rs : List Nat) (s : State) (a : Nat) (b : ResultBlock) : Frame [.results] rs s (s.setResult a b) :=
  Frame.parts _ _ _ _ rfl (fun p hp => by cases p <;> simp_all [Part.same])

/-- A result block shows a result once one has been posted to it. -/
theorem postBlock_visible (b : ResultBlock) (fields : List (Nat × Word)) : (postBlock b fields).2.vis.isSome = true := by
  obtain ⟨vis, beh⟩ := b
  cases vis with
  | none => rfl
  | some v => cases beh <;> rfl

/-! ### The job, and the end of one -/

theorem frame_setSlz (rs : List Nat) (s : State) (j : Option SlzJob) : Frame [.slz] rs s { s with slz := j } :=
  Frame.parts _ _ _ _ rfl (fun p hp => by cases p <;> simp_all [Part.same])

/-- The fields of a job's result: CODE and ENTRY, and the two words of USED (R77, R78). -/
def slzFields (code entry used : Nat) : List (Nat × Word) :=
  [(R.SLZ_RESULT, BitVec.ofNat 32 (code * 16 + entry % 4096 * 1024)), (R.SLZ_RESULT_USED_LO, BitVec.ofNat 32 used),
    (R.SLZ_RESULT_USED_HI, BitVec.ofNat 32 (used / 2 ^ 32))]

/-- A job's end is one result posted, JOB_DONE raised, and no job left. -/
theorem slzResult_eq (code entry used : Nat) (s : State) :
    slzResult code entry used s = { (s.setResult R.SLZ_RESULT (postBlock (s.result R.SLZ_RESULT) (slzFields code entry used)).2).raise
      F.SLZ_EVENTS_JOB_DONE with slz := none } := rfl

@[simp] theorem slzResult_slz (code entry used : Nat) (s : State) : (slzResult code entry used s).slz = none := rfl

@[simp] theorem slzResult_result (code entry used : Nat) (s : State) :
    (slzResult code entry used s).result R.SLZ_RESULT = (postBlock (s.result R.SLZ_RESULT) (slzFields code entry used)).2 :=
  State.result_setResult_self s _ _

@[simp] theorem slzResult_jobDone (code entry used : Nat) (s : State) :
    (slzResult code entry used s).flag F.SLZ_EVENTS_JOB_DONE = true :=
  State.flag_raise_self (s.setResult _ _) _ (by decide) (by decide)

theorem frame_slzResult (code entry used : Nat) (s : State) :
    Frame [.slz, .results] [R.SLZ_EVENTS] s (slzResult code entry used s) := by
  rw [slzResult_eq]
  exact (((frame_setResult [] s _ _).mono (by simp) (by simp)).trans (Frame.raise _ _ _ _ (by simp [F.SLZ_EVENTS_JOB_DONE]))).trans
    ((frame_setSlz [] _ _).mono (by simp) (by simp))

/-- Settling leaves the result blocks alone. -/
theorem result_settled (s0 u : State) (q : List Instr) (a : Nat) :
    ({ settle s0 u with pending := q } : State).result a = u.result a := by
  simp [State.result]

theorem State.result_congr {s t : State} (h : t.results = s.results) (a : Nat) : t.result a = s.result a := by
  simp only [State.result, h]

/-! ### What the entries of a job write (R65, R75 to R79) -/

/-- The parts that a job changes beside its own and its result. -/
def codecParts : List Part := [.hbm, .mem, .arb, .keel, .banks, .crw, .free]

/-- The blocks of BAR0 whose registers the entries of a job change: HBM, SRM, ING, DOS and CRW. -/
def codecBlocks : List Nat := [0x09, 0x0A, 0x0B, 0x0E, 0x0F]

theorem blockFrame_codecRead (port a n : Nat) (s : State) : BlockFrame codecParts codecBlocks s (readHbm port a n s) :=
  (blockFrame_readHbm port a n s).mono (by simp [codecParts]) (by simp [codecBlocks])

theorem blockFrame_codecWrite (port a : Nat) (bs : List Byte) (s : State) :
    BlockFrame codecParts codecBlocks s (clientWrite port a bs s) :=
  (blockFrame_clientWrite port a bs s).mono (by simp [codecParts]) (by simp [codecBlocks])

theorem blockFrame_fenceHit (ps : List Part) (s : State) : BlockFrame ps [0x0B] s (fenceHit s) :=
  (BlockFrame.bump ps s _ (by decide)).trans (BlockFrame.raise ps _ _ (by decide))

/-- A write under the fence is the client's write of the bytes outside it (R65). -/
theorem blockFrame_fencedWrite (port a : Nat) (bs : List Byte) (s : State) :
    BlockFrame codecParts codecBlocks s (fencedWrite port a bs s) := by
  have writes (rs : List (Nat × List Byte)) : BlockFrame codecParts codecBlocks s (rs.foldl (fun t r => clientWrite port r.1 r.2 t) s) :=
    BlockFrame.foldl _ (fun t r => blockFrame_codecWrite port r.1 r.2 t) rs s
  unfold fencedWrite
  dsimp only
  split
  · exact (writes _).trans ((blockFrame_fenceHit codecParts _).mono (by simp) (by simp [codecBlocks]))
  · exact blockFrame_codecWrite port a bs s

theorem blockFrame_jobPut (j : SlzJob) (r : JobRun) (bs : List Byte) : BlockFrame codecParts codecBlocks r.st (jobPut j r bs).st := by
  unfold jobPut
  dsimp only
  split
  · exact blockFrame_fencedWrite _ _ _ _
  · exact blockFrame_codecWrite _ _ _ _

/-- What an entry of a job does to the state: nothing once the job is stopped, a read of its source, or the read and one output. -/
theorem jobStep_st (j : SlzJob) (r : JobRun) (i : Nat) :
    (jobStep j r i).st = r.st ∨ ∃ a n, (jobStep j r i).st = readHbm 12 a n r.st ∨
      ∃ bs, (jobStep j r i).st = (jobPut j { r with st := readHbm 12 a n r.st } bs).st := by
  unfold jobStep
  split
  · exact .inl rfl
  · refine .inr ⟨(jobEntry r.st j.table i).src, (jobEntry r.st j.table i).len, ?_⟩
    dsimp only
    split
    · exact .inl rfl
    next src _ =>
      cases j.decompress with
      | true =>
        simp only [if_true]
        split
        · exact .inl rfl
        · exact .inr ⟨_, rfl⟩
      | false =>
        simp only [Bool.false_eq_true, if_false]
        split
        · exact .inl rfl
        · split
          · exact .inl rfl
          · exact .inr ⟨_, rfl⟩

theorem blockFrame_jobStep (j : SlzJob) (r : JobRun) (i : Nat) : BlockFrame codecParts codecBlocks r.st (jobStep j r i).st := by
  obtain h | ⟨a, n, h | ⟨bs, h⟩⟩ := jobStep_st j r i <;> rw [h]
  · exact BlockFrame.refl _ _ _
  · exact blockFrame_codecRead 12 a n _
  · exact (blockFrame_codecRead 12 a n _).trans (blockFrame_jobPut j _ bs)

/-- The entries of a job one after the other. -/
theorem blockFrame_jobRun (j : SlzJob) (is : List Nat) (r : JobRun) :
    BlockFrame codecParts codecBlocks r.st (is.foldl (jobStep j) r).st :=
  foldl_keeps (fun r' : JobRun => BlockFrame codecParts codecBlocks r.st r'.st) (jobStep j)
    (fun r' i h => h.trans (blockFrame_jobStep j r' i)) is r (BlockFrame.refl _ _ _)

/-- The job table written back, row by row (R74). -/
theorem blockFrame_writeBack (table : Nat) (rows : List (Nat × Nat × Nat)) (s : State) : BlockFrame codecParts codecBlocks s
    (rows.foldl (fun t p => clientWrite 12 (table + 32 * p.1 + 16) (leBytes 8 p.2.1 ++ leBytes 8 p.2.2) t) s) :=
  BlockFrame.foldl _ (fun t _ => blockFrame_codecWrite 12 _ _ t) rows s

/-! ### A destination left undefined (R77, R82) -/

theorem blockFrame_fillRange (s : State) (base len : Nat) (hs : List Haze) : BlockFrame [.hbm] [0x0A] s (s.fillRange base len hs) := by
  unfold State.fillRange
  split
  · exact BlockFrame.refl _ _ s
  · dsimp only
    split
    · exact BlockFrame.parts (frame_setHbm _ _ _)
    · exact (BlockFrame.parts (frame_setHbm _ _ _)).trans (blockFrame_putChk _ _ _)

theorem frame_setFree (rs : List Nat) (s : State) (n : Nat) : Frame [.free] rs s { s with free := n } :=
  Frame.parts _ _ _ _ rfl (fun p hp => by cases p <;> simp_all [Part.same])

theorem blockFrame_hazeHbm (raw : Bool) (base len : Nat) (s : State) : BlockFrame [.hbm, .free] [0x0A] s (hazeHbm raw base len s) := by
  unfold hazeHbm
  split
  · exact BlockFrame.refl _ _ s
  · exact (BlockFrame.parts ((frame_setFree [] s _).mono (by simp) (by simp))).trans
      ((blockFrame_fillRange _ _ _ _).mono (by simp) (by simp))

theorem blockFrame_scrambleJob (s : State) : BlockFrame codecParts codecBlocks s (scrambleJob s) := by
  unfold scrambleJob
  split
  next j _ =>
    split
    · exact blockFrame_clientRange (by simp [codecParts]) (by simp [codecBlocks]) _ _ _
        (fun x n t => (blockFrame_hazeHbm false x n t).mono (by simp [codecParts]) (by simp [codecBlocks])) s
    · exact BlockFrame.refl _ _ s
  · exact BlockFrame.refl _ _ s

/-! ### SLZ_JOB_END by the way the job ends -/

theorem slzJobEndOp_of_refused {s : State} {j : SlzJob} {c : Nat} (hj : s.slz = some j) (hc : j.refused = some c) :
    slzJobEndOp s = slzResult (c % 8) (c / 8) 0 s := by
  simp only [slzJobEndOp, hj, hc]

theorem slzJobEndOp_of_abort {s : State} {j : SlzJob} (hj : s.slz = some j) (hr : j.refused = none) (ha : j.abort = true) :
    slzJobEndOp s = slzResult 7 0 0 (scrambleJob s) := by
  simp only [slzJobEndOp, hj, hr, ha, if_true]

/-- However a job ends, it ends with one result, after nothing but reads and writes of HBM, the marks they leave and the fence's report. -/
theorem slzJobEndOp_posts {s : State} {j : SlzJob} (hj : s.slz = some j) : ∃ code entry used u,
    slzJobEndOp s = slzResult code entry used u ∧ BlockFrame codecParts codecBlocks s u := by
  cases hr : j.refused with
  | some c => exact ⟨_, _, _, s, slzJobEndOp_of_refused hj hr, BlockFrame.refl _ _ s⟩
  | none =>
    cases ha : j.abort with
    | true => exact ⟨_, _, _, _, slzJobEndOp_of_abort hj hr ha, blockFrame_scrambleJob s⟩
    | false =>
      simp only [slzJobEndOp, hj, hr, ha, Bool.false_eq_true, if_false]
      have run := blockFrame_jobRun j (List.range j.count) { st := s, tail := 0, rows := [], codec := none, stop := none }
      generalize (List.range j.count).foldl (jobStep j) { st := s, tail := 0, rows := [], codec := none, stop := none } = r at run ⊢
      split
      · exact ⟨_, _, _, _, rfl, blockFrame_scrambleJob s⟩
      · exact ⟨_, _, _, _, rfl, run⟩
      · split
        · exact ⟨_, _, _, _, rfl, run.trans ((blockFrame_fenceHit codecParts _).mono (by simp) (by simp [codecBlocks]))⟩
        · have written := run.trans (blockFrame_writeBack j.table ((List.range j.count).zip r.rows) r.st)
          split
          · exact ⟨_, _, _, _, rfl, written⟩
          · exact ⟨_, _, _, _, rfl, written⟩

end Sys2Proof.Machine
end

section
/-! PROOF. The SLZ codec: SLZ_COMPRESS, SLZ_DECOMPRESS, SLZ_ABORT and SLZ_JOB_END (R74 to R82, R300). -/

namespace Sys2Proof.Machine

/-- Settles O19: however the job ends it posts one result; a job refused does so at once, and one aborted after its destination is given up. -/
theorem codecJobsEndWithTheirResult : Obligations.CodecJobsEndWithTheirResult := by
  unfold Obligations.CodecJobsEndWithTheirResult
  intro s j hj
  refine ⟨completes_of slzJobEndOp rfl ?_, fun c hc => completes_of slzJobEndOp rfl ?_, fun hr ha => completes_of slzJobEndOp rfl ?_⟩
  · obtain ⟨code, entry, used, u, hend, hframe⟩ := slzJobEndOp_posts (s := s.begin) hj
    rw [hend]
    refine ⟨by simp, ?_, ?_, BlockFrame.settled _ ?_⟩
    · rw [flag_settled _ _ _ _ (by decide), slzResult_jobDone]
    · rw [result_settled, slzResult_result]
      exact postBlock_visible _ _
    · exact (hframe.mono (by simp [codecParts]) (by simp [codecBlocks])).trans
        ((BlockFrame.of_frame (bs := [0x0C]) (frame_slzResult _ _ _ _) (by decide)).mono (by simp) (by simp))
  · rw [slzJobEndOp_of_refused (s := s.begin) hj hc]
    refine ⟨?_, Frame.settled _ (frame_slzResult _ _ _ _)⟩
    rw [result_settled, slzResult_result]
    rfl
  · have kept : (scrambleJob s.begin).results = s.results := (blockFrame_scrambleJob s.begin).1 .results (by decide)
    rw [slzJobEndOp_of_abort (s := s.begin) hj hr ha, result_settled, slzResult_result, State.result_congr kept]
    rfl

/-! ### GO and ABORT -/

/-- The job that a GO copies from the job registers, not yet judged (R74, R82). -/
def copiedJob (decompress : Bool) (s : State) : SlzJob where
  decompress := decompress
  table := s.pair F.SLZ_JOB_TABLE_LO_ADDR F.SLZ_JOB_TABLE_HI_ADDR
  count := s.fget F.SLZ_JOB_COUNT_COUNT
  dst := s.pair F.SLZ_JOB_DST_LO_ADDR F.SLZ_JOB_DST_HI_ADDR
  cap := s.pair F.SLZ_JOB_CAP_LO_CAP F.SLZ_JOB_CAP_HI_CAP
  level := s.fget F.SLZ_CTL_LEVEL
  refused := none
  abort := false

/-- The copied job, judged (R77, R81). -/
def judgedJob (decompress : Bool) (s : State) : SlzJob :=
  { copiedJob decompress s with refused := (jobRefusal s (copiedJob decompress s)).map (fun r => r.1 + 8 * r.2) }

/-- A GO while a job runs. -/
theorem slzGoOp_of_busy {s : State} (d : Bool) (h : s.slz.isSome = true) : slzGoOp d s = s.raise F.SLZ_EVENTS_GO_REFUSED := if_pos h

/-- A GO with no job running leaves the judged job, and its table may have been read. -/
theorem slzGoOp_of_idle {s : State} (d : Bool) (h : s.slz = none) : ∃ u,
    slzGoOp d s = { u with slz := some (judgedJob d s) } ∧ BlockFrame [.hbm, .keel, .mem, .arb] [0x09, 0x0A] s u := by
  refine ⟨_, if_neg (by simp [h]), ?_⟩
  split
  · exact blockFrame_readHbm _ _ _ s
  · exact BlockFrame.refl _ _ s

/-- The judgement of a job does not rest on the last access. -/
theorem judgedJob_begin (d : Bool) (s : State) : judgedJob d s.begin = judgedJob d s := rfl

/-- A GO with no job running copies the job registers and judges the job, whichever way it runs. -/
theorem completes_go {c : Instr} {s : State} {d : Bool} (hc : exec c s = done true (slzGoOp d) s) (h : s.slz = none) :
    Completes c s (fun t => t.slz = some (judgedJob d s) ∧ BlockFrame [.slz, .hbm, .mem, .arb, .keel] [0x09, 0x0A] s t) := by
  refine completes_of (slzGoOp d) hc ?_
  obtain ⟨u, hgo, hframe⟩ := slzGoOp_of_idle (s := s.begin) d h
  rw [hgo]
  exact ⟨by simp [judgedJob_begin], BlockFrame.settled _ ((hframe.mono (by simp) (by simp)).trans
    (BlockFrame.parts ((frame_setSlz [] _ _).mono (by simp) (by simp))))⟩

/-- A GO while a job runs raises GO_REFUSED alone, whichever way it would run. -/
theorem completes_goRefused {c : Instr} {s : State} {d : Bool} (hc : exec c s = done true (slzGoOp d) s) (h : s.slz.isSome = true) :
    Completes c s (fun t => t.flag F.SLZ_EVENTS_GO_REFUSED = true ∧ Frame [] [R.SLZ_EVENTS] s t) := by
  refine completes_of (slzGoOp d) hc ?_
  rw [slzGoOp_of_busy (s := s.begin) d h]
  refine ⟨?_, Frame.settled _ (Frame.raise _ _ _ _ (by simp [F.SLZ_EVENTS_GO_REFUSED]))⟩
  rw [flag_settled _ _ _ _ (by decide)]
  exact State.flag_raise_self _ _ (by decide) (by decide)

/-- A completed command meets what its condition implies. -/
theorem Completes.mono {c : Instr} {s : State} {P Q : State → Prop} (h : Completes c s P) (hq : ∀ t, P t → Q t) : Completes c s Q := by
  obtain ⟨t, ht, hp, hP⟩ := h
  exact ⟨t, ht, hp, hq t hP⟩

/-- Settles O18: both GO commands are one operation, which finds a job running or leaves the judged copy of the job registers. -/
theorem codecJobsStart : Obligations.CodecJobsStart := by
  unfold Obligations.CodecJobsStart
  intro s
  refine ⟨fun hnone c hc => ?_, fun hbusy c hc => ?_, completes_of slzAbortOp rfl ⟨by simp [slzAbortOp], Frame.settled _ (frame_setSlz _ _ _)⟩⟩
  · have go : exec c.1 s = done true (slzGoOp c.2) s := by
      obtain rfl | rfl : c = (.slzCompress, false) ∨ c = (.slzDecompress, true) := by simpa using hc
      · rfl
      · rfl
    exact (completes_go go hnone).mono (fun t ht => ⟨⟨_, ht.1, rfl, rfl, rfl, rfl, rfl, rfl, rfl, rfl⟩, ht.2⟩)
  · obtain rfl | rfl : c = .slzCompress ∨ c = .slzDecompress := by simpa using hc
    · exact completes_goRefused (d := false) rfl hbusy
    · exact completes_goRefused (d := true) rfl hbusy

end Sys2Proof.Machine
end

section
/-! PROOF. BAND_ELIGIBLE (R103, R125, R154). -/

namespace Sys2Proof.Machine

/-- A flag cleared does not stand. -/
theorem State.flag_clear_self (s : State) (f : Fld) (h : f.lo + f.width ≤ 32) : (s.clear f).flag f = false := by
  simp [State.flag, State.fget_clear_self s f h]

/-- The wake slots are those of the wake buffer's part. -/
theorem State.wakeSlot_congr {s t : State} (h : t.wak = s.wak) (k : Nat) : t.wakeSlot k = s.wakeSlot k := by
  simp only [State.wakeSlot, h]

/-- The next band made eligible, with its wake slot (R103, R154). -/
def takeBand (s : State) : State :=
  let slots := sparsePut (fun _ => { band := 0, held := false, mask := [] }) (s.ras.eligible % s.shape.wakeSlots)
    { band := s.ras.eligible, held := true, mask := [] } s.wak.slots
  { s with ras := { s.ras with eligible := s.ras.eligible + 1 }, wak := { s.wak with slots := slots } }

/-- BAND_ELIGIBLE of a band that the backscatter map covers (R103, R125). -/
theorem bandEligibleOp_of_covered {s : State} (hw : wouldBeEligible s = true) (hc : s.ras.eligible < s.covered) :
    bandEligibleOp s = (takeBand s).clear F.DOS_STATUS_BSX_WAIT :=
  if_pos (by simp [hw, hc])

/-- The band's wake slot holds it with no tile released, and the other slots stay (R154). -/
theorem wakeSlot_takeBand (s : State) (k : Nat) : (takeBand s).wakeSlot k =
    if k = s.ras.eligible % s.shape.wakeSlots then { band := s.ras.eligible, held := true, mask := [] } else s.wakeSlot k :=
  sparseGet_put _ _ _ _ _

/-- A band made eligible touches no register, and no part but the islets' work and the wake buffer. -/
theorem frame_takeBand (rs : List Nat) (s : State) : Frame [.ras, .wak] rs s (takeBand s) :=
  Frame.parts _ _ _ _ rfl (fun p hp => by cases p <;> simp_all [Part.same, takeBand])

theorem wouldBeEligible_begin (s : State) : wouldBeEligible s.begin = wouldBeEligible s := rfl

theorem covered_begin (s : State) : s.begin.covered = s.covered := rfl

/-- Settles O20: the command is the band taken and one bit cleared. -/
theorem bandsBecomeEligible : Obligations.BandsBecomeEligible := by
  unfold Obligations.BandsBecomeEligible
  intro s hw hc
  refine completes_of bandEligibleOp rfl ?_
  rw [bandEligibleOp_of_covered ((wouldBeEligible_begin s).trans hw) (by rw [covered_begin]; exact hc)]
  have slot (k : Nat) : ({ settle s.begin ((takeBand s.begin).clear F.DOS_STATUS_BSX_WAIT) with pending := s.pending } : State).wakeSlot k =
      (takeBand s.begin).wakeSlot k := State.wakeSlot_congr (by rw [settle_wak, State.clear_wak]) k
  refine ⟨by rw [settle_ras]; rfl, ?_, fun k hk => ?_, ?_, Frame.settled _ ?_⟩
  · rw [slot]
    exact (wakeSlot_takeBand s.begin _).trans (if_pos rfl)
  · rw [slot]
    exact (wakeSlot_takeBand s.begin k).trans (if_neg hk)
  · rw [flag_settled _ _ _ _ rfl, State.flag_clear_self _ _ (by decide)]
  · exact (frame_takeBand _ _).trans (Frame.clear _ _ _ _ (by simp [F.DOS_STATUS_BSX_WAIT]))

end Sys2Proof.Machine
end

section
/-! PROOF. SLOW_TILE (R110), and RAS_PROBE with its answer (R91). -/

namespace Sys2Proof.Machine

/-! ### A slot past the limit -/

/-- A counter increased stops at all ones. -/
theorem State.fget_bump_self (s : State) (f : Fld) (h : f.lo + f.width ≤ 32) : (s.bump f).fget f = satAdd f.width (s.fget f) 1 := by
  have pos : 0 < 2 ^ f.width := Nat.two_pow_pos _
  rw [State.bump, State.add, State.fget_fset_self _ _ _ h, Nat.mod_eq_of_lt]
  unfold satAdd
  omega

/-- What a slot holds is in the islets' part. -/
theorem State.slotWork_congr {s t : State} (h : t.ras = s.ras) (i j : Nat) : t.slotWork i j = s.slotWork i j := by
  simp only [State.slotWork, h]

/-- The work of a slot marked as past the limit (R110). -/
def markOverrun (i j : Nat) (s : State) : State :=
  { s with ras := { s.ras with slots := s.ras.slots.map (fun (p : Nat × IsletWork) =>
      if p.1 = 2 * i + j then (p.1, { p.2 with overrun := true }) else p) } }

/-- The mark goes to the work that the slot holds. -/
theorem slotWork_markOverrun {i j : Nat} {w : IsletWork} {s : State} (h : s.slotWork i j = some w) :
    (markOverrun i j s).slotWork i j = some { w with overrun := true } := by
  obtain ⟨p, found, rfl⟩ := Option.map_eq_some_iff.mp h
  have key : p.1 = 2 * i + j := by simpa using List.find?_some found
  have sameKey : ((fun q : Nat × IsletWork => q.1 == 2 * i + j) ∘ fun q =>
      if q.1 = 2 * i + j then (q.1, { q.2 with overrun := true }) else q) = fun q => q.1 == 2 * i + j := by
    funext q
    by_cases hq : q.1 = 2 * i + j <;> simp [hq]
  simp only [State.slotWork, markOverrun, List.find?_map, sameKey, found, Option.map_some, if_pos key]

/-- SLOW_TILE of work that passes the limit now (R110). -/
theorem slowTileOp_of_passing {i j : Nat} {w : IsletWork} {s : State} (hw : s.slotWork i j = some w) (hl : s.fget F.RAS_SLOW_LIMIT_LIMIT ≠ 0)
    (ho : w.overrun = false) : slowTileOp i j s =
      ((markOverrun i j (s.until (w.since + s.fget F.RAS_SLOW_LIMIT_LIMIT * ticksPerUs))).bump (F.RAS_ISLET_SLOW_COUNT i)).raise
        F.RAS_EVENTS_SLOW_TILE := by
  simp [slowTileOp, hw, hl, ho, markOverrun]

/-- The clock moved on touches no register and no other part. -/
theorem frame_until (rs : List Nat) (s : State) (t : Int) : Frame [.clock] rs s (s.until t) :=
  Frame.parts _ _ _ _ rfl (fun p hp => by cases p <;> simp_all [Part.same])

/-- An islet's count of slow tiles is no register that recording writes. -/
theorem recorderReg_slow {i : Nat} (hi : i < 128) : recorderReg (F.RAS_ISLET_SLOW_COUNT i).addr = false := by
  apply recorderReg_of_block <;> simp only [F.RAS_ISLET_SLOW_COUNT, R.RAS_ISLET_SLOW] <;> omega

/-- An islet's count of slow tiles does not lie in the register of the islets' events. -/
theorem slowCount_apart (i : Nat) : (F.RAS_ISLET_SLOW_COUNT i).addr ≠ F.RAS_EVENTS_SLOW_TILE.addr := by
  simp only [F.RAS_ISLET_SLOW_COUNT, R.RAS_ISLET_SLOW, F.RAS_EVENTS_SLOW_TILE, R.RAS_EVENTS]
  omega

/-- A tile that passes the limit moves the clock to it, and is marked, counted and reported (R110). -/
theorem completes_slowTile {s : State} {i j : Nat} {w : IsletWork} (hi : i < 128) (hj : j < 2) (hw : s.slotWork i j = some w)
    (hl : s.fget F.RAS_SLOW_LIMIT_LIMIT ≠ 0) (ho : w.overrun = false) :
    Completes (.slowTile i j) s (fun t => t.clock = max s.clock (w.since + s.fget F.RAS_SLOW_LIMIT_LIMIT * 64000) ∧
      t.slotWork i j = some { w with overrun := true } ∧ t.flag F.RAS_EVENTS_SLOW_TILE = true ∧
      t.fget (F.RAS_ISLET_SLOW_COUNT i) = satAdd (F.RAS_ISLET_SLOW_COUNT i).width (s.fget (F.RAS_ISLET_SLOW_COUNT i)) 1 ∧
      Frame [.clock, .ras] [R.RAS_ISLET_SLOW i, R.RAS_EVENTS] s t) := by
  refine completes_of_wf (slowTileOp i j) rfl (decide_eq_true ⟨hi, hj⟩) ?_
  rw [slowTileOp_of_passing (s := s.begin) hw hl ho]
  refine ⟨by rw [settle_clock]; rfl, ?_, ?_, ?_, Frame.settled _ ?_⟩
  · refine (State.slotWork_congr (s := markOverrun i j s.begin) ?_ i j).trans (slotWork_markOverrun (s := s.begin) hw)
    rw [settle_ras, State.raise_ras, State.bump_ras]
    rfl
  · rw [flag_settled _ _ _ _ rfl]
    exact State.flag_raise_self _ _ (by decide) (by decide)
  · rw [fget_settled _ _ _ _ (recorderReg_slow hi), State.raise, State.fget_fset_other _ _ _ _ (.inl (slowCount_apart i)),
      State.fget_bump_self _ _ (by simp [F.RAS_ISLET_SLOW_COUNT])]
    rfl
  · exact ((((frame_until _ _ _).mono (by simp) (fun _ h => h)).trans ((frame_setRas _ _ _).mono (by simp) (fun _ h => h))).trans
      (Frame.bump _ _ _ _ (by simp [F.RAS_ISLET_SLOW_COUNT]))).trans (Frame.raise _ _ _ _ (by simp [F.RAS_EVENTS_SLOW_TILE]))

/-! ### The coefficients of a tile named -/

/-- A number placed in a width has at most that many bits. -/
theorem unsignedOf_lt (width : Nat) (v : Int) : unsignedOf width v < 2 ^ width := by
  have pos : (0 : Int) < (2 ^ width : Nat) := by exact_mod_cast Nat.two_pow_pos width
  rw [unsignedOf, Int.toNat_lt (Int.emod_nonneg _ pos.ne')]
  exact Int.emod_lt_of_pos _ pos

/-- The coefficients shown in the registers of the probe (R91). -/
def showPlacement (p : Placement) (s : State) : State :=
  (((((s.setPair F.RAS_PROBE_A0_LO_A0 F.RAS_PROBE_A0_HI_A0 (unsignedOf 64 p.a0)).setPair
    F.RAS_PROBE_B0_LO_B0 F.RAS_PROBE_B0_HI_B0 (unsignedOf 64 p.b0)).fsetI F.RAS_PROBE_A1_A1 p.a1).fsetI F.RAS_PROBE_A2_A2 p.a2).fsetI
      F.RAS_PROBE_B1_B1 p.b1).fsetI F.RAS_PROBE_B2_B2 p.b2

/-- The probe's answer: VALID with ERROR as given, and no probe waiting (R91). -/
def answerProbe (error : Bool) (s : State) : State :=
  let u := (s.fset F.RAS_PROBE_STATUS_ERROR (bitOf error)).fset F.RAS_PROBE_STATUS_VALID 1
  { u with ras := { u.ras with probe := none } }

/-- The header that a probe of an entry goes by: an admitted one (R91). -/
def probeHead (s : State) (e : Nat) : Option StreamHead := (s.entry e).bind (fun x => if x.state = .admitting then none else x.head)

theorem probeHead_begin (s : State) (e : Nat) : probeHead s.begin e = probeHead s e := rfl

/-- RAS_PROBE_DONE of an entry with an admitted header (R91). -/
theorem rasProbeDoneOp_of_head {s : State} {b k e : Nat} {h : StreamHead} (hp : s.ras.probe = some (b, k, e)) (hh : probeHead s e = some h) :
    rasProbeDoneOp s = answerProbe false (showPlacement (tilePlacement h.poly s.shape.tile b k) s) := by
  unfold probeHead at hh
  simp only [rasProbeDoneOp, hp, hh, Option.isNone_some, answerProbe, showPlacement]

/-- RAS_PROBE_DONE of an entry with no admitted header (R91). -/
theorem rasProbeDoneOp_of_no_head {s : State} {b k e : Nat} (hp : s.ras.probe = some (b, k, e)) (hh : probeHead s e = none) :
    rasProbeDoneOp s = answerProbe true (showPlacement { a0 := 0, a1 := 0, a2 := 0, b0 := 0, b1 := 0, b2 := 0, xc := 0, yc := 0 } s) := by
  unfold probeHead at hh
  simp only [rasProbeDoneOp, hp, hh, Option.isNone_none, answerProbe, showPlacement]

/-- Each coefficient stands in its register, those of 64 bits in two (R4, R91). -/
def ShowsPlacement (p : Placement) (t : State) : Prop :=
  t.fget F.RAS_PROBE_A0_LO_A0 = unsignedOf 64 p.a0 % 2 ^ 32 ∧ t.fget F.RAS_PROBE_A0_HI_A0 = unsignedOf 64 p.a0 / 2 ^ 32 ∧
  t.fget F.RAS_PROBE_A1_A1 = unsignedOf 32 p.a1 ∧ t.fget F.RAS_PROBE_A2_A2 = unsignedOf 32 p.a2 ∧
  t.fget F.RAS_PROBE_B0_LO_B0 = unsignedOf 64 p.b0 % 2 ^ 32 ∧ t.fget F.RAS_PROBE_B0_HI_B0 = unsignedOf 64 p.b0 / 2 ^ 32 ∧
  t.fget F.RAS_PROBE_B1_B1 = unsignedOf 32 p.b1 ∧ t.fget F.RAS_PROBE_B2_B2 = unsignedOf 32 p.b2

/-- No coefficient is cut by its registers: each is at least as wide as the number placed in it. -/
theorem showsPlacement_showPlacement (p : Placement) (s : State) : ShowsPlacement p (showPlacement p s) := by
  have high (v : Int) : unsignedOf 64 v / 2 ^ 32 % 2 ^ 32 = unsignedOf 64 v / 2 ^ 32 :=
    Nat.mod_eq_of_lt (Nat.div_lt_of_lt_mul (unsignedOf_lt 64 v))
  have whole (v : Int) : unsignedOf 32 v % 2 ^ 32 = unsignedOf 32 v := Nat.mod_eq_of_lt (unsignedOf_lt 32 v)
  unfold showPlacement State.setPair State.fsetI
  refine ⟨?_, Eq.trans ?_ (high p.a0), Eq.trans ?_ (whole p.a1), Eq.trans ?_ (whole p.a2), ?_, Eq.trans ?_ (high p.b0),
    Eq.trans ?_ (whole p.b1), Eq.trans ?_ (whole p.b2)⟩ <;>
    simp (disch := decide) only [State.fget_fset_other, State.fget_fset_self] <;> rfl

/-- The registers that show a tile's coefficients (R91). -/
def placementRegs : List Nat :=
  [R.RAS_PROBE_A0_LO, R.RAS_PROBE_A0_HI, R.RAS_PROBE_A1, R.RAS_PROBE_A2, R.RAS_PROBE_B0_LO, R.RAS_PROBE_B0_HI, R.RAS_PROBE_B1, R.RAS_PROBE_B2]

/-- The coefficients shown stand in those registers alone. -/
theorem ShowsPlacement.congr {p : Placement} {s t : State} (k : ShowsPlacement p s) (h : ∀ a ∈ placementRegs, t.reg a = s.reg a) :
    ShowsPlacement p t := by
  have field (f : Fld) (hf : f.addr ∈ placementRegs) : t.fget f = s.fget f := by simp only [State.fget, h _ hf]
  simpa (disch := decide) only [ShowsPlacement, field] using k

theorem frame_showPlacement (ps : List Part) (p : Placement) (s : State) : Frame ps placementRegs s (showPlacement p s) := by
  unfold showPlacement State.setPair State.fsetI
  have set (u : State) (f : Fld) (v : Nat) (h : f.addr ∈ placementRegs) : Frame ps placementRegs u (u.fset f v) := Frame.fset _ _ _ _ _ h
  exact (((((((set _ _ _ (by decide)).trans (set _ _ _ (by decide))).trans (set _ _ _ (by decide))).trans (set _ _ _ (by decide))).trans
    (set _ _ _ (by decide))).trans (set _ _ _ (by decide))).trans (set _ _ _ (by decide))).trans (set _ _ _ (by decide))

theorem flags_answerProbe (error : Bool) (s : State) :
    (answerProbe error s).flag F.RAS_PROBE_STATUS_VALID = true ∧ (answerProbe error s).flag F.RAS_PROBE_STATUS_ERROR = error := by
  have valid : (answerProbe error s).fget F.RAS_PROBE_STATUS_VALID = 1 := State.fget_fset_self _ _ _ (by decide)
  have err : (answerProbe error s).fget F.RAS_PROBE_STATUS_ERROR = bitOf error % 2 :=
    (State.fget_fset_other _ _ _ _ (by decide)).trans (State.fget_fset_self _ _ _ (by decide))
  rw [State.flag, State.flag, valid, err]
  cases error <;> exact ⟨rfl, rfl⟩

/-- The answer writes the status of the probe alone. -/
theorem frame_answerProbe (rs : List Nat) (error : Bool) (s : State) : Frame [.ras] (R.RAS_PROBE_STATUS :: rs) s (answerProbe error s) :=
  ((Frame.fset _ _ _ _ _ (by simp [F.RAS_PROBE_STATUS_ERROR])).trans (Frame.fset _ _ _ _ _ (by simp [F.RAS_PROBE_STATUS_VALID]))).trans
    (frame_setRas _ _ _)

/-- The registers of the coefficients are neither the status of the probe nor registers that recording writes. -/
theorem placementRegs_apart : ∀ a ∈ placementRegs, a ∉ [R.RAS_PROBE_STATUS] ∧ recorderReg a = false := by decide

/-- A probe answered shows the coefficients, VALID and ERROR as given, and waits no longer (R91). -/
theorem completes_rasProbeDone {s : State} {error : Bool} {p : Placement}
    (h : rasProbeDoneOp s.begin = answerProbe error (showPlacement p s.begin)) : Completes .rasProbeDone s (fun t =>
      t.ras = { s.ras with probe := none } ∧ t.flag F.RAS_PROBE_STATUS_VALID = true ∧ t.flag F.RAS_PROBE_STATUS_ERROR = error ∧
      ShowsPlacement p t ∧ Frame [.ras] (R.RAS_PROBE_STATUS :: placementRegs) s t) := by
  refine completes_of rasProbeDoneOp rfl ?_
  rw [h]
  obtain ⟨hvalid, herror⟩ := flags_answerProbe error (showPlacement p s.begin)
  refine ⟨by rw [settle_ras]; rfl, by rw [flag_settled _ _ _ _ rfl, hvalid], by rw [flag_settled _ _ _ _ rfl, herror],
    (showsPlacement_showPlacement p s.begin).congr (fun a ha => ?_), Frame.settled _ ?_⟩
  · obtain ⟨hstatus, hrec⟩ := placementRegs_apart a ha
    rw [reg_settled _ _ _ _ hrec, (frame_answerProbe [] error _).2 a hstatus hrec]
  · exact ((frame_showPlacement _ _ _).mono (fun _ h => h) (fun _ h => List.mem_cons_of_mem _ h)).trans (frame_answerProbe _ _ _)

/-- A probe of a tile clears VALID and keeps its name (R91). -/
theorem completes_rasProbe {s : State} {b k e : Nat} (hb : b < 65536) (hk : k < 32) (he : e < 8) : Completes (.rasProbe b k e) s (fun t =>
    t.ras = { s.ras with probe := some (b, k, e) } ∧ t.flag F.RAS_PROBE_STATUS_VALID = false ∧ Frame [.ras] [R.RAS_PROBE_STATUS] s t) := by
  refine completes_of_wf (rasProbeOp b k e) rfl (decide_eq_true ⟨hb, hk, he⟩) ⟨by rw [settle_ras]; rfl, ?_, Frame.settled _ ?_⟩
  · rw [flag_settled _ _ _ _ rfl]
    exact State.flag_clear_self s.begin _ (by decide)
  · exact (Frame.clear _ _ _ _ (by simp [F.RAS_PROBE_STATUS_VALID])).trans (frame_setRas _ _ _)

/-- Settles O23: a slow tile is one slot marked, one count and one bit; the answer to a probe is the coefficients shown and the status. -/
theorem slowTilesAndProbes : Obligations.SlowTilesAndProbes := by
  unfold Obligations.SlowTilesAndProbes
  intro s
  refine ⟨fun i j w hi hj hw hl ho => completes_slowTile hi hj hw hl ho, fun b k e hb hk he => completes_rasProbe hb hk he,
    fun b k e x h hp hx hadm hh => ?_, fun b k e hp hx => ?_⟩
  · have admitted : probeHead s.begin e = some h := by rw [probeHead_begin]; simp [probeHead, hx, hadm, hh]
    refine (completes_rasProbeDone (rasProbeDoneOp_of_head hp admitted)).mono ?_
    rintro t ⟨hras, hvalid, herror, ⟨ha0, ha0hi, ha1, ha2, hb0, hb0hi, hb1, hb2⟩, hframe⟩
    exact ⟨hras, hvalid, herror, ha0, ha0hi, ha1, ha2, hb0, hb0hi, hb1, hb2, hframe⟩
  · have absent : probeHead s.begin e = none := by rw [probeHead_begin]; simp [probeHead, hx]
    refine (completes_rasProbeDone (rasProbeDoneOp_of_no_head hp absent)).mono ?_
    rintro t ⟨-, hvalid, herror, -⟩
    exact ⟨hvalid, herror⟩

end Sys2Proof.Machine
end

section
/-! PROOF. The bank controls: BANK_OPEN, BANK_CLONE and BANK_COMMIT (R130 to R133). -/

namespace Sys2Proof.Machine

/-! ### Bank controls and reports after a command -/

@[simp] theorem State.begin_bank (s : State) (x : TableId) : s.begin.bank x = s.bank x := State.bank_congr rfl x

/-- A bank control after a command. -/
theorem bank_settled (s0 u : State) (q : List Instr) (x : TableId) : ({ settle s0 u with pending := q } : State).bank x = u.bank x :=
  State.bank_congr (settle_banks s0 u) x

@[simp] theorem State.bank_raise (s : State) (f : Fld) (x : TableId) : (s.raise f).bank x = s.bank x := State.bank_congr (s.raise_banks f) x

/-- A flag after a bit of another register is raised. -/
theorem State.flag_raise_ne (s : State) {f g : Fld} (h : g.addr ≠ f.addr) : (s.raise f).flag g = s.flag g := by
  simp only [State.flag, State.raise, State.fget_fset_other _ _ _ _ (.inl h)]

/-! ### BANK_COMMIT (R132) -/

/-- A refused commit keeps its reason with the bank control (R132). -/
theorem bank_tableRefused (x y : TableId) (code : Nat) (s : State) :
    (tableRefused x code s).bank y = (s.setBank x { s.bank x with refuse := code }).bank y := by
  cases x <;> simp [tableRefused]

/-- A refused commit is reported in DOS_EVENTS, whatever the table's own report (R132). -/
theorem flag_tableRefused (x : TableId) (code : Nat) (s : State) : (tableRefused x code s).flag F.DOS_EVENTS_TBL_REFUSED = true := by
  have reported (u : State) : (u.raise F.DOS_EVENTS_TBL_REFUSED).flag F.DOS_EVENTS_TBL_REFUSED = true :=
    State.flag_raise_self u _ (by decide) (by decide)
  cases x with
  | krn | tgn => exact reported _
  | map | wave | lanes => exact (State.flag_raise_ne _ (by decide)).trans (reported _)

/-- A refused commit writes the registers of its reports alone. -/
theorem frame_tableRefused (x : TableId) (code : Nat) (s : State) :
    Frame [.banks] [R.DOS_EVENTS, R.CRW_EVENTS, R.STK_EVENTS, R.BLN_EVENTS] s (tableRefused x code s) := by
  have raised (f : Fld) (h : f.addr ∈ [R.DOS_EVENTS, R.CRW_EVENTS, R.STK_EVENTS, R.BLN_EVENTS]) (u : State) :
      Frame [.banks] [R.DOS_EVENTS, R.CRW_EVENTS, R.STK_EVENTS, R.BLN_EVENTS] u (u.raise f) := Frame.raise _ _ _ _ h
  have first := (frame_setBank _ s x { s.bank x with refuse := code }).trans (raised F.DOS_EVENTS_TBL_REFUSED (by decide) _)
  cases x with
  | krn | tgn => exact first
  | map | wave | lanes => exact first.trans (raised _ (by decide) _)

/-- The validity of a shadow does not rest on the last access. -/
theorem shadowValid_begin (s : State) (x : TableId) : shadowValid s.begin x = shadowValid s x := by cases x <;> rfl

/-- A complete and valid shadow becomes pending (R132). -/
theorem bankCommitOp_of_valid {s : State} {x : TableId} (hp : (s.bank x).pending = false) (hc : (s.bank x).cloning = false)
    (hm : bankComplete x (s.bank x) = true) (hv : shadowValid s x = true) :
    bankCommitOp x s = s.setBank x { s.bank x with pending := true, refuse := 0 } := by
  simp [bankCommitOp, hp, hc, hm, hv]

/-- A commit with a mark missing (R132). -/
theorem bankCommitOp_of_unmarked {s : State} {x : TableId} (hp : (s.bank x).pending = false) (hc : (s.bank x).cloning = false)
    (hm : bankComplete x (s.bank x) = false) : bankCommitOp x s = tableRefused x 1 s := by
  simp [bankCommitOp, hp, hc, hm]

/-- A commit of an invalid shadow (R132). -/
theorem bankCommitOp_of_invalid {s : State} {x : TableId} (hp : (s.bank x).pending = false) (hc : (s.bank x).cloning = false)
    (hm : bankComplete x (s.bank x) = true) (hv : shadowValid s x = false) : bankCommitOp x s = tableRefused x 2 s := by
  simp [bankCommitOp, hp, hc, hm, hv]

/-- A refused commit: the reason in REFUSE, and the report. -/
theorem completes_refusedCommit {s : State} {x : TableId} {code : Nat} (h : bankCommitOp x s.begin = tableRefused x code s.begin) :
    Completes (.bankCommit x) s (fun t => t.bank x = { s.bank x with refuse := code } ∧ t.flag F.DOS_EVENTS_TBL_REFUSED = true ∧
      Frame [.banks] [R.DOS_EVENTS, R.CRW_EVENTS, R.STK_EVENTS, R.BLN_EVENTS] s t) := by
  refine completes_of (bankCommitOp x) rfl ?_
  rw [h]
  exact ⟨by rw [bank_settled, bank_tableRefused, State.bank_setBank_self, State.begin_bank],
    by rw [flag_settled _ _ _ _ rfl, flag_tableRefused], Frame.settled _ (frame_tableRefused _ _ _)⟩

/-- Settles O27: the marks are looked at before the validity, and each outcome is one bank control replaced. -/
theorem bankCommitChecksItsShadow : Obligations.BankCommitChecksItsShadow := by
  unfold Obligations.BankCommitChecksItsShadow
  intro s x hp hc
  have hp' : (s.begin.bank x).pending = false := by rw [State.begin_bank, hp]
  have hc' : (s.begin.bank x).cloning = false := by rw [State.begin_bank, hc]
  refine ⟨fun hm hv => completes_of (bankCommitOp x) rfl ?_, fun hm => ?_, fun hm hv => ?_⟩
  · rw [bankCommitOp_of_valid hp' hc' (by rw [State.begin_bank, hm]) (by rw [shadowValid_begin, hv])]
    refine ⟨by rw [bank_settled, State.bank_setBank_self, State.begin_bank], fun y hy => ?_, Frame.settled _ (frame_setBank _ _ _ _)⟩
    rw [bank_settled, State.bank_setBank_ne _ _ hy, State.begin_bank]
  · exact completes_refusedCommit (bankCommitOp_of_unmarked hp' hc' (by rw [State.begin_bank, hm]))
  · refine (completes_refusedCommit (bankCommitOp_of_invalid hp' hc' (by rw [State.begin_bank, hm]) (by rw [shadowValid_begin, hv]))).mono ?_
    rintro t ⟨hbank, hflag, -⟩
    exact ⟨hbank, hflag⟩

/-! ### BANK_OPEN (R131) -/

/-- What OPEN makes of a bank control: no marks, no reason, nothing pending and no clone; the bank in service stays (R131). -/
structure Bank.Opened (k b : Bank) : Prop where
  pending : b.pending = false
  allMarked : b.allMarked = false
  marks : b.marks = []
  refuse : b.refuse = 0
  cloning : b.cloning = false
  active : b.active = k.active

/-- OPEN replaces the bank control; a clone in progress leaves the shadow undefined first, that of the beam map in HBM (R131). -/
theorem bankOpenOp_cases (x : TableId) (s : State) : ∃ u b, bankOpenOp x s = u.setBank x b ∧ (s.bank x).Opened b ∧ u.banks = s.banks ∧
    BlockFrame [.hbm, .free] [0x0A] s u ∧ ((s.bank x).cloning = false → u = s) := by
  unfold bankOpenOp
  dsimp only
  split
  next hc =>
    have busy (u : State) : (s.bank x).cloning = false → u = s := by simp [hc]
    split
    · have haze := blockFrame_hazeHbm false s.shadowBase mapBytes s
      exact ⟨_, _, rfl, ⟨rfl, rfl, rfl, rfl, rfl, rfl⟩, haze.1 .banks (by decide), haze, busy _⟩
    · exact ⟨{ s with free := s.free + 1 }, _, rfl, ⟨rfl, rfl, rfl, rfl, rfl, rfl⟩, rfl,
        BlockFrame.parts ((frame_setFree [] s _).mono (by simp) (by simp)), busy _⟩
  next => exact ⟨s, _, rfl, ⟨rfl, rfl, rfl, rfl, rfl, rfl⟩, rfl, BlockFrame.refl _ _ s, fun _ => rfl⟩

/-- What OPEN leaves (R131). -/
theorem bankOpenOp_spec (x : TableId) (s : State) :
    (s.bank x).Opened ((bankOpenOp x s).bank x) ∧ (∀ y, y ≠ x → (bankOpenOp x s).bank y = s.bank y) ∧
      BlockFrame [.banks, .hbm, .free] [0x0A] s (bankOpenOp x s) := by
  obtain ⟨u, b, hu, hb, hbanks, hframe, -⟩ := bankOpenOp_cases x s
  rw [hu]
  refine ⟨by rwa [State.bank_setBank_self], fun y hy => ?_, ?_⟩
  · rw [State.bank_setBank_ne _ _ hy, State.bank_congr hbanks]
  · exact (hframe.mono (by simp) (by simp)).trans (BlockFrame.parts ((frame_setBank [] u x b).mono (by simp) (by simp)))

/-- With no clone in progress OPEN changes the bank control alone (R131). -/
theorem frame_bankOpenOp {s : State} {x : TableId} (hc : (s.bank x).cloning = false) : Frame [.banks] [] s (bankOpenOp x s) := by
  obtain ⟨u, b, hu, -, -, -, idle⟩ := bankOpenOp_cases x s
  rw [hu, idle hc]
  exact frame_setBank _ _ _ _

/-! ### BANK_CLONE (R131) -/

theorem bankCloneOp_of_free {s : State} {x : TableId} (h : (s.bank x).pending = false) :
    bankCloneOp x s = s.setBank x { s.bank x with cloning := true } := by
  simp [bankCloneOp, h]

theorem bankCloneOp_of_pending {s : State} {x : TableId} (h : (s.bank x).pending = true) : bankCloneOp x s = tableIgnored x s := by
  simp [bankCloneOp, h]

/-- The registers of the reports of an ignored write, over all tables (R130, R144, R195, R227). -/
def ignoredRegs : List Nat :=
  [R.DOS_EVENTS, R.DOS_KRN_BANK, R.DOS_TGN_BANK, R.CRW_MAP_BANK, R.CRW_EVENTS, R.STK_WAVE_BANK, R.STK_EVENTS, R.BLN_MAP_BANK, R.BLN_EVENTS]

theorem frame_tableIgnored (x : TableId) (s : State) : Frame [] ignoredRegs s (tableIgnored x s) := by
  have raised (f : Fld) (h : f.addr ∈ ignoredRegs) (u : State) : Frame [] ignoredRegs u (u.raise f) := Frame.raise _ _ _ _ h
  have first := (raised F.DOS_EVENTS_TBL_WRITE_IGNORED (by decide) s).trans (raised (ignoredBit x) (by cases x <;> decide) _)
  cases x with
  | krn | tgn => exact first
  | map | wave | lanes => exact first.trans (raised _ (by decide) _)

/-- An ignored write is reported in DOS_EVENTS, whatever the table's own reports (R130). -/
theorem flag_tableIgnored (x : TableId) (s : State) : (tableIgnored x s).flag F.DOS_EVENTS_TBL_WRITE_IGNORED = true := by
  have reported : ((s.raise F.DOS_EVENTS_TBL_WRITE_IGNORED).raise (ignoredBit x)).flag F.DOS_EVENTS_TBL_WRITE_IGNORED = true :=
    (State.flag_raise_ne _ (by cases x <;> decide)).trans (State.flag_raise_self s _ (by decide) (by decide))
  cases x with
  | krn | tgn => exact reported
  | map | wave | lanes => exact (State.flag_raise_ne _ (by decide)).trans reported

/-- Settles O25: OPEN and CLONE each replace one bank control, and a CLONE under a pending commit is reported only. -/
theorem bankOpenAndClone : Obligations.BankOpenAndClone := by
  unfold Obligations.BankOpenAndClone
  intro s x
  refine ⟨completes_of (bankOpenOp x) rfl ?_, fun hc => completes_of (bankOpenOp x) rfl ?_, fun hp => completes_of (bankCloneOp x) rfl ?_,
    fun hp => completes_of (bankCloneOp x) rfl ?_⟩
  · obtain ⟨hopen, hother, hframe⟩ := bankOpenOp_spec x s.begin
    simp only [bank_settled]
    refine ⟨hopen.pending, hopen.allMarked, hopen.marks, hopen.refuse, hopen.cloning, ?_, fun y hy => ?_,
      BlockFrame.settled _ (hframe.mono (by simp) (by simp))⟩
    · rw [hopen.active, State.begin_bank]
    · rw [hother y hy, State.begin_bank]
  · exact Frame.settled _ (frame_bankOpenOp (by rw [State.begin_bank, hc]))
  · rw [bankCloneOp_of_free (by rw [State.begin_bank, hp])]
    refine ⟨by rw [bank_settled, State.bank_setBank_self, State.begin_bank], fun y hy => ?_, Frame.settled _ (frame_setBank _ _ _ _)⟩
    rw [bank_settled, State.bank_setBank_ne _ _ hy, State.begin_bank]
  · rw [bankCloneOp_of_pending (by rw [State.begin_bank, hp])]
    exact ⟨by rw [flag_settled _ _ _ _ rfl, flag_tableIgnored], Frame.settled _ (frame_tableIgnored _ _)⟩

end Sys2Proof.Machine
end

section
/-! PROOF. The shadow of the beam map and its exchange (R131, R139 to R144). -/

namespace Sys2Proof.Machine

/-! ### A list put into sparse storage -/

theorem sparsePutAll_append {α : Type} [DecidableEq α] (d : Nat → α) (m l k : List (Nat × α)) :
    sparsePutAll d m (l ++ k) = sparsePutAll d (sparsePutAll d m l) k := by
  induction l generalizing m with
  | nil => rfl
  | cons p t ih => exact ih _

/-- The first keys put one after another, each with its value. -/
theorem sparseGet_putAll_range {α : Type} [DecidableEq α] (d f : Nat → α) (m : List (Nat × α)) (n i : Nat) :
    sparseGet d i (sparsePutAll d m ((List.range n).map (fun j => (j, f j)))) = if i < n then f i else sparseGet d i m := by
  induction n with
  | zero => rfl
  | succ n ih =>
    rw [List.range_succ, List.map_append, sparsePutAll_append]
    refine (sparseGet_put d n i (f n) _).trans ?_
    rw [ih]
    by_cases h : i = n
    · simp [h]
    · simp [h, show i < n + 1 ↔ i < n by omega]

/-! ### The shadow area moved (R144) -/

/-- The register of the shadow area written. -/
def writeShadowBase (high : Bool) (v : Word) (s : State) : State :=
  if high then s.setReg R.CRW_MAP_SHADOW_HI v else s.fset F.CRW_MAP_SHADOW_LO_ADDR (bits 23 9 v.toNat)

/-- No entry of the shadow is known to be invalid. -/
def forgetInvalid (s : State) : State := { s with crw := { s.crw with invalid := [] } }

theorem shadowBaseWrite_of_free {s : State} (high : Bool) (v : Word) (h : s.banks.map.pending = false) :
    shadowBaseWrite high v s = forgetInvalid (writeShadowBase high v (bankOpenOp .map s)) := by
  simp only [shadowBaseWrite, h, Bool.false_eq_true, if_false]
  rfl

theorem shadowBaseWrite_of_pending {s : State} (high : Bool) (v : Word) (h : s.banks.map.pending = true) :
    shadowBaseWrite high v s = s.raise F.CRW_EVENTS_MAP_IGNORED := by
  simp only [shadowBaseWrite, h, if_true]

/-- The area moved writes one register, and the rest of the crews' part stays. -/
theorem frame_moveShadow (high : Bool) (v : Word) (s : State) :
    Frame [.crw] [if high then R.CRW_MAP_SHADOW_HI else R.CRW_MAP_SHADOW_LO] s (forgetInvalid (writeShadowBase high v s)) := by
  refine Frame.trans ?_ (frame_setCrw _ _ _)
  cases high with
  | true => exact Frame.setReg _ _ _ _ _ (by simp)
  | false => exact Frame.fset _ _ _ _ _ (by simp [F.CRW_MAP_SHADOW_LO_ADDR])

/-- What the area's register reads after the write: ADDR is bits 31 to 23 of the low word. -/
theorem shadowBase_moved (v : Word) (s : State) :
    (forgetInvalid (writeShadowBase true v s)).reg R.CRW_MAP_SHADOW_HI = v ∧
      (forgetInvalid (writeShadowBase false v s)).fget F.CRW_MAP_SHADOW_LO_ADDR = v.toNat / 2 ^ 23 := by
  refine ⟨State.reg_setReg_self s _ v, (State.fget_fset_self s F.CRW_MAP_SHADOW_LO_ADDR _ (by decide)).trans ?_⟩
  have := v.isLt
  simp only [bits, F.CRW_MAP_SHADOW_LO_ADDR]
  omega

/-- The bank controls are not touched as the area moves. -/
theorem banks_moveShadow (high : Bool) (v : Word) (s : State) : (forgetInvalid (writeShadowBase high v s)).banks = s.banks :=
  (frame_moveShadow high v s).1 .banks (by decide)

/-- A write of the shadow base with no commit pending moves the area and acts as OPEN (R131, R144). -/
theorem completes_moveShadow {s : State} (high : Bool) (v : Word) (hp : s.banks.map.pending = false) :
    Completes (.mapShadowBaseWrite high v) s (fun t =>
      (high = true → t.reg R.CRW_MAP_SHADOW_HI = v) ∧ (high = false → t.fget F.CRW_MAP_SHADOW_LO_ADDR = v.toNat / 2 ^ 23) ∧
      (s.bank .map).Opened (t.bank .map) ∧ t.crw.invalid = [] ∧ (∀ y, y ≠ TableId.map → t.bank y = s.bank y) ∧
      BlockFrame [.banks, .crw, .hbm, .free] [0x0A, 0x0F] s t ∧
      (s.banks.map.cloning = false → Frame [.banks, .crw] [if high then R.CRW_MAP_SHADOW_HI else R.CRW_MAP_SHADOW_LO] s t)) := by
  refine completes_of (shadowBaseWrite high v) rfl ?_
  rw [shadowBaseWrite_of_free (s := s.begin) high v hp]
  obtain ⟨hopen, hother, hframe⟩ := bankOpenOp_spec .map s.begin
  have moved := frame_moveShadow high v (bankOpenOp .map s.begin)
  have bank (y : TableId) := State.bank_congr (banks_moveShadow high v (bankOpenOp .map s.begin)) y
  simp only [bank_settled, bank]
  refine ⟨?_, ?_, by rwa [State.begin_bank] at hopen, by rw [settle_crw]; rfl, fun y hy => by rw [hother y hy, State.begin_bank],
    BlockFrame.settled _ ?_, fun hc => Frame.settled _ ?_⟩
  · rintro rfl
    rw [reg_settled _ _ _ _ rfl, (shadowBase_moved v _).1]
  · rintro rfl
    rw [fget_settled _ _ _ _ rfl, (shadowBase_moved v _).2]
  · exact (hframe.mono (by simp) (by simp)).trans
      ((BlockFrame.of_frame moved (bs := [0x0F]) (by cases high <;> decide)).mono (by simp) (by simp))
  · exact ((frame_bankOpenOp (s := s.begin) (x := .map) hc).mono (by simp) (by simp)).trans (moved.mono (by simp) (by simp))

/-! ### The exchange (R143) -/

/-- What the exchange brings into entry i of the bank in service: an entry of the shadow that cannot be read is EXCLUDED (R143, R315). -/
def State.exchangedEntry (s : State) (i : Nat) : Nat :=
  if s.hbmBad 9 (s.shadowBase + 8 * i) 8 then 3 else entryHostBits (leNat (s.readBytes (s.shadowBase + 8 * i) 8))

/-- The shadow read and written with the entries that were in service (R143). -/
def writeBackMap (s : State) : State :=
  (readHbm 9 s.shadowBase mapBytes s).hbmWrite 9 s.shadowBase ((List.range 1048576).flatMap (fun i => leBytes 8 (s.mapEntryFull i)))

theorem blockFrame_writeBackMap (s : State) : BlockFrame [.hbm, .keel, .mem, .arb] [0x09, 0x0A] s (writeBackMap s) :=
  (blockFrame_readHbm 9 _ _ s).trans ((blockFrame_hbmWrite _ 9 _ _).mono (by simp) (by simp))

/-- Entries put in service: the exchange is over, and its commit taken (R143). -/
def takeEntries (entries : List (Nat × Nat)) (s : State) : State :=
  State.setBank { s with crw := { s.crw with map := sparsePutAll (fun _ => 0) [] entries, exchanging := false, invalid := [] } } .map
    { s.banks.map with pending := false, allMarked := false, marks := [] }

theorem frame_takeEntries (rs : List Nat) (entries : List (Nat × Nat)) (s : State) : Frame [.banks, .crw] rs s (takeEntries entries s) :=
  ((frame_setCrw rs s _).mono (by simp) (by simp)).trans ((frame_setBank rs _ .map _).mono (by simp) (by simp))

/-- The end of an exchange: entries put in service, and the reports (R143, R315). -/
def finishExchange (bad : Bool) (entries : List (Nat × Nat)) (s : State) : State :=
  (State.raiseIf bad F.SRM_EVENTS_BAD (takeEntries entries s)).raise F.CRW_EVENTS_MAP_EXCHANGED

/-- The entries that an exchange puts in service. -/
def State.exchangedEntries (s : State) : List (Nat × Nat) := (List.range 1048576).map (fun i => (i, s.exchangedEntry i))

theorem sparseGet_exchangedEntries (s : State) {i : Nat} (hi : i < 1048576) :
    sparseGet (fun _ => 0) i (sparsePutAll (fun _ => 0) [] s.exchangedEntries) = s.exchangedEntry i := by
  rw [State.exchangedEntries, sparseGet_putAll_range, if_pos hi]

/-- An exchange in progress ends (R143, R315). -/
theorem mapExchangedOp_of_exchanging {s : State} (h : s.crw.exchanging = true) :
    mapExchangedOp s = finishExchange (s.hbmBad 9 s.shadowBase mapBytes) s.exchangedEntries (writeBackMap s) := by
  have entry : (fun i => if s.hbmBad 9 (s.shadowBase + 8 * i) 8 = true then (i, 3)
      else (i, entryHostBits (leNat (s.readBytes (s.shadowBase + 8 * i) 8)))) = fun i => (i, s.exchangedEntry i) := by
    funext i
    exact (apply_ite (Prod.mk i) _ _ _).symm
  simp only [mapExchangedOp, h, Bool.not_true, Bool.false_eq_true, if_false, entry]
  rfl

/-- The check bits written afresh, and those read where none is wrong, come beside the exchange (R317). -/
theorem mapExchanged_of_exchanging {s : State} (h : s.crw.exchanging = true) (hf : s.mem.flips = []) :
    mapExchanged s = freshTable (inBank .map 0) (mapExchangedOp s) := by
  simp only [mapExchanged, h, Bool.not_true, Bool.false_eq_true, if_false, readTables_of_flips_nil _ s hf]

/-- What the end of an exchange leaves: the entries in service, the commit taken, and the report (R143). -/
theorem freshTable_finishExchange_spec (hit : Nat → Bool) (bad : Bool) (entries : List (Nat × Nat)) (u : State) :
    let v := freshTable hit (finishExchange bad entries u)
    v.crw = { u.crw with map := sparsePutAll (fun _ => 0) [] entries, exchanging := false, invalid := [] } ∧
      v.banks.map.pending = false ∧ v.flag F.CRW_EVENTS_MAP_EXCHANGED = true ∧ BlockFrame [.banks, .crw, .mem] [0x0A, 0x0F] u v := by
  intro v
  have fresh := frame_freshTable hit (finishExchange bad entries u)
  have taken : (finishExchange bad entries u).crw = (takeEntries entries u).crw ∧
      (finishExchange bad entries u).banks = (takeEntries entries u).banks := by simp [finishExchange]
  have crw : v.crw = (takeEntries entries u).crw := (fresh.1 .crw (by decide)).trans taken.1
  have banks : v.banks = (takeEntries entries u).banks := (fresh.1 .banks (by decide)).trans taken.2
  have reported : (finishExchange bad entries u).flag F.CRW_EVENTS_MAP_EXCHANGED = true := State.flag_raise_self _ _ (by decide) (by decide)
  refine ⟨crw, by rw [banks]; rfl, ?_, ?_⟩
  · rw [← reported]
    simp only [State.flag, State.fget, v, fresh.2 F.CRW_EVENTS_MAP_EXCHANGED.addr (by decide) (by decide)]
  · exact (((BlockFrame.parts ((frame_takeEntries [] entries u).mono (by simp) (by simp))).trans
      (BlockFrame.raiseIf _ _ bad F.SRM_EVENTS_BAD (by decide))).trans (BlockFrame.raise _ _ _ (by decide))).trans
        (BlockFrame.of_frame (fresh.mono (qs := [.banks, .crw, .mem]) (by simp) (fun _ h => h)) (by decide))

/-- What MAP_EXCHANGED leaves of an exchange in progress where no check bit of the bank in service is wrong (R143). -/
theorem mapExchanged_spec {s : State} (h : s.crw.exchanging = true) (hf : s.mem.flips = []) :
    (mapExchanged s).crw.exchanging = false ∧ (mapExchanged s).banks.map.pending = false ∧
      (mapExchanged s).flag F.CRW_EVENTS_MAP_EXCHANGED = true ∧
      (∀ i < 1048576, (mapExchanged s).mapEntryRaw i = s.exchangedEntry i) ∧
      BlockFrame [.banks, .crw, .hbm, .mem, .arb, .keel] [0x09, 0x0A, 0x0F] s (mapExchanged s) := by
  rw [mapExchanged_of_exchanging h hf, mapExchangedOp_of_exchanging h]
  obtain ⟨hcrw, hpending, hflag, hframe⟩ := freshTable_finishExchange_spec (inBank .map 0) (s.hbmBad 9 s.shadowBase mapBytes)
    s.exchangedEntries (writeBackMap s)
  refine ⟨by rw [hcrw], hpending, hflag, fun i hi => ?_,
    ((blockFrame_writeBackMap s).mono (by simp) (by simp)).trans (hframe.mono (by simp) (by simp))⟩
  rw [State.mapEntryRaw, hcrw, sparseGet_exchangedEntries s hi]

theorem mapExchanged_of_idle {s : State} (h : s.crw.exchanging = false) : mapExchanged s = s := by
  simp [mapExchanged, h]

theorem exchangedEntry_begin (s : State) : s.begin.exchangedEntry = s.exchangedEntry := rfl

/-! ### The start of an exchange (R143) -/

theorem mapExchangeStartOp_of_pending {s : State} (hp : s.banks.map.pending = true) (hr : s.running = none) :
    mapExchangeStartOp s = { s with crw := { s.crw with exchanging := true } } := by
  simp [mapExchangeStartOp, hp, hr]

/-- With no commit pending, or in a course, no exchange begins. -/
theorem mapExchangeStartOp_of_not_due {s : State} (h : s.banks.map.pending = false ∨ s.running.isSome = true) : mapExchangeStartOp s = s := by
  rcases h with hp | hr
  · simp [mapExchangeStartOp, hp]
  · obtain ⟨e, he⟩ := Option.isSome_iff_exists.mp hr
    simp [mapExchangeStartOp, he]

/-- Settles O29: the area moved is an OPEN and one register; an exchange begins only out of a course, and puts a list of all entries in
service. -/
theorem beamMapShadowAndExchange : Obligations.BeamMapShadowAndExchange := by
  unfold Obligations.BeamMapShadowAndExchange
  intro s v
  refine ⟨fun high hp => ?_, fun high hp hc => ?_, fun high hp => completes_of (shadowBaseWrite high v) rfl ?_,
    fun hp hr => completes_of mapExchangeStartOp rfl ?_, fun h => completes_of mapExchangeStartOp rfl ?_,
    fun h => completes_of mapExchanged rfl ?_, fun h hf _ => completes_of mapExchanged rfl ?_⟩
  · refine (completes_moveShadow high v hp).mono ?_
    rintro t ⟨hhigh, hlow, hopen, hinvalid, hother, hframe, -⟩
    exact ⟨hhigh, hlow, hopen.marks, hopen.allMarked, hopen.cloning, hopen.refuse, hinvalid, hother, hframe⟩
  · refine (completes_moveShadow high v hp).mono ?_
    rintro t ⟨-, -, -, -, -, -, hframe⟩
    exact hframe hc
  · rw [shadowBaseWrite_of_pending (s := s.begin) high v hp]
    exact ⟨by rw [flag_settled _ _ _ _ rfl]; exact State.flag_raise_self _ _ (by decide) (by decide),
      Frame.settled _ (Frame.raise _ _ _ _ (by simp [F.CRW_EVENTS_MAP_IGNORED]))⟩
  · rw [mapExchangeStartOp_of_pending (s := s.begin) hp hr]
    exact ⟨by rw [settle_crw]; rfl, Frame.settled _ (frame_setCrw _ _ _)⟩
  · rw [mapExchangeStartOp_of_not_due (s := s.begin) h]
    exact Frame.settled _ (Frame.refl _ _ _)
  · rw [mapExchanged_of_idle (s := s.begin) h]
    exact Frame.settled _ (Frame.refl _ _ _)
  · obtain ⟨hexchanging, hpending, hflag, hentries, hframe⟩ := mapExchanged_spec (s := s.begin) h hf
    refine ⟨by rw [settle_crw, hexchanging], by rw [settle_banks, hpending], by rw [flag_settled _ _ _ _ rfl, hflag], fun i hi hread => ?_,
      BlockFrame.settled _ hframe⟩
    have entry := hentries i hi
    rw [State.mapEntryRaw] at entry ⊢
    rw [settle_crw, entry, exchangedEntry_begin, State.exchangedEntry, if_neg (by simp [hread])]

end Sys2Proof.Machine
end

section
/-! PROOF. The tiles of the backscatter engine: BSX_TILE_START and BSX_TILE_DONE (R117, R124, R125, R127). -/

namespace Sys2Proof.Machine

theorem frame_setBsx (rs : List Nat) (s : State) (b : Backscatter) : Frame [.bsx] rs s { s with bsx := b } :=
  Frame.parts _ _ _ _ rfl (fun p hp => by cases p <;> simp_all [Part.same])

/-! ### Rows written to the work area and to the window (R127) -/

/-- The parts that rows written by the engine, and the reads before them, reach. -/
def rowParts : List Part := [.bsx, .hbm, .mem, .arb, .keel, .banks, .crw]

/-- The blocks of BAR0 that they reach. -/
def rowBlocks : List Nat := [0x09, 0x0A, 0x0E, 0x0F]

/-- Rows written leave the engine's tile, its sums and whether it runs: of its part only what miscorrections have inverted goes. -/
def RowsFrame (s t : State) : Prop := BlockFrame rowParts rowBlocks s t ∧ ∃ bits, t.bsx = { s.bsx with bits := bits }

theorem RowsFrame.refl (s : State) : RowsFrame s s := ⟨BlockFrame.refl _ _ s, s.bsx.bits, rfl⟩

theorem RowsFrame.trans {s t u : State} (h : RowsFrame s t) (k : RowsFrame t u) : RowsFrame s u := by
  obtain ⟨hframe, bits, hbsx⟩ := h
  obtain ⟨kframe, bits', kbsx⟩ := k
  exact ⟨hframe.trans kframe, bits', by rw [kbsx, hbsx]⟩

theorem RowsFrame.foldl {β : Type} (f : State → β → State) (h : ∀ s b, RowsFrame s (f s b)) (l : List β) (s : State) :
    RowsFrame s (l.foldl f s) := foldl_keeps (RowsFrame s) f (fun t b k => k.trans (h t b)) l s (RowsFrame.refl s)

/-- A step that does not reach the engine. -/
theorem RowsFrame.of_blockFrame {ps : List Part} {bs : List Nat} {s t : State} (h : BlockFrame ps bs s t) (hb : .bsx ∉ ps)
    (hp : ∀ p ∈ ps, p ∈ rowParts) (hr : ∀ b ∈ bs, b ∈ rowBlocks) : RowsFrame s t :=
  ⟨h.mono hp hr, s.bsx.bits, h.1 .bsx hb⟩

theorem rowsFrame_clientWrite (port a : Nat) (bs : List Byte) (s : State) : RowsFrame s (clientWrite port a bs s) :=
  RowsFrame.of_blockFrame (blockFrame_clientWrite port a bs s) (by decide) (by decide) (by decide)

theorem rowsFrame_freshWindow (hit : Nat → Bool) (s : State) : RowsFrame s (freshWindow hit s) := by
  have fresh : RowsFrame s (freshTable hit s) :=
    RowsFrame.of_blockFrame (BlockFrame.of_frame (frame_freshTable hit s) (bs := [0x0A]) (by decide)) (by decide) (by decide) (by decide)
  have set (u : State) (b : Backscatter) (m : MemAux) : BlockFrame rowParts rowBlocks u { u with bsx := b, mem := m } :=
    BlockFrame.parts (((frame_setBsx [] u b).mono (by decide) (by simp)).trans ((frame_setMem [] _ m).mono (by decide) (by simp)))
  exact fresh.trans ⟨set _ _ _, _, rfl⟩

theorem rowsFrame_writeDensity (e : Entry) (ys : List Int) (s : State) : RowsFrame s (writeDensity e ys s) :=
  RowsFrame.foldl _ (fun t _ => rowsFrame_clientWrite _ _ _ t) ys s

theorem rowsFrame_writeFactors (e : Entry) (ys : List Int) (s : State) : RowsFrame s (writeFactors e ys s) :=
  RowsFrame.foldl _ (fun t _ => (rowsFrame_clientWrite _ _ _ t).trans (rowsFrame_freshWindow _ _)) ys s

theorem rowsFrame_writeRows (e : Entry) (p p' : Nat) (s : State) : RowsFrame s (writeRows e p p' s) :=
  (rowsFrame_writeDensity e _ s).trans (rowsFrame_writeFactors e _ _)

theorem blockFrame_readTileSource (port : Nat) (e : Entry) (h : StreamHead) (b k : Nat) (s : State) :
    BlockFrame [.hbm, .keel, .mem, .arb] [0x09, 0x0A] s (readTileSource port e h b k s) := by
  unfold readTileSource
  dsimp only
  split
  · exact blockFrame_readHbm _ _ _ _
  · exact (blockFrame_readHbm _ _ _ _).trans (blockFrame_readHbm _ _ _ _)

theorem rowsFrame_readTileSource (port : Nat) (e : Entry) (h : StreamHead) (b k : Nat) (s : State) :
    RowsFrame s (readTileSource port e h b k s) :=
  RowsFrame.of_blockFrame (blockFrame_readTileSource port e h b k s) (by decide) (by decide) (by decide)

theorem rowsFrame_checkLate (s : State) : RowsFrame s (checkLate s) :=
  RowsFrame.of_blockFrame (BlockFrame.of_frame (frame_checkLate [] [] s) (bs := [0x0E]) (by decide)) (by decide) (by decide) (by decide)

/-! ### BSX_TILE_START (R125) -/

/-- The engine on and idle takes the next tile within its run-ahead limit (R125). -/
theorem bsxTileStartOp_of_due {s : State} (hon : s.bsx.on = true) (hbusy : s.bsx.busy = false) (hr : s.running.isSome = true)
    (hl : s.int.loss = none) (hb : s.bsx.next / s.shape.tilesPerBand < s.bands)
    (ha : s.bsx.next / s.shape.tilesPerBand ≤ s.doneBand + s.gov F.DOS_BSX_AHEAD_BANDS) :
    bsxTileStartOp s = { s with bsx := { s.bsx with busy := true, lost := false } } := by
  simp [bsxTileStartOp, hon, hbusy, hr, hl, hb, ha]

/-! ### BSX_TILE_DONE (R117, R124) -/

/-- The engine idle again. -/
def idleEngine (s : State) : State := { s with bsx := { s.bsx with busy := false } }

/-- The tile after is next, with the sums of the tile done added. -/
def nextTile (sums : List (Nat × Nat)) (s : State) : State := { s with bsx := { s.bsx with next := s.bsx.next + 1, sums := sums } }

/-- With the last of the `n` tiles of a band done, the rows that are then final are written (R124, R127). -/
def finishBand (n : Nat) (e : Entry) (s : State) : State :=
  checkLate (if s.bsx.next % n = 0 then writeRows e (s.bsx.next / n - 1) (s.bsx.next / n) s else s)

theorem rowsFrame_finishBand (n : Nat) (e : Entry) (s : State) : RowsFrame s (finishBand n e s) := by
  unfold finishBand
  split
  · exact (rowsFrame_writeRows _ _ _ _).trans (rowsFrame_checkLate _)
  · exact rowsFrame_checkLate _

/-- A tile whose source is read and decodes: its sums are added, and the rows that are final are written (R117, R124, R127). The loss,
the decode and the read stand as variables in the proof, so that nothing evaluates them. -/
theorem bsxTileDoneOp_of_decoded {s : State} {e : Entry} {h : StreamHead} {b k : Nat} (hb : s.bsx.next / s.shape.tilesPerBand = b)
    (hk : s.bsx.next % s.shape.tilesPerBand = k) (hbusy : s.bsx.busy = true) (hr : s.running = some e) (hh : e.head = some h)
    (hl : lossOf s 8 e h b k = none) (hd : (decodeTileAt (s.stream e) s.shape h b k).err = none) :
    ∃ sums, bsxTileDoneOp s = finishBand s.shape.tilesPerBand e (nextTile sums (readTileSource 8 e h b k (idleEngine s))) := by
  obtain ⟨loss, hloss⟩ := exists_eq (a' := lossOf)
  obtain ⟨decode, hdecode⟩ := exists_eq (a' := decodeTileAt)
  obtain ⟨read, hread⟩ := exists_eq (a' := readTileSource)
  unfold bsxTileDoneOp
  rw [← hloss] at hl ⊢
  rw [← hdecode] at hd ⊢
  rw [← hread]
  simp only [hbusy, hr, hh, hb, hk, hl, hd, Option.isSome_none, Bool.false_eq_true, if_false]
  exact ⟨_, rfl⟩

/-- The engine idle with the tile after as its next, in the frame of rows written. -/
def TileDone (s t : State) : Prop :=
  t.bsx.busy = false ∧ t.bsx.next = s.bsx.next + 1 ∧ t.bsx.on = s.bsx.on ∧ BlockFrame rowParts rowBlocks s t

/-- What the end of a tile leaves once its source is read (R124). -/
theorem tileDone_finishBand {s u : State} (n : Nat) (e : Entry) (sums : List (Nat × Nat)) (h : RowsFrame (idleEngine s) u) :
    TileDone s (finishBand n e (nextTile sums u)) := by
  obtain ⟨readFrame, bits, read⟩ := h
  obtain ⟨doneFrame, bits', done⟩ := rowsFrame_finishBand n e (nextTile sums u)
  have engine (v : State) (x : Backscatter) : BlockFrame rowParts rowBlocks v { v with bsx := x } :=
    BlockFrame.parts ((frame_setBsx [] v x).mono (by decide) (by simp))
  refine ⟨?_, ?_, ?_, (((engine s _).trans readFrame).trans (engine u _)).trans doneFrame⟩ <;>
    rw [done] <;> simp only [nextTile, read, idleEngine]

theorem lossOf_begin (s : State) (port : Nat) (e : Entry) (h : StreamHead) (b k : Nat) : lossOf s.begin port e h b k = lossOf s port e h b k := rfl

/-- BSX_TILE_DONE of a tile whose source is read and decodes (R124). -/
theorem completes_bsxTileDone {s : State} {e : Entry} {h : StreamHead} {b k : Nat} (hb : s.bsx.next / s.shape.tilesPerBand = b)
    (hk : s.bsx.next % s.shape.tilesPerBand = k) (hbusy : s.bsx.busy = true) (hr : s.running = some e) (hh : e.head = some h)
    (hl : lossOf s 8 e h b k = none) (hd : (decodeTileAt (s.stream e) s.shape h b k).err = none) :
    Completes .bsxTileDone s (fun t => t.bsx.busy = false ∧ t.bsx.next = s.bsx.next + 1 ∧ t.bsx.on = s.bsx.on ∧
      BlockFrame rowParts rowBlocks s t) := by
  obtain ⟨sums, ht⟩ := bsxTileDoneOp_of_decoded (s := s.begin) hb hk hbusy hr hh
    (by rw [lossOf_begin, hl]) (by rw [stream_begin, State.begin_shape, hd])
  obtain ⟨idle, next, on, hframe⟩ := tileDone_finishBand s.begin.shape.tilesPerBand e sums
    (rowsFrame_readTileSource 8 e h b k (idleEngine s.begin))
  rw [← ht] at idle next on hframe
  exact completes_of bsxTileDoneOp rfl ⟨by rw [settle_bsx, idle], by rw [settle_bsx, next, State.begin_bsx],
    by rw [settle_bsx, on, State.begin_bsx], BlockFrame.settled _ hframe⟩

/-- Settles O24: the tile taken is one bit; the tile done is one count, and the rows written after it leave the engine's tile alone. -/
theorem backscatterEngineTiles : Obligations.BackscatterEngineTiles := by
  unfold Obligations.BackscatterEngineTiles
  intro s
  refine ⟨fun hon hbusy hr hl hb ha => completes_of bsxTileStartOp rfl ?_,
    fun e h hbusy hr hh hl hd => completes_bsxTileDone rfl rfl hbusy hr hh hl hd⟩
  rw [bsxTileStartOp_of_due (s := s.begin) hon hbusy hr hl hb ha]
  exact ⟨by rw [settle_bsx]; rfl, Frame.settled _ (frame_setBsx _ _ _)⟩

end Sys2Proof.Machine
end

section
/-! SUPPORT. What a table word found wrong sets going (R126, R239, R289, R292, R317, R319, R365, R366), as far as the bank controls go: which
bank is in service, and whether a clone runs, stays through all of it. -/

namespace Sys2Proof.Machine

/-! ### Strait packets leave the bank controls alone -/

@[simp] theorem returnSlot_banks (owed : Option (Nat × Nat)) (s : State) : (returnSlot owed s).banks = s.banks := by
  unfold returnSlot
  split
  · split <;> rfl
  · rfl

@[simp] theorem pumpLink_banks (k n : Nat) (s : State) : (pumpLink k n s).banks = s.banks := by
  induction n generalizing s with
  | zero => rfl
  | succ n ih =>
    unfold pumpLink
    dsimp only
    split
    · split
      · rfl
      · rw [ih, returnSlot_banks]
        rfl
    · rfl

@[simp] theorem sendOn_banks (k : Nat) (p : Packet) (s : State) : (sendOn k p s).banks = s.banks := by
  unfold sendOn
  split
  · exact pumpLink_banks _ _ _
  · exact returnSlot_banks _ _

theorem foldl_banks {β : Type} (f : State → β → State) (h : ∀ s b, (f s b).banks = s.banks) (l : List β) (s : State) :
    (l.foldl f s).banks = s.banks := foldl_keeps (fun t => t.banks = s.banks) f (fun t b k => (h t b).trans k) l s rfl

@[simp] theorem courseEvent_banks (event stroke cause : Nat) (s : State) : (courseEvent event stroke cause s).banks = s.banks := by
  unfold courseEvent
  split
  · exact foldl_banks _ (fun t lv => sendOn_banks _ _ t) _ _
  · rfl

@[simp] theorem stopToken_banks (stroke cause : Nat) (s : State) : (stopToken stroke cause s).banks = s.banks := by
  unfold stopToken
  split
  · refine foldl_banks _ (fun t k => ?_) _ _
    split
    · rfl
    · exact sendOn_banks _ _ t
  · rfl

/-! ### The controls -/

/-- Of each bank control, whether a clone runs and which bank is in service (R129, R131). -/
def Banks.controls (k : Banks) : List (Bool × Nat) := [k.krn, k.tgn, k.map, k.wave, k.lanes].map (fun b => (b.cloning, b.active))

/-- Every table has the same bank in service, and its clone runs or not as before. -/
def SameControls (s t : State) : Prop := t.banks.controls = s.banks.controls

theorem SameControls.refl (s : State) : SameControls s s := rfl

theorem SameControls.trans {s t u : State} (h : SameControls s t) (k : SameControls t u) : SameControls s u := Eq.trans k h

theorem SameControls.of_banks {s t : State} (h : t.banks = s.banks) : SameControls s t := congrArg Banks.controls h

theorem SameControls.of_blockFrame {ps : List Part} {bs : List Nat} {s t : State} (h : BlockFrame ps bs s t) (hb : .banks ∉ ps) :
    SameControls s t := SameControls.of_banks (h.1 .banks hb)

theorem SameControls.foldl {β : Type} (f : State → β → State) (h : ∀ s b, SameControls s (f s b)) (l : List β) (s : State) :
    SameControls s (l.foldl f s) := foldl_keeps (SameControls s) f (fun t b k => k.trans (h t b)) l s (SameControls.refl s)

/-- Whether a clone runs and which bank is in service, of one table. -/
theorem SameControls.bank {s t : State} (h : SameControls s t) (x : TableId) :
    (t.bank x).cloning = (s.bank x).cloning ∧ (t.bank x).active = (s.bank x).active := by
  simp only [SameControls, Banks.controls, List.map_cons, List.map_nil, List.cons.injEq, Prod.mk.injEq] at h
  obtain ⟨hkrn, htgn, hmap, hwave, hlanes, -⟩ := h
  cases x <;> assumption

/-- A bank control replaced by one with the same bank in service and the same clone. -/
theorem sameControls_setBank (s : State) (x : TableId) (b : Bank) (hc : b.cloning = (s.bank x).cloning)
    (ha : b.active = (s.bank x).active) : SameControls s (s.setBank x b) := by
  cases x <;> simp_all [SameControls, State.setBank, State.bank, Banks.controls]

/-! ### Writes of HBM and the journal -/

theorem sameControls_setCrw (s : State) (c : Crews) : SameControls s { s with crw := c } := SameControls.of_banks rfl

theorem sameControls_markEntry (i : Nat) (s : State) : SameControls s (markEntry i s) := by
  unfold markEntry
  dsimp only
  split
  · exact sameControls_setCrw s _
  · exact (sameControls_setBank s .map _ rfl rfl).trans (sameControls_setCrw _ _)

@[simp] theorem tableIgnored_banks (x : TableId) (s : State) : (tableIgnored x s).banks = s.banks := by cases x <;> rfl

theorem sameControls_hbmWrite (port a : Nat) (bs : List Byte) (s : State) : SameControls s (s.hbmWrite port a bs) :=
  SameControls.of_blockFrame (blockFrame_hbmWrite s port a bs) (by decide)

/-- A client's write marks entries of the shadow of the beam map, and no more. -/
theorem sameControls_clientWrite (port a : Nat) (bs : List Byte) (s : State) : SameControls s (clientWrite port a bs s) := by
  unfold clientWrite clientRange
  dsimp only
  split
  · exact sameControls_hbmWrite _ _ _ s
  · split
    · exact ((sameControls_hbmWrite _ _ _ s).trans (sameControls_hbmWrite _ _ _ _)).trans (SameControls.of_banks (tableIgnored_banks _ _))
    · exact (sameControls_hbmWrite _ _ _ s).trans (SameControls.foldl _ (fun t i => sameControls_markEntry i t) _ _)

theorem sameControls_journal (kind : Nat) (ids : Nat × Nat) (q3 q4 : Nat) (injected : Bool) (s : State) :
    SameControls s (journal kind ids q3 q4 injected s) := by
  obtain h | ⟨a, bs, n, h⟩ := journal_cases kind ids q3 q4 injected s <;> rw [h]
  · exact SameControls.refl s
  · exact (sameControls_clientWrite 9 a bs s).trans (SameControls.of_banks rfl)

/-! ### Halts (R220, R239) -/

theorem raiseAll_banks (cs : List Nat) (s : State) : (cs.foldl (fun u c => u.raise (causeBit c)) s).banks = s.banks :=
  foldl_banks (fun u c => u.raise (causeBit c)) (fun _ _ => rfl) cs s

theorem ite_banks (c : Prop) [Decidable c] {s u v : State} (hu : u.banks = s.banks) (hv : v.banks = s.banks) :
    (if c then u else v).banks = s.banks := by
  split <;> assumption

/-- A halt changes the bank controls by its journal record alone. -/
theorem sameControls_setHaltAll (m : Nat) (cs : List Nat) (start : Int) (injected : Bool) (s : State) :
    SameControls s (setHaltAll m cs start injected s) := by
  have journalled (b : Bool) (u : State) (c kind : Nat) (ids : Nat × Nat) (q3 q4 : Nat) (h : u.banks = s.banks) :
      SameControls s (if b then courseEvent 2 m c (journal kind ids q3 q4 injected u) else
        stopToken m c (courseEvent 2 m c (journal kind ids q3 q4 injected u))) := by
    have noted := ((SameControls.of_banks h).trans (sameControls_journal kind ids q3 q4 injected u)).trans
      (SameControls.of_banks (courseEvent_banks 2 m c _))
    split
    · exact noted
    · exact noted.trans (SameControls.of_banks (stopToken_banks _ _ _))
  unfold setHaltAll
  dsimp only
  split
  · exact SameControls.of_banks ((raiseAll_banks cs _).trans (ite_banks _ (s.fset_banks _ _) rfl))
  · refine journalled _ _ _ _ _ _ _ ?_
    simp only [State.fset_banks, State.bump_banks, State.raise_banks, raiseAll_banks, State.setReg_banks]
    exact ite_banks _ rfl (s.setReg_banks _ _)

theorem sameControls_requestHalt (c : Nat) (injected : Bool) (s : State) : SameControls s (requestHalt c injected s) := by
  unfold requestHalt setHalt
  dsimp only
  split
  · exact SameControls.refl s
  · split
    · exact sameControls_setHaltAll _ _ _ _ s
    · split
      · exact (sameControls_setHaltAll _ _ _ _ s).trans (SameControls.of_banks rfl)
      · exact SameControls.refl s

/-! ### Source losses and the early end of a course (R54, R289) -/

theorem sameControls_holdLoss (l : Loss) (e : Entry) (s : State) : SameControls s (holdLoss l e s) := by
  unfold holdLoss
  refine SameControls.trans ?_ (sameControls_journal _ _ _ _ _ _)
  exact SameControls.of_banks rfl

theorem sameControls_foundLoss (e : Entry) (b k : Nat) (r : Nat × Nat × Bool) (s : State) : SameControls s (foundLoss e b k r false s) := by
  have halted (others : Bool) (l : Loss) (u : State) : SameControls u (requestHalt 7 false (if others then u else holdLoss l e u)) := by
    refine SameControls.trans ?_ (sameControls_requestHalt _ _ _)
    split
    · exact SameControls.refl u
    · exact sameControls_holdLoss l e u
  exact (SameControls.of_banks (s.bump_banks _)).trans (halted _ _ _)

theorem sameControls_postCourseResult (o : Nat) (e : Entry) (s : State) : SameControls s (postCourseResult o e s) := by
  unfold postCourseResult
  dsimp only
  refine (SameControls.of_banks ?_).trans (sameControls_journal _ _ _ _ _ _)
  rw [State.raiseIf_banks, State.raise_banks]
  rfl

theorem sameControls_tryFinish (s : State) : SameControls s (tryFinish s) := by
  unfold tryFinish
  split
  · split
    · exact ((sameControls_postCourseResult _ _ s).trans (SameControls.of_banks (courseEvent_banks _ _ _ _))).trans (SameControls.of_banks rfl)
    · exact SameControls.refl s
  · exact SameControls.refl s

theorem dropCourseLoss_banks (s : State) : (dropCourseLoss s).banks = s.banks := by
  unfold dropCourseLoss
  dsimp only
  split
  · split <;> rfl
  · rfl

theorem sameControls_endEarly (o : Nat) (fail : Option AdmitFail) (s : State) : SameControls s (endEarly o fail s) := by
  unfold endEarly
  split
  · exact SameControls.refl s
  · exact (SameControls.of_banks (dropCourseLoss_banks s)).trans (sameControls_tryFinish _)

theorem sameControls_layoutAbort (e : Entry) (h : StreamHead) (f : FailedTile) (s : State) : SameControls s (layoutAbort e h f s) := by
  unfold layoutAbort
  dsimp only
  refine (SameControls.trans ?_ (sameControls_requestHalt 10 false _)).trans (sameControls_endEarly _ _ _)
  exact SameControls.of_banks rfl

end Sys2Proof.Machine
end

section
/-! SUPPORT. Table words read, with the rows that are rebuilt for a word of the backscatter window (R126, R127, R317, R319), as far as the bank
controls go. -/

namespace Sys2Proof.Machine

/-! ### Rows rebuilt (R126) -/

theorem sameControls_readTileSource (port : Nat) (e : Entry) (h : StreamHead) (b k : Nat) (s : State) :
    SameControls s (readTileSource port e h b k s) := SameControls.of_blockFrame (blockFrame_readTileSource port e h b k s) (by decide)

/-- Tiles decoded again, the test of a source loss given: with that test a variable, nothing evaluates the read of HBM in it. -/
def decodeAgainBy (loss : State → Nat → Entry → StreamHead → Nat → Nat → Option (Nat × Nat × Bool)) (e : Entry) (h : StreamHead) :
    List (Nat × Nat) → List (Nat × Nat) → State → Option (List (Nat × Nat)) × State
  | [], acc, s => (some acc, s)
  | (b, k) :: rest, acc, s =>
    let s1 := readTileSource 8 e h b k s
    match loss s 8 e h b k with
    | some r => (none, foundLoss e b k r false s1)
    | none =>
      let d := decodeTileAt (s.stream e) s.shape h b k
      if d.err.isSome then (none, layoutAbort e h { band := b, tile := k, islet := 0, byEngine := true, dec := d } s1)
      else decodeAgainBy loss e h rest (acc ++ tileDensity s.shape h.classes h.lengthPx b k d.items) s1

/-- It is the engine's own where the test is R289's. -/
theorem decodeAgainBy_lossOf : decodeAgainBy lossOf = decodeAgain := by
  delta decodeAgain decodeAgainBy
  rfl

theorem sameControls_decodeAgainBy (loss : State → Nat → Entry → StreamHead → Nat → Nat → Option (Nat × Nat × Bool)) (e : Entry)
    (h : StreamHead) (tiles acc : List (Nat × Nat)) (s : State) : SameControls s (decodeAgainBy loss e h tiles acc s).2 := by
  induction tiles generalizing acc s with
  | nil => exact SameControls.refl s
  | cons p rest ih =>
    have read := sameControls_readTileSource 8 e h p.1 p.2 s
    rw [decodeAgainBy]
    dsimp only
    split
    · exact read.trans (sameControls_foundLoss _ _ _ _ _)
    · split
      · exact read.trans (sameControls_layoutAbort _ _ _ _)
      · exact read.trans (ih _ _)

theorem sameControls_freshTable (hit : Nat → Bool) (s : State) : SameControls s (freshTable hit s) :=
  SameControls.of_banks ((frame_freshTable hit s).1 .banks (by decide))

theorem sameControls_freshWindow (hit : Nat → Bool) (s : State) : SameControls s (freshWindow hit s) :=
  (sameControls_freshTable hit s).trans (SameControls.of_banks rfl)

theorem sameControls_writeDensity (e : Entry) (ys : List Int) (s : State) : SameControls s (writeDensity e ys s) :=
  SameControls.foldl _ (fun t _ => sameControls_clientWrite _ _ _ t) ys s

theorem sameControls_writeFactors (e : Entry) (ys : List Int) (s : State) : SameControls s (writeFactors e ys s) :=
  SameControls.foldl _ (fun t _ => (sameControls_clientWrite _ _ _ t).trans (sameControls_freshWindow _ _)) ys s

/-- Rows rebuilt: the tiles decoded again stand as a variable in the proof, so that nothing evaluates them. -/
theorem sameControls_rebuildRows (e : Entry) (h : StreamHead) (ys : List Int) (s : State) : SameControls s (rebuildRows e h ys s) := by
  obtain ⟨again, hagain⟩ := exists_eq (a' := decodeAgain)
  have decoded (tiles acc : List (Nat × Nat)) (u : State) : SameControls u (again e h tiles acc u).2 := by
    rw [hagain, ← decodeAgainBy_lossOf]
    exact sameControls_decodeAgainBy lossOf e h tiles acc u
  unfold rebuildRows
  rw [← hagain]
  split
  · exact SameControls.refl s
  · dsimp only
    split
    next s1 heq => exact (heq ▸ decoded _ _ _ :)
    next parts s1 heq =>
      have first : SameControls s s1 := (heq ▸ decoded _ _ _ :)
      refine (first.trans (SameControls.trans ?_ (sameControls_writeDensity _ _ _))).trans (sameControls_writeFactors _ _ _)
      exact SameControls.of_banks rfl

theorem sameControls_rebuildWindow (a : Nat) (s : State) : SameControls s (rebuildWindow a s) := by
  unfold rebuildWindow
  split
  · split
    · exact sameControls_rebuildRows _ _ _ s
    · exact sameControls_freshWindow _ s
  · exact sameControls_freshWindow _ s

/-! ### Table words read (R317, R319) -/

theorem sameControls_proposeRow (trigger mem addr : Nat) (s : State) : SameControls s (proposeRow trigger mem addr s) :=
  SameControls.of_blockFrame (blockFrame_propose _ _ _ _ s) (by decide)

/-- A word noted as BAD and proposed for repair (R319, R326). -/
theorem sameControls_noteBad (a : Nat) (s : State) : SameControls s
    (proposeRow 2 0 a (({ s with mem := { s.mem with bad := insertKey a s.mem.bad } }).raise F.SRM_EVENTS_BAD)) := by
  refine SameControls.trans ?_ (sameControls_proposeRow 2 0 a _)
  exact SameControls.of_banks rfl

/-- A word found BAD takes marks off a shadow, or halts the course (R319). -/
theorem sameControls_markBad (a : Nat) (s : State) : SameControls s (markBad a s) := by
  unfold markBad
  dsimp only
  split
  · refine SameControls.trans ?_ (sameControls_rebuildWindow a _)
    split
    · exact SameControls.refl s
    · exact sameControls_noteBad a s
  · split
    · exact SameControls.refl s
    · refine (sameControls_noteBad a s).trans ?_
      split
      · split
        · exact (sameControls_requestHalt 7 false _).trans (SameControls.of_banks (State.fset_banks _ _ _))
        · exact SameControls.refl _
      · split
        · exact sameControls_setBank _ _ _ rfl rfl
        · exact SameControls.refl _

theorem flipTableBit_banks (a d : Nat) (s : State) : (flipTableBit a d s).banks = s.banks := by
  unfold flipTableBit
  split
  · rfl
  · split <;> rfl

theorem sameControls_readTableByte (a : Nat) (s : State) : SameControls s (readTableByte a s) := by
  unfold readTableByte
  split
  · exact SameControls.refl s
  · exact sameControls_markBad _ s
  next d hclass =>
    clear hclass
    have corrected (u : State) (h : u.banks = s.banks) :
        (match d with | some b => flipTableBit a b u | none => u : State).banks = s.banks := by
      cases d with
      | none => exact h
      | some b => exact (flipTableBit_banks a b u).trans h
    dsimp only
    split
    · refine SameControls.trans (SameControls.of_banks (corrected _ ?_)) (sameControls_proposeRow 3 0 _ _)
      rfl
    · refine SameControls.of_banks (corrected _ ?_)
      rfl

/-- Reading table words leaves the bank in service of every table, and a clone in progress (R317, R319). -/
theorem sameControls_readTables (hit : Nat → Bool) (s : State) : SameControls s (readTables hit s) :=
  SameControls.foldl _ (fun t a => sameControls_readTableByte a t) _ s

end Sys2Proof.Machine
end

section
/-! PROOF. CLONE_DONE (R131, R317). -/

namespace Sys2Proof.Machine

/-! ### The bank control -/

/-- A bank control once its copy has ended (R131). -/
def Bank.copied (b : Bank) : Bank := { b with cloning := false, allMarked := true, marks := [], hazy := none, sure := [] }

/-- Where the word at an address of bank b goes as it is copied: to the same place of the other bank (R129, R131). -/
def copyAddr (x : TableId) (b a : Nat) : Nat := if b = 0 then a + (bankPlace x).2 else a - (bankPlace x).2

/-- The words of the bank in service copied to the shadow (R131). -/
def copyWords (x : TableId) (b : Nat) (s : State) : State :=
  (bankWords x b).foldl (fun u a => u.setReg (copyAddr x b a) (s.reg a)) s

/-- The end of a copy sets every mark, of the beam map as of the tables in BAR0 (R131, R143). -/
theorem cloneDoneOp_of_cloning {x : TableId} {s : State} (h : (s.bank x).cloning = true) :
    ∃ u, cloneDoneOp x s = u.setBank x (s.bank x).copied ∧ (x ≠ .map → u = copyWords x (s.bank x).active s) := by
  unfold cloneDoneOp
  simp only [h, Bool.not_true, Bool.false_eq_true, if_false]
  split
  next hmap => exact ⟨_, rfl, fun hx => absurd hmap hx⟩
  next => exact ⟨_, rfl, fun _ => rfl⟩

/-- A table's check bits afresh, and its words BAD no longer (R317, R319). -/
def freshShadow (hit : Nat → Bool) (s : State) : State :=
  { freshTable hit s with mem := { (freshTable hit s).mem with bad := (freshTable hit s).mem.bad.filter (fun a => !hit a) } }

theorem frame_freshShadow (hit : Nat → Bool) (s : State) : Frame [.mem] [R.SRM_CHK_CTL] s (freshShadow hit s) :=
  (frame_freshTable hit s).trans (frame_setMem _ _ _)

/-- The reads of the bank in service come before the copy, and the fresh check bits of a shadow in BAR0 after it (R317). -/
theorem cloneDone_of_cloning {x : TableId} {s : State} (h : (s.bank x).cloning = true) : cloneDone x s =
    if x = .map then cloneDoneOp x (readTables (inBank x (s.bank x).active) s)
    else freshShadow (inBank x (1 - (s.bank x).active)) (cloneDoneOp x (readTables (inBank x (s.bank x).active) s)) := by
  simp only [cloneDone, h, Bool.not_true, Bool.false_eq_true, if_false]
  rfl

/-- What the end of a clone makes of its bank control: the reads beside it leave the bank in service and the clone (R131, R319). -/
theorem bank_cloneDone {x : TableId} {s : State} (h : (s.bank x).cloning = true) :
    ∃ k : Bank, (cloneDone x s).bank x = k.copied ∧ k.active = (s.bank x).active := by
  obtain ⟨hcloning, hactive⟩ := (sameControls_readTables (inBank x (s.bank x).active) s).bank x
  rw [cloneDone_of_cloning h]
  generalize readTables (inBank x (s.bank x).active) s = u at hcloning hactive
  obtain ⟨v, hv, -⟩ := cloneDoneOp_of_cloning (hcloning.trans h)
  refine ⟨u.bank x, ?_, hactive⟩
  rw [hv]
  split
  · exact State.bank_setBank_self _ _ _
  · rw [State.bank_congr ((frame_freshShadow _ _).1 .banks (by decide)), State.bank_setBank_self]

/-! ### The words copied -/

theorem frame_foldl_setReg (dst : Nat → Nat) (val : Nat → Word) (l : List Nat) (s : State) :
    Frame [] (l.map dst) s (l.foldl (fun u a => u.setReg (dst a) (val a)) s) :=
  Frame.foldl _ l (fun t _ ha => Frame.setReg _ _ t _ _ (List.mem_map_of_mem ha)) s

/-- Registers written one after another, no two names for one. -/
theorem reg_foldl_setReg (dst : Nat → Nat) (val : Nat → Word) (l : List Nat) (s : State)
    (apart : ∀ a ∈ l, ∀ b ∈ l, dst a = dst b → a = b) {a : Nat} (ha : a ∈ l) (hr : recorderReg (dst a) = false) :
    (l.foldl (fun u b => u.setReg (dst b) (val b)) s).reg (dst a) = val a := by
  induction l generalizing s with
  | nil => simp at ha
  | cons b t ih =>
    rw [List.foldl_cons]
    by_cases hat : a ∈ t
    · exact ih _ (fun c hc d hd => apart c (by simp [hc]) d (by simp [hd])) hat
    · obtain rfl : a = b := by simpa [hat] using ha
      have kept : dst a ∉ t.map dst := by
        intro hm
        obtain ⟨c, hc, e⟩ := List.mem_map.mp hm
        exact hat (apart c (by simp [hc]) a (by simp) e ▸ hc)
      rw [(frame_foldl_setReg dst val t _).2 _ kept hr, State.reg_setReg_self]

/-- A word of a bank and its copy stand at one offset of the two banks. -/
theorem copyAddr_of_mem {x : TableId} {b a : Nat} (hb : b < 2) (h : a ∈ bankWords x b) : ∃ i < (bankPlace x).2 / 4,
    a = (bankPlace x).1 + b * (bankPlace x).2 + 4 * i ∧
      copyAddr x b a = (bankPlace x).1 + (1 - b) * (bankPlace x).2 + 4 * i := by
  obtain ⟨i, hi, rfl⟩ := List.mem_map.mp (List.mem_filter.mp h).1
  refine ⟨i, List.mem_range.mp hi, rfl, ?_⟩
  interval_cases b <;> simp [copyAddr] <;> omega

/-- The banks in BAR0 lie in three blocks, none of them the recorder's or that of the memory's controls (R451). -/
theorem copyAddr_block {x : TableId} {b a : Nat} (hx : x ≠ .map) (hb : b < 2) (h : a ∈ bankWords x b) :
    copyAddr x b a / 65536 ∈ [0x0E, 0x11, 0x12] := by
  obtain ⟨i, hi, -, e⟩ := copyAddr_of_mem hb h
  rw [e]
  cases x <;> simp [bankPlace] at hx hi ⊢ <;> interval_cases b <;> omega

theorem recorderReg_copyAddr {x : TableId} {b a : Nat} (hx : x ≠ .map) (hb : b < 2) (h : a ∈ bankWords x b) :
    recorderReg (copyAddr x b a) = false := by
  have block := copyAddr_block hx hb h
  apply recorderReg_of_block <;> intro e <;> simp [e] at block

/-- The copy: every word of the shadow equals the word of the bank in service, and only the shadow's words change (R131). -/
theorem copyWords_spec {x : TableId} {b : Nat} (hx : x ≠ .map) (hb : b < 2) (s : State) :
    (∀ a ∈ bankWords x b, (copyWords x b s).reg (copyAddr x b a) = s.reg a) ∧
      Frame [] ((bankWords x b).map (copyAddr x b)) s (copyWords x b s) := by
  refine ⟨fun a ha => reg_foldl_setReg (copyAddr x b) s.reg _ s ?_ ha (recorderReg_copyAddr hx hb ha),
    frame_foldl_setReg _ s.reg _ s⟩
  intro a ha c hc e
  obtain ⟨i, -, rfl, hi⟩ := copyAddr_of_mem hb ha
  obtain ⟨j, -, rfl, hj⟩ := copyAddr_of_mem hb hc
  have := hi.symm.trans (e.trans hj)
  omega

/-- With no FLIP armed the fresh check bits touch no register (R327). -/
theorem frame_freshShadow_of_unarmed {s : State} (hit : Nat → Bool) (h : s.fget F.SRM_CHK_CTL_MODE ≠ 1) :
    Frame [.mem] [] s (freshShadow hit s) := by
  have unarmed : s.armedFlip 0 hit = none := by simp [State.armedFlip, h]
  have fresh : freshTable hit s = { s with mem := { s.mem with flips := s.mem.flips.filter (fun p => !hit p.1) } } := by
    simp only [freshTable, unarmed]
  rw [freshShadow, fresh]
  exact (frame_setMem [] s _).trans (frame_setMem [] _ _)

/-- What the end of a clone leaves in BAR0 where every check bit is right and no FLIP is armed (R131, R317). -/
theorem cloneDone_words {x : TableId} {s : State} (hx : x ≠ .map) (hc : (s.bank x).cloning = true) (hf : s.mem.flips = [])
    (hm : s.fget F.SRM_CHK_CTL_MODE ≠ 1) (hb : (s.bank x).active < 2) :
    (∀ a ∈ bankWords x (s.bank x).active, (cloneDone x s).reg (copyAddr x (s.bank x).active a) = s.reg a) ∧
      Frame [.banks, .mem] ((bankWords x (s.bank x).active).map (copyAddr x (s.bank x).active)) s (cloneDone x s) := by
  obtain ⟨u, hu, hcopy⟩ := cloneDoneOp_of_cloning hc
  obtain ⟨words, copied⟩ := copyWords_spec hx hb s
  rw [cloneDone_of_cloning hc, if_neg hx, readTables_of_flips_nil _ s hf, hu, hcopy hx]
  generalize hregs : (bankWords x (s.bank x).active).map (copyAddr x (s.bank x).active) = regs at copied
  have written : Frame [.banks, .mem] regs s ((copyWords x (s.bank x).active s).setBank x (s.bank x).copied) :=
    (copied.mono (by simp) (fun _ h => h)).trans ((frame_setBank regs _ x _).mono (by simp) (fun _ h => h))
  have outside : R.SRM_CHK_CTL ∉ regs := by
    rw [← hregs]
    intro h
    obtain ⟨a, ha, e⟩ := List.mem_map.mp h
    have block := copyAddr_block hx hb ha
    rw [e] at block
    exact absurd block (by decide)
  have unarmed : ((copyWords x (s.bank x).active s).setBank x (s.bank x).copied).fget F.SRM_CHK_CTL_MODE ≠ 1 := by
    have same : ((copyWords x (s.bank x).active s).setBank x (s.bank x).copied).reg R.SRM_CHK_CTL = s.reg R.SRM_CHK_CTL :=
      written.2 _ outside (by decide)
    rw [State.fget, show F.SRM_CHK_CTL_MODE.addr = R.SRM_CHK_CTL from rfl, same]
    exact hm
  have fresh := frame_freshShadow_of_unarmed (inBank x (1 - (s.bank x).active)) unarmed
  refine ⟨fun a ha => ?_, written.trans (fresh.mono (by simp) (by simp))⟩
  rw [fresh.2 _ (by simp) (recorderReg_copyAddr hx hb ha), State.reg_setBank, words a ha]

/-- Settles O26: the end of a clone is one bank control, whatever the reads beside it find; with every check bit right the reads find nothing,
and what is left is the copy. -/
theorem cloneDoneFillsTheShadow : Obligations.CloneDoneFillsTheShadow := by
  unfold Obligations.CloneDoneFillsTheShadow
  intro s x hc
  have cloning : (s.begin.bank x).cloning = true := by rw [State.begin_bank, hc]
  refine ⟨completes_of (cloneDone x) rfl ?_, fun hx hf hm hb => completes_of (cloneDone x) rfl ?_⟩
  · obtain ⟨k, hk, hactive⟩ := bank_cloneDone cloning
    rw [bank_settled, hk]
    exact ⟨rfl, rfl, rfl, hactive.trans (by rw [State.begin_bank])⟩
  · obtain ⟨words, hframe⟩ := cloneDone_words hx cloning hf hm (by rwa [State.begin_bank])
    rw [State.begin_bank] at words hframe
    refine ⟨fun a ha => ?_, Frame.settled _ hframe⟩
    exact (reg_settled _ _ _ _ (recorderReg_copyAddr hx hb ha)).trans (words a ha)

end Sys2Proof.Machine
end

section
/-! PROOF. STROKE_SPLIT (R147, R150, R151, R158, R161, R170): the wait for a row, and the split of a stroke in which nothing is found wrong. -/

namespace Sys2Proof.Machine

/-! ### A row that is not yet valid (R158) -/

theorem strokeSplitOp_of_unready {s : State} {e : Entry} (check : Option SplitCheck) (hm : s.mayFrame = true) (hr : s.running = some e)
    (hrows : (s.strokeRows s.crw.split).all s.rowValid = false) : strokeSplitOp check s = splitWaits s.crw.split s := by
  simp [strokeSplitOp, hm, hr, hrows]

/-- Beside STALLED a wait changes only its count, its event and the list of the strokes that have waited. -/
theorem splitWaits_raised (n : Nat) (s : State) :
    Frame [.crw] [R.WAK_STALLS, R.WAK_EVENTS] (s.raise F.WAK_STATUS_STALLED) (splitWaits n s) ∧
      (splitWaits n s).crw.split = s.crw.split := by
  unfold splitWaits
  dsimp only
  split
  · exact ⟨Frame.refl _ _ _, rfl⟩
  · exact ⟨((Frame.bump _ _ _ _ (by decide)).trans (Frame.raiseIf _ _ _ _ _ (by decide))).trans (frame_setCrw _ _ _), by simp⟩

theorem frame_splitWaits (n : Nat) (s : State) : Frame [.crw] [R.WAK_STATUS, R.WAK_STALLS, R.WAK_EVENTS] s (splitWaits n s) :=
  (Frame.raise _ _ s F.WAK_STATUS_STALLED (by decide)).trans ((splitWaits_raised n s).1.mono (fun _ h => h) (by decide))

theorem flag_splitWaits (n : Nat) (s : State) : (splitWaits n s).flag F.WAK_STATUS_STALLED = true := by
  rw [State.flag, State.fget, (splitWaits_raised n s).1.2 _ (by decide) (by decide)]
  exact s.flag_raise_self F.WAK_STATUS_STALLED (by decide) (by decide)

/-! ### Pixels evaluated (R150, R151) -/

/-- The counters, the held pixel and the events of unwritable pixels. -/
def pixelRegs : List Nat :=
  [R.CRW_EVENTS, R.CRW_UNDER_COUNT, R.CRW_OVER_COUNT, R.CRW_DEFICIT_DU, R.CRW_EXCESS_DU, R.CRW_UNW_FIRST, R.CRW_UNW_FIRST_ROW]

theorem frame_countUnwritable (t y p : Nat) (s : State) : Frame [] pixelRegs s (countUnwritable t y p s) := by
  have held (b : Bool) (kind : Nat) (u : State) : Frame [] pixelRegs u (if b = true then
      (((u.fset F.CRW_UNW_FIRST_TRACK t).fset F.CRW_UNW_FIRST_KIND kind).fset F.CRW_UNW_FIRST_VALID 1).fset F.CRW_UNW_FIRST_ROW_ROW y
      else u) :=
    Frame.ite _ (fun _ => (((Frame.fset _ _ _ _ _ (by decide)).trans (Frame.fset _ _ _ _ _ (by decide))).trans
      (Frame.fset _ _ _ _ _ (by decide))).trans (Frame.fset _ _ _ _ _ (by decide))) (fun _ => Frame.refl _ _ u)
  have counted (b : Bool) {event count sum : Fld} (d : Nat) (he : event.addr ∈ pixelRegs) (hc : count.addr ∈ pixelRegs)
      (hs : sum.addr ∈ pixelRegs) : Frame [] pixelRegs s (((State.raiseIf b event s).bump count).add sum d) :=
    ((Frame.raiseIf _ _ s b event he).trans (Frame.bump _ _ _ count hc)).trans (Frame.fset _ _ _ sum _ hs)
  unfold countUnwritable
  dsimp only
  split
  · exact Frame.refl _ _ s
  · exact (counted _ _ (by decide) (by decide) (by decide)).trans (held _ 0 _)
  · exact (counted _ _ (by decide) (by decide) (by decide)).trans (held _ 1 _)

theorem frame_evaluatePixels (n : Nat) (s : State) : Frame [] pixelRegs s (evaluatePixels n s) := by
  refine Frame.foldl _ _ (fun u t _ => ?_) s
  split
  · exact Frame.refl _ _ u
  · exact frame_countUnwritable _ _ _ u

/-! ### A stroke framed (R161, R170) -/

/-- The wait for a row over, and the pixels of a stroke evaluated where it was not split before (R151, R158). -/
def readStroke (n : Nat) (s : State) : State :=
  if s.crw.seen ≤ n then evaluatePixels n (s.clear F.WAK_STATUS_STALLED) else s.clear F.WAK_STATUS_STALLED

/-- Frames of stroke n enter their lanes, and the stroke after it is next (R161). -/
def sendStroke (n : Nat) (frames : List TxFrame) (s : State) : State :=
  { s.fset F.CRW_SPLIT_STROKE_STROKE n with
    bln := { s.bln with frames := s.bln.frames ++ frames }
    crw := { s.crw with split := n + 1, seen := max s.crw.seen (n + 1), stop := false } }

theorem frame_readStroke (n : Nat) (s : State) : Frame [] (R.WAK_STATUS :: pixelRegs) s (readStroke n s) := by
  have cleared := Frame.clear [] (R.WAK_STATUS :: pixelRegs) s F.WAK_STATUS_STALLED (by decide)
  refine Frame.ite _ (fun _ => cleared.trans ?_) (fun _ => cleared)
  exact (frame_evaluatePixels n _).mono (by simp) (fun _ h => List.mem_cons_of_mem _ h)

theorem flag_readStroke (n : Nat) (s : State) : (readStroke n s).flag F.WAK_STATUS_STALLED = false := by
  have cleared := s.flag_clear_self F.WAK_STATUS_STALLED (by decide)
  unfold readStroke
  split
  · rwa [State.flag, State.fget, (frame_evaluatePixels n _).2 _ (by decide) (by decide)]
  · exact cleared

theorem frame_sendStroke (rs : List Nat) (n : Nat) (frames : List TxFrame) (s : State) :
    Frame [.bln, .crw] (R.CRW_SPLIT_STROKE :: rs) s (sendStroke n frames s) :=
  (Frame.fset _ _ s F.CRW_SPLIT_STROKE_STROKE n List.mem_cons_self).trans
    (Frame.parts _ _ _ _ rfl (fun p hp => by cases p <;> simp_all [Part.same, sendStroke]))

/-- What a stroke framed leaves. -/
theorem sendStroke_readStroke (n : Nat) (frames : List TxFrame) (s : State) :
    let t := sendStroke n frames (readStroke n s)
    t.crw.split = n + 1 ∧ t.crw.stop = false ∧ t.crw.seen = max s.crw.seen (n + 1) ∧ t.bln.frames = s.bln.frames ++ frames ∧
      t.fget F.CRW_SPLIT_STROKE_STROKE = n % 2 ^ 25 ∧ t.flag F.WAK_STATUS_STALLED = false ∧
      Frame [.bln, .crw] (R.CRW_SPLIT_STROKE :: R.WAK_STATUS :: pixelRegs) s t := by
  intro t
  have read := frame_readStroke n s
  have hbln : (readStroke n s).bln = s.bln := read.1 .bln (by simp)
  have hcrw : (readStroke n s).crw = s.crw := read.1 .crw (by simp)
  have sent := frame_sendStroke [] n frames (readStroke n s)
  refine ⟨rfl, rfl, congrArg (fun c : Crews => max c.seen (n + 1)) hcrw, congrArg (fun b : Lanes => b.frames ++ frames) hbln,
    State.fget_fset_self _ F.CRW_SPLIT_STROKE_STROKE n (by decide), ?_,
    (read.mono (by simp) (fun _ h => List.mem_cons_of_mem _ h)).trans (frame_sendStroke _ n frames _)⟩
  rw [State.flag, State.fget, sent.2 _ (by decide) (by decide)]
  exact flag_readStroke n s

/-- The checks of a stroke rest on the course parity beside STALLED, not on STALLED (R155, R159). -/
theorem strokeFaults_clear_stalled (n : Nat) (s : State) : strokeFaults (s.clear F.WAK_STATUS_STALLED) n = strokeFaults s n := by
  have parity : (s.clear F.WAK_STATUS_STALLED).fget F.WAK_STATUS_K = s.fget F.WAK_STATUS_K :=
    State.fget_fset_other _ _ _ _ (by decide)
  simp only [strokeFaults, seatFault, parity]
  rfl

/-- A frame does not rest on STALLED (R149). -/
theorem framed_clear_stalled (e : Entry) (n : Nat) (s : State) : framed (s.clear F.WAK_STATUS_STALLED) e none n = framed s e none n := by
  have ident : (s.clear F.WAK_STATUS_STALLED).deviceId = s.deviceId := State.fget_fset_other _ _ _ _ (by decide)
  have recatches : (s.clear F.WAK_STATUS_STALLED).fget F.COX_RECATCHES_IN_COURSE = s.fget F.COX_RECATCHES_IN_COURSE :=
    State.fget_fset_other _ _ _ _ (by decide)
  funext b
  simp only [framed, ident, recatches]
  rfl

/-- A stroke whose rows are valid, in which no check fails and no fault is injected, goes to every beam lane (R147, R161). -/
theorem strokeSplitOp_of_whole {s : State} {e : Entry} (hm : s.mayFrame = true) (hr : s.running = some e)
    (hrows : (s.strokeRows s.crw.split).all s.rowValid = true) (hflips : s.mem.flips = []) (hbad : s.mem.bad = [])
    (hfaults : strokeFaults s s.crw.split = []) (hinj : s.fget F.INT_INJECT_KIND ≠ 5) :
    strokeSplitOp none s =
      sendStroke s.crw.split ((List.range s.shape.beamLanes).map (framed s e none s.crw.split)) (readStroke s.crw.split s) := by
  have tables : readTables (inBank .map 0) (s.clear F.WAK_STATUS_STALLED) = s.clear F.WAK_STATUS_STALLED :=
    readTables_of_flips_nil _ _ hflips
  have whole : (s.clear F.WAK_STATUS_STALLED).badAmong (inBank .map 0) = false := by simp [State.badAmong, hbad]
  have quiet : ((s.clear F.WAK_STATUS_STALLED).fget F.INT_INJECT_KIND == 5) = false := by
    rw [State.clear, State.fget_fset_other _ _ _ _ (by decide)]
    simpa using hinj
  simp [strokeSplitOp, hm, hr, hrows, tables, whole, strokeFaults_clear_stalled, hfaults, quiet, framed_clear_stalled,
    sendStroke, readStroke]

/-- Settles O30: with every row valid and nothing found wrong the split is the frames entered and the next stroke set, after the pixels are
evaluated; with a row not yet valid it is the wait of R158. -/
theorem strokesAreSplitIntoFrames : Obligations.StrokesAreSplitIntoFrames := by
  unfold Obligations.StrokesAreSplitIntoFrames
  intro s e hm hr
  refine ⟨fun hrows hflips hbad hfaults hinj => completes_of_wf (strokeSplitOp none) rfl rfl ?_,
    fun hrows check hwf => completes_of_wf (strokeSplitOp check) rfl hwf ?_⟩
  · rw [strokeSplitOp_of_whole (s := s.begin) (e := e) hm hr hrows hflips hbad hfaults hinj]
    obtain ⟨hsplit, hstop, hseen, hframes, hstroke, hstalled, hframe⟩ := sendStroke_readStroke s.begin.crw.split
      ((List.range s.begin.shape.beamLanes).map (framed s.begin e none s.begin.crw.split)) s.begin
    rw [settle_crw, settle_bln, fget_settled _ _ _ _ rfl, flag_settled _ _ _ _ rfl]
    exact ⟨hsplit, hstop, hseen, hframes, hstroke, hstalled, Frame.settled _ (hframe.mono (fun _ h => h) (by decide))⟩
  · rw [strokeSplitOp_of_unready (s := s.begin) check hm hr hrows]
    exact ⟨by rw [flag_settled _ _ _ _ rfl, flag_splitWaits], by rw [settle_crw, (splitWaits_raised _ _).2, State.begin_crw],
      Frame.settled _ (frame_splitWaits _ _)⟩

end Sys2Proof.Machine
end

section
/-! PROOF. CRW_PROBE (R147) in a crew of more seats than the shape record allows. -/

namespace Sys2Proof.Machine

/-- A device with 2,048 seats to a crew, every one LIVE; the shape record allows 128 at most (R424). -/
def wideCrew : State := { State.reset with shape := { shapeDefault with rows := 2048, stagger := 1 } }

/-- L has eight bits of the answer and 2,048 needs twelve: its highest bit falls on VALID, and the carry leaves VALID at 0. -/
theorem wideCrew_unanswered : (crwProbeOp 0 0 0 wideCrew.begin).flag F.CRW_PROBE_OUT_VALID = false := by
  decide +kernel

/-- Refutes O31: nothing in the statement keeps the seats of a crew at 128 or below. With 2,048 LIVE seats the probe's answer passes its word,
and VALID reads 0. The shape records that a boot accepts give 128 seats at most, so that no run from reset reaches the state. -/
theorem not_splitProbeAndWakePeek : ¬ Obligations.SplitProbeAndWakePeek := by
  unfold Obligations.SplitProbeAndWakePeek
  intro h
  obtain ⟨probes, -, -⟩ := h wideCrew
  obtain ⟨t, ht, -, hvalid, -, -⟩ := probes 0 0 0 (by decide) (by decide) (by decide)
  obtain rfl := Host.Outcome.next.inj (ht.symm.trans (done_next (crwProbeOp 0 0 0) wideCrew))
  rw [flag_settled _ _ _ _ rfl, wideCrew_unanswered] at hvalid
  exact absurd hvalid (by decide)

end Sys2Proof.Machine
end

section
/-! SUPPORT. The lanes after an access (R163 to R202): their registers, their training and what they send. -/

namespace Sys2Proof.Machine

/-! ### Registers that recording does not write -/

/-- Recording writes registers of the blocks EVT and LOG alone, which lie below 0x060000. -/
theorem recorderReg_offset (b n : Nat) (h : 0x060000 ≤ b) : recorderReg (b + n) = false := by
  apply recorderReg_of_block <;> omega

@[simp] theorem laneState_settled (s0 u : State) (q : List Instr) (l : Nat) :
    ({ settle s0 u with pending := q } : State).laneState l = u.laneState l :=
  fget_settled s0 u q (F.BLN_LANE_STATUS_STATE l) (recorderReg_offset _ _ (by decide))

/-! ### Training and outputs -/

/-- The training of the lanes is held in their part. -/
theorem State.train_congr {s t : State} (h : t.bln = s.bln) (l : Nat) : t.train l = s.train l := by
  simp only [State.train, h]

@[simp] theorem train_settled (s0 u : State) (q : List Instr) (l : Nat) :
    ({ settle s0 u with pending := q } : State).train l = u.train l :=
  State.train_congr (settle_bln s0 u) l

/-- What an effect sends, the command sends. -/
theorem mem_out_settled {s0 u : State} {o : Output} (q : List Instr) (h : o ∈ u.out) :
    o ∈ ({ settle s0 u with pending := q } : State).out := (settle_out s0 u).subset h

@[simp] theorem State.train_fset (s : State) (f : Fld) (v l : Nat) : (s.fset f v).train l = s.train l := rfl

@[simp] theorem State.train_emit (s : State) (o : Output) (l : Nat) : (s.emit o).train l = s.train l := rfl

@[simp] theorem State.train_emits (s : State) (os : List Output) (l : Nat) : (s.emits os).train l = s.train l := rfl

@[simp] theorem State.train_until (s : State) (t : Int) (l : Nat) : (s.until t).train l = s.train l := rfl

/-! ### Fields -/

@[simp] theorem State.fget_emit (s : State) (o : Output) (f : Fld) : (s.emit o).fget f = s.fget f := rfl

@[simp] theorem State.fget_emits (s : State) (os : List Output) (f : Fld) : (s.emits os).fget f = s.fget f := rfl

@[simp] theorem State.fget_setTrain (s : State) (l : Nat) (t : LaneTrain) (f : Fld) : (s.setTrain l t).fget f = s.fget f := rfl

@[simp] theorem State.fget_until (s : State) (t : Int) (f : Fld) : (s.until t).fget f = s.fget f := rfl

@[simp] theorem State.flag_emit (s : State) (o : Output) (f : Fld) : (s.emit o).flag f = s.flag f := rfl

@[simp] theorem State.flag_setTrain (s : State) (l : Nat) (t : LaneTrain) (f : Fld) : (s.setTrain l t).flag f = s.flag f := rfl

/-- A flag after a write of a field that shares no bit with it. -/
theorem State.flag_fset_other (s : State) (f g : Fld) (v : Nat)
    (hd : g.addr ≠ f.addr ∨ g.lo + g.width ≤ f.lo ∨ f.lo + f.width ≤ g.lo) : (s.fset f v).flag g = s.flag g := by
  simp only [State.flag, State.fget_fset_other s f g v hd]

/-- A one-bit field set to a Bool reads as that Bool. -/
theorem State.flag_fset_bitOf (s : State) (a lo : Nat) (b : Bool) (h : lo + 1 ≤ 32) : (s.fset ⟨a, lo, 1⟩ (bitOf b)).flag ⟨a, lo, 1⟩ = b := by
  rw [State.flag, State.fget_fset_self _ _ _ h]
  cases b <;> rfl

/-! ### Frames -/

/-- The lanes' part replaced. -/
theorem Frame.setBln {ps : List Part} (rs : List Nat) (s : State) (b : Lanes) (h : .bln ∈ ps) : Frame ps rs s { s with bln := b } :=
  Frame.parts _ _ _ _ rfl (fun p hp => by cases p <;> simp_all [Part.same])

/-- A lane's training replaced. -/
theorem Frame.setTrain {ps : List Part} (rs : List Nat) (s : State) (l : Nat) (t : LaneTrain) (h : .bln ∈ ps) :
    Frame ps rs s (s.setTrain l t) := Frame.setBln rs s _ h

/-- The clock moved on. -/
theorem Frame.until {ps : List Part} (rs : List Nat) (s : State) (t : Int) (h : .clock ∈ ps) : Frame ps rs s (s.until t) :=
  (frame_until rs s t).mono (by simpa using h) (fun _ m => m)

/-- An output sent. -/
theorem Frame.emit (ps : List Part) (rs : List Nat) (s : State) (o : Output) : Frame ps rs s (s.emit o) :=
  Frame.parts _ _ _ _ rfl (fun p _ => by cases p <;> simp [Part.same])

/-- Outputs sent. -/
theorem Frame.emits (ps : List Part) (rs : List Nat) (s : State) (os : List Output) : Frame ps rs s (s.emits os) :=
  Frame.parts _ _ _ _ rfl (fun p _ => by cases p <;> simp [Part.same])

/-- A counter increased by a number. -/
theorem Frame.add (ps : List Part) (rs : List Nat) (s : State) (f : Fld) (n : Nat) (h : f.addr ∈ rs) : Frame ps rs s (s.add f n) :=
  Frame.fset ps rs s f _ h

end Sys2Proof.Machine
end

section
/-! PROOF. LANE_ENABLE, TRAIN and LANE_TEST (R189, R193, R197). -/

namespace Sys2Proof.Machine

/-- CTL and STATUS of a lane are two registers. -/
theorem laneStatus_ne_laneCtl (l : Nat) : R.BLN_LANE_STATUS l ≠ R.BLN_LANE_CTL l := by
  simp only [R.BLN_LANE_STATUS, R.BLN_LANE_CTL]
  omega

/-! ### A training begun, and a test entered -/

/-- A training that begins shows TRAINING at the first rung of its mode (R189). -/
theorem startTrain_spec (l : Nat) (s : State) :
    let t := startTrain l s
    let rung := if s.flag (F.BLN_LANE_CTL_LADDER l) then 0 else 3
    t.laneState l = 1 ∧ t.fget (F.BLN_LANE_STATUS_RUNG l) = rung ∧ (t.train l).phase = .stageA ∧
      (t.train l).ladder = s.flag (F.BLN_LANE_CTL_LADDER l) ∧ Frame [.bln] [R.BLN_LANE_STATUS l] s t := by
  have small (b : Bool) : (if b then 0 else 3) % 2 ^ 2 = if b then 0 else 3 := by cases b <;> rfl
  have trained : (startTrain l s).train l = { s.train l with
      phase := .stageA, ladder := s.flag (F.BLN_LANE_CTL_LADDER l), rung := if s.flag (F.BLN_LANE_CTL_LADDER l) then 0 else 3
      tries := 0, began := s.clock, since := s.clock, passed := none, lockAt := none } := State.train_setTrain_self s l _
  refine ⟨?_, ?_, by rw [trained], by rw [trained], ?_⟩
  · rw [startTrain, State.laneState, State.fget_emits,
      State.fget_fset_other _ (F.BLN_LANE_STATUS_RUNG l) (F.BLN_LANE_STATUS_STATE l) _ (.inr (.inl (Nat.le_refl 3))), setLane,
      State.fget_fset_self _ (F.BLN_LANE_STATUS_STATE l) 1 (by decide : 3 ≤ 32)]
    rfl
  · rw [startTrain, State.fget_emits, State.fget_fset_self _ (F.BLN_LANE_STATUS_RUNG l) _ (by decide : 5 ≤ 32)]
    exact small _
  · rw [startTrain, setLane]
    exact (((Frame.setTrain _ _ _ _ (by simp)).trans (Frame.fset _ _ _ (F.BLN_LANE_STATUS_STATE l) _ (.head _))).trans
      (Frame.fset _ _ _ (F.BLN_LANE_STATUS_RUNG l) _ (.head _))).trans
      (Frame.emits _ _ _ _)

/-- A lane that enters TEST shows it, and drives the pattern written for it (R193). -/
theorem enterTest_spec (l : Nat) (s : State) :
    (enterTest l s).laneState l = 6 ∧
      .laneDrive l (s.fget (F.BLN_LANE_PRBS_PATTERN l)) (s.flag (F.BLN_LANE_PRBS_FRAMED l)) ∈ (enterTest l s).out ∧
      Frame [] [R.BLN_LANE_STATUS l] s (enterTest l s) :=
  ⟨State.fget_fset_self s (F.BLN_LANE_STATUS_STATE l) 6 (by decide : 3 ≤ 32), by simp [enterTest],
    (Frame.fset _ _ _ (F.BLN_LANE_STATUS_STATE l) _ (.head _)).trans (Frame.emit _ _ _ _)⟩

/-- A field outside a lane's STATUS is as it was after a frame that exempts STATUS alone. -/
theorem Frame.flag_laneCtl {ps : List Part} {s t : State} {l lo w : Nat} (h : Frame ps [R.BLN_LANE_STATUS l] s t) :
    t.flag ⟨R.BLN_LANE_CTL l, lo, w⟩ = s.flag ⟨R.BLN_LANE_CTL l, lo, w⟩ := by
  obtain ⟨-, regs⟩ := h
  have same := regs (R.BLN_LANE_CTL l) (by simpa using (laneStatus_ne_laneCtl l).symm) (recorderReg_offset _ _ (by decide))
  simp only [State.flag, State.fget, same]

/-! ### The commands -/

/-- LANE_ENABLE that powers a lane stores ENABLE (R197). -/
theorem completes_laneEnable_on {s : State} {l : Nat} (hl : l < 136) : Completes (.laneEnable l true) s (fun t =>
    t.flag (F.BLN_LANE_CTL_ENABLE l) = true ∧ Frame [] [R.BLN_LANE_CTL l] s t) :=
  completes_of_wf (laneEnableOp l true) rfl (decide_eq_true hl)
    ⟨(flag_settled _ _ _ (F.BLN_LANE_CTL_ENABLE l) (recorderReg_offset _ _ (by decide))).trans (State.flag_fset_bitOf _ _ _ true (by decide)),
      Frame.settled _ (Frame.fset _ _ _ _ _ (.head _))⟩

/-- LANE_ENABLE that takes a lane DOWN leaves its training idle (R197). -/
theorem completes_laneEnable_off {s : State} {l : Nat} (hl : l < 136) : Completes (.laneEnable l false) s (fun t =>
    t.flag (F.BLN_LANE_CTL_ENABLE l) = false ∧ t.laneState l = 0 ∧ (t.train l).phase = .idle ∧
      Frame [.bln] [R.BLN_LANE_CTL l, R.BLN_LANE_STATUS l] s t) := by
  refine completes_of_wf (laneEnableOp l false) rfl (decide_eq_true hl) ?_
  have down : laneEnableOp l false s.begin = (setLane l 0 (s.begin.fset (F.BLN_LANE_CTL_ENABLE l) (bitOf false))).setTrain l
      { (s.train l) with phase := .idle } := rfl
  rw [down, laneState_settled, train_settled, State.train_setTrain_self]
  refine ⟨(flag_settled _ _ _ (F.BLN_LANE_CTL_ENABLE l) (recorderReg_offset _ _ (by decide))).trans ?_, ?_, rfl, Frame.settled _ ?_⟩
  · rw [State.flag_setTrain, setLane,
      State.flag_fset_other _ (F.BLN_LANE_STATUS_STATE l) (F.BLN_LANE_CTL_ENABLE l) _ (.inl (laneStatus_ne_laneCtl l).symm)]
    exact State.flag_fset_bitOf _ _ _ false (by decide)
  · rw [State.laneState, State.fget_setTrain, setLane, State.fget_fset_self _ (F.BLN_LANE_STATUS_STATE l) 0 (by decide : 3 ≤ 32)]
    rfl
  · exact ((Frame.fset _ _ _ (F.BLN_LANE_CTL_ENABLE l) _ (.head _)).trans
      (Frame.fset _ _ _ (F.BLN_LANE_STATUS_STATE l) _ (.tail _ (.head _)))).trans (Frame.setTrain _ _ _ _ (by simp))

/-- TRAIN on an enabled lane that is not ACTIVE begins its training (R189). -/
theorem completes_train {s : State} {l : Nat} (hl : l < 136) (he : s.flag (F.BLN_LANE_CTL_ENABLE l) = true) (ha : s.laneState l ≠ 4) :
    Completes (.train l) s (fun t => t.laneState l = 1 ∧ (t.train l).phase = .stageA ∧
      (t.train l).ladder = s.flag (F.BLN_LANE_CTL_LADDER l) ∧
      t.fget (F.BLN_LANE_STATUS_RUNG l) = (if s.flag (F.BLN_LANE_CTL_LADDER l) then 0 else 3) ∧ Frame [.bln] [R.BLN_LANE_STATUS l] s t) := by
  refine completes_of_wf (trainOp l) rfl (decide_eq_true hl) ?_
  have due : (s.begin.flag (F.BLN_LANE_CTL_ENABLE l) && s.begin.laneState l != 4) = true := by simpa [State.laneState] using ⟨he, ha⟩
  obtain ⟨hstate, hrung, hphase, hladder, hframe⟩ := startTrain_spec l s.begin
  rw [trainOp, if_pos due, laneState_settled, train_settled]
  exact ⟨hstate, hphase, hladder, (fget_settled _ _ _ (F.BLN_LANE_STATUS_RUNG l) (recorderReg_offset _ _ (by decide))).trans hrung,
    Frame.settled _ hframe⟩

/-- LANE_TEST on a lane in LOW, READY or FAILED puts it into TEST (R193). -/
theorem completes_laneTest_on {s : State} {l : Nat} (hl : l < 136) (h : s.laneState l = 2 ∨ s.laneState l = 3 ∨ s.laneState l = 5) :
    Completes (.laneTest l true) s (fun t => t.laneState l = 6 ∧ t.flag (F.BLN_LANE_CTL_TEST l) = true ∧
      .laneDrive l (s.fget (F.BLN_LANE_PRBS_PATTERN l)) (s.flag (F.BLN_LANE_PRBS_FRAMED l)) ∈ t.out ∧
      Frame [] [R.BLN_LANE_CTL l, R.BLN_LANE_STATUS l] s t) := by
  refine completes_of_wf (laneTestOp l true) rfl (decide_eq_true hl) ?_
  have enters : laneTestOp l true s.begin = enterTest l (s.begin.fset (F.BLN_LANE_CTL_TEST l) 1) := by
    have h4 : s.begin.laneState l ≠ 4 := by
      show s.laneState l ≠ 4
      omega
    simp only [laneTestOp, if_true, if_neg h4]
    exact if_pos h
  have prbs : R.BLN_LANE_PRBS l ≠ R.BLN_LANE_CTL l := by
    simp only [R.BLN_LANE_PRBS, R.BLN_LANE_CTL]
    omega
  rw [enters]
  obtain ⟨hstate, hdrive, hframe⟩ := enterTest_spec l (s.begin.fset (F.BLN_LANE_CTL_TEST l) 1)
  rw [State.fget_fset_other _ (F.BLN_LANE_CTL_TEST l) (F.BLN_LANE_PRBS_PATTERN l) _ (.inl prbs),
    State.flag_fset_other _ (F.BLN_LANE_CTL_TEST l) (F.BLN_LANE_PRBS_FRAMED l) _ (.inl prbs)]
    at hdrive
  refine ⟨(laneState_settled _ _ _ _).trans hstate, ?_, mem_out_settled _ hdrive, Frame.settled _ ?_⟩
  · exact (flag_settled _ _ _ (F.BLN_LANE_CTL_TEST l) (recorderReg_offset _ _ (by decide))).trans
      (hframe.flag_laneCtl.trans (State.flag_fset_bitOf _ _ _ true (by decide)))
  · exact (Frame.fset _ _ _ (F.BLN_LANE_CTL_TEST l) _ (.head _)).trans (hframe.mono (by simp) (by simp))

/-- LANE_TEST on an ACTIVE lane does nothing (R193). -/
theorem completes_laneTest_active {s : State} {l : Nat} (hl : l < 136) (h : s.laneState l = 4) :
    Completes (.laneTest l true) s (fun t => Frame [] [] s t) := by
  refine completes_of_wf (laneTestOp l true) rfl (decide_eq_true hl) (Frame.settled _ ?_)
  have h4 : s.begin.laneState l = 4 := h
  simp only [laneTestOp, if_true, if_pos h4]
  exact Frame.refl _ _ _

/-- LANE_TEST on a lane that is DOWN or TRAINING stores TEST (R193). -/
theorem completes_laneTest_stored {s : State} {l : Nat} (hl : l < 136) (h : s.laneState l < 2) :
    Completes (.laneTest l true) s (fun t => t.flag (F.BLN_LANE_CTL_TEST l) = true ∧ Frame [] [R.BLN_LANE_CTL l] s t) := by
  refine completes_of_wf (laneTestOp l true) rfl (decide_eq_true hl) ?_
  have stored : laneTestOp l true s.begin = s.begin.fset (F.BLN_LANE_CTL_TEST l) (bitOf true) := by
    have low : s.begin.laneState l < 2 := h
    simp only [laneTestOp, if_true]
    rw [if_neg (by omega), if_neg (by omega)]
    rfl
  rw [stored]
  exact ⟨(flag_settled _ _ _ (F.BLN_LANE_CTL_TEST l) (recorderReg_offset _ _ (by decide))).trans
      (State.flag_fset_bitOf _ _ _ true (by decide)),
    Frame.settled _ (Frame.fset _ _ _ _ _ (.head _))⟩

/-- The end of a test is a training (R193). -/
theorem completes_laneTest_off {s : State} {l : Nat} (hl : l < 136) (h : s.laneState l = 6) :
    Completes (.laneTest l false) s (fun t => t.laneState l = 1 ∧ t.flag (F.BLN_LANE_CTL_TEST l) = false ∧ (t.train l).phase = .stageA ∧
      Frame [.bln] [R.BLN_LANE_CTL l, R.BLN_LANE_STATUS l] s t) := by
  refine completes_of_wf (laneTestOp l false) rfl (decide_eq_true hl) ?_
  have retrains : laneTestOp l false s.begin = startTrain l (s.begin.clear (F.BLN_LANE_CTL_TEST l)) := by
    simp only [laneTestOp, Bool.false_eq_true, if_false]
    exact if_pos h
  rw [retrains]
  obtain ⟨hstate, -, hphase, -, hframe⟩ := startTrain_spec l (s.begin.clear (F.BLN_LANE_CTL_TEST l))
  refine ⟨(laneState_settled _ _ _ _).trans hstate, ?_, (congrArg LaneTrain.phase (train_settled _ _ _ _)).trans hphase, Frame.settled _ ?_⟩
  · exact (flag_settled _ _ _ (F.BLN_LANE_CTL_TEST l) (recorderReg_offset _ _ (by decide))).trans
      (hframe.flag_laneCtl.trans (State.flag_clear_self _ _ (by decide : 6 ≤ 32)))
  · exact (Frame.clear _ _ _ (F.BLN_LANE_CTL_TEST l) (.head _)).trans (hframe.mono (by simp) (by simp))

/-- Settles O32: each command is a write of ENABLE or TEST with, where the lane's state asks for it, a training begun or a test entered. -/
theorem laneControlCommands : Obligations.LaneControlCommands := by
  unfold Obligations.LaneControlCommands
  intro s l hl
  exact ⟨completes_laneEnable_on hl, completes_laneEnable_off hl, completes_train hl, completes_laneTest_on hl,
    completes_laneTest_active hl, completes_laneTest_stored hl, completes_laneTest_off hl⟩

end Sys2Proof.Machine
end

section
/-! PROOF. RUNG_TIMEOUT (R190) of a lane whose highest rung passed is none of the four of R165. -/

namespace Sys2Proof.Machine

/-- A lane at the end of its tries in ladder mode, whose training holds that rung 4 was passed. -/
def strayRung : State :=
  State.reset.setTrain 0 { trainNone with phase := .stageB, ladder := true, tries := 1, passed := some 4 }

/-- Two bits of TRAIN show the highest rung passed, and 4 needs three: its highest bit falls on OK. -/
theorem strayRung_trained : (rungTimeoutOp 0 strayRung.begin).flag (F.BLN_LANE_TRAIN_OK 0) = true := by
  decide +kernel

/-- The conditions of a last RUNG_TIMEOUT hold of it (R190). -/
theorem strayRung_timesOut :
    (strayRung.train 0).phase = .stageB ∧ lockInTime (strayRung.train 0) = none ∧
      (if (strayRung.train 0).ladder then 2 else 4) ≤ (strayRung.train 0).tries + 1 ∧ strayRung.bln.side = none ∧
      strayRung.flag (F.BLN_LANE_CTL_TEST 0) = false := by
  decide +kernel

/-- Refutes O33: nothing in the statement keeps the highest rung passed at L3 or below. With rung 4 held as passed, the report of a training
that failed carries into OK, which reads 1. RUNG_PASS keeps the lane's rung there, which starts at 0 or 3 and stops at 3, so that no run
from reset reaches the state. -/
theorem not_laneTrainingSteps : ¬ Obligations.LaneTrainingSteps := by
  unfold Obligations.LaneTrainingSteps
  intro h
  obtain ⟨hphase, hlock, htries, hside, htest⟩ := strayRung_timesOut
  obtain ⟨-, -, timesOut, -⟩ := h strayRung 0 (by decide)
  obtain ⟨-, fails⟩ := timesOut hphase hlock
  obtain ⟨t, ht, -, -, -, -, hok, -⟩ := fails htries hside htest
  obtain rfl := Host.Outcome.next.inj (ht.symm.trans (done_next (rungTimeoutOp 0) strayRung))
  rw [flag_settled _ _ _ _ (recorderReg_offset _ _ (by decide)), strayRung_trained] at hok
  exact absurd hok (by decide)

end Sys2Proof.Machine
end

section
/-! PROOF. FRAME_SEND, TRAINING_BURST and FIFO_PARITY_ERROR (R170, R173, R192, R316). -/

namespace Sys2Proof.Machine

/-! ### The frame that a lane sends next (R173, R195) -/

/-- The lane map is held in the bank controls and in registers from 0x11A000 on. -/
theorem State.lanePhys_congr {s t : State} (hb : t.banks = s.banks) (hr : ∀ a, 0x11A000 ≤ a → t.reg a = s.reg a) (b u : Nat) :
    t.lanePhys b u = s.lanePhys b u := by
  have word : t.reg (R.BLN_MAP b u) = s.reg (R.BLN_MAP b u) := hr _ (by simp only [R.BLN_MAP]; omega)
  simp only [State.lanePhys, State.tableWord, State.bank_congr hb, word]

/-- The next frame of a lane goes by the lane map and the frames held. -/
theorem State.nextFrame_congr {s t : State} (hf : t.bln.frames = s.bln.frames) (hb : t.banks = s.banks) (hr : ∀ a, 0x11A000 ≤ a → t.reg a = s.reg a)
    (l : Nat) : t.nextFrame l = s.nextFrame l := by
  simp only [State.nextFrame, State.unitOf, State.lanePhys_congr hb hr, hb, hf]

@[simp] theorem State.begin_nextFrame (s : State) (l : Nat) : s.begin.nextFrame l = s.nextFrame l :=
  State.nextFrame_congr rfl rfl (fun _ _ => rfl) l

/-! ### FRAME_SEND -/

/-- The lane map read through check bits that are right. -/
theorem readLaneMap_of_flips_nil {s : State} (h : s.mem.flips = []) : readLaneMap s = s := readTables_of_flips_nil _ s h

/-- Without a side job no side frame waits (R173). -/
theorem releaseSide_of_no_job {s : State} (h : s.bln.side = none) : releaseSide s = s := by
  simp only [releaseSide, h]

/-- A frame as lane `l` sends it, with the lane's number and FSEQ (R170). -/
def sentFrame (s : State) (l : Nat) (f : TxFrame) : TxFrame :=
  { f with head := { f.head with phys := l, fseq := (s.train l).fseq }, sentOn := some l }

/-- The lane's frame is in flight, and the lane's FSEQ advances (R170). -/
def takeFrame (l : Nat) (f : TxFrame) (s : State) : State :=
  { s with bln := { s.bln with frames := s.bln.frames.map (fun x => if x = f then sentFrame s l f else x) } }.setTrain l
    { (s.train l) with fseq := ((s.train l).fseq + 1) % 2 ^ 32, quiet := s.clock, turn := 1 }

/-- FRAME_SEND of an ACTIVE lane with a frame to send, no CRC injection armed and no side job (R170, R173). -/
theorem frameSendOp_of_frame {s : State} {l : Nat} {f : TxFrame} (ha : s.laneState l = 4) (hn : s.nextFrame l = some f)
    (hc : (s.train l).crcArm = false) (hf : s.mem.flips = []) (hm : s.laneMapBad = false) (hs : s.bln.side = none) :
    frameSendOp l s = ((takeFrame l f s).bump (F.BLN_LANE_FRAMES_COUNT l)).emit
      (.laneWords l (spaced (frameWords (sentFrame s l f).head f.payload f.badCrc))) := by
  have idle : ¬ (s.laneState l ≠ 4 ∨ s.laneMapBad = true) := by simp [ha, hm]
  have unarmed : takeCrc l s = (false, s) := by simp [takeCrc, hc]
  simp only [frameSendOp, if_pos ha, readLaneMap_of_flips_nil hf, if_neg idle, hn, unarmed, Bool.or_false]
  exact releaseSide_of_no_job hs

/-- FRAME_SEND of any other lane does nothing (R173). -/
theorem frameSendOp_of_inactive {s : State} {l : Nat} (h : s.laneState l ≠ 4) : frameSendOp l s = s := by
  simp [frameSendOp, h]

theorem completes_frameSend {s : State} {l : Nat} {f : TxFrame} (hl : l < 136) (ha : s.laneState l = 4) (hn : s.nextFrame l = some f)
    (hc : (s.train l).crcArm = false) (hf : s.mem.flips = []) (hm : s.laneMapBad = false) (hs : s.bln.side = none) :
    Completes (.frameSend l) s (fun t =>
      .laneWords l (spaced (frameWords (sentFrame s l f).head f.payload f.badCrc)) ∈ t.out ∧
      t.bln.frames = s.bln.frames.map (fun x => if x = f then sentFrame s l f else x) ∧
      (t.train l).fseq = ((s.train l).fseq + 1) % 2 ^ 32 ∧
      t.fget (F.BLN_LANE_FRAMES_COUNT l) = satAdd 32 (s.fget (F.BLN_LANE_FRAMES_COUNT l)) 1 ∧ Frame [.bln] [R.BLN_LANE_FRAMES l] s t) := by
  refine completes_of_wf (frameSendOp l) rfl (decide_eq_true hl) ?_
  rw [frameSendOp_of_frame (s := s.begin) ha ((s.begin_nextFrame l).trans hn) hc hf hm hs, train_settled]
  refine ⟨mem_out_settled _ (by simp [sentFrame, State.train]), by rw [settle_bln]; rfl, ?_, ?_, Frame.settled _ ?_⟩
  · exact congrArg LaneTrain.fseq (State.train_setTrain_self _ _ _)
  · rw [fget_settled _ _ _ (F.BLN_LANE_FRAMES_COUNT l) (recorderReg_offset _ _ (by decide)), State.fget_emit,
      State.fget_bump_self _ (F.BLN_LANE_FRAMES_COUNT l) (by decide : 32 ≤ 32)]
    rfl
  · exact (((Frame.setBln _ _ _ (by simp)).trans (Frame.setTrain _ _ _ _ (by simp))).trans
      (Frame.bump _ _ _ (F.BLN_LANE_FRAMES_COUNT l) (.head _))).trans (Frame.emit _ _ _ _)

/-! ### TRAINING_BURST -/

/-- TRAINING_BURST of a LOW, READY or ACTIVE lane outside a course (R192). -/
theorem trainingBurstOp_of_idle {s : State} {l : Nat} (hr : s.running = none)
    (h : s.laneState l = 2 ∨ s.laneState l = 3 ∨ s.laneState l = 4) : ∃ (ws : List DWord) (r : LaneTrain), ws.length = 5140 ∧
      trainingBurstOp l s = (((s.until ((s.train l).quiet + 640000000)).emit (.laneWords l ws)).after
        (groupTicks 4 (s.fget (F.BLN_LANE_STATUS_RUNG l)))).setTrain l r := by
  have idle : (s.running.isNone && (s.laneState l == 2 || s.laneState l == 3 || s.laneState l == 4)) = true := by
    rcases h with h | h | h <;> simp [hr, h]
  exact ⟨_, _, List.length_replicate, if_pos idle⟩

/-- Time that passes touches no register and no other part. -/
theorem Frame.after {ps : List Part} (rs : List Nat) (s : State) (n : Nat) (h : .clock ∈ ps) : Frame ps rs s (s.after n) :=
  Frame.parts _ _ _ _ rfl (fun p hp => by cases p <;> simp_all [Part.same])

theorem completes_trainingBurst {s : State} {l : Nat} (hl : l < 136) (hr : s.running = none)
    (h : s.laneState l = 2 ∨ s.laneState l = 3 ∨ s.laneState l = 4) : Completes (.trainingBurst l) s (fun t =>
      t.clock = max s.clock ((s.train l).quiet + 640000000) + groupTicks 4 (s.fget (F.BLN_LANE_STATUS_RUNG l)) ∧
      (∃ ws, Output.laneWords l ws ∈ t.out ∧ ws.length = 5140) ∧ Frame [.clock, .bln] [] s t) := by
  refine completes_of_wf (burstOp l) rfl (decide_eq_true (by omega : l < 144)) ?_
  obtain ⟨ws, r, hlen, burst⟩ := trainingBurstOp_of_idle (s := s.begin) hr h
  rw [burstOp, if_pos hl, burst, settle_clock]
  refine ⟨rfl, ⟨ws, mem_out_settled _ (List.mem_append_right _ (.head _)), hlen⟩, Frame.settled _ ?_⟩
  · exact (((Frame.until _ _ _ (by simp)).trans (Frame.emit _ _ _ _)).trans (Frame.after _ _ _ (by simp))).trans
      (Frame.setTrain _ _ _ _ (by simp))

/-- A strait link replaced touches no register and no other part. -/
theorem Frame.setLink {ps : List Part} (rs : List Nat) (s : State) (k : Nat) (x : StraitLink) (h : .str ∈ ps) :
    Frame ps rs s (s.setLink k x) :=
  Frame.parts _ _ _ _ rfl (fun p hp => by cases p <;> simp_all [Part.same, State.setLink])

/-- TRAINING_BURST of the locked standby of a strait link that is up, outside a course (R192, R355). -/
theorem burstOp_of_standby {s : State} {j : Nat} (hr : s.running = none) (hu : s.linkUp (j / 2) = true) (hk : s.straitLocked j = true)
    (hp : (s.link (j / 2)).primary ≠ j % 2) : ∃ (ws : List DWord) (x : StraitLink), ws.length = 5140 ∧
      burstOp (136 + j) s = (((s.until ((s.link (j / 2)).idleAt + 640000000)).emit (.straitLane j ws)).after
        (groupTicks 4 2)).setLink (j / 2) x := by
  have standby : (s.running.isNone && s.linkUp (j / 2) && s.straitLocked j && (s.link (j / 2)).primary != j % 2) = true := by
    simp [hr, hu, hk, hp]
  simp only [burstOp, Nat.add_sub_cancel_left, if_neg (show ¬ 136 + j < 136 by omega), if_pos standby]
  exact ⟨_, _, List.length_replicate, rfl⟩

theorem completes_standbyBurst {s : State} {j : Nat} (hj : j < 8) (hr : s.running = none) (hu : s.linkUp (j / 2) = true)
    (hk : s.straitLocked j = true) (hp : (s.link (j / 2)).primary ≠ j % 2) : Completes (.trainingBurst (136 + j)) s (fun t =>
      t.clock = max s.clock ((s.link (j / 2)).idleAt + 640000000) + groupTicks 4 2 ∧
      (∃ ws, Output.straitLane j ws ∈ t.out ∧ ws.length = 5140) ∧ Frame [.clock, .str] [] s t) := by
  refine completes_of_wf (burstOp (136 + j)) rfl (decide_eq_true (by omega : 136 + j < 144)) ?_
  obtain ⟨ws, x, hlen, burst⟩ := burstOp_of_standby (s := s.begin) hr hu hk hp
  rw [burst, settle_clock]
  refine ⟨rfl, ⟨ws, mem_out_settled _ (List.mem_append_right _ (.head _)), hlen⟩, Frame.settled _ ?_⟩
  · exact (((Frame.until _ _ _ (by simp)).trans (Frame.emit _ _ _ _)).trans (Frame.after _ _ _ (by simp))).trans
      (Frame.setLink _ _ _ _ (by simp))

/-! ### FIFO_PARITY_ERROR -/

/-- A parity error counted and reported (R316). -/
def noteParity (s : State) : State := (s.bump F.SRM_PAR_COUNT_COUNT).raise F.SRM_EVENTS_FIFO_PARITY

/-- The lane's next frame spoiled (R316). -/
def spoilFrame (f : TxFrame) (s : State) : State :=
  { s with bln := { s.bln with frames := s.bln.frames.map (fun x => if x = f then { x with badCrc := true } else x) } }

@[simp] theorem spoilFrame_fget (f : TxFrame) (s : State) (x : Fld) : (spoilFrame f s).fget x = s.fget x := rfl

@[simp] theorem spoilFrame_flag (f : TxFrame) (s : State) (x : Fld) : (spoilFrame f s).flag x = s.flag x := rfl

theorem noteParity_spec (s : State) :
    (noteParity s).fget F.SRM_PAR_COUNT_COUNT = satAdd 32 (s.fget F.SRM_PAR_COUNT_COUNT) 1 ∧
      (noteParity s).flag F.SRM_EVENTS_FIFO_PARITY = true ∧ Frame [] [R.SRM_PAR_COUNT, R.SRM_EVENTS] s (noteParity s) :=
  ⟨(State.fget_fset_other _ F.SRM_EVENTS_FIFO_PARITY F.SRM_PAR_COUNT_COUNT _ (by decide)).trans
      (State.fget_bump_self s F.SRM_PAR_COUNT_COUNT (by decide)),
    State.flag_raise_self _ F.SRM_EVENTS_FIFO_PARITY (by decide) (by decide),
    (Frame.bump _ _ _ F.SRM_PAR_COUNT_COUNT (.head _)).trans (Frame.raise _ _ _ F.SRM_EVENTS_FIFO_PARITY (.tail _ (.head _)))⟩

/-- The counting of a parity error writes no word of the lane map. -/
theorem nextFrame_noteParity (s : State) (l : Nat) : (noteParity s).nextFrame l = s.nextFrame l := by
  obtain ⟨-, -, -, regs⟩ := noteParity_spec s
  refine State.nextFrame_congr (s := s) (t := noteParity s) rfl rfl (fun a ha => regs a ?_ (recorderReg_of_block (by omega) (by omega))) l
  have hne : a ≠ R.SRM_PAR_COUNT ∧ a ≠ R.SRM_EVENTS := by
    simp only [R.SRM_PAR_COUNT, R.SRM_EVENTS]
    omega
  simpa using hne

/-- A parity error in the FIFO of a lane that holds a frame (R316). -/
theorem fifoParityOp_of_frame {s : State} {l : Nat} {f : TxFrame} (h : s.nextFrame l = some f) :
    fifoParityOp (.toLane l) s = spoilFrame f (noteParity s) := by
  have held : (noteParity s).nextFrame l = some f := (nextFrame_noteParity s l).trans h
  unfold noteParity at held ⊢
  simp only [fifoParityOp, held, spoilFrame]

theorem completes_fifoParity_lane {s : State} {l : Nat} {f : TxFrame} (hl : l < 136) (h : s.nextFrame l = some f) :
    Completes (.fifoParityError (.toLane l)) s (fun t =>
      t.bln.frames = s.bln.frames.map (fun x => if x = f then { x with badCrc := true } else x) ∧
      t.fget F.SRM_PAR_COUNT_COUNT = satAdd 32 (s.fget F.SRM_PAR_COUNT_COUNT) 1 ∧ t.flag F.SRM_EVENTS_FIFO_PARITY = true ∧
      Frame [.bln] [R.SRM_PAR_COUNT, R.SRM_EVENTS] s t) := by
  refine completes_of_wf (fifoParityOp (.toLane l)) rfl (decide_eq_true hl) ?_
  rw [fifoParityOp_of_frame ((s.begin_nextFrame l).trans h)]
  obtain ⟨hcount, hevent, hframe⟩ := noteParity_spec s.begin
  refine ⟨by rw [settle_bln]; rfl, ?_, ?_,
    Frame.settled _ ((hframe.mono (by simp) (fun _ m => m)).trans (Frame.setBln _ _ _ (by simp)))⟩
  · rw [fget_settled _ _ _ F.SRM_PAR_COUNT_COUNT rfl, spoilFrame_fget, hcount, State.begin_fget]
  · rw [flag_settled _ _ _ F.SRM_EVENTS_FIFO_PARITY rfl, spoilFrame_flag, hevent]

/-- The registers of an echo lane are none of the block SRM. -/
theorem echoCrc_apart (k : Nat) : F.SRM_EVENTS_FIFO_PARITY.addr ≠ (F.BLN_ECHO_EVENTS_CRC_ERR k).addr ∧
    F.SRM_EVENTS_FIFO_PARITY.addr ≠ (F.BLN_ECHO_CRC_ERRS_COUNT k).addr := by
  simp only [F.SRM_EVENTS_FIFO_PARITY, R.SRM_EVENTS, F.BLN_ECHO_EVENTS_CRC_ERR, R.BLN_ECHO_EVENTS, F.BLN_ECHO_CRC_ERRS_COUNT,
    R.BLN_ECHO_CRC_ERRS]
  omega

/-- A unit of an echo lane that fails its CRC is counted and reported (R178). -/
theorem frame_echoCrcError (ps : List Part) {rs : List Nat} (k : Nat) (s : State) (hc : R.BLN_ECHO_CRC_ERRS k ∈ rs)
    (he : R.BLN_ECHO_EVENTS k ∈ rs) : Frame ps rs s (echoCrcError k s) :=
  (Frame.bump _ _ _ (F.BLN_ECHO_CRC_ERRS_COUNT k) hc).trans (Frame.raise _ _ _ (F.BLN_ECHO_EVENTS_CRC_ERR k) he)

theorem flag_echoCrcError (k : Nat) (s : State) : (echoCrcError k s).flag (F.BLN_ECHO_EVENTS_CRC_ERR k) = true :=
  State.flag_raise_self _ (F.BLN_ECHO_EVENTS_CRC_ERR k) (by decide : 3 ≤ 32) (by decide : 0 < 1)

theorem completes_fifoParity_echo {s : State} {k : Nat} (hk : k < 4) : Completes (.fifoParityError (.fromEcho k)) s (fun t =>
    t.flag (F.BLN_ECHO_EVENTS_CRC_ERR k) = true ∧ t.flag F.SRM_EVENTS_FIFO_PARITY = true ∧
      Frame [] [R.SRM_PAR_COUNT, R.SRM_EVENTS, R.BLN_ECHO_CRC_ERRS k, R.BLN_ECHO_EVENTS k] s t) := by
  refine completes_of_wf (fifoParityOp (.fromEcho k)) rfl (decide_eq_true hk) ?_
  have spoiled : fifoParityOp (.fromEcho k) s.begin = echoCrcError k (noteParity s.begin) := rfl
  obtain ⟨hevents, hcount⟩ := echoCrc_apart k
  obtain ⟨-, hevent, hframe⟩ := noteParity_spec s.begin
  rw [spoiled]
  refine ⟨?_, ?_, Frame.settled _ ?_⟩
  · rw [flag_settled _ _ _ (F.BLN_ECHO_EVENTS_CRC_ERR k) (recorderReg_offset _ _ (by decide)), flag_echoCrcError]
  · rw [flag_settled _ _ _ F.SRM_EVENTS_FIFO_PARITY rfl, echoCrcError, State.raise, State.flag_fset_other _ _ _ _ (.inl hevents),
      State.bump, State.add, State.flag_fset_other _ _ _ _ (.inl hcount), hevent]
  · exact (hframe.mono (by simp) (by simp)).trans (frame_echoCrcError _ _ _ (by simp) (by simp))

/-- Settles O34: a frame sent, four groups sent, or a frame spoiled is a few updates of the lanes' part, with the clock for a burst. -/
theorem framesLeaveOnActiveLanes : Obligations.FramesLeaveOnActiveLanes := by
  unfold Obligations.FramesLeaveOnActiveLanes
  intro s l hl
  refine ⟨fun f => completes_frameSend hl, fun h => ?_, completes_trainingBurst hl, fun j => completes_standbyBurst,
    fun f => completes_fifoParity_lane hl, fun k => completes_fifoParity_echo⟩
  refine completes_of_wf (frameSendOp l) rfl (decide_eq_true hl) (Frame.settled _ ?_)
  rw [frameSendOp_of_inactive (s := s.begin) h]
  exact Frame.refl _ _ _

end Sys2Proof.Machine
end

section
/-! PROOF. The echo lanes: training words, lock, framing errors and frozen receivers (R167, R180, R188, R191, R192). -/

namespace Sys2Proof.Machine

/-- A counter increased by a number stops at all ones. -/
theorem State.fget_add_self (s : State) (f : Fld) (n : Nat) (h : f.lo + f.width ≤ 32) : (s.add f n).fget f = satAdd f.width (s.fget f) n := by
  have pos : 0 < 2 ^ f.width := Nat.two_pow_pos _
  rw [State.add, State.fget_fset_self _ _ _ h, Nat.mod_eq_of_lt]
  unfold satAdd
  omega

/-! ### What a thaw and a framing error do -/

/-- CTL, STATUS, EVENTS and FEC_UNCORR of an echo lane are registers apart from one another and from BLN_CTL. -/
theorem echoRegs_apart (k : Nat) : R.BLN_ECHO_STATUS k ≠ R.BLN_ECHO_EVENTS k ∧ R.BLN_ECHO_STATUS k ≠ R.BLN_ECHO_FEC_UNCORR k ∧
    R.BLN_ECHO_EVENTS k ≠ R.BLN_ECHO_FEC_UNCORR k ∧ R.BLN_ECHO_CTL k ≠ R.BLN_ECHO_STATUS k := by
  simp only [R.BLN_ECHO_STATUS, R.BLN_ECHO_EVENTS, R.BLN_ECHO_FEC_UNCORR, R.BLN_ECHO_CTL]
  omega

theorem flag_thaw (k : Nat) (s : State) : (thaw k s).flag (F.BLN_ECHO_STATUS_FROZEN k) = false :=
  State.flag_clear_self s _ (by decide : 6 ≤ 32)

theorem frame_thaw (ps : List Part) {rs : List Nat} (k : Nat) (s : State) (h : R.BLN_ECHO_STATUS k ∈ rs) : Frame ps rs s (thaw k s) :=
  Frame.clear _ _ _ (F.BLN_ECHO_STATUS_FROZEN k) h

/-- A thaw leaves STATE, the polarity and the ID of the lane (R192). -/
theorem fget_thaw (k : Nat) (s : State) (f : Fld) (h : f.addr ≠ R.BLN_ECHO_STATUS k ∨ f.lo + f.width ≤ 5) : (thaw k s).fget f = s.fget f :=
  State.fget_fset_other s (F.BLN_ECHO_STATUS_FROZEN k) f 0 (h.imp id .inl)

/-- A framing error counted and reported (R167). -/
theorem framingError_spec (k : Nat) (s : State) :
    let t := framingError k s
    t.flag (F.BLN_ECHO_EVENTS_FRAMING k) = true ∧ t.bln = { s.bln with framings := s.bln.framings.set k (s.bln.framings.getD k 0 + 1) } ∧
      Frame [.bln] [R.BLN_ECHO_EVENTS k] s t :=
  ⟨State.flag_raise_self _ (F.BLN_ECHO_EVENTS_FRAMING k) (by decide : 4 ≤ 32) (by decide : 0 < 1), rfl,
    (Frame.setBln _ _ _ (by simp)).trans (Frame.raise _ _ _ (F.BLN_ECHO_EVENTS_FRAMING k) (.head _))⟩

/-! ### Training words (R188) -/

/-- A lane that does not hold lock does not come to count as locked. -/
theorem countEcho_of_unheld {s : State} {k : Nat} (h : s.bln.echoHeld.contains k = false) : countEcho k s = s := by
  rw [countEcho, h]
  simp

/-- What a training word shows: the ID and the polarity found. -/
def showTraining (k id : Nat) (inverted : Bool) (s : State) : State :=
  (s.fset (F.BLN_ECHO_STATUS_ECHO_ID k) id).fset (F.BLN_ECHO_STATUS_POL_INV k) (bitOf inverted)

/-- The lane's ID is known, the last to be so. -/
def knowEcho (k : Nat) (s : State) : State :=
  { s with bln := { s.bln with echoKnown := s.bln.echoKnown.filter (fun j => j != k) ++ [k] } }

/-- A training word on a lane that does not hold lock: what it shows, and the lane's ID known, as it may have been before (R188). -/
theorem echoTraining_of_unheld {s : State} {k : Nat} {w : DWord} (inverted : Bool) {x : TrainingWord} (hw : readTrainingWord w = some x)
    (h : s.bln.echoHeld.contains k = false) :
    let u := showTraining k (x.laneId % 4) inverted (thaw k s)
    (echoTraining k w inverted s = u ∧ u.bln.echoKnown.contains k = true) ∨ echoTraining k w inverted s = knowEcho k u := by
  intro u
  simp only [echoTraining, hw]
  rw [countEcho_of_unheld (by split <;> exact h)]
  split
  · next same =>
    obtain ⟨known, -⟩ := Bool.and_eq_true_iff.mp same
    exact .inl ⟨rfl, known⟩
  · exact .inr rfl

theorem showTraining_spec (k id : Nat) (inverted : Bool) (s : State) :
    let t := showTraining k id inverted s
    t.fget (F.BLN_ECHO_STATUS_ECHO_ID k) = id % 4 ∧ t.flag (F.BLN_ECHO_STATUS_POL_INV k) = inverted ∧ Frame [] [R.BLN_ECHO_STATUS k] s t :=
  ⟨(State.fget_fset_other _ (F.BLN_ECHO_STATUS_POL_INV k) (F.BLN_ECHO_STATUS_ECHO_ID k) _ (.inr (.inr (Nat.le_refl 3)))).trans
      (State.fget_fset_self s (F.BLN_ECHO_STATUS_ECHO_ID k) id (by decide : 5 ≤ 32)),
    State.flag_fset_bitOf _ _ _ inverted (by decide),
    (Frame.fset _ _ _ (F.BLN_ECHO_STATUS_ECHO_ID k) _ (.head _)).trans (Frame.fset _ _ _ (F.BLN_ECHO_STATUS_POL_INV k) _ (.head _))⟩

theorem completes_trainingWord {s : State} {k : Nat} {w : DWord} {inv : Bool} {x : TrainingWord} (hk : k < 4)
    (hw : readTrainingWord w = some x) (h : s.bln.echoHeld.contains k = false) : Completes (.trainingWord (.echo k) ⟨w, inv⟩) s (fun t =>
      t.fget (F.BLN_ECHO_STATUS_ECHO_ID k) = x.laneId % 4 ∧ t.flag (F.BLN_ECHO_STATUS_POL_INV k) = inv ∧
      t.bln.echoKnown.contains k = true ∧ Frame [.bln] [R.BLN_ECHO_STATUS k] s t) := by
  refine completes_of_wf (echoTraining k w inv) rfl (decide_eq_true hk) ?_
  obtain ⟨hid, hpol, hframe⟩ := showTraining_spec k (x.laneId % 4) inv (thaw k s.begin)
  rw [Nat.mod_mod] at hid
  have shown := ((frame_thaw [.bln] k s.begin (.head _)).trans (hframe.mono (by simp) (fun _ m => m)))
  rw [fget_settled _ _ _ (F.BLN_ECHO_STATUS_ECHO_ID k) (recorderReg_offset _ _ (by decide)),
    flag_settled _ _ _ (F.BLN_ECHO_STATUS_POL_INV k) (recorderReg_offset _ _ (by decide)), settle_bln]
  rcases echoTraining_of_unheld (s := s.begin) inv hw h with ⟨same, known⟩ | fresh
  · rw [same]
    exact ⟨hid, hpol, known, Frame.settled _ shown⟩
  · rw [fresh]
    exact ⟨hid, hpol, by simp [knowEcho], Frame.settled _ (shown.trans (Frame.setBln _ _ _ (.head _)))⟩

/-! ### ECHO_LOCKED (R180, R188, R191) -/

/-- The lane holds codeword lock and group alignment. -/
def holdEcho (k : Nat) (s : State) : State := { s with bln := { s.bln with echoHeld := insertKey k s.bln.echoHeld } }

/-- ECHO_LOCKED on an enabled lane that is not under test. -/
theorem echoLockedOp_of_enabled {s : State} {k : Nat} (he : s.flag (F.BLN_ECHO_CTL_ENABLE k) = true)
    (ht : s.flag (F.BLN_ECHO_CTL_TEST k) = false) : echoLockedOp k s = countEcho k (holdEcho k s) := by
  rw [echoLockedOp, he, ht]
  rfl

theorem holdEcho_holds (k : Nat) (s : State) : (holdEcho k s).bln.echoHeld.contains k = true := by
  simpa [holdEcho] using mem_insertKey_self k s.bln.echoHeld

theorem countEcho_of_unknown {s : State} {k : Nat} (h : s.bln.echoKnown.contains k = false) : countEcho k s = s := by
  rw [countEcho, h]
  simp

/-- A lane that holds lock, is enabled and not under test, and whose ID is known. -/
theorem countEcho_of_known {s : State} {k : Nat} (he : s.flag (F.BLN_ECHO_CTL_ENABLE k) = true) (ht : s.flag (F.BLN_ECHO_CTL_TEST k) = false)
    (hh : s.bln.echoHeld.contains k = true) (hk : s.bln.echoKnown.contains k = true) (hs : s.fget (F.BLN_ECHO_STATUS_STATE k) ≠ 2) :
    countEcho k s = if s.idClash k then s.raise (F.BLN_ECHO_EVENTS_ID_CONFLICT k)
      else (s.fset (F.BLN_ECHO_STATUS_STATE k) 2).raise (F.BLN_ECHO_EVENTS_LOCKED k) := by
  simp only [countEcho, he, ht, hh, hk, Bool.not_false, Bool.and_self, if_true, if_neg hs]

theorem completes_echoLocked_unknown {s : State} {k : Nat} (hk : k < 4) (he : s.flag (F.BLN_ECHO_CTL_ENABLE k) = true)
    (ht : s.flag (F.BLN_ECHO_CTL_TEST k) = false) (hu : s.bln.echoKnown.contains k = false) : Completes (.echoLocked k) s (fun t =>
      t.bln = { s.bln with echoHeld := insertKey k s.bln.echoHeld } ∧ Frame [.bln] [] s t) := by
  refine completes_of_wf (echoLockedOp k) rfl (decide_eq_true hk) ?_
  rw [echoLockedOp_of_enabled (s := s.begin) he ht, countEcho_of_unknown (s := holdEcho k s.begin) hu]
  exact ⟨by rw [settle_bln]; rfl, Frame.settled _ (Frame.setBln _ _ _ (.head _))⟩

/-- Holding lock changes no report of an ID (R188). -/
theorem idClash_holdEcho (k j : Nat) (s : State) : (holdEcho k s).idClash j = s.idClash j := rfl

/-- ECHO_LOCKED of a lane that is not LOCKED and whose ID is known (R180, R188). -/
theorem echoLockedOp_of_known {s : State} {k : Nat} (he : s.flag (F.BLN_ECHO_CTL_ENABLE k) = true)
    (ht : s.flag (F.BLN_ECHO_CTL_TEST k) = false) (hk : s.bln.echoKnown.contains k = true) (hs : s.fget (F.BLN_ECHO_STATUS_STATE k) ≠ 2) :
    echoLockedOp k s = if s.idClash k then (holdEcho k s).raise (F.BLN_ECHO_EVENTS_ID_CONFLICT k)
      else ((holdEcho k s).fset (F.BLN_ECHO_STATUS_STATE k) 2).raise (F.BLN_ECHO_EVENTS_LOCKED k) := by
  rw [echoLockedOp_of_enabled he ht, countEcho_of_known (s := holdEcho k s) he ht (holdEcho_holds k s) hk hs, idClash_holdEcho]

theorem completes_echoLocked {s : State} {k : Nat} (hk : k < 4) (he : s.flag (F.BLN_ECHO_CTL_ENABLE k) = true)
    (ht : s.flag (F.BLN_ECHO_CTL_TEST k) = false) (hu : s.bln.echoKnown.contains k = true) (hs : s.fget (F.BLN_ECHO_STATUS_STATE k) ≠ 2)
    (hc : s.idClash k = false) : Completes (.echoLocked k) s (fun t =>
      t.fget (F.BLN_ECHO_STATUS_STATE k) = 2 ∧ t.flag (F.BLN_ECHO_EVENTS_LOCKED k) = true ∧
      Frame [.bln] [R.BLN_ECHO_STATUS k, R.BLN_ECHO_EVENTS k] s t) := by
  refine completes_of_wf (echoLockedOp k) rfl (decide_eq_true hk) ?_
  have clear : ¬ s.begin.idClash k = true := by
    rw [Bool.not_eq_true]
    exact hc
  obtain ⟨hevents, -⟩ := echoRegs_apart k
  rw [echoLockedOp_of_known (s := s.begin) he ht hu hs, if_neg clear]
  refine ⟨?_, ?_, Frame.settled _ ?_⟩
  · rw [fget_settled _ _ _ (F.BLN_ECHO_STATUS_STATE k) (recorderReg_offset _ _ (by decide)), State.raise,
      State.fget_fset_other _ (F.BLN_ECHO_EVENTS_LOCKED k) (F.BLN_ECHO_STATUS_STATE k) _ (.inl hevents),
      State.fget_fset_self _ (F.BLN_ECHO_STATUS_STATE k) 2 (by decide : 2 ≤ 32)]
    rfl
  · rw [flag_settled _ _ _ (F.BLN_ECHO_EVENTS_LOCKED k) (recorderReg_offset _ _ (by decide))]
    exact State.flag_raise_self _ _ (by decide : 1 ≤ 32) (by decide : 0 < 1)
  · exact ((Frame.setBln _ _ _ (.head _)).trans (Frame.fset _ _ _ (F.BLN_ECHO_STATUS_STATE k) _ (.head _))).trans
      (Frame.raise _ _ _ (F.BLN_ECHO_EVENTS_LOCKED k) (.tail _ (.head _)))

theorem completes_echoLocked_clash {s : State} {k : Nat} (hk : k < 4) (he : s.flag (F.BLN_ECHO_CTL_ENABLE k) = true)
    (ht : s.flag (F.BLN_ECHO_CTL_TEST k) = false) (hu : s.bln.echoKnown.contains k = true) (hs : s.fget (F.BLN_ECHO_STATUS_STATE k) ≠ 2)
    (hc : s.idClash k = true) : Completes (.echoLocked k) s (fun t =>
      t.flag (F.BLN_ECHO_EVENTS_ID_CONFLICT k) = true ∧ Frame [.bln] [R.BLN_ECHO_EVENTS k] s t) := by
  refine completes_of_wf (echoLockedOp k) rfl (decide_eq_true hk) ?_
  have clash : s.begin.idClash k = true := hc
  rw [echoLockedOp_of_known (s := s.begin) he ht hu hs, if_pos clash,
    flag_settled _ _ _ (F.BLN_ECHO_EVENTS_ID_CONFLICT k) (recorderReg_offset _ _ (by decide))]
  exact ⟨State.flag_raise_self _ _ (by decide : 5 ≤ 32) (by decide : 0 < 1),
    Frame.settled _ ((Frame.setBln _ _ _ (.head _)).trans (Frame.raise _ _ _ (F.BLN_ECHO_EVENTS_ID_CONFLICT k) (.head _)))⟩

/-! ### ECHO_LOCK_LOST (R180) -/

/-- A locked lane acquires again: STATE, the event and four codewords counted. -/
def loseEcho (k : Nat) (s : State) : State :=
  (((forgetEcho k s).fset (F.BLN_ECHO_STATUS_STATE k) 1).raise (F.BLN_ECHO_EVENTS_LOCK_LOST k)).add (F.BLN_ECHO_FEC_UNCORR_COUNT k) 4

theorem loseEcho_spec (k : Nat) (s : State) :
    (loseEcho k s).fget (F.BLN_ECHO_STATUS_STATE k) = 1 ∧ (loseEcho k s).flag (F.BLN_ECHO_EVENTS_LOCK_LOST k) = true ∧
      (loseEcho k s).fget (F.BLN_ECHO_FEC_UNCORR_COUNT k) = satAdd 32 (s.fget (F.BLN_ECHO_FEC_UNCORR_COUNT k)) 4 ∧
      Frame [.bln] [R.BLN_ECHO_STATUS k, R.BLN_ECHO_EVENTS k, R.BLN_ECHO_FEC_UNCORR k] s (loseEcho k s) := by
  obtain ⟨hse, hsf, hef, -⟩ := echoRegs_apart k
  refine ⟨?_, ?_, ?_, ?_⟩
  · rw [loseEcho, State.add, State.fget_fset_other _ (F.BLN_ECHO_FEC_UNCORR_COUNT k) (F.BLN_ECHO_STATUS_STATE k) _ (.inl hsf), State.raise,
      State.fget_fset_other _ (F.BLN_ECHO_EVENTS_LOCK_LOST k) (F.BLN_ECHO_STATUS_STATE k) _ (.inl hse),
      State.fget_fset_self _ (F.BLN_ECHO_STATUS_STATE k) 1 (by decide : 2 ≤ 32)]
    rfl
  · rw [loseEcho, State.add, State.flag_fset_other _ (F.BLN_ECHO_FEC_UNCORR_COUNT k) (F.BLN_ECHO_EVENTS_LOCK_LOST k) _ (.inl hef)]
    exact State.flag_raise_self _ _ (by decide : 2 ≤ 32) (by decide : 0 < 1)
  · rw [loseEcho, State.fget_add_self _ (F.BLN_ECHO_FEC_UNCORR_COUNT k) _ (by decide : 32 ≤ 32), State.raise,
      State.fget_fset_other _ (F.BLN_ECHO_EVENTS_LOCK_LOST k) (F.BLN_ECHO_FEC_UNCORR_COUNT k) _ (.inl hef.symm),
      State.fget_fset_other _ (F.BLN_ECHO_STATUS_STATE k) (F.BLN_ECHO_FEC_UNCORR_COUNT k) _ (.inl hsf.symm)]
    rfl
  · exact (((Frame.setBln _ _ _ (.head _)).trans (Frame.fset _ _ _ (F.BLN_ECHO_STATUS_STATE k) _ (.head _))).trans
      (Frame.raise _ _ _ (F.BLN_ECHO_EVENTS_LOCK_LOST k) (.tail _ (.head _)))).trans
      (Frame.add _ _ _ (F.BLN_ECHO_FEC_UNCORR_COUNT k) _ (.tail _ (.tail _ (.head _))))

/-- ECHO_MIN that governs is not touched. -/
theorem loseEcho_echoMin {k : Nat} (hk : k < 4) (s : State) : (loseEcho k s).echoMin = s.echoMin := by
  obtain ⟨-, -, -, -, regs⟩ := loseEcho_spec k s
  have apart : R.BLN_CTL ∉ [R.BLN_ECHO_STATUS k, R.BLN_ECHO_EVENTS k, R.BLN_ECHO_FEC_UNCORR k] := by
    simp only [R.BLN_CTL, R.BLN_ECHO_STATUS, R.BLN_ECHO_EVENTS, R.BLN_ECHO_FEC_UNCORR, List.mem_cons, List.not_mem_nil, or_false]
    omega
  have ctl : (loseEcho k s).fget F.BLN_CTL_ECHO_MIN = s.fget F.BLN_CTL_ECHO_MIN := by
    simp only [State.fget, F.BLN_CTL_ECHO_MIN, regs R.BLN_CTL apart rfl]
  have run : (loseEcho k s).running = s.running := rfl
  have gov : (loseEcho k s).gov F.BLN_CTL_ECHO_MIN = s.gov F.BLN_CTL_ECHO_MIN := rfl
  simp only [State.echoMin, ctl, run, gov]

/-- No echo lane but lane k stops being LOCKED, so that at most one fewer is. -/
theorem echoLocked_le_loseEcho (k : Nat) (s : State) : s.echoLocked ≤ (loseEcho k s).echoLocked + 1 := by
  obtain ⟨-, -, -, -, regs⟩ := loseEcho_spec k s
  have others (j : Nat) (hj : j ≠ k) : (loseEcho k s).fget (F.BLN_ECHO_STATUS_STATE j) = s.fget (F.BLN_ECHO_STATUS_STATE j) := by
    have apart : R.BLN_ECHO_STATUS j ∉ [R.BLN_ECHO_STATUS k, R.BLN_ECHO_EVENTS k, R.BLN_ECHO_FEC_UNCORR k] := by
      simp only [R.BLN_ECHO_STATUS, R.BLN_ECHO_EVENTS, R.BLN_ECHO_FEC_UNCORR, List.mem_cons, List.not_mem_nil, or_false]
      omega
    simp only [State.fget, F.BLN_ECHO_STATUS_STATE, regs _ apart (recorderReg_offset _ _ (by decide))]
  have sub : (List.range 4).filter (fun j => s.fget (F.BLN_ECHO_STATUS_STATE j) == 2) ⊆
      k :: (List.range 4).filter (fun j => (loseEcho k s).fget (F.BLN_ECHO_STATUS_STATE j) == 2) := by
    intro j hj
    by_cases hk : j = k
    · exact hk ▸ .head _
    · rw [List.mem_filter, ← others j hk] at hj
      exact .tail _ (List.mem_filter.mpr hj)
  exact ((List.nodup_range.filter _).subperm sub).length_le

/-- ECHO_LOCK_LOST of a locked lane asks for no halt while enough lanes are left (R180). -/
theorem echoLockLostOp_of_enough {s : State} {k : Nat} (hk : k < 4) (h : s.fget (F.BLN_ECHO_STATUS_STATE k) = 2)
    (he : s.echoMin < s.echoLocked) : echoLockLostOp k s = loseEcho k s := by
  have enough : ¬ (loseEcho k s).echoLocked < (loseEcho k s).echoMin := by
    have left := echoLocked_le_loseEcho k s
    rw [loseEcho_echoMin hk s]
    omega
  rw [echoLockLostOp, if_pos h]
  exact if_neg enough

theorem completes_echoLockLost {s : State} {k : Nat} (hk : k < 4) (h : s.fget (F.BLN_ECHO_STATUS_STATE k) = 2)
    (he : s.echoMin < s.echoLocked) : Completes (.echoLockLost k) s (fun t =>
      t.fget (F.BLN_ECHO_STATUS_STATE k) = 1 ∧ t.flag (F.BLN_ECHO_EVENTS_LOCK_LOST k) = true ∧
      t.fget (F.BLN_ECHO_FEC_UNCORR_COUNT k) = satAdd 32 (s.fget (F.BLN_ECHO_FEC_UNCORR_COUNT k)) 4 ∧
      Frame [.bln] [R.BLN_ECHO_STATUS k, R.BLN_ECHO_EVENTS k, R.BLN_ECHO_FEC_UNCORR k] s t) := by
  refine completes_of_wf (echoLockLostOp k) rfl (decide_eq_true hk) ?_
  obtain ⟨hstate, hevent, hcount, hframe⟩ := loseEcho_spec k s.begin
  rw [echoLockLostOp_of_enough (s := s.begin) hk h he, fget_settled _ _ _ (F.BLN_ECHO_STATUS_STATE k) (recorderReg_offset _ _ (by decide)),
    flag_settled _ _ _ (F.BLN_ECHO_EVENTS_LOCK_LOST k) (recorderReg_offset _ _ (by decide)),
    fget_settled _ _ _ (F.BLN_ECHO_FEC_UNCORR_COUNT k) (recorderReg_offset _ _ (by decide))]
  exact ⟨hstate, hevent, hcount, Frame.settled _ hframe⟩

/-! ### FRAMING_ERROR, EQ_FREEZE and EQ_THAW (R167, R192) -/

/-- A framing error leaves the receiver's adaptation as it is. -/
theorem flag_framingError (k : Nat) (s : State) :
    (framingError k s).flag (F.BLN_ECHO_STATUS_FROZEN k) = s.flag (F.BLN_ECHO_STATUS_FROZEN k) := by
  obtain ⟨apart, -⟩ := echoRegs_apart k
  rw [framingError, State.raise, State.flag_fset_other _ (F.BLN_ECHO_EVENTS_FRAMING k) (F.BLN_ECHO_STATUS_FROZEN k) _ (.inl apart)]
  rfl

theorem completes_framingError {s : State} {k : Nat} (hk : k < 4) : Completes (.framingError k) s (fun t =>
    t.flag (F.BLN_ECHO_EVENTS_FRAMING k) = true ∧
      t.bln = { s.bln with framings := s.bln.framings.set k (s.bln.framings.getD k 0 + 1) } ∧
      t.flag (F.BLN_ECHO_STATUS_FROZEN k) = false ∧ Frame [.bln] [R.BLN_ECHO_EVENTS k, R.BLN_ECHO_STATUS k] s t) := by
  refine completes_of_wf (framingErrorOp k) rfl (decide_eq_true hk) ?_
  obtain ⟨hevent, hbln, hframe⟩ := framingError_spec k (thaw k s.begin)
  rw [framingErrorOp, flag_settled _ _ _ (F.BLN_ECHO_EVENTS_FRAMING k) (recorderReg_offset _ _ (by decide)),
    flag_settled _ _ _ (F.BLN_ECHO_STATUS_FROZEN k) (recorderReg_offset _ _ (by decide)), settle_bln, flag_framingError, flag_thaw]
  exact ⟨hevent, hbln, rfl, Frame.settled _ ((frame_thaw _ _ _ (.tail _ (.head _))).trans (hframe.mono (fun _ m => m) (by simp)))⟩

/-- EQ_FREEZE and EQ_THAW store what they say (R192). -/
theorem eqOp_spec (k : Nat) (on : Bool) (s : State) :
    let t : State := { settle s.begin (eqOp k on s.begin) with pending := s.pending }
    t.flag (F.BLN_ECHO_STATUS_FROZEN k) = on ∧ Frame [] [R.BLN_ECHO_STATUS k] s t :=
  ⟨(flag_settled _ _ _ (F.BLN_ECHO_STATUS_FROZEN k) (recorderReg_offset _ _ (by decide))).trans
      (State.flag_fset_bitOf _ _ _ on (by decide)),
    Frame.settled _ (Frame.fset _ _ _ (F.BLN_ECHO_STATUS_FROZEN k) _ (.head _))⟩

/-- Settles O35: each command is a few writes of the lane's registers; a lock lost leaves one lane fewer than before, still no fewer than ECHO_MIN. -/
theorem echoLaneCommands : Obligations.EchoLaneCommands := by
  unfold Obligations.EchoLaneCommands
  intro s k hk
  exact ⟨fun w inv x hw => completes_trainingWord hk hw,
    fun he ht => ⟨completes_echoLocked_unknown hk he ht, fun hu hs => ⟨completes_echoLocked hk he ht hu hs, completes_echoLocked_clash hk he ht hu hs⟩⟩,
    completes_echoLockLost hk, completes_framingError hk,
    completes_of_wf (eqOp k true) rfl (decide_eq_true hk) (eqOp_spec k true s),
    completes_of_wf (eqOp k false) rfl (decide_eq_true hk) (eqOp_spec k false s)⟩

end Sys2Proof.Machine
end

section
/-! PROOF. The echo stream: ack blocks, status messages and TEMP_STALE (R177 to R179). -/

namespace Sys2Proof.Machine

/-! ### Frames acknowledged (R178) -/

/-- Whether an ack entry names a frame in flight. -/
def ackHit (a : AckEntry) (f : TxFrame) : Bool := f.head.beamLane == a.beamLane && f.head.stroke % 64 == a.stroke6 && f.sentOn.isSome

/-- A frame as it is, or acknowledged since. -/
def KeepsFrame (f g : TxFrame) : Prop := g.head = f.head ∧ g.sentOn = f.sentOn ∧ (f.acked = true → g.acked = true)

theorem KeepsFrame.ackHit {f g : TxFrame} (h : KeepsFrame f g) (a : AckEntry) : ackHit a g = ackHit a f := by
  obtain ⟨hhead, hsent, -⟩ := h
  simp only [Machine.ackHit, hhead, hsent]

/-- Every frame held is kept, in its place, and the generation is the same. -/
def AckedFrom (s t : State) : Prop :=
  (∃ φ : TxFrame → TxFrame, (∀ f, KeepsFrame f (φ f)) ∧ t.bln.frames = s.bln.frames.map φ) ∧ t.bln.gen = s.bln.gen

theorem AckedFrom.refl (s : State) : AckedFrom s s := ⟨⟨id, fun _ => ⟨rfl, rfl, id⟩, by simp⟩, rfl⟩

theorem AckedFrom.trans {s t u : State} (h : AckedFrom s t) (k : AckedFrom t u) : AckedFrom s u := by
  obtain ⟨⟨φ, hφ, ht⟩, hg⟩ := h
  obtain ⟨⟨ψ, hψ, hu⟩, kg⟩ := k
  refine ⟨⟨ψ ∘ φ, fun f => ?_, by rw [hu, ht, List.map_map]⟩, kg.trans hg⟩
  obtain ⟨head1, sent1, ack1⟩ := hφ f
  obtain ⟨head2, sent2, ack2⟩ := hψ (φ f)
  exact ⟨head2.trans head1, sent2.trans sent1, fun ha => ack2 (ack1 ha)⟩

/-- The frames held keep their headers. -/
theorem AckedFrom.heads {s t : State} (h : AckedFrom s t) : t.bln.frames.map TxFrame.head = s.bln.frames.map TxFrame.head := by
  obtain ⟨⟨φ, hφ, ht⟩, -⟩ := h
  rw [ht, List.map_map]
  exact List.map_congr_left (fun f _ => (hφ f).1)

/-- The frame that an entry names is named by it in the later state too. -/
theorem AckedFrom.find {s t : State} (h : AckedFrom s t) {a : AckEntry} {f : TxFrame} (hf : s.bln.frames.find? (ackHit a) = some f) :
    ∃ g, t.bln.frames.find? (ackHit a) = some g ∧ g.head = f.head := by
  obtain ⟨⟨φ, hφ, ht⟩, -⟩ := h
  have same : ackHit a ∘ φ = ackHit a := funext (fun x => (hφ x).ackHit a)
  exact ⟨φ f, by rw [ht, List.find?_map, same, hf]; rfl, (hφ f).1⟩

/-- A frame held with its ack is held with it in the later state too. -/
theorem AckedFrom.acked {s t : State} (h : AckedFrom s t) {f : TxFrame} (hm : f ∈ s.bln.frames) (ha : f.acked = true) :
    ∃ g ∈ t.bln.frames, g.head = f.head ∧ g.acked = true := by
  obtain ⟨⟨φ, hφ, ht⟩, -⟩ := h
  obtain ⟨hhead, -, hack⟩ := hφ f
  exact ⟨φ f, ht ▸ List.mem_map_of_mem hm, hhead, hack ha⟩

/-- The round trip of a frame acknowledged now, in ns (R224). -/
def roundTrip (f : TxFrame) (s : State) : Nat := ((s.clock - f.entered) / ticksPerNs).toNat

/-- A frame marked as acknowledged, its round trip measured. -/
def markAcked (f : TxFrame) (s : State) : State :=
  { s with
    bln := { s.bln with frames := s.bln.frames.map (fun x => if x = f then { x with acked := true, ackAt := s.clock } else x) }
    stk := { s.stk with rttMax := max s.stk.rttMax (roundTrip f s) } }

/-- A frame acknowledged (R178, R224). -/
def acknowledge (f : TxFrame) (s : State) : State := (markAcked f s).raiseTo F.STK_RTT_MAX_NS (roundTrip f s)

theorem ackedFrom_acknowledge (f : TxFrame) (s : State) : AckedFrom s (acknowledge f s) := by
  refine ⟨⟨fun x => if x = f then { x with acked := true, ackAt := s.clock } else x, fun x => ?_, rfl⟩, rfl⟩
  dsimp only
  split
  · exact ⟨rfl, rfl, fun _ => rfl⟩
  · exact ⟨rfl, rfl, id⟩

theorem mem_acknowledge {f : TxFrame} {s : State} (h : f ∈ s.bln.frames) :
    ∃ g ∈ (acknowledge f s).bln.frames, g.head = f.head ∧ g.acked = true := by
  refine ⟨{ f with acked := true, ackAt := s.clock }, ?_, rfl, rfl⟩
  exact List.mem_map.mpr ⟨f, h, if_pos rfl⟩

/-- The registers that ack entries write (R178, R224). -/
def ackRegs : List Nat := [R.BLN_STRAY, R.BLN_EVENTS, R.STK_RTT_MAX]

theorem frame_acknowledge (f : TxFrame) (s : State) : Frame [.bln, .stk] ackRegs s (acknowledge f s) := by
  have marked : Frame [.bln, .stk] ackRegs s (markAcked f s) :=
    (Frame.setBln _ s (markAcked f s).bln (.head _)).trans
      ((frame_setStk _ { s with bln := (markAcked f s).bln } (markAcked f s).stk).mono (by simp) (fun _ m => m))
  exact marked.trans (Frame.fset _ _ _ F.STK_RTT_MAX_NS _ (by decide))

/-- An ack entry does nothing, is counted as a stray, or acknowledges the frame that it names (R178). -/
theorem ackOne_cases (a : AckEntry) (s : State) :
    ackOne a s = s ∨ ackOne a s = (s.bump F.BLN_STRAY_COUNT).raise F.BLN_EVENTS_STRAY ∨ ∃ f, ackOne a s = acknowledge f s := by
  unfold ackOne
  split
  · exact .inl rfl
  · dsimp only
    split
    · exact .inr (.inl rfl)
    · next f _ =>
      split
      · exact .inl rfl
      · exact .inr (.inr ⟨f, rfl⟩)

theorem ackedFrom_ackOne (a : AckEntry) (s : State) : AckedFrom s (ackOne a s) := by
  rcases ackOne_cases a s with h | h | ⟨f, h⟩ <;> rw [h]
  · exact AckedFrom.refl s
  · exact AckedFrom.refl s
  · exact ackedFrom_acknowledge f s

theorem frame_ackOne (a : AckEntry) (s : State) : Frame [.bln, .stk] ackRegs s (ackOne a s) := by
  rcases ackOne_cases a s with h | h | ⟨f, h⟩ <;> rw [h]
  · exact Frame.refl _ _ s
  · exact (Frame.bump _ _ _ F.BLN_STRAY_COUNT (by decide)).trans (Frame.raise _ _ _ F.BLN_EVENTS_STRAY (by decide))
  · exact frame_acknowledge f s

/-- A valid entry of the current generation that names a frame leaves it acknowledged. -/
theorem acked_ackOne {s : State} {a : AckEntry} {f : TxFrame} (hv : a.valid = true) (hg : a.gen = s.bln.gen)
    (hf : s.bln.frames.find? (ackHit a) = some f) : ∃ g ∈ (ackOne a s).bln.frames, g.head = f.head ∧ g.acked = true := by
  have named : ackOne a s = if f.acked then s else acknowledge f s := by
    unfold ackHit at hf
    simp only [ackOne, hv, Bool.not_true, Bool.false_eq_true, if_false, if_pos hg, hf]
    rfl
  have held := List.mem_of_find?_eq_some hf
  rw [named]
  split
  · next ha => exact ⟨f, held, rfl, ha⟩
  · exact mem_acknowledge held

theorem ackedFrom_foldl (es : List AckEntry) (s : State) : AckedFrom s (es.foldl (fun t a => ackOne a t) s) := by
  induction es generalizing s with
  | nil => exact AckedFrom.refl s
  | cons b es ih => exact (ackedFrom_ackOne b s).trans (ih _)

/-- Each valid entry of the current generation leaves the frame that it names acknowledged. -/
theorem acked_foldl {a : AckEntry} {es : List AckEntry} (hm : a ∈ es) (hv : a.valid = true) {s : State} (hg : a.gen = s.bln.gen)
    {f : TxFrame} (hf : s.bln.frames.find? (ackHit a) = some f) :
    ∃ g ∈ (es.foldl (fun t a => ackOne a t) s).bln.frames, g.head = f.head ∧ g.acked = true := by
  induction es generalizing s f with
  | nil => cases hm
  | cons b es ih =>
    have first := ackedFrom_ackOne b s
    rcases List.mem_cons.mp hm with rfl | later
    · obtain ⟨g, held, hhead, hack⟩ := acked_ackOne hv hg hf
      obtain ⟨g', held', hhead', hack'⟩ := (ackedFrom_foldl es _).acked held hack
      exact ⟨g', held', hhead'.trans hhead, hack'⟩
    · obtain ⟨g, found, hhead⟩ := first.find hf
      obtain ⟨g', held, hhead', hack⟩ := ih later (hg.trans first.2.symm) found
      exact ⟨g', held, hhead'.trans hhead, hack⟩

/-! ### ACK_BLOCK -/

/-- STATE of an echo lane is not touched by its thaw. -/
theorem thaw_state (k : Nat) (s : State) : (thaw k s).fget (F.BLN_ECHO_STATUS_STATE k) = s.fget (F.BLN_ECHO_STATUS_STATE k) :=
  fget_thaw k s _ (.inr (by decide : 2 ≤ 5))

theorem ackBlockOp_of_good {s : State} {k : Nat} {ws : List DWord} {es : List AckEntry} (h : s.fget (F.BLN_ECHO_STATUS_STATE k) = 2)
    (hw : ackBlock ws = some es) : ackBlockOp k ws s = es.foldl (fun t a => ackOne a t) (thaw k s) := by
  simp only [ackBlockOp, thaw_state, h, hw, ne_eq, not_true, if_false]

theorem ackBlockOp_of_bad {s : State} {k : Nat} {ws : List DWord} (h : s.fget (F.BLN_ECHO_STATUS_STATE k) = 2)
    (hw : ackBlock ws = none) : ackBlockOp k ws s = echoUnitError 0xA6 k ws (thaw k s) := by
  simp only [ackBlockOp, thaw_state, h, hw, ne_eq, not_true, if_false]

theorem completes_ackBlock {s : State} {k : Nat} {ws : List DWord} {es : List AckEntry} (hk : k < 4)
    (h : s.fget (F.BLN_ECHO_STATUS_STATE k) = 2) (hw : ackBlock ws = some es) : Completes (.ackBlock k ws) s (fun t =>
      (∀ a ∈ es, a.valid = true → a.gen = s.bln.gen → ∀ f, s.bln.frames.find? (ackHit a) = some f →
        ∃ g ∈ t.bln.frames, g.head = f.head ∧ g.acked = true) ∧
      t.bln.frames.map TxFrame.head = s.bln.frames.map TxFrame.head ∧
      Frame [.bln, .stk] [R.BLN_STRAY, R.BLN_EVENTS, R.STK_RTT_MAX, R.BLN_ECHO_STATUS k] s t) := by
  refine completes_of_wf (ackBlockOp k ws) rfl (decide_eq_true hk) ?_
  rw [ackBlockOp_of_good (s := s.begin) h hw, settle_bln]
  refine ⟨fun a ha hv hg f hf => acked_foldl (s := thaw k s.begin) ha hv hg hf, (ackedFrom_foldl es (thaw k s.begin)).heads,
    Frame.settled _ ?_⟩
  exact (frame_thaw _ _ _ (by simp)).trans
    ((Frame.foldl _ es (fun t a _ => frame_ackOne a t) _).mono (fun _ m => m) (fun _ m => List.mem_append_left [R.BLN_ECHO_STATUS k] m))

/-- A unit that fails its CRC (R178). -/
theorem completes_badAck {s : State} {k : Nat} {ws : List DWord} (hk : k < 4) (h : s.fget (F.BLN_ECHO_STATUS_STATE k) = 2)
    (hw : ackBlock ws = none) (hc : kindOf ws = 0xA6) : Completes (.ackBlock k ws) s (fun t =>
      t.flag (F.BLN_ECHO_EVENTS_CRC_ERR k) = true ∧ Frame [] [R.BLN_ECHO_CRC_ERRS k, R.BLN_ECHO_EVENTS k, R.BLN_ECHO_STATUS k] s t) := by
  refine completes_of_wf (ackBlockOp k ws) rfl (decide_eq_true hk) ?_
  rw [ackBlockOp_of_bad (s := s.begin) h hw, echoUnitError, if_pos hc,
    flag_settled _ _ _ (F.BLN_ECHO_EVENTS_CRC_ERR k) (recorderReg_offset _ _ (by decide))]
  exact ⟨flag_echoCrcError k _, Frame.settled _ ((frame_thaw _ _ _ (by simp)).trans (frame_echoCrcError _ _ _ (by simp) (by simp)))⟩

/-- A unit of another KIND (R167). -/
theorem completes_strangeAck {s : State} {k : Nat} {ws : List DWord} (hk : k < 4) (h : s.fget (F.BLN_ECHO_STATUS_STATE k) = 2)
    (hw : ackBlock ws = none) (hc : kindOf ws ≠ 0xA6) : Completes (.ackBlock k ws) s (fun t =>
      t.flag (F.BLN_ECHO_EVENTS_FRAMING k) = true ∧ Frame [.bln] [R.BLN_ECHO_EVENTS k, R.BLN_ECHO_STATUS k] s t) := by
  refine completes_of_wf (ackBlockOp k ws) rfl (decide_eq_true hk) ?_
  obtain ⟨hevent, -, hframe⟩ := framingError_spec k (thaw k s.begin)
  rw [ackBlockOp_of_bad (s := s.begin) h hw, echoUnitError, if_neg hc,
    flag_settled _ _ _ (F.BLN_ECHO_EVENTS_FRAMING k) (recorderReg_offset _ _ (by decide))]
  exact ⟨hevent, Frame.settled _ ((frame_thaw _ _ _ (by simp)).trans (hframe.mono (fun _ m => m) (by simp)))⟩

/-! ### Remote locks (R179) -/

/-- The lock bit of one lane: shown, kept as the start of its lock in stage B, and reported where it is lost. -/
def showLock (p : Nat × Bool) (t : State) : State :=
  let was := t.flag (F.BLN_LANE_STATUS_REMOTE_LOCK p.1)
  let r := t.train p.1
  let u := if r.phase = .stageB ∧ r.lockAt.isSome ≠ p.2 then t.setTrain p.1 { r with lockAt := if p.2 then some t.clock else none } else t
  State.raiseIf (was && !p.2) (F.BLN_LANE_EVENTS_LOCK_LOST p.1) (u.fset (F.BLN_LANE_STATUS_REMOTE_LOCK p.1) (bitOf p.2))

theorem remoteLocks_eq (locks : List Bool) (s : State) :
    remoteLocks locks s = ((List.range 136).zip locks).foldl (fun t p => showLock p t) s := rfl

/-- STATUS of a lane is none of the EVENTS registers, and no other lane's STATUS. -/
theorem laneStatus_apart (j l : Nat) : R.BLN_LANE_STATUS j ≠ R.BLN_LANE_EVENTS l ∧ (j ≠ l → R.BLN_LANE_STATUS j ≠ R.BLN_LANE_STATUS l) := by
  simp only [R.BLN_LANE_STATUS, R.BLN_LANE_EVENTS]
  omega

theorem frame_showLock {rs : List Nat} (p : Nat × Bool) (t : State) (hs : R.BLN_LANE_STATUS p.1 ∈ rs) (he : R.BLN_LANE_EVENTS p.1 ∈ rs) :
    Frame [.bln] rs t (showLock p t) := by
  unfold showLock
  refine Frame.trans (Frame.trans ?_ (Frame.fset _ _ _ (F.BLN_LANE_STATUS_REMOTE_LOCK p.1) _ hs))
    (Frame.raiseIf _ _ _ _ (F.BLN_LANE_EVENTS_LOCK_LOST p.1) he)
  exact Frame.ite _ (fun _ => Frame.setTrain _ _ _ _ (.head _)) (fun _ => Frame.refl _ _ _)

/-- The lane shows its bit. -/
theorem flag_showLock_self (p : Nat × Bool) (t : State) : (showLock p t).flag (F.BLN_LANE_STATUS_REMOTE_LOCK p.1) = p.2 := by
  have stored (b : Bool) (u : State) (h : u.flag (F.BLN_LANE_STATUS_REMOTE_LOCK p.1) = p.2) :
      (State.raiseIf b (F.BLN_LANE_EVENTS_LOCK_LOST p.1) u).flag (F.BLN_LANE_STATUS_REMOTE_LOCK p.1) = p.2 := by
    cases b
    · exact h
    · exact (State.flag_fset_other _ (F.BLN_LANE_EVENTS_LOCK_LOST p.1) (F.BLN_LANE_STATUS_REMOTE_LOCK p.1) _
        (.inl (laneStatus_apart p.1 p.1).1)).trans h
  exact stored _ _ (State.flag_fset_bitOf _ _ _ p.2 (by decide))

/-- Every other lane shows what it did. -/
theorem flag_showLock_ne {p : Nat × Bool} {j : Nat} (h : j ≠ p.1) (t : State) :
    (showLock p t).flag (F.BLN_LANE_STATUS_REMOTE_LOCK j) = t.flag (F.BLN_LANE_STATUS_REMOTE_LOCK j) := by
  obtain ⟨hevents, hstatus⟩ := laneStatus_apart j p.1
  obtain ⟨-, regs⟩ := frame_showLock (rs := [R.BLN_LANE_STATUS p.1, R.BLN_LANE_EVENTS p.1]) p t (by simp) (by simp)
  have same := regs (R.BLN_LANE_STATUS j) (by simpa using ⟨hstatus h, hevents⟩) (recorderReg_offset _ _ (by decide))
  simp only [State.flag, State.fget, F.BLN_LANE_STATUS_REMOTE_LOCK, same]

/-- Lanes that no bit is for show what they did. -/
theorem flag_showLocks_ne {j : Nat} {ps : List (Nat × Bool)} (h : j ∉ ps.map Prod.fst) (s : State) :
    (ps.foldl (fun t p => showLock p t) s).flag (F.BLN_LANE_STATUS_REMOTE_LOCK j) = s.flag (F.BLN_LANE_STATUS_REMOTE_LOCK j) := by
  induction ps generalizing s with
  | nil => rfl
  | cons p ps ih =>
    rw [List.map_cons, List.mem_cons, not_or] at h
    exact (ih h.2 _).trans (flag_showLock_ne h.1 s)

/-- Where each lane has one bit, each shows it. -/
theorem flag_showLocks_mem {l : Nat} {b : Bool} {ps : List (Nat × Bool)} (hm : (l, b) ∈ ps) (hn : (ps.map Prod.fst).Nodup) (s : State) :
    (ps.foldl (fun t p => showLock p t) s).flag (F.BLN_LANE_STATUS_REMOTE_LOCK l) = b := by
  induction ps generalizing s with
  | nil => cases hm
  | cons p ps ih =>
    rw [List.map_cons, List.nodup_cons] at hn
    rcases List.mem_cons.mp hm with rfl | later
    · exact (flag_showLocks_ne hn.1 _).trans (flag_showLock_self (l, b) s)
    · exact ih later hn.2 _

/-- A list paired with another names each of its items once where it does so itself. -/
theorem nodup_fst_zip {α β : Type} {l : List α} (h : l.Nodup) (m : List β) : ((l.zip m).map Prod.fst).Nodup := by
  rw [List.zip_eq_zip_take_min, List.map_fst_zip (by simp only [List.length_take]; omega)]
  exact h.sublist (List.take_sublist _ _)

/-- Every lane that a message has a bit for shows it (R179). -/
theorem flag_remoteLocks {locks : List Bool} {l : Nat} {b : Bool} (hl : l < 136) (h : locks[l]? = some b) (s : State) :
    (remoteLocks locks s).flag (F.BLN_LANE_STATUS_REMOTE_LOCK l) = b := by
  have paired : ((List.range 136).zip locks)[l]? = some (l, b) := List.getElem?_zip_eq_some.mpr ⟨List.getElem?_range hl, h⟩
  rw [remoteLocks_eq]
  exact flag_showLocks_mem (List.mem_of_getElem? paired) (nodup_fst_zip List.nodup_range locks) s

/-- The registers that the lock bits write. -/
def lockRegs : List Nat := (List.range 136).map R.BLN_LANE_STATUS ++ (List.range 136).map R.BLN_LANE_EVENTS

theorem frame_remoteLocks (locks : List Bool) (s : State) : Frame [.bln] lockRegs s (remoteLocks locks s) := by
  rw [remoteLocks_eq]
  refine Frame.foldl _ _ (fun t p hp => ?_) s
  have lane : p.1 ∈ List.range 136 := (List.of_mem_zip hp).1
  exact frame_showLock p t (List.mem_append_left _ (List.mem_map_of_mem lane)) (List.mem_append_right _ (List.mem_map_of_mem lane))

/-- The lanes' registers lie below 0x118800. -/
theorem lockRegs_lt {a : Nat} (h : a ∈ lockRegs) : a < 0x118800 := by
  rcases List.mem_append.mp h with h | h <;> obtain ⟨l, hl, rfl⟩ := List.mem_map.mp h <;> rw [List.mem_range] at hl
  · simp only [R.BLN_LANE_STATUS]
    omega
  · simp only [R.BLN_LANE_EVENTS]
    omega

/-- A field outside the lanes' registers is not touched by the lock bits. -/
theorem fget_remoteLocks (locks : List Bool) (s : State) (f : Fld) (h : 0x118800 ≤ f.addr) :
    (remoteLocks locks s).fget f = s.fget f := by
  obtain ⟨-, regs⟩ := frame_remoteLocks locks s
  have same := regs f.addr (fun m => by have := lockRegs_lt m; omega) (recorderReg_of_block (by omega) (by omega))
  simp only [State.fget, same]

/-! ### STATUS_MESSAGE (R179) -/

/-- The word that BLN_TEMP shows for a message. -/
def tempWord (m : StatusMsg) : Word := BitVec.ofNat 32 (unsignedOf 16 m.temp + bitOf m.tempValid * 2 ^ 16)

/-- The temperature and the flags of a message shown. -/
def showMessage (m : StatusMsg) (s : State) : State :=
  (((s.setReg R.BLN_TEMP (tempWord m)).fset F.BLN_BLANKER_FLAGS_FAULT (bitOf m.fault)).fset F.BLN_BLANKER_FLAGS_MISMATCH
    (bitOf m.mismatch)).fset F.BLN_BLANKER_FLAGS_OVERFLOW (bitOf m.overflow)

/-- What a good message with no fault flag leaves (R179). -/
def takeMessageOf (m : StatusMsg) (s : State) : State :=
  { (remoteLocks m.locks (showMessage m s)).clear F.BLN_STATUS_TEMP_STALE with bln := { s.bln with
    statusAt := some s.clock, stale := false, temp := if m.tempValid then some (m.temp, s.clock) else s.bln.temp } }

/-- Without a halt stroke's catch there is nothing to judge (R198). -/
theorem judgeHalt_of_no_catch {s : State} (h : s.bln.haltCatch = none) : judgeHalt s = s := by
  simp only [judgeHalt, h]

theorem statusMessageOp_of_good {s : State} {k : Nat} {ws : List DWord} {m : StatusMsg} (h : s.fget (F.BLN_ECHO_STATUS_STATE k) = 2)
    (hw : statusMsg ws = some m) (hf : m.fault = false) (hm : m.mismatch = false) (ho : m.overflow = false)
    (hc : s.bln.haltCatch = none) : statusMessageOp k ws s = takeMessageOf m (thaw k s) := by
  have quiet : judgeHalt (takeMessageOf m (thaw k s)) = takeMessageOf m (thaw k s) := judgeHalt_of_no_catch hc
  unfold takeMessageOf showMessage at quiet ⊢
  simp only [hf, hm, ho] at quiet ⊢
  simp only [statusMessageOp, thaw_state, h, hw, ne_eq, not_true, if_false, hf, hm, ho, demandIf, Bool.or_self, Bool.false_eq_true,
    State.raiseIf]
  exact quiet

/-- The temperature has 16 bits of the word, and VALID the next. -/
theorem fieldOf_tempWord (m : StatusMsg) : fieldOf 0 16 (tempWord m) = unsignedOf 16 m.temp ∧ fieldOf 16 1 (tempWord m) = bitOf m.tempValid := by
  have ht := unsignedOf_lt 16 m.temp
  have hb := bitOf_lt m.tempValid
  simp only [fieldOf, tempWord, BitVec.toNat_ofNat]
  omega

/-- The registers that a message writes beside those of the lanes. -/
def messageRegs : List Nat := [R.BLN_TEMP, R.BLN_BLANKER_FLAGS, R.BLN_STATUS]

theorem frame_showMessage (rs : List Nat) (m : StatusMsg) (s : State) : Frame [.bln] (messageRegs ++ rs) s (showMessage m s) := by
  have flags (f : Fld) (v : Nat) (u : State) (h : f.addr = R.BLN_BLANKER_FLAGS) : Frame [.bln] (messageRegs ++ rs) u (u.fset f v) :=
    Frame.fset _ _ _ _ _ (h ▸ .tail _ (.head _))
  exact (((Frame.setReg _ _ _ R.BLN_TEMP _ (.head _)).trans (flags _ _ _ rfl)).trans (flags _ _ _ rfl)).trans (flags _ _ _ rfl)

theorem frame_takeMessageOf (m : StatusMsg) (s : State) : Frame [.bln] (messageRegs ++ lockRegs) s (takeMessageOf m s) :=
  (((frame_showMessage _ m s).trans ((frame_remoteLocks _ _).mono (fun _ h => h) (fun _ h => List.mem_append_right _ h))).trans
    (Frame.clear _ _ _ F.BLN_STATUS_TEMP_STALE (.tail _ (.tail _ (.head _))))).trans (Frame.setBln _ _ _ (.head _))

/-- A field of BLN_TEMP after a message. -/
theorem fget_temp_takeMessageOf (m : StatusMsg) (s : State) (lo w : Nat) :
    (takeMessageOf m s).fget ⟨R.BLN_TEMP, lo, w⟩ = fieldOf lo w (tempWord m) := by
  have shown : (takeMessageOf m s).fget ⟨R.BLN_TEMP, lo, w⟩ =
      ((remoteLocks m.locks (showMessage m s)).fset F.BLN_STATUS_TEMP_STALE 0).fget ⟨R.BLN_TEMP, lo, w⟩ := rfl
  rw [shown, State.fget_fset_other _ F.BLN_STATUS_TEMP_STALE ⟨R.BLN_TEMP, lo, w⟩ _ (.inl (by decide : R.BLN_TEMP ≠ R.BLN_STATUS)),
    fget_remoteLocks _ _ ⟨R.BLN_TEMP, lo, w⟩ (by decide : 0x118800 ≤ R.BLN_TEMP), showMessage]
  have apart : R.BLN_TEMP ≠ R.BLN_BLANKER_FLAGS := by decide
  rw [State.fget_fset_other _ F.BLN_BLANKER_FLAGS_OVERFLOW ⟨R.BLN_TEMP, lo, w⟩ _ (.inl apart),
    State.fget_fset_other _ F.BLN_BLANKER_FLAGS_MISMATCH ⟨R.BLN_TEMP, lo, w⟩ _ (.inl apart),
    State.fget_fset_other _ F.BLN_BLANKER_FLAGS_FAULT ⟨R.BLN_TEMP, lo, w⟩ _ (.inl apart)]
  exact State.fget_setReg_self s ⟨R.BLN_TEMP, lo, w⟩ _

theorem flag_stale_takeMessageOf (m : StatusMsg) (s : State) : (takeMessageOf m s).flag F.BLN_STATUS_TEMP_STALE = false :=
  State.flag_clear_self (remoteLocks m.locks (showMessage m s)) F.BLN_STATUS_TEMP_STALE (by decide)

theorem flag_lock_takeMessageOf {m : StatusMsg} {l : Nat} {b : Bool} (hl : l < 136) (h : m.locks[l]? = some b) (s : State) :
    (takeMessageOf m s).flag (F.BLN_LANE_STATUS_REMOTE_LOCK l) = b := by
  have apart : R.BLN_LANE_STATUS l ≠ R.BLN_STATUS := by
    simp only [R.BLN_LANE_STATUS, R.BLN_STATUS]
    omega
  have shown : (takeMessageOf m s).flag (F.BLN_LANE_STATUS_REMOTE_LOCK l) =
      ((remoteLocks m.locks (showMessage m s)).fset F.BLN_STATUS_TEMP_STALE 0).flag (F.BLN_LANE_STATUS_REMOTE_LOCK l) := rfl
  rw [shown, State.flag_fset_other _ F.BLN_STATUS_TEMP_STALE (F.BLN_LANE_STATUS_REMOTE_LOCK l) _ (.inl apart), flag_remoteLocks hl h]

theorem completes_statusMessage {s : State} {k : Nat} {ws : List DWord} {m : StatusMsg} (hk : k < 4)
    (h : s.fget (F.BLN_ECHO_STATUS_STATE k) = 2) (hw : statusMsg ws = some m) (hf : m.fault = false) (hm : m.mismatch = false)
    (ho : m.overflow = false) (hc : s.bln.haltCatch = none) : Completes (.statusMessage k ws) s (fun t =>
      t.fget F.BLN_TEMP_TEMP = unsignedOf 16 m.temp ∧ t.flag F.BLN_TEMP_VALID = m.tempValid ∧ t.flag F.BLN_STATUS_TEMP_STALE = false ∧
      (∀ l b, l < 136 → m.locks[l]? = some b → t.flag (F.BLN_LANE_STATUS_REMOTE_LOCK l) = b) ∧ t.bln.statusAt = some s.clock ∧
      Frame [.bln] ([R.BLN_TEMP, R.BLN_BLANKER_FLAGS, R.BLN_STATUS, R.BLN_ECHO_STATUS k] ++ (List.range 136).map R.BLN_LANE_STATUS ++
        (List.range 136).map R.BLN_LANE_EVENTS) s t) := by
  refine completes_of_wf (statusMessageOp k ws) rfl (decide_eq_true hk) ?_
  obtain ⟨htemp, hvalid⟩ := fieldOf_tempWord m
  rw [statusMessageOp_of_good (s := s.begin) h hw hf hm ho hc, settle_bln, List.append_assoc]
  refine ⟨?_, ?_, ?_, fun l b hl hb => ?_, rfl, Frame.settled _ ?_⟩
  · rw [fget_settled _ _ _ F.BLN_TEMP_TEMP rfl]
    exact (fget_temp_takeMessageOf _ _ 0 16).trans htemp
  · rw [flag_settled _ _ _ F.BLN_TEMP_VALID rfl, State.flag, F.BLN_TEMP_VALID, fget_temp_takeMessageOf, hvalid]
    cases m.tempValid <;> rfl
  · rw [flag_settled _ _ _ F.BLN_STATUS_TEMP_STALE rfl, flag_stale_takeMessageOf]
  · rw [flag_settled _ _ _ (F.BLN_LANE_STATUS_REMOTE_LOCK l) (recorderReg_offset _ _ (by decide)), flag_lock_takeMessageOf hl hb]
  · refine (frame_thaw _ _ _ (.tail _ (.tail _ (.tail _ (.head _))))).trans ((frame_takeMessageOf m _).mono (fun _ h => h) (fun a ha => ?_))
    rcases List.mem_append.mp ha with ha | ha
    · exact List.mem_append_left lockRegs (List.mem_append_left [R.BLN_ECHO_STATUS k] ha)
    · exact List.mem_append_right [R.BLN_TEMP, R.BLN_BLANKER_FLAGS, R.BLN_STATUS, R.BLN_ECHO_STATUS k] ha

/-! ### TEMP_STALE (R179) -/

/-- The staleness is reported. -/
def reportStale (s : State) : State := (s.raise F.BLN_STATUS_TEMP_STALE).raise F.BLN_EVENTS_TEMP_STALE

/-- The report is kept, so that it is not made again. -/
def keepStale (s : State) : State := { s with bln := { s.bln with stale := true } }

@[simp] theorem keepStale_flag (s : State) (f : Fld) : (keepStale s).flag f = s.flag f := rfl

theorem tempStaleOp_of_fresh {s : State} (h : s.bln.stale = false) :
    tempStaleOp s = keepStale (reportStale (s.until (s.bln.statusAt.getD s.pwr.releasedAt + 6400000))) := by
  rw [tempStaleOp, h]
  rfl

theorem reportStale_spec (s : State) : (reportStale s).flag F.BLN_STATUS_TEMP_STALE = true ∧
    (reportStale s).flag F.BLN_EVENTS_TEMP_STALE = true ∧ Frame [] [R.BLN_STATUS, R.BLN_EVENTS] s (reportStale s) :=
  ⟨(State.flag_raise_ne (s.raise F.BLN_STATUS_TEMP_STALE) (by decide : R.BLN_STATUS ≠ R.BLN_EVENTS)).trans
      (State.flag_raise_self s F.BLN_STATUS_TEMP_STALE (by decide) (by decide)),
    State.flag_raise_self _ F.BLN_EVENTS_TEMP_STALE (by decide) (by decide),
    (Frame.raise _ _ _ F.BLN_STATUS_TEMP_STALE (.head _)).trans (Frame.raise _ _ _ F.BLN_EVENTS_TEMP_STALE (.tail _ (.head _)))⟩

theorem completes_tempStale {s : State} (h : s.bln.stale = false) : Completes .tempStale s (fun t =>
    t.flag F.BLN_STATUS_TEMP_STALE = true ∧ t.flag F.BLN_EVENTS_TEMP_STALE = true ∧
      t.clock = max s.clock (s.bln.statusAt.getD s.pwr.releasedAt + 6400000) ∧ t.bln = { s.bln with stale := true } ∧
      Frame [.clock, .bln] [R.BLN_STATUS, R.BLN_EVENTS] s t) := by
  refine completes_of tempStaleOp rfl ?_
  obtain ⟨hstatus, hevent, hframe⟩ := reportStale_spec (s.begin.until (s.bln.statusAt.getD s.pwr.releasedAt + 6400000))
  rw [tempStaleOp_of_fresh (s := s.begin) h, settle_clock, settle_bln, flag_settled _ _ _ F.BLN_STATUS_TEMP_STALE rfl,
    flag_settled _ _ _ F.BLN_EVENTS_TEMP_STALE rfl, keepStale_flag, keepStale_flag]
  refine ⟨hstatus, hevent, rfl, rfl, Frame.settled _ ?_⟩
  exact ((Frame.until _ _ _ (.head _)).trans (hframe.mono (by simp) (fun _ m => m))).trans (Frame.setBln _ _ _ (.tail _ (.head _)))

/-- Settles O36: ack entries change frames in place, one after another, and a status message writes each lane's bit once. -/
theorem echoStreamMessages : Obligations.EchoStreamMessages := by
  unfold Obligations.EchoStreamMessages
  intro s k ws hk
  exact ⟨fun es h hw => completes_ackBlock hk h hw, fun h hw => ⟨completes_badAck hk h hw, completes_strangeAck hk h hw⟩,
    fun m h hw hf hm ho hc => completes_statusMessage hk h hw hf hm ho hc, completes_tempStale⟩

end Sys2Proof.Machine
end

section
/-! PROOF. The side channel: SIDE_GO, SIDE_ABORT, SIDE_RESPONSE and SIDE_TIMEOUT (R173, R182 to R185). -/

namespace Sys2Proof.Machine

/-! ### The lane of a side frame, and its slot there -/

/-- The lane of a target goes by the lane map and the lanes' states (R182). -/
theorem State.sideLane_congr {s t : State} (hr : t.regs = s.regs) (hb : t.banks = s.banks) (x : Nat) : t.sideLane x = s.sideLane x := by
  have reg (a : Nat) : t.reg a = s.reg a := by simp only [State.reg, hr]
  have states : t.laneState = s.laneState := funext (fun l => by simp only [State.laneState, State.fget, reg])
  have lanes : t.laneOf = s.laneOf := funext (fun b => by simp only [State.laneOf, State.lanePhys_congr hb (fun a _ => reg a), hb])
  unfold State.sideLane
  rw [states, lanes]

/-- A lane's slot goes by the lane map, the course, the lane's state, the frames it holds and its last unit (R173). -/
theorem State.sideSlot_congr {s t : State} (hr : t.regs = s.regs) (hb : t.banks = s.banks) (hm : t.mem = s.mem) (hi : t.ing = s.ing)
    (hf : t.bln.frames = s.bln.frames) (ht : t.bln.trains = s.bln.trains) (l : Nat) : t.sideSlot l = s.sideSlot l := by
  have reg (a : Nat) : t.reg a = s.reg a := by simp only [State.reg, hr]
  have service (a : Nat) : t.inServiceWord a = s.inServiceWord a := by simp only [State.inServiceWord, State.bank_congr hb]
  simp only [State.sideSlot, State.laneMapBad, State.badAmong, service, State.running, State.laneState, State.fget, State.train, hb, hm, hi,
    ht, reg, State.nextFrame_congr hf hb (fun a _ => reg a)]

/-! ### A side frame sent or held -/

/-- A CRC injection used up concerns the lane's injection alone (R194). -/
theorem takeCrc_spec (l : Nat) (s : State) :
    (takeCrc l s).2.bln.sideTag = s.bln.sideTag ∧ Frame [.bln] [R.BLN_LANE_INJECT l] s (takeCrc l s).2 := by
  unfold takeCrc
  dsimp only
  split
  · dsimp only
    split
    · exact ⟨rfl, Frame.setTrain _ _ _ _ (.head _)⟩
    · exact ⟨rfl, (Frame.setTrain _ _ _ _ (.head _)).trans (Frame.clear _ _ _ (F.BLN_LANE_INJECT_KIND l) (.head _))⟩
  · exact ⟨rfl, Frame.refl _ _ _⟩

/-- A side frame goes out, or waits, on its lane (R173, R182). -/
theorem sendSide_spec (f : SideFlight) (l : Nat) (j : SideJob) {s : State} (hf : s.mem.flips = []) :
    let t := sendSide f l j s
    t.bln.side = some { j with flight := some { f with sentAt := s.clock, lane := l, waiting := !s.sideSlot l } } ∧
      t.bln.sideTag = s.bln.sideTag ∧ Frame [.bln] [R.BLN_LANE_INJECT l] s t := by
  obtain ⟨htag, hframe⟩ := takeCrc_spec l s
  intro t
  simp only [t, sendSide, readLaneMap_of_flips_nil hf]
  split
  · next slot =>
    rw [slot]
    refine ⟨rfl, htag, (hframe.trans ?_).trans (Frame.emit _ _ _ _)⟩
    exact (Frame.setTrain _ _ _ _ (.head _)).trans (Frame.setBln _ _ _ (.head _))
  · next slot =>
    rw [Bool.not_eq_true] at slot
    rw [slot]
    exact ⟨rfl, rfl, Frame.setBln _ _ _ (.head _)⟩

/-! ### SIDE_GO (R185) -/

/-- The job that the registers name. -/
def hostJob (s : State) : SideJob where
  wave := false
  src := s.pair F.BLN_SIDE_SRC_LO_ADDR F.BLN_SIDE_SRC_HI_ADDR
  space := s.fget F.BLN_SIDE_ADDR_SPACE
  read := s.flag F.BLN_SIDE_ADDR_READ
  addr := s.fget F.BLN_SIDE_ADDR_ADDRESS
  words := s.fget F.BLN_SIDE_COUNT_WORDS
  targets := if s.fget F.BLN_SIDE_COUNT_BEAM_LANE < 255 then [s.fget F.BLN_SIDE_COUNT_BEAM_LANE]
    else if s.fget F.BLN_SIDE_ADDR_SPACE = 0 then [255] else List.range 128
  donewords := 0
  flight := none
  abort := false
  tag := 0

/-- The first frame of a read job. -/
def firstRead (b : Nat) (j : SideJob) (s : State) : SideFlight where
  head := { space := j.space, read := true, beamLane := b, len := min 64 j.words, tag := s.bln.sideTag, address := j.addr }
  data := []
  tries := 0
  sentAt := s.clock
  lane := 0
  waiting := false

/-- The next tag. -/
def advanceTag (s : State) : State := { s with bln := { s.bln with sideTag := (s.bln.sideTag + 1) % 256 } }

theorem sideGoOp_of_valid {s : State} (h : s.bln.side = none) (hb : s.fget F.BLN_SIDE_COUNT_BEAM_LANE < 128)
    (hs : s.fget F.BLN_SIDE_ADDR_SPACE ≤ 2) (hn : 0 < s.fget F.BLN_SIDE_COUNT_WORDS)
    (ha : s.fget F.BLN_SIDE_ADDR_ADDRESS + s.fget F.BLN_SIDE_COUNT_WORDS ≤ sideWords (s.fget F.BLN_SIDE_ADDR_SPACE))
    (h8 : s.pair F.BLN_SIDE_SRC_LO_ADDR F.BLN_SIDE_SRC_HI_ADDR % 8 = 0) : sideGoOp s = sideNext (hostJob s) s := by
  have idle : ¬ s.bln.side.isSome = true := by simp [h]
  rw [sideGoOp, if_neg idle]
  refine if_neg ?_
  dsimp only
  omega

/-- The first frame of a read job whose target has a lane (R182, R185). -/
theorem sideNext_of_read {s : State} {j : SideJob} {b l : Nat} {bs : List Nat} (ht : j.targets = b :: bs) (ha : j.abort = false)
    (hw : j.wave = false) (hr : j.read = true) (hd : j.donewords = 0) (hl : s.sideLane b = some l) :
    sideNext j s = sendSide { firstRead b j s with lane := l } l j (advanceTag s) := by
  simp only [sideNext, ht, ha, hl, hw, hr, State.sideData, Bool.false_and, Bool.false_eq_true, if_false, if_true, hd, Nat.add_zero,
    Nat.sub_zero]
  rfl

theorem completes_sideGo {s : State} {l : Nat} (h : s.bln.side = none) (hb : s.fget F.BLN_SIDE_COUNT_BEAM_LANE < 128)
    (hs : s.fget F.BLN_SIDE_ADDR_SPACE ≤ 2) (hn : 0 < s.fget F.BLN_SIDE_COUNT_WORDS)
    (ha : s.fget F.BLN_SIDE_ADDR_ADDRESS + s.fget F.BLN_SIDE_COUNT_WORDS ≤ sideWords (s.fget F.BLN_SIDE_ADDR_SPACE))
    (h8 : s.pair F.BLN_SIDE_SRC_LO_ADDR F.BLN_SIDE_SRC_HI_ADDR % 8 = 0) (hr : s.flag F.BLN_SIDE_ADDR_READ = true)
    (hl : s.sideLane (s.fget F.BLN_SIDE_COUNT_BEAM_LANE) = some l) (hf : s.mem.flips = []) : Completes .sideGo s (fun t =>
      t.bln.side = some { hostJob s with flight := some { firstRead (s.fget F.BLN_SIDE_COUNT_BEAM_LANE) (hostJob s) s with
        lane := l, waiting := !s.sideSlot l } } ∧
      t.bln.sideTag = (s.bln.sideTag + 1) % 256 ∧ Frame [.bln] [R.BLN_LANE_INJECT l] s t) := by
  refine completes_of sideGoOp rfl ?_
  have target : (hostJob s.begin).targets = [s.fget F.BLN_SIDE_COUNT_BEAM_LANE] := if_pos (by show s.fget _ < 255; omega)
  have lane : s.begin.sideLane (s.fget F.BLN_SIDE_COUNT_BEAM_LANE) = some l := (State.sideLane_congr rfl rfl _).trans hl
  have slot : (advanceTag s.begin).sideSlot l = s.sideSlot l := State.sideSlot_congr rfl rfl rfl rfl rfl rfl l
  rw [sideGoOp_of_valid (s := s.begin) h hb hs hn ha h8, sideNext_of_read target rfl rfl hr rfl lane, settle_bln]
  obtain ⟨hside, htag, hframe⟩ := sendSide_spec
    { firstRead (s.fget F.BLN_SIDE_COUNT_BEAM_LANE) (hostJob s.begin) s.begin with lane := l } l (hostJob s.begin)
    (s := advanceTag s.begin) hf
  rw [slot] at hside
  exact ⟨hside, htag, Frame.settled _ ((Frame.setBln _ _ _ (.head _)).trans hframe)⟩

/-! ### SIDE_TIMEOUT (R185) -/

/-- An outstanding frame that may be sent again has its lane (R182, R185). -/
theorem sideTimeoutOp_of_try {s : State} {j : SideJob} {f : SideFlight} {l : Nat} (hj : s.bln.side = some j) (hf : j.flight = some f)
    (hw : f.waiting = false) (ht : f.tries < 3) (hl : s.sideLane f.head.beamLane = some l) :
    sideTimeoutOp s = sendSide { f with tries := f.tries + 1 } l j (s.until (f.sentAt + 1280000)) := by
  have lane : (s.until (f.sentAt + 20 * ticksPerUs)).sideLane f.head.beamLane = some l := (State.sideLane_congr rfl rfl _).trans hl
  simp only [sideTimeoutOp, hj, hf, hw, Bool.false_eq_true, if_false, sideAgain, if_pos ht, lane]
  rfl

theorem completes_sideTimeout {s : State} {j : SideJob} {f : SideFlight} {l : Nat} (hj : s.bln.side = some j) (hf : j.flight = some f)
    (hw : f.waiting = false) (hm : s.mem.flips = []) (ht : f.tries < 3) (hl : s.sideLane f.head.beamLane = some l) :
    Completes .sideTimeout s (fun t =>
      (∃ i g, t.bln.side = some i ∧ i.flight = some g ∧ g.tries = f.tries + 1 ∧ g.head = f.head ∧ g.lane = l) ∧
      t.clock = max s.clock (f.sentAt + 1280000) ∧ Frame [.clock, .bln] [R.BLN_LANE_INJECT l] s t) := by
  refine completes_of sideTimeoutOp rfl ?_
  have lane : s.begin.sideLane f.head.beamLane = some l := (State.sideLane_congr rfl rfl _).trans hl
  rw [sideTimeoutOp_of_try (s := s.begin) hj hf hw ht lane, settle_bln, settle_clock]
  obtain ⟨hside, -, hframe⟩ := sendSide_spec { f with tries := f.tries + 1 } l j (s := s.begin.until (f.sentAt + 1280000)) hm
  exact ⟨⟨_, _, hside, rfl, rfl, rfl, rfl⟩, hframe.1 .clock (by decide),
    Frame.settled _ ((Frame.until _ _ _ (.head _)).trans (hframe.mono (by simp) (fun _ h => h)))⟩

/-! ### The end of a host's job (R185, R300) -/

/-- The fields of a host's result: CODE and BEAM_LANE, and the address. -/
def sideFields (code beam addr : Nat) : List (Nat × Word) :=
  [(R.BLN_SIDE_RESULT, BitVec.ofNat 32 (code * 2 ^ 4 + beam % 256 * 2 ^ 8)), (R.BLN_SIDE_RESULT_AT, BitVec.ofNat 32 (addr % 2 ^ 21))]

/-- No job is left. -/
def endJob (s : State) : State := { s with bln := { s.bln with side := none } }

/-- A host's job ends with its result posted, reported where the block had room for it. -/
theorem sideEnd_of_host {j : SideJob} (hw : j.wave = false) (code beam addr : Nat) (s : State) : ∃ b, sideEnd code beam addr j s =
    State.raiseIf b F.BLN_EVENTS_SIDE_DONE ((endJob s).setResult R.BLN_SIDE_RESULT
      (postBlock (s.result R.BLN_SIDE_RESULT) (sideFields code beam addr)).2) := by
  refine ⟨!(postBlock (s.result R.BLN_SIDE_RESULT) (sideFields code beam addr)).1, ?_⟩
  unfold sideEnd
  simp only [hw, Bool.false_eq_true, if_false]
  split
  next lost =>
    have full : (postBlock (s.result R.BLN_SIDE_RESULT) (sideFields code beam addr)).1 = true := lost
    rw [full]
    rfl
  next kept =>
    have room : (postBlock (s.result R.BLN_SIDE_RESULT) (sideFields code beam addr)).1 = false := Bool.not_eq_true _ ▸ kept
    rw [room]
    rfl

/-- What the end of a host's job leaves. -/
theorem sideEnd_spec {j : SideJob} (hw : j.wave = false) (code beam addr : Nat) (s : State) :
    let t := sideEnd code beam addr j s
    t.bln = { s.bln with side := none } ∧
      t.result R.BLN_SIDE_RESULT = (postBlock (s.result R.BLN_SIDE_RESULT) (sideFields code beam addr)).2 ∧
      Frame [.bln, .results] [R.BLN_EVENTS] s t := by
  obtain ⟨b, h⟩ := sideEnd_of_host hw code beam addr s
  intro t
  simp only [t, h]
  have posted (rs : List Nat) (u : State) (r : ResultBlock) :
      Frame [.bln, .results] rs u ((endJob u).setResult R.BLN_SIDE_RESULT r) :=
    (Frame.setBln _ _ _ (.head _)).trans ((frame_setResult _ _ _ _).mono (by simp) (fun _ m => m))
  exact ⟨State.raiseIf_bln _ _ _, (State.result_congr (State.raiseIf_results _ _ _) _).trans (State.result_setResult_self _ _ _),
    (posted _ _ _).trans (Frame.raiseIf _ _ _ _ _ (.head _))⟩

/-! ### SIDE_ABORT (R185) -/

/-- A job whose frame is outstanding is marked. -/
theorem completes_sideAbort_flying {s : State} {j : SideJob} {f : SideFlight} (hj : s.bln.side = some j) (hw : j.wave = false)
    (hf : j.flight = some f) (ho : f.waiting = false) : Completes .sideAbort s (fun t =>
      t.bln = { s.bln with side := some { j with abort := true } } ∧ Frame [.bln] [] s t) := by
  refine completes_of sideAbortOp rfl ?_
  have marked : sideAbortOp s.begin = { s.begin with bln := { s.bln with side := some { j with abort := true } } } := by
    simp [sideAbortOp, hj, hw, hf, ho]
  rw [marked, settle_bln]
  exact ⟨rfl, Frame.settled _ (Frame.setBln _ _ _ (.head _))⟩

/-- A job whose frame still waits ends with ABORTED. -/
theorem completes_sideAbort_waiting {s : State} {j : SideJob} {f : SideFlight} {b : Nat} {bs : List Nat} (hj : s.bln.side = some j)
    (hw : j.wave = false) (hf : j.flight = some f) (ho : f.waiting = true) (ht : j.targets = b :: bs) : Completes .sideAbort s (fun t =>
      t.bln = { s.bln with side := none } ∧
      t.result R.BLN_SIDE_RESULT = (postBlock (s.result R.BLN_SIDE_RESULT) (sideFields 8 b (j.addr + j.donewords))).2 ∧
      Frame [.bln, .results] [R.BLN_EVENTS] s t) := by
  refine completes_of sideAbortOp rfl ?_
  have ended : sideAbortOp s.begin = sideEnd 8 b (j.addr + j.donewords) { j with abort := true, flight := none } s.begin := by
    simp [sideAbortOp, sideNext, hj, hw, hf, ho, ht]
  obtain ⟨hbln, hres, hframe⟩ := sideEnd_spec (j := { j with abort := true, flight := none }) hw 8 b (j.addr + j.donewords) s.begin
  rw [ended, settle_bln, result_settled]
  exact ⟨hbln, hres, Frame.settled _ hframe⟩

/-! ### SIDE_RESPONSE (R184, R185) -/

/-- The good response to the last frame of a write job ends the job. -/
theorem sideResponseOp_of_last {s : State} {k : Nat} {j : SideJob} {f : SideFlight} {ws data : List DWord}
    (h : s.fget (F.BLN_ECHO_STATUS_STATE k) = 2) (hj : s.bln.side = some j) (hf : j.flight = some f) (ho : f.waiting = false)
    (hr : f.head.read = false) (hx : sideResponse ws = some (f.head.tag, f.head.beamLane, 0, data))
    (hn : j.words ≤ j.donewords + f.head.len) (ht : j.targets.length ≤ 1) : sideResponseOp k ws s = sideEnd 0 0 0 j (thaw k s) := by
  have side : (thaw k s).bln.side = some j := hj
  have last : j.targets.tail = [] := List.eq_nil_of_length_eq_zero (by rw [List.length_tail]; omega)
  simp only [sideResponseOp, thaw_state, h, hx, side, hf, ho, hr, last, ne_eq, not_true, if_false, if_true, Bool.false_eq_true, false_and,
    or_self, if_neg (Nat.not_lt.mpr hn)]

theorem completes_sideResponse_last {s : State} {k : Nat} {j : SideJob} {f : SideFlight} {ws data : List DWord} (hk : k < 4)
    (h : s.fget (F.BLN_ECHO_STATUS_STATE k) = 2) (hj : s.bln.side = some j) (hw : j.wave = false) (hf : j.flight = some f)
    (ho : f.waiting = false) (hr : f.head.read = false) (hx : sideResponse ws = some (f.head.tag, f.head.beamLane, 0, data))
    (hn : j.words ≤ j.donewords + f.head.len) (ht : j.targets.length ≤ 1) : Completes (.sideResponse k ws) s (fun t =>
      t.bln.side = none ∧
      t.result R.BLN_SIDE_RESULT = (postBlock (s.result R.BLN_SIDE_RESULT) [(R.BLN_SIDE_RESULT, 0#32), (R.BLN_SIDE_RESULT_AT, 0#32)]).2 ∧
      Frame [.bln, .results] [R.BLN_EVENTS, R.BLN_ECHO_STATUS k] s t) := by
  refine completes_of_wf (sideResponseOp k ws) rfl (decide_eq_true hk) ?_
  obtain ⟨hbln, hres, hframe⟩ := sideEnd_spec hw 0 0 0 (thaw k s.begin)
  rw [sideResponseOp_of_last (s := s.begin) h hj hf ho hr hx hn ht, settle_bln, result_settled, hbln]
  exact ⟨rfl, hres, Frame.settled _ ((frame_thaw _ _ _ (.tail _ (.head _))).trans (hframe.mono (fun _ m => m) (by simp)))⟩

/-- Settles O37: a frame goes out by one operation, a job ends by another, and each command leads to one of them. -/
theorem sideJobs : Obligations.SideJobs := by
  unfold Obligations.SideJobs
  intro s k l hk
  refine ⟨?_, ?_, ?_, ?_, ?_⟩
  · intro beam n a sp hj hb hs hn ha h8 hr hl hm
    exact (completes_sideGo hj hb hs hn ha h8 hr hl hm).mono (fun t ⟨hside, htag, hframe⟩ =>
      ⟨⟨_, _, hside, rfl, rfl, rfl, rfl, rfl, rfl, rfl, rfl, rfl, rfl, rfl, rfl⟩, htag, hframe⟩)
  · intro j f hj hw hf ho
    exact completes_sideAbort_flying hj hw hf ho
  · intro j f b bs hj hw hf ho ht
    exact completes_sideAbort_waiting hj hw hf ho ht
  · intro j f ws data h hj hw hf ho hr hx hn ht
    exact completes_sideResponse_last hk h hj hw hf ho hr hx hn ht
  · intro j f hj hf ho hm ht hl
    exact completes_sideTimeout hj hf ho hm ht hl

end Sys2Proof.Machine
end

section
/-! SUPPORT. Halts (R220, R231, R236 to R239): what the packets, the broadcast and the token of one leave alone (R357, R365, R366), what the
halt itself changes, and what a request of one leaves. -/

namespace Sys2Proof.Machine

/-! ### Fields and parts -/

/-- A field of a register that no frame lists, nor is one that recording writes. -/
theorem Frame.fget {ps : List Part} {rs : List Nat} {s t : State} (h : Frame ps rs s t) (f : Fld) (ha : f.addr ∉ rs)
    (hr : recorderReg f.addr = false) : t.fget f = s.fget f := by
  simp only [State.fget, h.2 f.addr ha hr]

theorem Frame.flag {ps : List Part} {rs : List Nat} {s t : State} (h : Frame ps rs s t) (f : Fld) (ha : f.addr ∉ rs)
    (hr : recorderReg f.addr = false) : t.flag f = s.flag f := by
  simp only [State.flag, h.fget f ha hr]

/-- The safety controller's part replaced. -/
theorem frame_setSaf (rs : List Nat) (s : State) (x : Safety) : Frame [.saf] rs s { s with saf := x } :=
  Frame.parts _ _ _ _ rfl (fun p hp => by cases p <;> simp_all [Part.same])

/-- The cox's part replaced. -/
theorem frame_setCox (rs : List Nat) (s : State) (x : CoxPart) : Frame [.cox] rs s { s with cox := x } :=
  Frame.parts _ _ _ _ rfl (fun p hp => by cases p <;> simp_all [Part.same])

/-! ### Strait packets (R355, R357, R365, R366) -/

theorem frame_returnSlot (ps : List Part) (rs : List Nat) (owed : Option (Nat × Nat)) (s : State) : Frame ps rs s (returnSlot owed s) := by
  unfold returnSlot
  split
  · split
    · exact Frame.emit _ _ _ _
    · exact Frame.refl _ _ s
  · exact Frame.refl _ _ s

theorem frame_pumpLink (rs : List Nat) (k n : Nat) (s : State) : Frame [.str] rs s (pumpLink k n s) := by
  induction n generalizing s with
  | zero => exact Frame.refl _ _ s
  | succ n ih =>
    unfold pumpLink
    dsimp only
    split
    · split
      · exact Frame.refl _ _ s
      · exact (((Frame.setLink _ _ _ _ (.head _)).trans (Frame.emit _ _ _ _)).trans (frame_returnSlot _ _ _ _)).trans (ih _)
    · exact Frame.refl _ _ s

/-- The registers that packets and tokens write. -/
def straitRegs : List Nat := [R.STR_DROPS, R.STR_STATUS]

theorem frame_sendOn (k : Nat) (p : Packet) (s : State) : Frame [.str] straitRegs s (sendOn k p s) := by
  unfold sendOn
  split
  · exact (Frame.setLink _ _ _ _ (.head _)).trans (frame_pumpLink _ _ _ _)
  · exact (Frame.bump _ _ _ F.STR_DROPS_COUNT (.head _)).trans (frame_returnSlot _ _ _ _)

theorem frame_setStr (rs : List Nat) (s : State) (x : Straits) : Frame [.str] rs s { s with str := x } :=
  Frame.parts _ _ _ _ rfl (fun p hp => by cases p <;> simp_all [Part.same])

/-- The next SEQ of a packet taken. -/
theorem frame_nextSeq (rs : List Nat) (typ : Nat) (s : State) : Frame [.str] rs s (s.nextSeq typ).2 := frame_setStr _ _ _

theorem frame_courseEvent (event stroke cause : Nat) (s : State) : Frame [.str] straitRegs s (courseEvent event stroke cause s) := by
  unfold courseEvent
  split
  · exact (frame_nextSeq _ 2 s).trans (Frame.foldl _ _ (fun t lv _ => frame_sendOn _ _ t) _)
  · exact Frame.refl _ _ s

theorem frame_stopToken (stroke cause : Nat) (s : State) : Frame [.str] straitRegs s (stopToken stroke cause s) := by
  unfold stopToken
  split
  · refine (((frame_nextSeq _ 4 s).trans (Frame.foldl _ _ (fun t k _ => ?_) _)).trans (Frame.clear _ _ _ F.STR_STATUS_RESUME_FIXED (by decide))).trans
      (frame_setStr _ _ _)
    exact Frame.ite _ (fun _ => Frame.refl _ _ t) (fun _ => frame_sendOn _ _ t)
  · exact Frame.refl _ _ s

/-! ### The halt itself (R220, R231, R244, R248) -/

/-- The registers of the causes, the event and the counts of a halt. -/
def causeRegs : List Nat := [R.STK_HALT_CAUSE, R.STK_EVENTS, R.COX_RECATCHES]

/-- The registers that a halt writes before it is announced. -/
def haltRegs : List Nat := R.COX_REASON :: R.STK_HALT_AT :: causeRegs

/-- The parts and blocks that its journal record, its broadcast and its token change (R292, R365, R366). -/
def announceParts : List Part := [.hbm, .keel, .mem, .banks, .crw, .str]

def announceBlocks : List Nat := [0x09, 0x0A, 0x0E, 0x0F, 0x15, 0x16]

/-- A halt of cause c at stroke m, before it is announced. -/
structure HaltSet (m c : Nat) (s u : State) : Prop where
  frame : Frame [.bln, .stk, .cox] haltRegs s u
  halted : u.stk.halted = true
  resume : u.cox.resume = m
  stroke : u.fget F.STK_HALT_AT_STROKE = m % 2 ^ 25
  first : u.fget F.STK_HALT_CAUSE_FIRST = c % 16
  reason : c = 8 → u.reg R.COX_REASON = s.reg R.COX_REASON

/-- What announces a halt: its journal record, its broadcast, and its token unless a token asked for it. -/
theorem blockFrame_announce (b : Bool) (m c kind q3 q4 : Nat) (ids : Nat × Nat) (injected : Bool) (s : State) :
    BlockFrame announceParts announceBlocks s (if b then courseEvent 2 m c (journal kind ids q3 q4 injected s) else
      stopToken m c (courseEvent 2 m c (journal kind ids q3 q4 injected s))) := by
  have strait {u v : State} (h : Frame [.str] straitRegs u v) : BlockFrame announceParts announceBlocks u v :=
    (BlockFrame.of_frame h (bs := announceBlocks) (by decide)).mono (by decide) (fun _ m => m)
  have told := ((blockFrame_journal kind ids q3 q4 injected s).mono (qs := announceParts) (cs := announceBlocks) (by decide) (by decide)).trans
    (strait (frame_courseEvent 2 m c _))
  split
  · exact told
  · exact told.trans (strait (frame_stopToken m c _))

/-- A new halt in the registers: its stroke, its first cause and its causes, its event, and the counts of re-catches (R220, R231, R248). -/
def haltShown (m c same : Nat) (s : State) : State :=
  let s1 := (s.setReg R.STK_HALT_AT (BitVec.ofNat 32 (m % 2 ^ 25 + 2 ^ 31))).fset F.STK_HALT_CAUSE_FIRST c
  let s2 := ((s1.fset F.STK_HALT_CAUSE_CAUSES 0).raise (causeBit c)).raise F.STK_EVENTS_HALT
  (s2.bump F.COX_RECATCHES_IN_COURSE).fset F.COX_RECATCHES_SAME same

theorem frame_haltShown (m c same : Nat) (s : State) :
    Frame [] causeRegs (s.setReg R.STK_HALT_AT (BitVec.ofNat 32 (m % 2 ^ 25 + 2 ^ 31))) (haltShown m c same s) := by
  have written (f : Fld) (v : Nat) (u : State) (hf : f.addr ∈ causeRegs) : Frame [] causeRegs u (u.fset f v) := Frame.fset _ _ u f v hf
  exact (((((written F.STK_HALT_CAUSE_FIRST c _ (by decide)).trans (written F.STK_HALT_CAUSE_CAUSES 0 _ (by decide))).trans
    (written (causeBit c) _ _ (by simp [causeBit, causeRegs]))).trans (written F.STK_EVENTS_HALT _ _ (by decide))).trans
      (written F.COX_RECATCHES_IN_COURSE _ _ (by decide))).trans (written F.COX_RECATCHES_SAME _ _ (by decide))

theorem fget_haltShown (m c same : Nat) (s : State) :
    (haltShown m c same s).fget F.STK_HALT_AT_STROKE = m % 2 ^ 25 ∧ (haltShown m c same s).fget F.STK_HALT_CAUSE_FIRST = c % 16 := by
  constructor
  · rw [(frame_haltShown m c same s).fget _ (by decide) (by decide)]
    refine (State.fget_setReg_self s F.STK_HALT_AT_STROKE _).trans ?_
    simp only [fieldOf, F.STK_HALT_AT_STROKE, BitVec.toNat_ofNat]
    omega
  · have apart (f : Fld) (v : Nat) (u : State)
        (hd : F.STK_HALT_CAUSE_FIRST.addr ≠ f.addr ∨ 4 ≤ f.lo) : (u.fset f v).fget F.STK_HALT_CAUSE_FIRST = u.fget F.STK_HALT_CAUSE_FIRST :=
      State.fget_fset_other u f F.STK_HALT_CAUSE_FIRST v (hd.imp id .inl)
    calc (haltShown m c same s).fget F.STK_HALT_CAUSE_FIRST
        = ((s.setReg R.STK_HALT_AT (BitVec.ofNat 32 (m % 2 ^ 25 + 2 ^ 31))).fset F.STK_HALT_CAUSE_FIRST c).fget F.STK_HALT_CAUSE_FIRST := by
          simp only [haltShown, State.bump, State.add, State.raise]
          rw [apart F.COX_RECATCHES_SAME _ _ (by decide), apart F.COX_RECATCHES_IN_COURSE _ _ (by decide),
            apart F.STK_EVENTS_HALT _ _ (by decide), apart (causeBit c) _ _ (.inr (by simp [causeBit]; omega)),
            apart F.STK_HALT_CAUSE_CAUSES _ _ (by decide)]
      _ = c % 16 := State.fget_fset_self _ F.STK_HALT_CAUSE_FIRST c (by decide)

/-- The parts of a halt put in place. -/
def withHalt (k : Strokes) (x : CoxPart) (b : Lanes) (s : State) : State := { s with stk := k, cox := x, bln := b }

theorem frame_withHalt (rs : List Nat) (k : Strokes) (x : CoxPart) (b : Lanes) (s : State) :
    Frame [.bln, .stk, .cox] rs s (withHalt k x b s) :=
  Frame.parts _ _ _ _ rfl (fun p hp => by cases p <;> simp_all [Part.same, withHalt])

theorem haltSet_withHalt {m c : Nat} {s r : State} {k : Strokes} {x : CoxPart} (same : Nat) (b : Lanes) (hk : k.halted = true)
    (hx : x.resume = m) (hr : r = if [c].contains 8 then s else s.setReg R.COX_REASON 0#32) :
    HaltSet m c s (withHalt k x b (haltShown m c same r)) := by
  obtain ⟨hstroke, hfirst⟩ := fget_haltShown m c same r
  have shown := frame_haltShown m c same r
  have reasons : Frame [] haltRegs s r := by
    rw [hr]
    exact Frame.ite _ (fun _ => Frame.refl _ _ s) (fun _ => Frame.setReg _ _ _ R.COX_REASON _ (by decide))
  have part := frame_withHalt [] k x b (haltShown m c same r)
  refine ⟨?_, hk, hx, (part.fget _ (by decide) (by decide)).trans hstroke, (part.fget _ (by decide) (by decide)).trans hfirst, ?_⟩
  · exact (((reasons.trans (Frame.setReg _ _ _ R.STK_HALT_AT _ (by decide))).trans (shown.mono (by simp) (by decide))).mono (by simp)
      (fun _ h => h)).trans (frame_withHalt _ _ _ _ _)
  · rintro rfl
    rw [part.2 _ (by decide) (by decide), shown.2 _ (by decide) (by decide),
      State.reg_setReg_ne _ _ _ _ (by decide), hr, if_pos (by decide)]

/-- A new halt is set, and then announced. -/
theorem setHalt_of_unhalted {s : State} (h : s.stk.halted = false) (m c : Nat) (start : Int) (injected : Bool) :
    ∃ u, HaltSet m c s u ∧ BlockFrame announceParts announceBlocks u (setHalt m c start injected s) := by
  unfold setHalt setHaltAll
  rw [if_neg (by simp [h])]
  extract_lets first same s0 s1 s2 s3 _ _ _ s4 causes s5 s6
  have announced : BlockFrame announceParts announceBlocks s4 (if [c].contains 12 && first == 12 then s6 else stopToken m first s6) :=
    blockFrame_announce _ _ _ _ _ _ _ _ s4
  exact ⟨withHalt s4.stk s4.cox s4.bln (haltShown m c (min same 255) s0), haltSet_withHalt _ _ rfl rfl rfl, announced⟩

/-- A halt in force gains a cause (R231). -/
theorem frame_setHalt_of_halted {s : State} (h : s.stk.halted = true) (m c : Nat) (start : Int) (injected : Bool) :
    Frame [] [R.STK_HALT_CAUSE] s (setHalt m c start injected s) := by
  unfold setHalt setHaltAll
  rw [if_pos h]
  refine Frame.trans ?_ (Frame.raise _ _ _ (causeBit c) (.head _))
  exact Frame.ite _ (fun _ => Frame.fset _ _ _ F.STK_HALT_CAUSE_FIRST _ (.head _)) (fun _ => Frame.refl _ _ s)

/-! ### A halt requested (R220, R238) -/

/-- The parts and blocks of a halt. -/
def haltParts : List Part := [.bln, .stk, .cox, .hbm, .mem, .keel, .banks, .crw, .str]

def haltBlocks : List Nat := [0x09, 0x0A, 0x0E, 0x0F, 0x12, 0x13, 0x15, 0x16]

/-- What a halt leaves: the parts and blocks not listed, and of the cox's own block its CTL. -/
def HaltFrame (s t : State) : Prop := BlockFrame haltParts haltBlocks s t ∧ t.reg R.COX_CTL = s.reg R.COX_CTL

theorem HaltFrame.of_frame {ps : List Part} {rs : List Nat} {s t : State} (h : Frame ps rs s t) (hp : ∀ p ∈ ps, p ∈ haltParts)
    (hr : ∀ a ∈ rs, a / 65536 ∈ haltBlocks) (hc : R.COX_CTL ∉ rs) : HaltFrame s t :=
  ⟨(BlockFrame.of_frame h hr).mono hp (fun _ m => m), h.2 _ hc (by decide)⟩

theorem HaltFrame.trans {s t u : State} (h : HaltFrame s t) (k : HaltFrame t u) : HaltFrame s u := ⟨h.1.trans k.1, k.2.trans h.2⟩

theorem haltFrame_setHalt (m c : Nat) (start : Int) (injected : Bool) (s : State) : HaltFrame s (setHalt m c start injected s) := by
  cases h : s.stk.halted with
  | true => exact HaltFrame.of_frame (frame_setHalt_of_halted h m c start injected) (by simp) (by decide) (by decide)
  | false =>
    obtain ⟨u, hset, hannounced⟩ := setHalt_of_unhalted h m c start injected
    exact (HaltFrame.of_frame hset.frame (by decide) (by decide) (by decide)).trans
      ⟨hannounced.mono (by decide) (by decide), hannounced.2 _ (by decide) (by decide)⟩

/-- The instant of the halt's catch kept (R198). -/
def keepCatch (t : Int) (s : State) : State := { s with bln := { s.bln with haltCatch := some t } }

theorem haltFrame_keepCatch (t : Int) (s : State) : HaltFrame s (keepCatch t s) :=
  HaltFrame.of_frame (Frame.setBln [] s _ (ps := [.bln]) (.head _)) (by decide) (by simp) (by simp)

theorem requestHalt_of_uncommitted {s : State} (hh : s.haltable = true) (hs : s.stk.halted = false) (hn : s.stk.next ≤ s.lastStroke)
    (c : Nat) (injected : Bool) : requestHalt c injected s = keepCatch s.rtime (setHalt s.stk.next c s.clock injected s) := by
  simp [requestHalt, hh, hs, hn, keepCatch]

theorem haltFrame_requestHalt (c : Nat) (injected : Bool) (s : State) : HaltFrame s (requestHalt c injected s) := by
  have same : HaltFrame s s := HaltFrame.of_frame (Frame.refl [] [] s) (by simp) (by simp) (by simp)
  unfold requestHalt
  split
  · exact same
  · split
    · exact haltFrame_setHalt _ _ _ _ s
    · split
      · exact (haltFrame_setHalt _ _ _ _ s).trans (haltFrame_keepCatch _ _)
      · exact same

/-! ### The cox's reasons (R236, R244) -/

/-- A reason is a bit of COX_REASON, shown with VALID and HALT_REQ. -/
theorem frame_setReasons (ps : List Part) (rs : List Nat) (s : State) : Frame ps [R.COX_REASON, R.COX_EVENTS] s (setReasons rs s) := by
  unfold setReasons
  split
  · exact Frame.refl _ _ s
  · refine (((Frame.ite _ (fun _ => Frame.refl _ _ s) (fun _ => Frame.fset _ _ _ F.COX_REASON_REASONS 0 (by decide))).trans
      (Frame.foldl _ _ (fun t r _ => Frame.raise _ _ t (.mk R.COX_REASON r 1) (.head _)) _)).trans
        (Frame.raise _ _ _ F.COX_REASON_VALID (by decide))).trans (Frame.raise _ _ _ F.COX_EVENTS_HALT_REQ (by decide))

theorem bitAt_eq_testBit (i n : Nat) : bitAt i n = n.testBit i := by
  rw [Nat.testBit_eq_decide_div_mod_eq]
  rfl

/-- A bit of a field that begins at bit 0 is the field of that bit alone. -/
theorem bitAt_fieldOf_zero {w r : Nat} (h : r < w) (x : Word) : bitAt r (fieldOf 0 w x) = (fieldOf r 1 x != 0) := by
  have low : bitAt r (fieldOf 0 w x) = bitAt r x.toNat := by simp [bitAt_eq_testBit, fieldOf_testBit, h]
  rw [low, bitAt, fieldOf]
  rcases Nat.mod_two_eq_zero_or_one (x.toNat / 2 ^ r) with even | odd
  · simp [even]
  · simp [odd]

/-- The bit of a single reason reads 1. -/
theorem reason_setReasons {r : Nat} (hr : r < 5) (s : State) : bitAt r ((setReasons [r] s).fget F.COX_REASON_REASONS) = true := by
  obtain ⟨u, hu⟩ : ∃ u : State, setReasons [r] s = ((u.raise (.mk R.COX_REASON r 1)).raise F.COX_REASON_VALID).raise F.COX_EVENTS_HALT_REQ :=
    ⟨_, rfl⟩
  have raised : (setReasons [r] s).flag (.mk R.COX_REASON r 1) = true := by
    rw [hu, State.raise, State.flag_fset_other _ _ _ _ (.inl (by decide : R.COX_REASON ≠ R.COX_EVENTS)), State.raise,
      State.flag_fset_other _ _ _ _ (.inr (.inl (by show r + 1 ≤ 31; omega)))]
    exact State.flag_raise_self u (.mk R.COX_REASON r 1) (by show r + 1 ≤ 32; omega) (by simp)
  exact (bitAt_fieldOf_zero hr _).trans raised

/-- A halt that the cox requests. -/
theorem haltFrame_coxRequest (r : Nat) (s : State) : HaltFrame s (coxRequest r s) :=
  (HaltFrame.of_frame (frame_setReasons [] [r] s) (by simp) (by decide) (by decide)).trans (haltFrame_requestHalt 8 false _)

end Sys2Proof.Machine
end

section
/-! SUPPORT. The early end of a course and its abandonment, block by block of BAR0 (R54, R249, R301, R302), and the inhibit lines (R388). -/

namespace Sys2Proof.Machine

/-! ### The inhibit lines -/

theorem frame_driveLines (ps : List Part) {rs : List Nat} (a b : Bool) (s : State) (h : R.SAF_STATUS ∈ rs) : Frame ps rs s (driveLines a b s) := by
  unfold driveLines
  dsimp only
  refine (Frame.ite (t := s) _ (fun _ => Frame.refl _ _ _) (fun _ => ?_)).trans (Frame.ite _ (fun _ => Frame.refl _ _ _) (fun _ => ?_))
  · exact (Frame.fset _ _ _ F.SAF_STATUS_LINE_A _ h).trans (Frame.emit _ _ _ _)
  · exact (Frame.fset _ _ _ F.SAF_STATUS_LINE_B _ h).trans (Frame.emit _ _ _ _)

/-- One line driven: it shows the level, and a field of SAF_STATUS apart from it stays. -/
theorem driveLine_spec (lo : Nat) (hlo : lo < 32) (b : Bool) (o : Output) (s : State) :
    let t := if s.flag ⟨R.SAF_STATUS, lo, 1⟩ == b then s else (s.fset ⟨R.SAF_STATUS, lo, 1⟩ (bitOf b)).emit o
    t.flag ⟨R.SAF_STATUS, lo, 1⟩ = b ∧ ∀ f : Fld, f.lo + f.width ≤ lo ∨ lo + 1 ≤ f.lo → t.flag f = s.flag f := by
  dsimp only
  split
  next same => exact ⟨by simpa using same, fun _ _ => rfl⟩
  next => exact ⟨State.flag_fset_bitOf s R.SAF_STATUS lo b hlo, fun f hf => State.flag_fset_other s ⟨R.SAF_STATUS, lo, 1⟩ f _ (.inr hf)⟩

/-- Both lines show their levels, and the permit stays. -/
theorem flag_driveLines (a b : Bool) (s : State) :
    (driveLines a b s).flag F.SAF_STATUS_LINE_A = a ∧ (driveLines a b s).flag F.SAF_STATUS_LINE_B = b ∧
      (driveLines a b s).flag F.SAF_STATUS_BEAM_PERMIT = s.flag F.SAF_STATUS_BEAM_PERMIT := by
  obtain ⟨hA, apartA⟩ := driveLine_spec 1 (by decide) a (.inhibit false a) s
  obtain ⟨hB, apartB⟩ := driveLine_spec 2 (by decide) b (.inhibit true b)
    (if s.flag F.SAF_STATUS_LINE_A == a then s else (s.fset F.SAF_STATUS_LINE_A (bitOf a)).emit (.inhibit false a))
  exact ⟨(apartB F.SAF_STATUS_LINE_A (by decide)).trans hA, hB,
    (apartB F.SAF_STATUS_BEAM_PERMIT (by decide)).trans (apartA F.SAF_STATUS_BEAM_PERMIT (by decide))⟩

/-! ### The early end of a course -/

/-- The parts and blocks that the end of a course changes. -/
def endParts : List Part := [.queue, .ras, .bsx, .crw, .bln, .stk, .cox, .int, .results, .hbm, .keel, .mem, .banks, .str]

def endBlocks : List Nat := [0x09, 0x0A, 0x0E, 0x0F, 0x10, 0x15, 0x16]

theorem blockFrame_postCourseResult (o : Nat) (e : Entry) (s : State) :
    BlockFrame endParts endBlocks s (postCourseResult o e s) := by
  unfold postCourseResult
  extract_lets
  refine BlockFrame.trans ?_ ((blockFrame_journal _ _ _ _ _ _).mono (by decide) (by decide))
  refine (BlockFrame.trans ?_ (BlockFrame.raise _ _ F.INT_EVENTS_RESULT (by decide))).trans (BlockFrame.raiseIf _ _ _ F.INT_EVENTS_RESULT_OVERRUN (by decide))
  exact BlockFrame.parts ((frame_setResult _ _ _ _).mono (by decide) (fun _ m => m))

/-- Parts alone replaced by the end of a course. -/
theorem blockFrame_endParts {s t : State} (hr : t.regs = s.regs) (h : ∀ p, p ∉ endParts → p.same s t) : BlockFrame endParts endBlocks s t :=
  BlockFrame.parts (Frame.parts _ _ _ _ hr h)

theorem blockFrame_courseEvent (event stroke cause : Nat) (s : State) : BlockFrame endParts endBlocks s (courseEvent event stroke cause s) :=
  (BlockFrame.of_frame (frame_courseEvent event stroke cause s) (bs := endBlocks) (by decide)).mono (by decide) (fun _ m => m)

theorem blockFrame_tryFinish (s : State) : BlockFrame endParts endBlocks s (tryFinish s) := by
  unfold tryFinish
  split
  · split
    · refine ((blockFrame_postCourseResult _ _ s).trans (blockFrame_courseEvent _ _ _ _)).trans (blockFrame_endParts rfl (fun p hp => ?_))
      cases p <;> simp_all [Part.same, endParts]
    · exact BlockFrame.refl _ _ s
  · exact BlockFrame.refl _ _ s

theorem blockFrame_dropCourseLoss (s : State) : BlockFrame endParts endBlocks s (dropCourseLoss s) := by
  unfold dropCourseLoss
  dsimp only
  split
  · split <;> exact blockFrame_endParts rfl (fun p hp => by cases p <;> simp_all [Part.same, endParts])
  · exact blockFrame_endParts rfl (fun p hp => by cases p <;> simp_all [Part.same, endParts])

theorem blockFrame_stopWork (s : State) : BlockFrame endParts endBlocks s (stopWork s) := by
  refine (((blockFrame_dropCourseLoss s).trans (BlockFrame.fset _ _ F.DOS_STATUS_BSX_WAIT 0 (by decide))).trans
    (BlockFrame.fset _ _ F.WAK_STATUS_STALLED 0 (by decide))).trans (blockFrame_endParts rfl (fun p hp => ?_))
  cases p <;> simp_all [Part.same, endParts, stopWork]

/-- The ending of a course kept until its last stroke is out (R54, R249). -/
def keepEnding (o : Nat) (fail : Option AdmitFail) (s : State) : State :=
  { s with stk := { s.stk with pred := none }, cox := { s.cox with ending := some (o, fail) } }

theorem blockFrame_keepEnding (o : Nat) (fail : Option AdmitFail) (s : State) : BlockFrame endParts endBlocks s (keepEnding o fail s) :=
  blockFrame_endParts rfl (fun p hp => by cases p <;> simp_all [Part.same, endParts, keepEnding])

theorem blockFrame_endEarly (o : Nat) (fail : Option AdmitFail) (s : State) : BlockFrame endParts endBlocks s (endEarly o fail s) := by
  unfold endEarly
  split
  · exact BlockFrame.refl _ _ s
  · exact ((blockFrame_stopWork s).trans (blockFrame_keepEnding o fail _)).trans (blockFrame_tryFinish _)

/-! ### The abandonment of a course (R249) -/

theorem frame_setAxis (rs : List Nat) (s : State) (a : Nat) (x : Axis) : Frame [.mot] rs s (s.setAxis a x) := by
  unfold State.setAxis
  split <;> exact Frame.parts _ _ _ _ rfl (fun p hp => by cases p <;> simp_all [Part.same])

/-- A stop writes the axis and its STATUS (R259). -/
theorem frame_stopAxis (a : Nat) (o : AxisOrder) (s : State) : Frame [.mot] [R.MOT_AX_STATUS a] s (stopAxis a o s) := by
  unfold stopAxis moveState setAxisState
  dsimp only
  refine (frame_setAxis _ s a _).trans (Frame.ite _ (fun _ => Frame.ite _ (fun _ => Frame.refl _ _ _) (fun _ => ?_)) (fun _ => Frame.refl _ _ _))
  exact Frame.fset _ _ _ (F.MOT_AX_STATUS_STATE a) 5 (.head _)

/-- An abandonment shown: its reason, VALID and the event. -/
def abandonShown (r : Nat) (s : State) : State := ((s.fset F.COX_ABANDON_REASON r).raise F.COX_ABANDON_VALID).raise F.COX_EVENTS_ABANDONED

/-- What an abandonment shows, and an event of the cox apart from ABANDONED. -/
theorem abandonShown_spec {r : Nat} (h8 : r < 8) (s : State) :
    (abandonShown r s).fget F.COX_ABANDON_REASON = r ∧ (abandonShown r s).flag F.COX_ABANDON_VALID = true ∧
      (abandonShown r s).flag F.COX_EVENTS_ABANDONED = true ∧
      (abandonShown r s).flag F.COX_EVENTS_PAUSE_LIMIT = s.flag F.COX_EVENTS_PAUSE_LIMIT := by
  have reason : (s.fset F.COX_ABANDON_REASON r).fget F.COX_ABANDON_REASON = r :=
    (State.fget_fset_self _ _ _ (by decide)).trans (Nat.mod_eq_of_lt h8)
  refine ⟨?_, ?_, State.flag_raise_self _ _ (by decide) (by decide), ?_⟩
  · exact (State.fget_fset_other _ F.COX_EVENTS_ABANDONED _ _ (by decide)).trans
      ((State.fget_fset_other _ F.COX_ABANDON_VALID _ _ (by decide)).trans reason)
  · exact (State.flag_fset_other _ F.COX_EVENTS_ABANDONED _ _ (by decide)).trans (State.flag_raise_self _ _ (by decide) (by decide))
  · exact (State.flag_fset_other _ F.COX_EVENTS_ABANDONED _ _ (by decide)).trans
      ((State.flag_fset_other _ F.COX_ABANDON_VALID _ _ (by decide)).trans (State.flag_fset_other _ F.COX_ABANDON_REASON _ _ (by decide)))

/-- A course that runs and has no ending yet is abandoned: the cox stops, and its registers show why. -/
theorem abandon_spec {s : State} {r : Nat} (h8 : r < 8) (hr : s.running.isSome = true) (he : s.cox.ending = none) :
    (abandon r s).fget F.COX_ABANDON_REASON = r ∧ (abandon r s).flag F.COX_ABANDON_VALID = true ∧
      (abandon r s).flag F.COX_EVENTS_ABANDONED = true ∧ (abandon r s).coxState = 4 ∧
      (abandon r s).flag F.COX_EVENTS_PAUSE_LIMIT = s.flag F.COX_EVENTS_PAUSE_LIMIT := by
  have begun : abandon r s = endEarly 2 none (setCox 4 (stopAxis 0 .stop (abandonShown r s))) := by
    have on : s.running.isNone = false := by rw [← Option.not_isSome, hr]; rfl
    simp [abandon, on, he, abandonShown]
  have ended := blockFrame_endEarly 2 none (setCox 4 (stopAxis 0 .stop (abandonShown r s)))
  have stopped := frame_stopAxis 0 .stop (abandonShown r s)
  have kept (f : Fld) (hb : f.addr / 65536 = 0x13) (hs : f.addr ≠ R.COX_STATUS) : (abandon r s).fget f = (abandonShown r s).fget f := by
    have block : f.addr / 65536 ∉ endBlocks := by rw [hb]; decide
    have quiet : recorderReg f.addr = false := recorderReg_of_block (by omega) (by omega)
    rw [begun, ended.fget f block quiet]
    refine (State.fget_fset_other _ F.COX_STATUS_STATE f 4 (.inl hs)).trans (stopped.fget f ?_ quiet)
    intro hm
    rw [List.mem_singleton.mp hm] at hb
    exact absurd hb (by decide)
  obtain ⟨hreason, hvalid, hevent, hlimit⟩ := abandonShown_spec h8 s
  refine ⟨(kept _ (by decide) (by decide)).trans hreason, ?_, ?_, ?_, ?_⟩
  · rw [State.flag, kept _ (by decide) (by decide)]; exact hvalid
  · rw [State.flag, kept _ (by decide) (by decide)]; exact hevent
  · rw [begun, State.coxState, ended.fget _ (by decide) (by decide)]
    exact State.fget_fset_self _ _ _ (by decide)
  · rw [State.flag, kept _ (by decide) (by decide)]; exact hlimit

end Sys2Proof.Machine
end

section
/-! SUPPORT. The demand (R391, R393): what it writes before its halt, and how one in an aborted course ends it (R302). -/

namespace Sys2Proof.Machine

/-- A demand's cause latched, which closes the lock (R391, R401). -/
def causeLatched (c : Nat) (s : State) : State :=
  closeLock (s.fresh.2.fset F.SAF_CAUSE_CAUSES (s.fget F.SAF_CAUSE_CAUSES + 2 ^ c))

/-- The reaction time of a demand, which the spec leaves free within its bound (R393). -/
def reactTime (s : State) : Nat := (Config.freeWord s.free 0).toNat % 1001

/-- FIRE and the gate clock driven low by a demand (R393, R394). -/
def fireLow (c : Nat) (s : State) : Option (Nat × Nat) × State :=
  let s1 := causeLatched c s
  quench (s1.rtime + ticksPerNs * ((Config.freeWord s.free 1).toNat % (reactTime s + 1) : Nat)) (s1.raise F.SAF_EVENTS_BEAM_DEMAND)

/-- The beam cut off by a demand, its reaction time shown: the state in which its halt is set (R393). -/
def beamCut (c : Nat) (s : State) : State :=
  ((assertLines (fireLow c s).2).fset F.SAF_REACT_NS (reactTime s)).raiseTo F.SAF_REACT_MAX (reactTime s)

/-- A new cause that demands SF-STAGE cuts the beam and halts the course; of the registers, STAGE_DEMAND alone is written after that. -/
theorem demand_regs_of_stage {s : State} {c : Nat} {cat2 : Bool} (hc : bitAt c (s.fget F.SAF_CAUSE_CAUSES) = false)
    (hstage : causeStage c = some cat2) : (demand c s).regs =
      ((afterCut (demandHalt (fireLow c s).1 ((causeLatched c s).stk.commits.find? Committed.fire) (beamCut c s))).raise
        F.SAF_EVENTS_STAGE_DEMAND).regs := by
  rw [demand, if_neg (by simp [hc]), hstage]
  rfl

/-- The registers that a demand writes before its halt. -/
def cutRegs : List Nat := [R.SAF_CAUSE, R.SAF_EVENTS, R.SAF_STATUS, R.SAF_REACT, R.SAF_PARAM_CRC, R.SAF_CUT, R.STK_FIRE_LOW]

theorem frame_closeLock (s : State) : Frame [.saf] [R.SAF_STATUS, R.SAF_PARAM_CRC] s (closeLock s) := by
  unfold closeLock
  split
  · exact ((Frame.clear _ _ _ F.SAF_STATUS_LOCK_OPEN (by decide)).trans
      (Frame.setReg _ _ _ R.SAF_PARAM_CRC (Config.paramCrc s.safetyParams) (by decide))).trans (frame_setSaf _ _ _)
  · exact Frame.refl _ _ s

theorem frame_quench (now : Int) (s : State) : Frame [.stk] [R.STK_FIRE_LOW, R.SAF_EVENTS, R.SAF_CUT] s (quench now s).2 := by
  unfold quench
  extract_lets _ s1
  have low : Frame [.stk] [R.STK_FIRE_LOW, R.SAF_EVENTS, R.SAF_CUT] s s1 := frame_setStk _ _ _
  split
  · exact low
  · split
    · exact low
    · exact (((low.trans (Frame.bump _ _ _ F.STK_FIRE_LOW_COUNT (by decide))).trans (Frame.raise _ _ _ F.SAF_EVENTS_CUT (by decide))).trans
        (Frame.setReg _ _ _ R.SAF_CUT _ (by decide))).trans (frame_setStk _ _ _)

/-- Where no gate train runs, none is cut. -/
theorem quench_of_no_train {s : State} (h : s.stk.train = none) (now : Int) :
    (quench now s).2.stk.train = none ∧ (quench now s).2.stk.aborted = s.stk.aborted := by
  simp [quench, h]

theorem frame_causeLatched (c : Nat) (s : State) : Frame [.saf, .free] cutRegs s (causeLatched c s) :=
  (((frame_setFree _ s _).mono (by simp) (fun _ m => m)).trans (Frame.fset _ _ _ F.SAF_CAUSE_CAUSES _ (by decide))).trans
    ((frame_closeLock _).mono (by simp) (by decide))

/-- What follows the quench: the lines and the reaction time. -/
theorem frame_reacted (ps : List Part) (n : Nat) (s : State) :
    Frame ps cutRegs s (((assertLines s).fset F.SAF_REACT_NS n).raiseTo F.SAF_REACT_MAX n) :=
  (((Frame.clear _ _ _ F.SAF_STATUS_BEAM_PERMIT (by decide)).trans (frame_driveLines _ false false _ (by decide))).trans
    (Frame.fset _ _ _ F.SAF_REACT_NS _ (by decide))).trans (Frame.fset _ _ _ F.SAF_REACT_MAX _ (by decide))

theorem frame_beamCut (c : Nat) (s : State) : Frame [.saf, .free, .stk] cutRegs s (beamCut c s) :=
  ((((frame_causeLatched c s).mono (by simp) (fun _ m => m)).trans (Frame.raise _ _ _ F.SAF_EVENTS_BEAM_DEMAND (by decide))).trans
    ((frame_quench _ _).mono (by simp) (by decide))).trans (frame_reacted _ _ _)

/-- A demand in an aborted course that no gate train holds up ends the course (R302). -/
theorem demand_of_aborted {s : State} {c : Nat} {cat2 : Bool} (hc : bitAt c (s.fget F.SAF_CAUSE_CAUSES) = false)
    (ha : s.stk.aborted = true) (ht : s.stk.train = none) (hstage : causeStage c = some cat2) :
    (demand c s).reg R.STK_EVENTS = (abortFinish (beamCut c s)).reg R.STK_EVENTS := by
  have latched : (causeLatched c s).stk = s.stk := (frame_causeLatched c s).1 .stk (by decide)
  have low := quench_of_no_train (s := (causeLatched c s).raise F.SAF_EVENTS_BEAM_DEMAND)
    ((congrArg Strokes.train ((State.raise_stk _ _).trans latched)).trans ht)
  have strokes : (beamCut c s).stk = (fireLow c s).2.stk := (frame_reacted [] _ _).1 .stk (by decide)
  have aborted : (beamCut c s).stk.aborted = true := by rw [strokes, fireLow, (low _).2, State.raise_stk, latched, ha]
  have train : (beamCut c s).stk.train = none := by rw [strokes, fireLow, (low _).1]
  have halt (cut : Option (Nat × Nat)) (first : Option Committed) : demandHalt cut first (beamCut c s) = beamCut c s := by
    simp [demandHalt, State.haltable, aborted]
  have ends : afterCut (beamCut c s) = abortFinish (beamCut c s) := by simp [afterCut, aborted, train]
  rw [State.reg, demand_regs_of_stage hc hstage, halt, ends]
  exact State.reg_fset_ne _ F.SAF_EVENTS_STAGE_DEMAND _ _ (by decide)

end Sys2Proof.Machine
end

section
/-! PROOF. STROKE_FIRED (R219) of a course that a course-abort reset ended, while the lane map bank in service is neither of the two of
R195. -/

namespace Sys2Proof.Machine

/-- A read job of the host whose one frame waits for a slot on lane 0 (R173, R185). -/
def heldJob : SideJob :=
  { wave := false, src := 0, space := 0, read := true, addr := 0, words := 1, targets := [0], donewords := 0, abort := false, tag := 0
    flight := some { head := { space := 0, read := true, beamLane := 0, len := 1, tag := 0, address := 0 }, data := [], tries := 0
                     sentAt := 0, lane := 0, waiting := true } }

/-- An aborted course of a device with bank 24 of the lane map in service, which would take in 0x120000 to 0x1203FF, the first registers of
the stroke unit (R195, R451). The check bits of one byte there name one of its data bits (R317). -/
def abortedCourse (byte mask : Nat) (strokes : Strokes) : State :=
  let s := State.reset
  { s with
    ing := { s.ing with queue := [{ readyEntry with state := .running }] }
    banks := { s.banks with lanes := { s.banks.lanes with active := 24 } }
    bln := { s.bln with side := some heldJob }
    stk := { strokes with aborted := true }
    mem := { s.mem with flips := [(byte, mask)] } }

/-! ### STROKE_FIRED -/

/-- An aborted course whose stroke 0 is in its gate train; the check bits of STK_FIRED name data bit 0. -/
def lastTrain : State := abortedCourse R.STK_FIRED 19 { State.reset.stk with train := some (0, 0) }

/-- The conditions of STROKE_FIRED hold of it (R219). -/
theorem lastTrain_due : lastTrain.stk.train = some (0, 0) ∧ lastTrain.running = some { readyEntry with state := .running } := by
  decide +kernel

/-- The course ends with its last train, its lanes return to READY, and the side frame that leaves reads the lane map: the correction makes
stroke 0 into stroke 1 (R197, R231, R318). -/
theorem lastTrain_corrected : (strokeFiredOp lastTrain.begin).fget F.STK_FIRED_STROKE = 1 := by
  decide +kernel

/-- Refutes O40: nothing in the statement keeps the number of the lane map's bank in service below 2. With bank 24 in service the read of the
lane map that follows the end of an aborted course corrects STK_FIRED, which reads as another stroke than the one fired. The model's own
commands bring that number to 0 and 1 alone, so that no run from reset reaches the state. -/
theorem not_strokesCommitCatchAndFire : ¬ Obligations.StrokesCommitCatchAndFire := by
  unfold Obligations.StrokesCommitCatchAndFire
  intro h
  obtain ⟨htrain, hrun⟩ := lastTrain_due
  obtain ⟨-, -, fires⟩ := h lastTrain
  obtain ⟨t, ht, -, -, -, hfired, -⟩ := fires _ _ _ htrain hrun
  obtain rfl := Host.Outcome.next.inj (ht.symm.trans (done_next strokeFiredOp lastTrain))
  rw [fget_settled _ _ _ _ (by decide), lastTrain_corrected] at hfired
  exact absurd hfired (by decide)

end Sys2Proof.Machine
end

section
/-! PROOF. POS_LOST (R206, R231) of an axis in motion, in a course that a course-abort reset ended, while the lane map bank in service is
neither of the two of R195. -/

namespace Sys2Proof.Machine

/-! ### A read of the lane map that corrects STK_EVENTS (R317, R318) -/

/-- An aborted course whose Y axis has had 128 bad samples in a row; the check bits of STK_EVENTS name data bit 2, which is POS_LOST. -/
def lostAxis : State :=
  (abortedCourse R.STK_EVENTS 22 { State.reset.stk with loopY := { loopReset with posOk := true, badRun := 128 } }).clear
    (F.MOT_AX_STATUS_AT_REST 1)

/-- The read corrects STK_EVENTS, wherever the lane map and the memories are those of `lostAxis`. -/
theorem readLaneMap_of_lostAxis {s : State} (hb : s.banks = lostAxis.banks) (hm : s.mem = lostAxis.mem) :
    (readLaneMap s).reg R.STK_EVENTS = s.reg R.STK_EVENTS ^^^ 4#32 := by
  have active : s.banks.lanes.active = 24 := by rw [hb]; rfl
  have flips : s.mem.flips = [(R.STK_EVENTS, 22)] := by rw [hm]; rfl
  have lap : s.mem.ceLap.contains (R.STK_EVENTS / 4 * 4) = false := by rw [hm]; rfl
  have hit : inBank .lanes 24 R.STK_EVENTS = true := by decide
  have named : byteClass (sparseGet (fun _ => 0) R.STK_EVENTS [(R.STK_EVENTS, 22)]) = .corrected (some 2) := by decide
  have noTable : tableAt R.STK_EVENTS = none := by decide +kernel
  have low : ¬ 0x1000000 ≤ R.STK_EVENTS := by decide
  have read : readLaneMap s = readTableByte R.STK_EVENTS s := by simp [readLaneMap, readTables, active, flips, hit]
  have flipped (u : State) : flipTableBit R.STK_EVENTS 2 u = u.setReg R.STK_EVENTS (u.reg R.STK_EVENTS ^^^ 4#32) := by
    simp only [flipTableBit, if_neg low, noTable]
    rfl
  have counted (u : State) : ((u.bump F.SRM_CE_COUNT_COUNT).raise F.SRM_EVENTS_CE).reg R.STK_EVENTS = u.reg R.STK_EVENTS := by
    rw [State.raise, State.reg_fset_ne _ _ _ _ (by decide), State.bump, State.add, State.reg_fset_ne _ _ _ _ (by decide)]
  have memories (u : State) (m : MemAux) (a : Nat) : ({ u with mem := m } : State).reg a = u.reg a := rfl
  rw [read, readTableByte, flips, named]
  simp only [flipped, lap, counted, memories, Bool.false_eq_true, if_false, State.reg_setReg_self]

/-- The side frame of `heldJob` leaves, and the lane map is read for it. -/
theorem releaseSide_of_lostAxis {s : State} (hb : s.banks = lostAxis.banks) (hm : s.mem = lostAxis.mem)
    (hs : s.bln.side = some heldJob) (hr : s.running = none) :
    (releaseSide s).reg R.STK_EVENTS = s.reg R.STK_EVENTS ^^^ 4#32 := by
  have bad : s.laneMapBad = false := by rw [State.laneMapBad, State.badAmong, hm]; rfl
  have slot : s.sideSlot 0 = true := by simp [State.sideSlot, bad, hr]
  have sent (f : SideFlight) : Frame [.bln] [R.BLN_LANE_INJECT 0] (readLaneMap s) (sendSide f 0 heldJob s) := by
    unfold sendSide
    dsimp only
    split
    · refine ((takeCrc_spec 0 (readLaneMap s)).2.trans ?_).trans (Frame.emit _ _ _ _)
      exact (Frame.setTrain _ _ _ _ (.head _)).trans (Frame.setBln _ _ _ (.head _))
    · exact Frame.setBln _ _ _ (.head _)
  rw [← readLaneMap_of_lostAxis hb hm, releaseSide, hs]
  dsimp only [heldJob]
  simp only [slot]
  exact (sent _).2 _ (by decide) (by decide)

/-! ### The end of an aborted course (R197, R231, R302) -/

/-- The values that govern are held in their part. -/
theorem State.govFlag_congr {s t : State} (h : t.inf = s.inf) (f : Fld) : t.govFlag f = s.govFlag f := by
  simp only [State.govFlag, State.gov, State.inReg, h]

/-- Without a journal a course's result is posted, and reported in INT_EVENTS (R292, R301). -/
theorem frame_postCourseResult {s : State} (hj : s.govFlag F.INT_CTL_JRNL_EN = false) (o : Nat) (e : Entry) :
    Frame [.results] [R.INT_EVENTS] s (postCourseResult o e s) := by
  have unjournalled (u : State) (hu : u.inf = s.inf) (kind q3 q4 : Nat) (ids : Nat × Nat) : journal kind ids q3 q4 false u = u := by
    simp [journal, State.govFlag_congr hu, hj]
  unfold postCourseResult
  dsimp only
  rw [unjournalled _ (by simp [State.postResult])]
  exact ((frame_setResult _ _ _ _).trans (Frame.raise _ _ _ F.INT_EVENTS_RESULT (.head _))).trans
    (Frame.raiseIf _ _ _ _ F.INT_EVENTS_RESULT_OVERRUN (.head _))

/-- The lanes' states are in registers. -/
theorem frame_lanesToReady (s : State) (ls : List Nat) (h : ∀ l ∈ ls, l < 136) :
    Frame [] ((List.range 136).map R.BLN_LANE_STATUS) s (ls.foldl (fun t l => setLane l 3 t) s) :=
  Frame.foldl _ ls (fun t l hl => Frame.fset _ _ t (F.BLN_LANE_STATUS_STATE l) 3
    (List.mem_map_of_mem (f := R.BLN_LANE_STATUS) (List.mem_range.mpr (h l hl)))) s

/-- The entry of the course, once it has ended. -/
def endedEntry (x : Entry) : Entry := { x with state := .failed, err := 0 }

/-- What is left before the lanes return to READY. -/
theorem frame_putAway (s : State) (i : Nat) :
    Frame [.ras, .bsx, .crw, .bln, .stk, .int, .queue] [] s (putAway (s.mapEntry i endedEntry)) :=
  Frame.parts _ _ _ _ rfl (fun p hp => by cases p <;> simp_all [Part.same, putAway])

/-- The end of the course reads the lane map, wherever the state is that of `lostAxis` beside the registers and the stroke unit. -/
theorem abortFinish_of_lostAxis {s : State} (hb : s.banks = lostAxis.banks) (hm : s.mem = lostAxis.mem)
    (hs : s.bln.side = some heldJob) (hi : s.ing = lostAxis.ing) (hg : s.inf = lostAxis.inf) :
    (abortFinish s).reg R.STK_EVENTS = s.reg R.STK_EVENTS ^^^ 4#32 := by
  have running : s.running = some { readyEntry with state := .running } := by rw [State.running, hi]; rfl
  have journal : s.govFlag F.INT_CTL_JRNL_EN = false := (State.govFlag_congr hg _).trans (by decide +kernel)
  have posted := frame_postCourseResult journal 5 { readyEntry with state := .running }
  obtain ⟨p, hp⟩ := exists_eq (a' := postCourseResult 5 { readyEntry with state := .running } s)
  rw [← hp] at posted
  have quiet (n : Nat) : courseEvent 4 n 0 p = p := by
    have off : p.govFlag F.STR_CTL_ENABLE = false := (State.govFlag_congr ((posted.1 .inForce (by decide)).trans hg) _).trans (by decide +kernel)
    simp [courseEvent, off]
  have away := frame_putAway p 0
  have ready := frame_lanesToReady (putAway (p.mapEntry 0 endedEntry)) (putAway (p.mapEntry 0 endedEntry)).activeLanes
    (fun l hl => List.mem_range.mp (List.mem_of_mem_filter hl))
  simp only [abortFinish, running, ← hp, quiet, lanesReady]
  obtain ⟨v, hv⟩ := exists_eq (a' := (putAway (p.mapEntry 0 endedEntry)).activeLanes.foldl (fun t l => setLane l 3 t) (putAway (p.mapEntry 0 endedEntry)))
  rw [← hv] at ready
  have kept := (posted.mono (qs := [.results, .ras, .bsx, .crw, .bln, .stk, .int, .queue])
    (vs := R.INT_EVENTS :: (List.range 136).map R.BLN_LANE_STATUS) (by simp) (by simp)).trans
      ((away.mono (by simp) (by simp)).trans (ready.mono (by simp) (fun _ m => .tail _ m)))
  have side : v.bln.side = some heldJob := by
    rw [ready.1 .bln (by decide)]
    exact (congrArg Lanes.side (posted.1 .bln (by decide))).trans hs
  have idle : v.running = none := by
    rw [State.running, ready.1 .queue (by decide)]
    show ((p.ing.queue.map _).find? _) = none
    rw [posted.1 .queue (by decide), hi]
    rfl
  have same : v.reg R.STK_EVENTS = s.reg R.STK_EVENTS := kept.2 _ (by decide) (by decide)
  rw [← same, ← releaseSide_of_lostAxis ((kept.1 .banks (by decide)).trans hb) ((kept.1 .mem (by decide)).trans hm) side idle, hv]
  rfl

/-! ### POS_LOST -/

/-- `lostAxis` as POS_LOST leaves it before the demand: its Y axis has neither lock nor reference, and homes nowhere. -/
def lostEvent : State :=
  (lostAxis.begin.setLoop 1 { lostAxis.loop 1 with posOk := false, init := false, expect := none }).raise F.STK_EVENTS_POS_LOST

/-- POS_LOST of an axis that is not at rest is a demand with cause 14 (R206, R391). -/
theorem posLostOp_lostAxis : posLostOp 1 lostAxis.begin = demand 14 lostEvent := by
  have due : ((lostAxis.begin.loop 1).posOk && decide (max 1 (lostAxis.begin.fget F.STK_POS_CTL_BAD_LIMIT) ≤ (lostAxis.begin.loop 1).badRun)) =
      true := by decide +kernel
  have moves : lostAxis.begin.atRest 1 = false := by decide +kernel
  have noLock (u : State) (h : (u.loop 1).locked = false) : unlock 1 u = u := by simp [unlock, h]
  have noRef : loseRef 1 lostEvent = lostEvent := by
    have none : lostEvent.ref 1 = false := by decide +kernel
    simp [loseRef, none]
  have noHoming : endHoming 1 lostEvent = lostEvent := rfl
  simp only [posLostOp, if_pos due, moves]
  rw [noLock _ rfl]
  show demand 14 (endHoming 1 (loseRef 1 lostEvent)) = _
  rw [noRef, noHoming]

/-- The demand ends the course, its lanes return to READY, and the side frame that leaves reads the lane map: the correction takes the event
back (R197, R231, R318). -/
theorem posLostOp_lostAxis_event : (posLostOp 1 lostAxis.begin).flag F.STK_EVENTS_POS_LOST = false := by
  have cut := frame_beamCut 14 lostEvent
  have lane : (beamCut 14 lostEvent).bln.side = some heldJob := by rw [cut.1 .bln (by decide)]; rfl
  have corrected := abortFinish_of_lostAxis (cut.1 .banks (by decide)) (cut.1 .mem (by decide)) lane (cut.1 .queue (by decide))
    (cut.1 .inForce (by decide))
  have called := demand_of_aborted (s := lostEvent) (c := 14) (by decide +kernel) rfl rfl rfl
  rw [cut.2 R.STK_EVENTS (by decide) (by decide)] at corrected
  have read : fieldOf 2 1 (lostEvent.reg R.STK_EVENTS ^^^ 4#32) = 0 := by decide +kernel
  rw [State.flag, State.fget]
  show (fieldOf 2 1 ((posLostOp 1 lostAxis.begin).reg R.STK_EVENTS) != 0) = false
  rw [posLostOp_lostAxis, called, corrected, read]
  rfl

/-- The conditions of POS_LOST hold of it (R206). -/
theorem lostAxis_due : (lostAxis.loop 1).posOk = true ∧ max 1 (lostAxis.fget F.STK_POS_CTL_BAD_LIMIT) ≤ (lostAxis.loop 1).badRun := by
  decide +kernel

/-- Refutes O39: nothing in the statement keeps the number of the lane map's bank in service below 2. With bank 24 in service the read of the
lane map that follows the demand of a lost axis in motion corrects STK_EVENTS, and POS_LOST reads 0. The model's own commands bring that
number to 0 and 1 alone, so that no run from reset reaches the state. -/
theorem not_positionSamplesDriveTheLoops : ¬ Obligations.PositionSamplesDriveTheLoops := by
  unfold Obligations.PositionSamplesDriveTheLoops
  intro h
  obtain ⟨hpos, hrun⟩ := lostAxis_due
  obtain ⟨-, -, -, lost⟩ := h lostAxis 1 (by decide)
  obtain ⟨t, ht, -, -, -, -, hevent, -⟩ := lost hpos hrun
  obtain rfl := Host.Outcome.next.inj (ht.symm.trans (done_next (posLostOp 1) lostAxis))
  rw [flag_settled _ _ _ _ (by decide), posLostOp_lostAxis_event] at hevent
  exact absurd hevent (by decide)

end Sys2Proof.Machine
end

section
/-! PROOF. COX_HALT, the pause limits, SUPPLY_HOLD_END and the line test (R220, R239, R248, R249, R252, R392, R400). -/

namespace Sys2Proof.Machine

/-! ### COX_HALT (R220, R252) -/

/-- HOLD is set, whatever becomes of the request. -/
theorem coxHaltOp_hold (s : State) : (coxHaltOp s).flag F.COX_CTL_HOLD = true := by
  have held : (s.raise F.COX_CTL_HOLD).flag F.COX_CTL_HOLD = true := State.flag_raise_self _ _ (by decide) (by decide)
  unfold coxHaltOp
  dsimp only
  split
  · refine Eq.trans ?_ held
    simp only [State.flag, State.fget, F.COX_CTL_HOLD, (haltFrame_coxRequest 4 _).2]
  · exact held

/-- The strokes and the course of a state go by three of its parts. -/
theorem State.haltable_congr {s t : State} (hi : t.ing = s.ing) (hk : t.stk = s.stk) : t.haltable = s.haltable := by
  simp only [State.haltable, State.running, hi, hk]

theorem State.lastStroke_congr {s t : State} (hi : t.ing = s.ing) (hs : t.shape = s.shape) : t.lastStroke = s.lastStroke := by
  simp only [State.lastStroke, State.lengthPx, State.runHead, State.running, hi, hs]

theorem completes_coxHalt (s : State) : Completes .coxHalt s (fun t =>
    t.flag F.COX_CTL_HOLD = true ∧ (s.haltable = false → Frame [] [R.COX_CTL] s t)) := by
  refine completes_of coxHaltOp rfl ⟨(flag_settled _ _ _ _ (by decide)).trans (coxHaltOp_hold _), fun hn => Frame.settled _ ?_⟩
  have idle : coxHaltOp s.begin = s.begin.raise F.COX_CTL_HOLD := if_neg (by
    rw [State.haltable_congr (s := s) (t := s.begin.raise F.COX_CTL_HOLD) rfl rfl, hn]
    decide)
  rw [idle]
  exact Frame.raise _ _ _ F.COX_CTL_HOLD (.head _)

/-- What a halt with the reason HOST leaves, the stroke still to commit being its halt stroke. -/
theorem coxHaltOp_halts {s : State} (hh : s.haltable = true) (hs : s.stk.halted = false) (hn : s.stk.next ≤ s.lastStroke) :
    let t := coxHaltOp s
    t.stk.halted = true ∧ t.fget F.STK_HALT_AT_STROKE = s.stk.next % 2 ^ 25 ∧ t.fget F.STK_HALT_CAUSE_FIRST = 8 ∧
      bitAt 4 (t.fget F.COX_REASON_REASONS) = true ∧ t.cox.resume = s.stk.next ∧ BlockFrame haltParts haltBlocks s t := by
  obtain ⟨v, hv⟩ := exists_eq (a' := setReasons [4] (s.raise F.COX_CTL_HOLD))
  have told : Frame [] [R.COX_CTL, R.COX_REASON, R.COX_EVENTS] s v := by
    rw [hv]
    exact (Frame.raise _ _ _ F.COX_CTL_HOLD (.head _)).trans ((frame_setReasons [] _ _).mono (by simp) (by simp))
  have reason : bitAt 4 (v.fget F.COX_REASON_REASONS) = true := by rw [hv]; exact reason_setReasons (by decide) _
  have strokes : v.stk = s.stk := told.1 .stk (by simp)
  have course : v.ing = s.ing := told.1 .queue (by simp)
  have last : v.lastStroke = s.lastStroke := State.lastStroke_congr course (told.1 .shape (by simp))
  have asked : coxHaltOp s = requestHalt 8 false v := by
    have on : (s.raise F.COX_CTL_HOLD).haltable = true := (State.haltable_congr rfl rfl).trans hh
    rw [hv]
    exact if_pos on
  rw [requestHalt_of_uncommitted ((State.haltable_congr course strokes).trans hh) (strokes ▸ hs) (by rw [strokes, last]; exact hn)] at asked
  obtain ⟨u, hset, hannounced⟩ := setHalt_of_unhalted (s := v) (strokes ▸ hs) v.stk.next 8 v.clock false
  obtain ⟨k, hk⟩ := exists_eq (a' := setHalt v.stk.next 8 v.clock false v)
  rw [← hk] at asked hannounced
  have field (f : Fld) (hb : f.addr / 65536 ∉ announceBlocks) (hr : recorderReg f.addr = false) : (keepCatch v.rtime k).fget f = u.fget f :=
    hannounced.fget f hb hr
  intro t
  simp only [t, asked]
  refine ⟨?_, ?_, ?_, ?_, ?_, ?_⟩
  · exact (congrArg Strokes.halted (hannounced.1 .stk (by decide))).trans hset.halted
  · rw [field _ (by decide) (by decide), hset.stroke, strokes]
  · rw [field _ (by decide) (by decide), hset.first]
  · rw [field _ (by decide) (by decide), State.fget, show F.COX_REASON_REASONS.addr = R.COX_REASON from rfl, hset.reason rfl]
    exact reason
  · exact ((congrArg CoxPart.resume (hannounced.1 .cox (by decide))).trans hset.resume).trans (congrArg Strokes.next strokes)
  · rw [hk]
    exact ((BlockFrame.of_frame told (by decide)).mono (by simp) (fun _ m => m)).trans
      ((haltFrame_setHalt _ _ _ _ v).trans (haltFrame_keepCatch _ _)).1

theorem completes_coxHalt_halts {s : State} (hh : s.haltable = true) (hs : s.stk.halted = false) (hn : s.stk.next ≤ s.lastStroke) :
    Completes .coxHalt s (fun t => t.stk.halted = true ∧ t.fget F.STK_HALT_AT_STROKE = s.stk.next % 2 ^ 25 ∧
      t.fget F.STK_HALT_CAUSE_FIRST = 8 ∧ bitAt 4 (t.fget F.COX_REASON_REASONS) = true ∧ t.cox.resume = s.stk.next ∧
      BlockFrame haltParts haltBlocks s t) := by
  refine completes_of coxHaltOp rfl ?_
  obtain ⟨hhalted, hstroke, hfirst, hreason, hresume, hframe⟩ := coxHaltOp_halts (s := s.begin) hh hs hn
  rw [settle_stk, settle_cox, fget_settled _ _ _ _ (by decide), fget_settled _ _ _ _ (by decide), fget_settled _ _ _ _ (by decide)]
  exact ⟨hhalted, hstroke, hfirst, hreason, hresume, BlockFrame.settled _ hframe⟩

/-! ### The limits of a pause (R248, R249) and the end of the supply warning (R239) -/

/-- A limit of a pause reached: the clock at its time, its event set, and the part that notes it. -/
def limitShown (at' : Int) (f : Fld) (x : CoxPart) (s : State) : State := { (s.until at').raise f with cox := x }

theorem frame_limitShown (at' : Int) {f : Fld} (x : CoxPart) (s : State) (hf : f.addr = R.COX_EVENTS) :
    Frame [.clock, .cox] [R.COX_EVENTS] s (limitShown at' f x s) :=
  ((Frame.until _ _ _ (.head _)).trans (Frame.raise _ _ _ f (by rw [hf]; exact .head _))).trans
    ((frame_setCox _ _ _).mono (by simp) (fun _ m => m))

/-- What a command shows that reaches a limit of a pause and does no more. -/
theorem completes_limitShown {c : Instr} {s : State} {at' : Int} {f : Fld} {x : CoxPart} (op : State → State) (hc : exec c s = done true op s)
    (hop : op s.begin = limitShown at' f x s.begin) (hf : f.addr = R.COX_EVENTS) (hw : 0 < f.width) (hl : f.lo + f.width ≤ 32) :
    Completes c s (fun t => t.flag f = true ∧ t.cox = x ∧ t.clock = max s.clock at' ∧ Frame [.clock, .cox] [R.COX_EVENTS] s t) := by
  refine completes_of op hc ?_
  rw [hop, settle_cox, settle_clock]
  exact ⟨(flag_settled _ _ _ _ (by rw [hf]; rfl)).trans (State.flag_raise_self _ _ hl hw), rfl, rfl,
    Frame.settled _ (frame_limitShown _ _ _ hf)⟩

theorem pauseReach_of_paused {s : State} {p : Int} (hp : s.cox.pauseFrom = some p) (ms : Nat) :
    pauseReach ms s = s.until (p + ms * 64000000) := by
  rw [pauseReach, hp]
  rfl

theorem completes_pauseWarn {s : State} {p : Int} (hp : s.cox.pauseFrom = some p) (hl : s.gov F.COX_PAUSE_WARN_MS ≠ 0)
    (hw : s.cox.warned = false) : Completes .pauseWarn s (fun t =>
      t.flag F.COX_EVENTS_PAUSE_WARN = true ∧ t.cox = { s.cox with warned := true } ∧
      t.clock = max s.clock (p + s.gov F.COX_PAUSE_WARN_MS * 64000000) ∧ Frame [.clock, .cox] [R.COX_EVENTS] s t) := by
  refine completes_limitShown pauseWarnOp rfl ?_ rfl (by decide) (by decide)
  have due : ¬ (s.begin.cox.pauseFrom.isNone || s.begin.gov F.COX_PAUSE_WARN_MS == 0 || s.begin.cox.warned) = true := by
    have limit : s.begin.gov F.COX_PAUSE_WARN_MS ≠ 0 := hl
    simp [hp, limit, hw]
  refine (if_neg due).trans ?_
  rw [pauseReach_of_paused (s := s.begin) hp]
  rfl

/-- The limit of a pause reached: the course is abandoned unless PAUSE_ACTION keeps it. -/
theorem pauseLimitOp_of_due {s : State} {p : Int} (hp : s.cox.pauseFrom = some p) (hl : s.gov F.COX_PAUSE_LIMIT_MS ≠ 0)
    (hn : s.cox.limited = false) :
    let u := limitShown (p + s.gov F.COX_PAUSE_LIMIT_MS * 64000000) F.COX_EVENTS_PAUSE_LIMIT { s.cox with limited := true } s
    pauseLimitOp s = if s.govFlag F.COX_CTL_PAUSE_ACTION then u else abandon 1 u := by
  have due : ¬ (s.cox.pauseFrom.isNone || s.gov F.COX_PAUSE_LIMIT_MS == 0 || s.cox.limited) = true := by simp [hp, hl, hn]
  refine (if_neg due).trans ?_
  rw [pauseReach_of_paused hp]
  rfl

theorem completes_pauseLimit {s : State} {p : Int} (hp : s.cox.pauseFrom = some p) (hl : s.gov F.COX_PAUSE_LIMIT_MS ≠ 0)
    (hn : s.cox.limited = false) (ha : s.govFlag F.COX_CTL_PAUSE_ACTION = true) : Completes .pauseLimit s (fun t =>
      t.flag F.COX_EVENTS_PAUSE_LIMIT = true ∧ t.cox = { s.cox with limited := true } ∧
      t.clock = max s.clock (p + s.gov F.COX_PAUSE_LIMIT_MS * 64000000) ∧ Frame [.clock, .cox] [R.COX_EVENTS] s t) :=
  completes_limitShown pauseLimitOp rfl ((pauseLimitOp_of_due (s := s.begin) hp hl hn).trans (if_pos ha)) rfl (by decide) (by decide)

theorem completes_pauseLimit_abandons {s : State} {p : Int} (hp : s.cox.pauseFrom = some p) (hl : s.gov F.COX_PAUSE_LIMIT_MS ≠ 0)
    (hn : s.cox.limited = false) (ha : s.govFlag F.COX_CTL_PAUSE_ACTION = false) (hr : s.running.isSome = true) (he : s.cox.ending = none) :
    Completes .pauseLimit s (fun t => t.flag F.COX_EVENTS_PAUSE_LIMIT = true ∧ t.fget F.COX_ABANDON_REASON = 1 ∧
      t.flag F.COX_ABANDON_VALID = true ∧ t.flag F.COX_EVENTS_ABANDONED = true ∧ t.coxState = 4) := by
  refine completes_of pauseLimitOp rfl ?_
  rw [(pauseLimitOp_of_due (s := s.begin) hp hl hn).trans (if_neg (by rw [show s.begin.govFlag _ = _ from ha]; decide))]
  obtain ⟨hreason, hvalid, hevent, hstate, hlimit⟩ := abandon_spec (r := 1) (by decide) (s := limitShown
    (p + s.begin.gov F.COX_PAUSE_LIMIT_MS * 64000000) F.COX_EVENTS_PAUSE_LIMIT { s.begin.cox with limited := true } s.begin) hr he
  rw [flag_settled _ _ _ _ (by decide), flag_settled _ _ _ _ (by decide), flag_settled _ _ _ _ (by decide), State.coxState,
    fget_settled _ _ _ _ (by decide), fget_settled _ _ _ _ (by decide)]
  exact ⟨hlimit.trans (State.flag_raise_self _ _ (by decide) (by decide)), hreason, hvalid, hevent, hstate⟩

theorem completes_supplyHoldEnd {s : State} {p : Int} (hp : s.cox.supplyClear = some p) : Completes .supplyHoldEnd s (fun t =>
    t.flag F.COX_STATUS_SUPPLY_WARN = false ∧ t.cox = { s.cox with supplyClear := none } ∧
    t.clock = max s.clock (p + s.gov F.COX_SUPPLY_HOLD_US * 64000) ∧ Frame [.clock, .cox] [R.COX_STATUS] s t) := by
  refine completes_of supplyHoldOp rfl ?_
  have ended : supplyHoldOp s.begin = { (s.begin.until (p + s.gov F.COX_SUPPLY_HOLD_US * 64000)).clear F.COX_STATUS_SUPPLY_WARN with
      cox := { s.cox with supplyClear := none } } := by
    simp only [supplyHoldOp, State.begin_cox, hp]
    rfl
  rw [ended, settle_cox, settle_clock]
  refine ⟨(flag_settled _ _ _ _ (by decide)).trans (State.flag_clear_self _ _ (by decide)), rfl, rfl, Frame.settled _ ?_⟩
  exact ((Frame.until _ _ _ (.head _)).trans (Frame.clear _ _ _ F.COX_STATUS_SUPPLY_WARN (.head _))).trans
    ((frame_setCox _ _ _).mono (by simp) (fun _ m => m))

/-! ### The line test (R392, R400) -/

/-- A permit given: both lines released, and the instant kept at which it was first given. -/
theorem updatePermit_of_mayPermit {s : State} (h : s.mayPermit = true) :
    let t := updatePermit s
    t.saf = { s.saf with permitAt := if s.flag F.SAF_STATUS_BEAM_PERMIT then s.saf.permitAt else some s.clock } ∧
      t.flag F.SAF_STATUS_LINE_A = true ∧ t.flag F.SAF_STATUS_LINE_B = true ∧ t.flag F.SAF_STATUS_BEAM_PERMIT = true ∧
      Frame [.saf] [R.SAF_STATUS] s t := by
  obtain ⟨u, hu⟩ := exists_eq (a' := if s.flag F.SAF_STATUS_BEAM_PERMIT then s else { s with saf := { s.saf with permitAt := some s.clock } })
  have noted : u.saf = { s.saf with permitAt := if s.flag F.SAF_STATUS_BEAM_PERMIT then s.saf.permitAt else some s.clock } ∧
      Frame [.saf] [R.SAF_STATUS] s u := by
    rw [hu]
    split
    · exact ⟨rfl, Frame.refl _ _ s⟩
    · exact ⟨rfl, frame_setSaf _ s _⟩
  have given : updatePermit s = driveLines true true (u.raise F.SAF_STATUS_BEAM_PERMIT) := by rw [hu]; exact if_pos h
  have driven := frame_driveLines [] true true (u.raise F.SAF_STATUS_BEAM_PERMIT) (rs := [R.SAF_STATUS]) (.head _)
  obtain ⟨hA, hB, hpermit⟩ := flag_driveLines true true (u.raise F.SAF_STATUS_BEAM_PERMIT)
  intro t
  simp only [t, given]
  refine ⟨(driven.1 .saf (by simp)).trans noted.1, hA, hB, hpermit.trans (State.flag_raise_self _ _ (by decide) (by decide)), ?_⟩
  exact (noted.2.trans (Frame.raise _ _ _ F.SAF_STATUS_BEAM_PERMIT (.head _))).trans (driven.mono (by simp) (fun _ m => m))

/-- A step of the line test taken out, 1 µs later. -/
def stepTaken (s : State) : State := { s.after ticksPerUs with saf := { s.saf with lineStep := none } }

theorem frame_stepTaken (rs : List Nat) (s : State) : Frame [.clock, .saf] rs s (stepTaken s) :=
  (Frame.after _ _ _ (.head _)).trans ((frame_setSaf _ _ _).mono (by simp) (fun _ m => m))

/-- A good step goes on with line B, or permits the beam. -/
theorem lineTestOp_of_good {s : State} {k : Nat} (hk : s.saf.lineStep = some k) (hd : s.demanded = false) (hc : s.coxState = 2 ∨ s.coxState = 3) :
    lineTestOp true s =
      if k = 0 then { driveLines false true (stepTaken s) with saf := { (stepTaken s).saf with lineStep := some 1 } }
      else updatePermit { driveLines false false (stepTaken s) with cox := { (driveLines false false (stepTaken s)).cox with tested := true } } := by
  have on : ¬ ((stepTaken s).demanded || ((stepTaken s).coxState != 2 && (stepTaken s).coxState != 3)) = true := by
    rw [show (stepTaken s).demanded = false from hd, show (stepTaken s).coxState = s.coxState from rfl]
    rcases hc with hc | hc <;> simp [hc]
  unfold lineTestOp
  rw [hk]
  exact if_neg on

theorem completes_lineTest_first {s : State} (hd : s.demanded = false) (hc : s.coxState = 2 ∨ s.coxState = 3) (hk : s.saf.lineStep = some 0) :
    Completes (.lineTestStepEnd true) s (fun t => t.saf = { s.saf with lineStep := some 1 } ∧
      t.flag F.SAF_STATUS_LINE_A = false ∧ t.flag F.SAF_STATUS_LINE_B = true ∧ t.clock = s.clock + 64000 ∧
      Frame [.clock, .saf] [R.SAF_STATUS] s t) := by
  refine completes_of (lineTestOp true) rfl ?_
  rw [(lineTestOp_of_good (s := s.begin) hk hd hc).trans (if_pos rfl), settle_saf, settle_clock]
  have driven := frame_driveLines [] false true (stepTaken s.begin) (rs := [R.SAF_STATUS]) (.head _)
  obtain ⟨hA, hB, -⟩ := flag_driveLines false true (stepTaken s.begin)
  refine ⟨rfl, (flag_settled _ _ _ _ (by decide)).trans hA, (flag_settled _ _ _ _ (by decide)).trans hB, driven.1 .clock (by simp),
    Frame.settled _ ?_⟩
  exact ((frame_stepTaken _ _).trans (driven.mono (by simp) (fun _ m => m))).trans ((frame_setSaf _ _ _).mono (by simp) (fun _ m => m))

theorem completes_lineTest_second {s : State} (hd : s.demanded = false) (hc : s.coxState = 2 ∨ s.coxState = 3) (hk : s.saf.lineStep = some 1)
    (hi : s.flag F.SAF_CTL_INHIBIT = false) (hh : s.harbour = false) (ho : s.saf.startupOk = true) :
    Completes (.lineTestStepEnd true) s (fun t =>
      t.saf = { s.saf with lineStep := none, permitAt := if s.flag F.SAF_STATUS_BEAM_PERMIT then s.saf.permitAt else some t.clock } ∧
      t.cox = { s.cox with tested := true } ∧
      t.flag F.SAF_STATUS_LINE_A = true ∧ t.flag F.SAF_STATUS_LINE_B = true ∧ t.flag F.SAF_STATUS_BEAM_PERMIT = true ∧
      Frame [.clock, .saf, .cox] [R.SAF_STATUS] s t) := by
  refine completes_of (lineTestOp true) rfl ?_
  obtain ⟨u, hu⟩ := exists_eq (a' := { driveLines false false (stepTaken s.begin) with
    cox := { (driveLines false false (stepTaken s.begin)).cox with tested := true } })
  have driven := frame_driveLines [] false false (stepTaken s.begin) (rs := [R.SAF_STATUS]) (.head _)
  have passed : Frame [.clock, .saf, .cox] [R.SAF_STATUS] s.begin u := by
    rw [hu]
    exact (((frame_stepTaken _ _).trans (driven.mono (by simp) (fun _ m => m))).mono (by simp) (fun _ m => m)).trans
      ((frame_setCox _ _ _).mono (by simp) (fun _ m => m))
  have safety : u.saf = { s.saf with lineStep := none } := by rw [hu]; exact driven.1 .saf (by simp)
  have tested : u.cox = { s.cox with tested := true } := by
    rw [hu]; exact congrArg (fun x : CoxPart => { x with tested := true }) (driven.1 .cox (by simp))
  have permit : u.flag F.SAF_STATUS_BEAM_PERMIT = s.flag F.SAF_STATUS_BEAM_PERMIT := by
    rw [hu]; exact (flag_driveLines false false (stepTaken s.begin)).2.2
  have may : u.mayPermit = true := by
    have cause : u.demanded = false := (congrArg (· != 0) (passed.fget F.SAF_CAUSE_CAUSES (by decide) (by decide))).trans hd
    have inhibit : u.flag F.SAF_CTL_INHIBIT = false := (passed.flag _ (by decide) (by decide)).trans hi
    have sea : u.harbour = false := (passed.flag _ (by decide) (by decide)).trans hh
    have cox : u.coxState = s.coxState := passed.fget F.COX_STATUS_STATE (by decide) (by decide)
    rw [State.mayPermit, cause, inhibit, sea, safety, tested, cox, ho]
    rcases hc with hc | hc <;> simp [hc]
  rw [(lineTestOp_of_good (s := s.begin) hk hd hc).trans (if_neg (by decide)), ← hu, settle_saf, settle_cox, settle_clock]
  obtain ⟨hsaf, hA, hB, hP, hframe⟩ := updatePermit_of_mayPermit may
  rw [flag_settled _ _ _ _ (by decide), flag_settled _ _ _ _ (by decide), flag_settled _ _ _ _ (by decide)]
  refine ⟨?_, (hframe.1 .cox (by simp)).trans tested, hA, hB, hP, Frame.settled _ (passed.trans (hframe.mono (by simp) (fun _ m => m)))⟩
  rw [hsaf, safety, permit, show (updatePermit u).clock = u.clock from hframe.1 .clock (by simp)]

/-! ### The obligation -/

/-- Settles O41: each command on a state that it finds ready, from what a halt, an abandonment and the inhibit lines leave alone. -/
theorem haltsPausesAndTheLineTest : Obligations.HaltsPausesAndTheLineTest := by
  unfold Obligations.HaltsPausesAndTheLineTest
  refine fun s => ⟨completes_coxHalt s, fun hh hs hn => completes_coxHalt_halts hh hs hn, fun _ hp hl hw => completes_pauseWarn hp hl hw, ?_,
    fun _ hp => completes_supplyHoldEnd hp, ?_⟩
  · exact fun _ hp hl hn => ⟨completes_pauseLimit hp hl hn, completes_pauseLimit_abandons hp hl hn⟩
  · exact fun hd hc => ⟨completes_lineTest_first hd hc, completes_lineTest_second hd hc⟩

end Sys2Proof.Machine
end

section
/-! SUPPORT. The motion unit's axes: what a replaced axis leaves alone, and the fields of MOT_AX_STATUS (R259). -/

namespace Sys2Proof.Machine

/-! ### An axis in the state -/

@[simp] theorem State.axis_setAxis_self (s : State) (a : Nat) (x : Axis) : (s.setAxis a x).axis a = x := by
  unfold State.setAxis State.axis
  split <;> rfl

theorem State.axis_setAxis_other {a : Nat} (ha : a < 2) (s : State) (x : Axis) : (s.setAxis a x).axis (1 - a) = s.axis (1 - a) := by
  obtain rfl | rfl : a = 0 ∨ a = 1 := by omega
  · rfl
  · rfl

@[simp] theorem State.reg_setAxis (s : State) (a : Nat) (x : Axis) (r : Nat) : (s.setAxis a x).reg r = s.reg r := by
  unfold State.setAxis
  split <;> rfl

@[simp] theorem State.fget_setAxis (s : State) (a : Nat) (x : Axis) (f : Fld) : (s.setAxis a x).fget f = s.fget f := by simp [State.fget]

@[simp] theorem State.flag_setAxis (s : State) (a : Nat) (x : Axis) (f : Fld) : (s.setAxis a x).flag f = s.flag f := by simp [State.flag]

@[simp] theorem State.axis_fset (s : State) (f : Fld) (v a : Nat) : (s.fset f v).axis a = s.axis a := rfl

@[simp] theorem State.axis_raise (s : State) (f : Fld) (a : Nat) : (s.raise f).axis a = s.axis a := rfl

@[simp] theorem State.axis_clear (s : State) (f : Fld) (a : Nat) : (s.clear f).axis a = s.axis a := rfl

@[simp] theorem State.axis_bump (s : State) (f : Fld) (a : Nat) : (s.bump f).axis a = s.axis a := rfl

theorem State.axis_congr {s t : State} (h : t.mot = s.mot) (a : Nat) : t.axis a = s.axis a := by simp only [State.axis, h]

@[simp] theorem axis_settled (s0 u : State) (q : List Instr) (a : Nat) : ({ settle s0 u with pending := q } : State).axis a = u.axis a :=
  State.axis_congr (settle_mot s0 u) a

theorem axisState_settled (s0 u : State) (q : List Instr) (a : Nat) : ({ settle s0 u with pending := q } : State).axisState a = u.axisState a :=
  fget_settled s0 u q _ (recorderReg_offset _ _ (by decide))

theorem enabled_settled (s0 u : State) (q : List Instr) (a : Nat) : ({ settle s0 u with pending := q } : State).enabled a = u.enabled a :=
  flag_settled s0 u q _ (recorderReg_offset _ _ (by decide))

theorem ref_settled (s0 u : State) (q : List Instr) (a : Nat) : ({ settle s0 u with pending := q } : State).ref a = u.ref a :=
  flag_settled s0 u q _ (recorderReg_offset _ _ (by decide))

/-- The motion unit's part replaced. -/
theorem frame_setMot (rs : List Nat) (s : State) (m : Motion) : Frame [.mot] rs s { s with mot := m } :=
  Frame.parts _ _ _ _ rfl (fun p hp => by cases p <;> simp_all [Part.same])

/-! ### STATE of an axis -/

theorem axisState_setAxisState {a st : Nat} (h : st < 8) (s : State) : (setAxisState a st s).axisState a = st :=
  (State.fget_fset_self s (F.MOT_AX_STATUS_STATE a) st (by decide : 3 ≤ 32)).trans (Nat.mod_eq_of_lt h)

/-- A field of STATUS above STATE. -/
theorem fget_setAxisState_other {a b lo w st : Nat} (h : 3 ≤ lo) (s : State) :
    (setAxisState a st s).fget ⟨R.MOT_AX_STATUS b, lo, w⟩ = s.fget ⟨R.MOT_AX_STATUS b, lo, w⟩ :=
  State.fget_fset_other s (F.MOT_AX_STATUS_STATE a) ⟨R.MOT_AX_STATUS b, lo, w⟩ st (.inr (.inr h))

end Sys2Proof.Machine
end

section
/-! PROOF. SERVO_BOUNDARY (R232, R254) at which the cox comes to IDLE, while the lane map bank in service is neither of the two of R195. -/

namespace Sys2Proof.Machine

/-- RUNOUT with no course left and X at rest, while a side frame waits for a slot on lane 0. Bank 344 of the lane map is in service, and
check bits name data bit 0 of its last word (R317). -/
def strayRunOut : State :=
  let s := State.reset.fset F.COX_STATUS_STATE 7
  { s with
    banks := { s.banks with lanes := { s.banks.lanes with active := 344 } }
    bln := { s.bln with side := some heldJob }
    mem := { s.mem with flips := [(strayWord, 19)] } }

/-- The cox comes to IDLE, the lanes return to READY, and the side frame that leaves reads the bank in service: the correction of the stray
word is written back (R197, R241, R318). -/
theorem strayRunOut_corrected : (servoBoundaryOp strayRunOut.begin).reg strayWord = 1#32 ∧ strayRunOut.reg strayWord = 0#32 := by
  decide +kernel

/-- Refutes O42: nothing in the statement keeps the number of the lane map's bank in service below 2. With bank 344 in service the read of the
lane map as the cox comes to IDLE corrects a word at 0x1703FC, in a block that the frame of the statement does not exempt. The model's own
commands bring that number to 0 and 1 alone, so that no run from reset reaches the state. -/
theorem not_servoBoundaryBringsSetPointsIntoForce : ¬ Obligations.ServoBoundaryBringsSetPointsIntoForce := by
  unfold Obligations.ServoBoundaryBringsSetPointsIntoForce
  intro h
  obtain ⟨hafter, hbefore⟩ := strayRunOut_corrected
  obtain ⟨t, ht, -, -, -, -, hframe⟩ := h strayRunOut
  obtain rfl := Host.Outcome.next.inj (ht.symm.trans (done_next servoBoundaryOp strayRunOut))
  have same := hframe.2 strayWord (by decide) (by decide)
  rw [reg_settled _ _ _ _ (by decide), hafter, hbefore] at same
  exact absurd same (by decide)

end Sys2Proof.Machine
end

section
/-! PROOF. The host's orders to an axis and the registers beside them (R254, R259, R261, R262, R272, R274, R275). -/

namespace Sys2Proof.Machine

/-! ### Orders kept for the next boundary -/

/-- An order kept for the next boundary (R262). -/
def keepOrder (a : Nat) (o : NewOrder) (s : State) : State := s.setAxis a { s.axis a with next := some o }

theorem hostOrder_of_mayTake {s : State} {a : Nat} {o : NewOrder} (hc : s.coxState = 0) (hn : (s.axis a).next = none)
    (hm : mayTake s a o = true) : hostOrder a o s = keepOrder a o s := by
  simp [hostOrder, keepOrder, hc, hn, hm]

theorem completes_keepOrder {c : Instr} {s : State} {a : Nat} {o : NewOrder} (ha : a < 2) (op : State → State)
    (hc : exec c s = done c.wf op s) (hw : c.wf = true) (hop : op s.begin = keepOrder a o s.begin) :
    Completes c s (fun t => t.axis a = { s.axis a with next := some o } ∧ t.axis (1 - a) = s.axis (1 - a) ∧ Frame [.mot] [] s t) := by
  refine completes_of_wf op hc hw ?_
  rw [hop, axis_settled, axis_settled, keepOrder, State.axis_setAxis_self, State.axis_setAxis_other ha]
  exact ⟨rfl, rfl, Frame.settled _ (frame_setAxis _ _ _ _)⟩

theorem completes_move {s : State} {a : Nat} (ha : a < 2) (hc : s.coxState = 0) (hn : (s.axis a).next = none)
    (hm : mayTake s a (.order (.move (s.pos48 (F.MOT_AX_TARGET_LO_POS a) (F.MOT_AX_TARGET_HI_POS a)))) = true) :
    Completes (.move a) s (fun t =>
      t.axis a = { s.axis a with next := some (.order (.move (s.pos48 (F.MOT_AX_TARGET_LO_POS a) (F.MOT_AX_TARGET_HI_POS a)))) } ∧
      t.axis (1 - a) = s.axis (1 - a) ∧ Frame [.mot] [] s t) :=
  completes_keepOrder ha (moveOp a) rfl (decide_eq_true ha) (hostOrder_of_mayTake (s := s.begin) hc hn hm)

theorem completes_velocity {s : State} {a : Nat} (ha : a < 2) (hc : s.coxState = 0) (hn : (s.axis a).next = none)
    (hm : mayTake s a (.order (.velocity (s.sget (F.MOT_AX_JOG_V a)))) = true) :
    Completes (.velocity a) s (fun t => t.axis a = { s.axis a with next := some (.order (.velocity (s.sget (F.MOT_AX_JOG_V a)))) } ∧
      t.axis (1 - a) = s.axis (1 - a) ∧ Frame [.mot] [] s t) :=
  completes_keepOrder ha (velocityOp a) rfl (decide_eq_true ha) (hostOrder_of_mayTake (s := s.begin) hc hn hm)

theorem completes_stop {s : State} {a : Nat} (ha : a < 2) (hc : s.coxState = 0) (hn : (s.axis a).next = none) :
    Completes (.stop a) s (fun t => t.axis a = { s.axis a with next := some (.order .stop) } ∧ t.axis (1 - a) = s.axis (1 - a) ∧
      Frame [.mot] [] s t) := by
  refine completes_keepOrder ha (stopOp a) rfl (decide_eq_true ha) ?_
  simp [stopOp, show s.begin.coxState = 0 from hc, hn, keepOrder]

/-! ### The reference lost -/

theorem frame_loseRef (a : Nat) (s : State) : Frame [.mot] [R.MOT_AX_STATUS a, R.MOT_AX_EVENTS a] s (loseRef a s) := by
  have shown : Frame [.mot] [R.MOT_AX_STATUS a, R.MOT_AX_EVENTS a] s
      ((s.clear (F.MOT_AX_STATUS_REF a)).raise (F.MOT_AX_EVENTS_REF_LOST a)) :=
    (Frame.clear _ _ _ (F.MOT_AX_STATUS_REF a) (.head _)).trans (Frame.raise _ _ _ (F.MOT_AX_EVENTS_REF_LOST a) (.tail _ (.head _)))
  unfold loseRef
  dsimp only
  split
  · split
    · exact shown.trans (frame_setMot _ _ _)
    · exact shown
  · exact Frame.refl _ _ s

@[simp] theorem axis_loseRef (a b : Nat) (s : State) : (loseRef a s).axis b = s.axis b := by
  unfold loseRef
  dsimp only
  split
  · split <;> rfl
  · rfl

theorem axStatus_ne_axEvents (a b : Nat) : R.MOT_AX_STATUS a ≠ R.MOT_AX_EVENTS b := by
  simp only [R.MOT_AX_STATUS, R.MOT_AX_EVENTS]
  omega

theorem loseRef_regs_of_ref {a : Nat} {s : State} (h : s.ref a = true) :
    (loseRef a s).regs = ((s.clear (F.MOT_AX_STATUS_REF a)).raise (F.MOT_AX_EVENTS_REF_LOST a)).regs := by
  unfold loseRef
  rw [if_pos h]
  dsimp only
  split <;> rfl

theorem loseRef_ref (a : Nat) (s : State) : (loseRef a s).ref a = false ∧
    (s.ref a = true → (loseRef a s).flag (F.MOT_AX_EVENTS_REF_LOST a) = true) := by
  cases h : s.ref a with
  | false => simp [loseRef, h]
  | true =>
    have same (f : Fld) : (loseRef a s).flag f = ((s.clear (F.MOT_AX_STATUS_REF a)).raise (F.MOT_AX_EVENTS_REF_LOST a)).flag f := by
      simp only [State.flag, State.fget, State.reg, loseRef_regs_of_ref h]
    rw [State.ref, same, same, State.flag_raise_ne _ (axStatus_ne_axEvents a a)]
    exact ⟨State.flag_clear_self _ _ (by decide : 5 ≤ 32), fun _ => State.flag_raise_self _ _ (by decide : 5 ≤ 32) (by decide : 0 < 1)⟩


theorem completes_home {s : State} {a : Nat} (ha : a < 2) (hc : s.coxState = 0) (hn : (s.axis a).next = none)
    (hm : mayTake s a .home = true) : Completes (.home a) s (fun t => t.axis a = { s.axis a with next := some .home } ∧ t.ref a = false ∧
      (s.ref a = true → t.flag (F.MOT_AX_EVENTS_REF_LOST a) = true) ∧ Frame [.mot] [R.MOT_AX_STATUS a, R.MOT_AX_EVENTS a] s t) := by
  refine completes_of_wf (homeOp a) rfl (decide_eq_true ha) ?_
  have kept : hostOrder a .home s.begin = keepOrder a .home s.begin := hostOrder_of_mayTake (s := s.begin) hc hn hm
  have taken : homeOp a s.begin = loseRef a (keepOrder a .home s.begin) := by simp [homeOp, kept, keepOrder, hn]
  obtain ⟨hlost, hevent⟩ := loseRef_ref a (keepOrder a .home s.begin)
  rw [taken, axis_settled, axis_loseRef, keepOrder, State.axis_setAxis_self, ref_settled,
    flag_settled _ _ _ _ (recorderReg_offset _ _ (by decide))]
  refine ⟨rfl, hlost, fun href => hevent ?_, Frame.settled _ ?_⟩
  · rw [State.ref, keepOrder, State.flag_setAxis]
    exact href
  · exact (frame_setAxis _ _ _ _).trans (frame_loseRef _ _)

/-! ### Orders refused (R262) -/

theorem hostOrder_of_course {s : State} (hc : s.coxState ≠ 0) (a : Nat) (o : NewOrder) : hostOrder a o s = cmdRefused s := by
  simp [hostOrder, hc]

theorem orderOp_of_course {s : State} (hc : s.coxState ≠ 0) (a : Nat) : moveOp a s = cmdRefused s ∧ velocityOp a s = cmdRefused s ∧
    homeOp a s = cmdRefused s ∧ stopOp a s = cmdRefused s := by
  refine ⟨hostOrder_of_course hc _ _, hostOrder_of_course hc _ _, ?_, if_pos hc⟩
  have kept : ((cmdRefused s).axis a).next = (s.axis a).next := rfl
  rw [homeOp, hostOrder_of_course hc]
  exact if_neg (fun h => h.2 (kept ▸ h.1))

theorem completes_cmdRefused {c : Instr} {s : State} (op : State → State) (hc : exec c s = done c.wf op s) (hw : c.wf = true)
    (hop : op s.begin = cmdRefused s.begin) : Completes c s (fun t => t.flag F.MOT_EVENTS_CMD_REFUSED = true ∧ Frame [] [R.MOT_EVENTS] s t) := by
  refine completes_of_wf op hc hw ?_
  rw [hop, flag_settled _ _ _ _ (by decide)]
  exact ⟨State.flag_raise_self _ _ (by decide) (by decide), Frame.settled _ (Frame.raise _ _ _ F.MOT_EVENTS_CMD_REFUSED (.head _))⟩

theorem completes_orders_of_course {s : State} {a : Nat} (ha : a < 2) (hc : s.coxState ≠ 0) :
    ∀ c ∈ [Instr.move a, .velocity a, .home a, .stop a], Completes c s (fun t =>
      t.flag F.MOT_EVENTS_CMD_REFUSED = true ∧ Frame [] [R.MOT_EVENTS] s t) := by
  have wf : decide (a < 2) = true := decide_eq_true ha
  obtain ⟨hmove, hvelocity, hhome, hstop⟩ := orderOp_of_course (s := s.begin) hc a
  intro c m
  simp only [List.mem_cons, List.not_mem_nil, or_false] at m
  obtain rfl | rfl | rfl | rfl := m
  · exact completes_cmdRefused (moveOp a) rfl wf hmove
  · exact completes_cmdRefused (velocityOp a) rfl wf hvelocity
  · exact completes_cmdRefused (homeOp a) rfl wf hhome
  · exact completes_cmdRefused (stopOp a) rfl wf hstop

/-! ### CLEAR (R259, R270) -/

/-- FAULT taken away, with its code. -/
def faultCleared (a : Nat) (s : State) : State := (setAxisState a 0 s).clear (F.MOT_AX_STATUS_FAULT a)

/-- An axis left DISABLED by CLEAR stands where its set-point does. -/
def holdStill (a : Nat) (s : State) : State :=
  s.setAxis a { s.axis a with prof := { p := (s.axis a).sp.pos * unitP, v := 0, a := 0 }, order := .hold, next := none }

/-- ENABLED of a DISABLED axis brought up to date: it enters REST where its drive is ready (R257, R259). -/
theorem refreshEnable_of_disabled {a : Nat} {s : State} (h : s.axisState a = 0) : refreshEnable a s =
    if s.driveReady a then setAxisState a 1 (s.fset (F.MOT_AX_STATUS_ENABLED a) 1) else s.fset (F.MOT_AX_STATUS_ENABLED a) 0 := by
  cases hd : s.driveReady a <;> simp [refreshEnable, h, hd, bitOf]


theorem driveReady_faultCleared (a : Nat) (s : State) : (faultCleared a s).driveReady a = s.driveReady a := by
  have ctl : (faultCleared a s).flag (F.MOT_AX_CTL_ENABLE a) = s.flag (F.MOT_AX_CTL_ENABLE a) := by
    have apart : R.MOT_AX_CTL a ≠ R.MOT_AX_STATUS a := by simp only [R.MOT_AX_CTL, R.MOT_AX_STATUS]; omega
    exact (State.flag_fset_other _ (F.MOT_AX_STATUS_FAULT a) _ _ (.inl apart)).trans
      (State.flag_fset_other _ (F.MOT_AX_STATUS_STATE a) _ _ (.inl apart))
  have status (lo : Nat) (h3 : 3 ≤ lo) (h16 : lo + 1 ≤ 16) : (faultCleared a s).flag ⟨R.MOT_AX_STATUS a, lo, 1⟩ = s.flag ⟨R.MOT_AX_STATUS a, lo, 1⟩ :=
    (State.flag_fset_other _ (F.MOT_AX_STATUS_FAULT a) ⟨R.MOT_AX_STATUS a, lo, 1⟩ _ (.inr (.inl h16))).trans
      (State.flag_fset_other _ (F.MOT_AX_STATUS_STATE a) ⟨R.MOT_AX_STATUS a, lo, 1⟩ _ (.inr (.inr h3)))
  have image : (faultCleared a s).harbour = s.harbour := by
    have apart : R.CFG_STATUS ≠ R.MOT_AX_STATUS a := by simp only [R.CFG_STATUS, R.MOT_AX_STATUS]; omega
    exact (State.flag_fset_other _ (F.MOT_AX_STATUS_FAULT a) _ _ (.inl apart)).trans
      (State.flag_fset_other _ (F.MOT_AX_STATUS_STATE a) _ _ (.inl apart))
  have ready := status 9 (by decide) (by decide)
  have power := status 10 (by decide) (by decide)
  simp only [State.driveReady, ctl, image]
  exact congrArg₂ (fun r p => s.flag (F.MOT_AX_CTL_ENABLE a) && s.ampOn a && r && p && !s.harbour) ready power

/-- An axis that leaves FAULT: enabled and in REST where its drive is ready, DISABLED otherwise, and with no code. -/
theorem refreshEnable_faultCleared (a : Nat) (s : State) :
    let t := refreshEnable a (faultCleared a s)
    t.axisState a = (if s.driveReady a then 1 else 0) ∧ t.enabled a = s.driveReady a ∧ t.fget (F.MOT_AX_STATUS_FAULT a) = 0 ∧
      Frame [.mot] [R.MOT_AX_STATUS a] s t := by
  have disabled : (faultCleared a s).axisState a = 0 :=
    (State.fget_fset_other _ (F.MOT_AX_STATUS_FAULT a) (F.MOT_AX_STATUS_STATE a) _ (.inr (by decide : 3 ≤ 16 ∨ 19 ≤ 0))).trans
      (axisState_setAxisState (by decide) s)
  have code : (faultCleared a s).fget (F.MOT_AX_STATUS_FAULT a) = 0 := State.fget_clear_self _ _ (by decide : 19 ≤ 32)
  have written (f : Fld) (v : Nat) (u : State) (hf : f.addr = R.MOT_AX_STATUS a) : Frame [.mot] [R.MOT_AX_STATUS a] u (u.fset f v) :=
    Frame.fset _ _ u f v (by rw [hf]; exact .head _)
  have cleared : Frame [.mot] [R.MOT_AX_STATUS a] s (faultCleared a s) :=
    (written (F.MOT_AX_STATUS_STATE a) 0 s rfl).trans (written (F.MOT_AX_STATUS_FAULT a) 0 _ rfl)
  have apart (v : Nat) (u : State) : (u.fset (F.MOT_AX_STATUS_ENABLED a) v).fget (F.MOT_AX_STATUS_FAULT a) = u.fget (F.MOT_AX_STATUS_FAULT a) :=
    State.fget_fset_other _ (F.MOT_AX_STATUS_ENABLED a) _ _ (.inr (by decide : 19 ≤ 3 ∨ 4 ≤ 16))
  rw [refreshEnable_of_disabled disabled, driveReady_faultCleared]
  cases s.driveReady a with
  | true =>
    refine ⟨axisState_setAxisState (by decide) _, ?_, ?_, (cleared.trans (written (F.MOT_AX_STATUS_ENABLED a) 1 _ rfl)).trans
      (written (F.MOT_AX_STATUS_STATE a) 1 _ rfl)⟩
    · exact (congrArg (· != 0) (fget_setAxisState_other (by decide) _)).trans (State.flag_fset_bitOf _ (R.MOT_AX_STATUS a) 3 true (by decide))
    · exact ((fget_setAxisState_other (by decide) _).trans (apart 1 _)).trans code
  | false =>
    refine ⟨?_, State.flag_fset_bitOf _ (R.MOT_AX_STATUS a) 3 false (by decide), (apart 0 _).trans code,
      cleared.trans (written (F.MOT_AX_STATUS_ENABLED a) 0 _ rfl)⟩
    exact (State.fget_fset_other _ (F.MOT_AX_STATUS_ENABLED a) (F.MOT_AX_STATUS_STATE a) _ (.inr (by decide : 3 ≤ 3 ∨ 4 ≤ 0))).trans disabled

section
variable {s : State} {a : Nat} (h6 : s.axisState a = 6) (hp : s.flag (F.MOT_AX_STATUS_LIM_POS a) = false)
  (hn : s.flag (F.MOT_AX_STATUS_LIM_NEG a) = false) (hd : s.flag (F.MOT_AX_STATUS_DRV_FAULT a) = false)
  (hr : (s.axis a).badRun < max 1 (s.fget F.MOT_DRV_CTL_STS_LIMIT))
include h6 hp hn hd hr

theorem clearOp_of_no_cause : clearOp a s =
    let t := refreshEnable a (faultCleared a s)
    if t.enabled a then t else holdStill a t := by
  have good : decide (max 1 (s.fget F.MOT_DRV_CTL_STS_LIMIT) ≤ (s.axis a).badRun) = false := decide_eq_false (Nat.not_le.mpr hr)
  refine if_pos ⟨h6, ?_⟩
  rw [hp, hn, hd, good]
  rfl

theorem clearOp_spec : (clearOp a s).axisState a = (if s.driveReady a then 1 else 0) ∧ (clearOp a s).enabled a = s.driveReady a ∧
    (clearOp a s).fget (F.MOT_AX_STATUS_FAULT a) = 0 ∧ Frame [.mot] [R.MOT_AX_STATUS a] s (clearOp a s) := by
  obtain ⟨hstate, henabled, hcode, hframe⟩ := refreshEnable_faultCleared a s
  rw [clearOp_of_no_cause h6 hp hn hd hr]
  dsimp only
  split
  · exact ⟨hstate, henabled, hcode, hframe⟩
  · rw [holdStill, State.axisState, State.enabled, State.fget_setAxis, State.flag_setAxis, State.fget_setAxis]
    exact ⟨hstate, henabled, hcode, hframe.trans (frame_setAxis _ _ _ _)⟩

theorem completes_clear (ha : a < 2) : Completes (.clear a) s (fun t =>
    t.axisState a = (if s.driveReady a then 1 else 0) ∧ t.enabled a = s.driveReady a ∧ t.fget (F.MOT_AX_STATUS_FAULT a) = 0 ∧
    Frame [.mot] [R.MOT_AX_STATUS a] s t) := by
  refine completes_of_wf (clearOp a) rfl (decide_eq_true ha) ?_
  obtain ⟨hstate, henabled, hcode, hframe⟩ := clearOp_spec (s := s.begin) h6 hp hn hd hr
  rw [axisState_settled, enabled_settled, fget_settled _ _ _ _ (recorderReg_offset _ _ (by decide))]
  exact ⟨hstate, henabled, hcode, Frame.settled _ hframe⟩

end

/-! ### AXIS_POWER_WRITE (R274) -/

/-- POWER stored. -/
theorem completes_axisPower {s : State} {a : Nat} {on : Bool} (ha : a < 2) (h : on = true ∨ (s.axis a).moving = false) :
    Completes (.axisPowerWrite a on) s (fun t => t.flag (F.MOT_AX_CTL_POWER a) = on ∧ Frame [] [R.MOT_AX_CTL a] s t) := by
  refine completes_of_wf (axisPowerOp a on) rfl (decide_eq_true ha) ?_
  have stored : axisPowerOp a on s.begin = s.begin.fset (F.MOT_AX_CTL_POWER a) (bitOf on) := by
    refine if_neg ?_
    rcases h with h | h <;> simp [h]
  rw [stored, flag_settled _ _ _ _ (recorderReg_offset _ _ (by decide))]
  exact ⟨State.flag_fset_bitOf _ (R.MOT_AX_CTL a) 1 on (by decide), Frame.settled _ (Frame.fset _ _ _ (F.MOT_AX_CTL_POWER a) _ (.head _))⟩

/-- A stop of an axis in MOVING (R259, R262). -/
theorem stopAxis_of_moving {s : State} {a : Nat} (h : s.axisState a = 2) (o : AxisOrder) : stopAxis a o s =
    setAxisState a 5 (s.setAxis a { s.axis a with order := s.stopOrder o, next := none, homing := none }) := by
  have state : (s.setAxis a { s.axis a with order := s.stopOrder o, next := none, homing := none }).axisState a = 2 :=
    (State.fget_setAxis _ _ _ _).trans h
  simp [stopAxis, moveState, h, state]

theorem completes_axisPower_moving {s : State} {a : Nat} (ha : a < 2) (hm : (s.axis a).moving = true) (h2 : s.axisState a = 2) :
    Completes (.axisPowerWrite a false) s (fun t => t.flag (F.MOT_AX_CTL_POWER a) = false ∧ t.axisState a = 5 ∧
      (t.axis a).order = s.stopOrder .stop ∧ Frame [.mot] [R.MOT_AX_CTL a, R.MOT_AX_STATUS a] s t) := by
  refine completes_of_wf (axisPowerOp a false) rfl (decide_eq_true ha) ?_
  have apart : R.MOT_AX_CTL a ≠ R.MOT_AX_STATUS a := by simp only [R.MOT_AX_CTL, R.MOT_AX_STATUS]; omega
  have state : (s.begin.fset (F.MOT_AX_CTL_POWER a) 0).axisState a = 2 :=
    (State.fget_fset_other _ (F.MOT_AX_CTL_POWER a) (F.MOT_AX_STATUS_STATE a) _ (.inl apart.symm)).trans h2
  have stopped : axisPowerOp a false s.begin = stopAxis a .stop (s.begin.fset (F.MOT_AX_CTL_POWER a) 0) := by
    simp [axisPowerOp, hm, show s.begin.axisState a = 2 from h2, bitOf]
  rw [stopped, axis_settled, axisState_settled, flag_settled _ _ _ _ (recorderReg_offset _ _ (by decide))]
  have power : (stopAxis a .stop (s.begin.fset (F.MOT_AX_CTL_POWER a) 0)).flag (F.MOT_AX_CTL_POWER a) = false :=
    ((frame_stopAxis a .stop _).flag _ (by simpa [F.MOT_AX_CTL_POWER] using apart) (recorderReg_offset _ _ (by decide))).trans
      (State.flag_clear_self _ _ (by decide : 2 ≤ 32))
  refine ⟨power, ?_, ?_, Frame.settled _ ?_⟩
  · rw [stopAxis_of_moving state]
    exact axisState_setAxisState (by decide) _
  · rw [stopAxis_of_moving state, setAxisState, State.axis_fset, State.axis_setAxis_self]
    rfl
  · exact (Frame.fset _ _ _ (F.MOT_AX_CTL_POWER a) _ (.head _)).trans ((frame_stopAxis a .stop _).mono (by simp) (by simp))

/-! ### ADIST_QUERY (R261) -/

/-- A register whose word a unit shows (R7). -/
theorem peek_of_unit {s : State} {a v : Nat} (hw : a < 0x800000) (hd : (descOf a).isSome = true) (hr : resultBase a = none)
    (hu : peekUnit s a = some v) : peek s a = BitVec.ofNat 32 v := by
  obtain ⟨d, hd⟩ := Option.isSome_iff_exists.mp hd
  rw [peek, if_neg (by omega), hd, hr, hu]

/-- MOT_AX_ADIST reads as the run-up distance of the velocity asked for. -/
theorem peek_adist {a : Nat} (ha : a < 2) (s : State) : peek s (R.MOT_AX_ADIST a) = BitVec.ofNat 32 (s.adist a) := by
  obtain rfl | rfl : a = 0 ∨ a = 1 := by omega
  · exact peek_of_unit (by decide) (by decide +kernel) (by decide +kernel) rfl
  · exact peek_of_unit (by decide) (by decide +kernel) (by decide +kernel) rfl

theorem completes_adistQuery {s : State} {a v : Nat} (ha : a < 2) (hv : v < 2 ^ 24) : Completes (.adistQuery a v) s (fun t =>
    t.fget (F.MOT_AX_ADIST_V_V a) = v ∧
    (∀ d, runUp ((s.axis a).limits s.mot.period) (min v (s.axis a).vmax * unitV) = some d →
      (peek t (R.MOT_AX_ADIST a)).toNat = min (-((-d) / (1024 * unitP))).toNat (2 ^ 32 - 1)) ∧
    Frame [] [R.MOT_AX_ADIST_V a] s t) := by
  refine completes_of_wf (adistOp a v) rfl (decide_eq_true ⟨ha, hv⟩) ?_
  have stored : (adistOp a v s.begin).fget (F.MOT_AX_ADIST_V_V a) = v :=
    (State.fget_fset_self _ (F.MOT_AX_ADIST_V_V a) v (by decide : 24 ≤ 32)).trans (Nat.mod_eq_of_lt hv)
  have kept := (fget_settled s.begin (adistOp a v s.begin) s.pending (F.MOT_AX_ADIST_V_V a) (recorderReg_offset _ _ (by decide))).trans stored
  refine ⟨kept, fun d hd => ?_, Frame.settled _ (Frame.fset _ _ _ (F.MOT_AX_ADIST_V_V a) _ (.head _))⟩
  have motion : ({ settle s.begin (adistOp a v s.begin) with pending := s.pending } : State).mot = s.mot := settle_mot _ _
  rw [peek_adist ha, State.adist, kept, motion, axis_settled, adistOp, State.axis_fset, State.begin_axis]
  rw [hd, BitVec.toNat_ofNat]
  exact Nat.mod_eq_of_lt (by omega)

/-! ### SERVO_PERIOD_WRITE (R254) -/

theorem completes_servoPeriod {s : State} {v : Nat} (hv : v < 128) (hr : s.running = none) (hx : s.atRest 0 = true) (hy : s.atRest 1 = true) :
    Completes (.servoPeriodWrite v) s (fun t => t.fget F.MOT_SERVO_PERIOD = max 10 (min 100 v) ∧ Frame [] [R.MOT_SERVO] s t) := by
  refine completes_of_wf (servoPeriodOp v) rfl (decide_eq_true hv) ?_
  have free : ¬ (s.begin.running.isSome || !s.begin.atRest 0 || !s.begin.atRest 1) = true := by
    simp [show s.begin.running = none from hr, show s.begin.atRest 0 = true from hx, show s.begin.atRest 1 = true from hy]
  have stored : servoPeriodOp v s.begin = s.begin.fset F.MOT_SERVO_PERIOD (max 10 (min 100 v)) := if_neg free
  rw [stored, fget_settled _ _ _ _ (by decide), State.fget_fset_self _ _ _ (by decide)]
  exact ⟨Nat.mod_eq_of_lt (by show _ < 2 ^ 7; omega), Frame.settled _ (Frame.fset _ _ _ F.MOT_SERVO_PERIOD _ (.head _))⟩

theorem completes_servoPeriod_refused {s : State} {v : Nat} (hv : v < 128)
    (h : s.running.isSome = true ∨ s.atRest 0 = false ∨ s.atRest 1 = false) : Completes (.servoPeriodWrite v) s (fun t =>
      t.flag F.MOT_EVENTS_SERVO_REFUSED = true ∧ Frame [] [R.MOT_EVENTS] s t) := by
  refine completes_of_wf (servoPeriodOp v) rfl (decide_eq_true hv) ?_
  have busy : (s.begin.running.isSome || !s.begin.atRest 0 || !s.begin.atRest 1) = true := by
    show (s.running.isSome || !s.atRest 0 || !s.atRest 1) = true
    rcases h with h | h | h <;> simp [h]
  have refused : servoPeriodOp v s.begin = s.begin.raise F.MOT_EVENTS_SERVO_REFUSED := if_pos busy
  rw [refused, flag_settled _ _ _ _ (by decide)]
  exact ⟨State.flag_raise_self _ _ (by decide) (by decide), Frame.settled _ (Frame.raise _ _ _ F.MOT_EVENTS_SERVO_REFUSED (.head _))⟩

/-- Settles O43: an order taken is one field of its axis, an order refused one bit, and each other command a few writes of one register. -/
theorem axisOrders : Obligations.AxisOrders := by
  unfold Obligations.AxisOrders
  refine fun s a ha => ⟨fun hc hn => ⟨completes_move ha hc hn, completes_velocity ha hc hn, completes_home ha hc hn, completes_stop ha hc hn⟩,
    completes_orders_of_course ha, fun h6 hp hn hd hr => completes_clear h6 hp hn hd hr ha, completes_axisPower ha (.inl rfl), fun hm => completes_axisPower ha (.inr hm),
    completes_axisPower_moving ha, fun v hv => completes_adistQuery ha hv, fun v hv => ⟨completes_servoPeriod hv, completes_servoPeriod_refused hv⟩⟩

end Sys2Proof.Machine
end

section
/-! SUPPORT. What steers an axis: the end of a segment table (R268), ENABLED brought up to date (R259), and FAULT. Each changes the profile, the
orders and the homing of an axis, and a few fields of MOT_AX_STATUS. -/

namespace Sys2Proof.Machine

/-! ### An axis steered -/

/-- An axis with another profile, other orders and other homing. -/
def Axis.Steered (x y : Axis) : Prop := ∃ p o n h, y = { x with prof := p, order := o, next := n, homing := h }

theorem Axis.Steered.refl (x : Axis) : x.Steered x := ⟨_, _, _, _, rfl⟩

theorem Axis.Steered.trans {x y z : Axis} (h : x.Steered y) (k : y.Steered z) : x.Steered z := by
  obtain ⟨p, o, n, m, rfl⟩ := h
  obtain ⟨p', o', n', m', rfl⟩ := k
  exact ⟨p', o', n', m', rfl⟩

theorem Axis.Steered.kept {x y : Axis} (h : x.Steered y) : y.awaiting = x.awaiting ∧ y.badRun = x.badRun := by
  obtain ⟨p, o, n, m, rfl⟩ := h
  exact ⟨rfl, rfl⟩

/-- The registers that the end of a table writes (R259, R268). -/
def tableRegs : List Nat := [R.MOT_AX_STATUS 0, R.MOT_AX_STATUS 1, R.MOT_TBL_STATUS, R.MOT_EVENTS]

/-- The axes steered: of MOT_AX_STATUS no field above ENABLED is written. -/
structure Steers (s t : State) : Prop where
  frame : Frame [.mot] tableRegs s t
  axis : ∀ b, (s.axis b).Steered (t.axis b)
  status : ∀ b lo w, 4 ≤ lo → t.fget ⟨R.MOT_AX_STATUS b, lo, w⟩ = s.fget ⟨R.MOT_AX_STATUS b, lo, w⟩

theorem Steers.refl (s : State) : Steers s s := ⟨Frame.refl _ _ s, fun _ => .refl _, fun _ _ _ _ => rfl⟩

theorem Steers.trans {s t u : State} (h : Steers s t) (k : Steers t u) : Steers s u :=
  ⟨h.frame.trans k.frame, fun b => (h.axis b).trans (k.axis b), fun b lo w hl => (k.status b lo w hl).trans (h.status b lo w hl)⟩

theorem State.axis_setAxis (s : State) (a b : Nat) (x : Axis) :
    (s.setAxis a x).axis b = if a = 0 ↔ b = 0 then x else s.axis b := by
  unfold State.setAxis State.axis
  by_cases ha : a = 0 <;> by_cases hb : b = 0 <;> simp [ha, hb]

theorem axis_eq_of_iff {a b : Nat} (h : a = 0 ↔ b = 0) (s : State) : s.axis b = s.axis a := by
  unfold State.axis
  simp only [h]

theorem steers_setAxis {a : Nat} {s : State} {x : Axis} (h : (s.axis a).Steered x) : Steers s (s.setAxis a x) := by
  refine ⟨frame_setAxis _ s a x, fun b => ?_, fun _ _ _ _ => State.fget_setAxis _ _ _ _⟩
  rw [State.axis_setAxis]
  split
  · next same => rw [axis_eq_of_iff same]; exact h
  · exact .refl _

theorem axStatus_mem_tableRegs {a : Nat} (ha : a < 2) : R.MOT_AX_STATUS a ∈ tableRegs := by
  obtain rfl | rfl : a = 0 ∨ a = 1 := by omega
  · exact .head _
  · exact .tail _ (.head _)

/-- STATE or ENABLED written. -/
theorem steers_fset {a lo w : Nat} (ha : a < 2) (h : lo + w ≤ 4) (v : Nat) (s : State) : Steers s (s.fset ⟨R.MOT_AX_STATUS a, lo, w⟩ v) :=
  ⟨Frame.fset _ _ s ⟨R.MOT_AX_STATUS a, lo, w⟩ v (axStatus_mem_tableRegs ha), fun _ => .refl _, fun b l n hl =>
    State.fget_fset_other s ⟨R.MOT_AX_STATUS a, lo, w⟩ ⟨R.MOT_AX_STATUS b, l, n⟩ v (.inr (.inr (h.trans hl)))⟩

theorem steers_setAxisState {a : Nat} (ha : a < 2) (st : Nat) (s : State) : Steers s (setAxisState a st s) := steers_fset ha (by decide) st s

/-- A register apart from MOT_AX_STATUS written. -/
theorem steers_fset_apart {f : Fld} (hm : f.addr = R.MOT_TBL_STATUS ∨ f.addr = R.MOT_EVENTS) (v : Nat) (s : State) : Steers s (s.fset f v) := by
  refine ⟨Frame.fset _ _ s f v ?_, fun _ => .refl _, fun b lo w _ => State.fget_fset_other s f ⟨R.MOT_AX_STATUS b, lo, w⟩ v (.inl ?_)⟩
  · rcases hm with hm | hm <;> simp [hm, tableRegs]
  · rcases hm with hm | hm <;> simp only [hm, R.MOT_AX_STATUS, R.MOT_TBL_STATUS, R.MOT_EVENTS] <;> omega

/-- What the motion unit keeps beside its axes replaced. -/
theorem steers_setMot {s : State} {m : Motion} (hx : m.x = s.mot.x) (hy : m.y = s.mot.y) : Steers s { s with mot := m } := by
  refine ⟨frame_setMot _ _ _, fun b => ?_, fun _ _ _ _ => rfl⟩
  have same : ({ s with mot := m } : State).axis b = s.axis b := by simp only [State.axis, hx, hy]
  rw [same]
  exact .refl _

/-! ### The end of a table (R268) -/

/-- An axis leaves its table for a stop begun from the set-point in force. -/
def leaveTable (a : Nat) (s : State) : State :=
  let s1 := s.setAxis a { s.axis a with prof := profileOf s.mot.period (s.axis a).sp, order := .stop, next := none }
  if s.axisState a = 4 then setAxisState a 5 s1 else s1

theorem steers_leaveTable {a : Nat} (ha : a < 2) (s : State) : Steers s (leaveTable a s) := by
  have left := steers_setAxis (a := a) (s := s) ⟨profileOf s.mot.period (s.axis a).sp, .stop, none, (s.axis a).homing, rfl⟩
  unfold leaveTable
  dsimp only
  split
  · exact left.trans (steers_setAxisState ha 5 _)
  · exact left

/-- A table that runs has ended. -/
def tableEnded (s : State) : State := ((leaveTable 1 (leaveTable 0 s)).clear F.MOT_TBL_STATUS_RUNNING).raise F.MOT_EVENTS_TBL_DONE

/-- The end of a table that does not run is nothing; any other goes on under a blend, or without one. -/
theorem endTable_eq (blended : Bool) (s : State) : endTable blended s =
    if s.mot.table.isNone || !s.flag F.MOT_TBL_STATUS_RUNNING then s
    else if blended && s.fget F.MOT_TBL_BLEND_N != 0 then
      { (tableEnded s).raise F.MOT_TBL_STATUS_BLENDING with
        mot := { (tableEnded s).mot with blend := some { b := 0, n := s.fget F.MOT_TBL_BLEND_N, toTable := false } } }
    else { (tableEnded s).clear F.MOT_TBL_STATUS_BLENDING with mot := { (tableEnded s).mot with table := none, blend := none } } := rfl

theorem steers_tableEnded (s : State) : Steers s (tableEnded s) :=
  (((steers_leaveTable (by decide) s).trans (steers_leaveTable (by decide) _)).trans
    (steers_fset_apart (f := F.MOT_TBL_STATUS_RUNNING) (by decide) 0 _)).trans
    (steers_fset_apart (f := F.MOT_EVENTS_TBL_DONE) (by decide) _ _)

theorem steers_endTable (blended : Bool) (s : State) : Steers s (endTable blended s) := by
  rw [endTable_eq]
  split
  · exact .refl s
  · have ended := steers_tableEnded s
    generalize tableEnded s = u at ended
    have blending (v : Nat) : Steers s (u.fset F.MOT_TBL_STATUS_BLENDING v) :=
      ended.trans (steers_fset_apart (f := F.MOT_TBL_STATUS_BLENDING) (by decide) v u)
    split
    · exact (blending _).trans (steers_setMot rfl rfl)
    · exact (blending _).trans (steers_setMot rfl rfl)

/-- The end of a table that runs, with BLENDING and the motion unit's part as the blend leaves them. -/
theorem endTable_of_running {s : State} {r : TableRun} (ht : s.mot.table = some r) (hr : s.flag F.MOT_TBL_STATUS_RUNNING = true) (blended : Bool) :
    ∃ v m, endTable blended s = { (tableEnded s).fset F.MOT_TBL_STATUS_BLENDING v with mot := m } := by
  rw [endTable_eq, if_neg (by simp [ht, hr])]
  split
  · exact ⟨_, _, rfl⟩
  · exact ⟨_, _, rfl⟩

theorem flags_tableEnded (s : State) : (tableEnded s).flag F.MOT_TBL_STATUS_RUNNING = false ∧ (tableEnded s).flag F.MOT_EVENTS_TBL_DONE = true :=
  ⟨(State.flag_raise_ne _ (by decide)).trans (State.flag_clear_self _ _ (by decide)), State.flag_raise_self _ _ (by decide) (by decide)⟩

/-- BLENDING and the motion unit's part written: every field but BLENDING reads as before. -/
theorem flag_of_blending {s u : State} {v : Nat} {m : Motion} (h : s = { u.fset F.MOT_TBL_STATUS_BLENDING v with mot := m }) (f : Fld)
    (hf : F.MOT_TBL_STATUS_BLENDING.addr ≠ f.addr ∨ f.lo + f.width ≤ 2) : s.flag f = u.flag f := by
  rw [h]
  exact State.flag_fset_other u F.MOT_TBL_STATUS_BLENDING f v (hf.imp Ne.symm .inl)

theorem flags_endTable {s : State} {r : TableRun} (ht : s.mot.table = some r) (hr : s.flag F.MOT_TBL_STATUS_RUNNING = true) (blended : Bool) :
    (endTable blended s).flag F.MOT_TBL_STATUS_RUNNING = false ∧ (endTable blended s).flag F.MOT_EVENTS_TBL_DONE = true := by
  obtain ⟨v, m, ended⟩ := endTable_of_running ht hr blended
  obtain ⟨stopped, done⟩ := flags_tableEnded s
  exact ⟨(flag_of_blending ended _ (by decide)).trans stopped, (flag_of_blending ended _ (by decide)).trans done⟩

/-! ### ENABLED brought up to date (R259) -/

theorem steers_refreshEnable {a : Nat} (ha : a < 2) (s : State) : Steers s (refreshEnable a s) := by
  have shown (v : Nat) : Steers s (s.fset (F.MOT_AX_STATUS_ENABLED a) v) := steers_fset ha (by decide) v s
  unfold refreshEnable
  extract_lets st on s1 s2 x
  split
  · split
    · exact (shown _).trans (steers_setAxisState ha 1 _)
    · exact shown _
  · split
    · exact shown _
    · have ended : Steers s s2 := by
        show Steers s (if st = 4 then endTable false s1 else s1)
        split
        · exact (shown _).trans (steers_endTable false _)
        · exact shown _
      exact (ended.trans (steers_setAxis ⟨_, _, _, _, rfl⟩)).trans (steers_setAxisState ha 0 _)

/-! ### FAULT (R259) -/

/-- An axis in FAULT with a code, not enabled. -/
def faultShown (a code : Nat) (s : State) : State :=
  ((setAxisState a 6 s).fset (F.MOT_AX_STATUS_FAULT a) code).clear (F.MOT_AX_STATUS_ENABLED a)

theorem faultAxis_eq (a code : Nat) (s : State) : faultAxis a code s =
    faultShown a code ((endTable true s).setAxis a { (endTable true s).axis a with order := s.stopOrder .stop, next := none, homing := none }) := rfl

theorem frame_faultAxis {a : Nat} (ha : a < 2) (code : Nat) (s : State) : Frame [.mot] tableRegs s (faultAxis a code s) := by
  have written (f : Fld) (v : Nat) (u : State) (hf : f.addr = R.MOT_AX_STATUS a) : Frame [.mot] tableRegs u (u.fset f v) :=
    Frame.fset _ _ u f v (hf ▸ axStatus_mem_tableRegs ha)
  rw [faultAxis_eq]
  exact ((((steers_endTable true s).frame.trans (frame_setAxis _ _ _ _)).trans (written (F.MOT_AX_STATUS_STATE a) 6 _ rfl)).trans
    (written (F.MOT_AX_STATUS_FAULT a) code _ rfl)).trans (written (F.MOT_AX_STATUS_ENABLED a) 0 _ rfl)

theorem faultAxis_spec (a : Nat) {code : Nat} (h8 : code < 8) (s : State) : (faultAxis a code s).axisState a = 6 ∧
    (faultAxis a code s).fget (F.MOT_AX_STATUS_FAULT a) = code ∧ (faultAxis a code s).enabled a = false := by
  rw [faultAxis_eq]
  refine ⟨?_, ?_, State.flag_clear_self _ _ (by decide : 4 ≤ 32)⟩
  · exact (State.fget_fset_other _ (F.MOT_AX_STATUS_ENABLED a) (F.MOT_AX_STATUS_STATE a) 0 (.inr (by decide : 3 ≤ 3 ∨ 4 ≤ 0))).trans
      ((State.fget_fset_other _ (F.MOT_AX_STATUS_FAULT a) (F.MOT_AX_STATUS_STATE a) code (.inr (by decide : 3 ≤ 16 ∨ 19 ≤ 0))).trans
        (axisState_setAxisState (by decide) _))
  · exact (State.fget_fset_other _ (F.MOT_AX_STATUS_ENABLED a) (F.MOT_AX_STATUS_FAULT a) 0 (.inr (by decide : 19 ≤ 3 ∨ 4 ≤ 16))).trans
      ((State.fget_fset_self _ (F.MOT_AX_STATUS_FAULT a) code (by decide : 19 ≤ 32)).trans (Nat.mod_eq_of_lt h8))

end Sys2Proof.Machine
end

section
/-! PROOF. Status words of the amplifiers, and segment tables loaded, run and aborted (R258, R259, R265, R266, R268). -/

namespace Sys2Proof.Machine

/-! ### STATUS_WORD (R258) -/

theorem frame_setSafAxis (rs : List Nat) (s : State) (a : Nat) (x : SafAxis) : Frame [.saf] rs s (s.setSafAxis a x) := by
  unfold State.setSafAxis
  split <;> exact frame_setSaf _ _ _

theorem State.safAxis_setSafAxis_self (s : State) (a : Nat) (x : SafAxis) : (s.setSafAxis a x).safAxis a = x := by
  unfold State.setSafAxis State.safAxis
  split <;> rfl

@[simp] theorem State.axis_setSafAxis (s : State) (a b : Nat) (x : SafAxis) : (s.setSafAxis a x).axis b = s.axis b := by
  unfold State.setSafAxis
  split <;> rfl

@[simp] theorem State.safAxis_fset (s : State) (f : Fld) (v a : Nat) : (s.fset f v).safAxis a = s.safAxis a := rfl

theorem safAxis_settled (s0 u : State) (q : List Instr) (a : Nat) : ({ settle s0 u with pending := q } : State).safAxis a = u.safAxis a := by
  simp only [State.safAxis, settle_saf]

/-- The frame answered, and the instant of the answer kept (R258, R391). -/
def answered (a : Nat) (s : State) : State :=
  let s1 := s.setAxis a { s.axis a with awaiting := none, badRun := 0 }
  s1.setSafAxis a { s1.safAxis a with wordAt := some s.clock }

/-- READY, POWER and FAULT as a word has them. -/
def driverShown (a : Nat) (ready power fault : Bool) (s : State) : State :=
  ((s.fset (F.MOT_AX_STATUS_DRV_READY a) (bitOf ready)).fset (F.MOT_AX_STATUS_DRV_POWER a) (bitOf power)).fset (F.MOT_AX_STATUS_DRV_FAULT a)
    (bitOf fault)

theorem flags_driverShown (a : Nat) (ready power fault : Bool) (s : State) : let t := driverShown a ready power fault s
    t.flag (F.MOT_AX_STATUS_DRV_READY a) = ready ∧ t.flag (F.MOT_AX_STATUS_DRV_POWER a) = power ∧ t.flag (F.MOT_AX_STATUS_DRV_FAULT a) = fault := by
  refine ⟨?_, ?_, State.flag_fset_bitOf _ (R.MOT_AX_STATUS a) 11 fault (by decide)⟩
  · exact (State.flag_fset_other _ (F.MOT_AX_STATUS_DRV_FAULT a) (F.MOT_AX_STATUS_DRV_READY a) _ (.inr (by decide : 10 ≤ 11 ∨ 12 ≤ 9))).trans
      ((State.flag_fset_other _ (F.MOT_AX_STATUS_DRV_POWER a) (F.MOT_AX_STATUS_DRV_READY a) _ (.inr (by decide : 10 ≤ 10 ∨ 11 ≤ 9))).trans
        (State.flag_fset_bitOf s (R.MOT_AX_STATUS a) 9 ready (by decide)))
  · exact (State.flag_fset_other _ (F.MOT_AX_STATUS_DRV_FAULT a) (F.MOT_AX_STATUS_DRV_POWER a) _ (.inr (by decide : 11 ≤ 11 ∨ 12 ≤ 10))).trans
      (State.flag_fset_bitOf _ (R.MOT_AX_STATUS a) 10 power (by decide))

theorem frame_driverShown {a : Nat} (ha : a < 2) (ready power fault : Bool) (s : State) :
    Frame [] tableRegs s (driverShown a ready power fault s) := by
  have written (f : Fld) (v : Nat) (u : State) (hf : f.addr = R.MOT_AX_STATUS a) : Frame [] tableRegs u (u.fset f v) :=
    Frame.fset _ _ u f v (hf ▸ axStatus_mem_tableRegs ha)
  exact ((written (F.MOT_AX_STATUS_DRV_READY a) _ _ rfl).trans (written (F.MOT_AX_STATUS_DRV_POWER a) _ _ rfl)).trans
    (written (F.MOT_AX_STATUS_DRV_FAULT a) _ _ rfl)

/-- A good word taken: READY, POWER and FAULT as it has them, and ENABLED as they leave it. -/
theorem refreshEnable_driverShown {a : Nat} (ha : a < 2) (ready power fault : Bool) (s : State) :
    let t := refreshEnable a (driverShown a ready power fault (answered a s))
    ((t.axis a).awaiting = none ∧ (t.axis a).badRun = 0) ∧ t.flag (F.MOT_AX_STATUS_DRV_READY a) = ready ∧
      t.flag (F.MOT_AX_STATUS_DRV_POWER a) = power ∧ t.flag (F.MOT_AX_STATUS_DRV_FAULT a) = fault ∧ (t.safAxis a).wordAt = some s.clock ∧
      Frame [.mot, .saf] tableRegs s t := by
  obtain ⟨u, hu⟩ := exists_eq (a' := driverShown a ready power fault (answered a s))
  have taken : (u.axis a).awaiting = none ∧ (u.axis a).badRun = 0 := by
    have same : u.axis a = (answered a s).axis a := State.axis_congr (hu ▸ (frame_driverShown ha ready power fault _).1 .mot (by simp)) a
    rw [same, answered, State.axis_setSafAxis, State.axis_setAxis_self]
    exact ⟨rfl, rfl⟩
  have instant : (u.safAxis a).wordAt = some s.clock := by
    rw [hu, driverShown, State.safAxis_fset, State.safAxis_fset, State.safAxis_fset, answered, State.safAxis_setSafAxis_self]
  obtain ⟨hready, hpower, hfault⟩ := flags_driverShown a ready power fault (answered a s)
  have shown : Frame [.mot, .saf] tableRegs s u := by
    have kept : Frame [.mot, .saf] tableRegs s (answered a s) :=
      ((frame_setAxis _ _ _ _).mono (by simp) (fun _ m => m)).trans ((frame_setSafAxis _ _ _ _).mono (by simp) (fun _ m => m))
    exact hu ▸ kept.trans ((frame_driverShown ha ready power fault _).mono (by simp) (fun _ m => m))
  rw [← hu] at hready hpower hfault
  have steers := steers_refreshEnable ha u
  obtain ⟨hawaiting, hrun⟩ := (steers.axis a).kept
  have flag (lo : Nat) (h4 : 4 ≤ lo) : (refreshEnable a u).flag ⟨R.MOT_AX_STATUS a, lo, 1⟩ = u.flag ⟨R.MOT_AX_STATUS a, lo, 1⟩ :=
    congrArg (· != 0) (steers.status a lo 1 h4)
  intro t
  simp only [t, ← hu]
  refine ⟨⟨hawaiting.trans taken.1, hrun.trans taken.2⟩, (flag 9 (by decide)).trans hready, (flag 10 (by decide)).trans hpower,
    (flag 11 (by decide)).trans hfault, ?_, shown.trans (steers.frame.mono (by simp) (fun _ m => m))⟩
  have same : (refreshEnable a u).saf = u.saf := steers.frame.1 .saf (by simp)
  rw [State.safAxis, same]
  exact instant

/-- A bad word counts one more. -/
theorem badStatus_spec (a : Nat) (s : State) :
    (badStatus a s).axis a = { s.axis a with awaiting := none, badRun := (s.axis a).badRun + 1 } ∧
      (badStatus a s).fget (F.MOT_AX_DRV_BAD_COUNT a) = satAdd 32 (s.fget (F.MOT_AX_DRV_BAD_COUNT a)) 1 ∧
      Frame [.mot] [R.MOT_AX_DRV_BAD a] s (badStatus a s) := by
  refine ⟨?_, ?_, (frame_setAxis _ _ _ _).trans (Frame.bump _ _ _ (F.MOT_AX_DRV_BAD_COUNT a) (.head _))⟩
  · rw [badStatus, State.axis_bump, State.axis_setAxis_self]
  · exact (State.fget_bump_self _ (F.MOT_AX_DRV_BAD_COUNT a) (by decide : 32 ≤ 32)).trans
      (congrArg (satAdd 32 · 1) (State.fget_setAxis _ _ _ _))

section
variable {s : State} {a q : Nat} {due : Int} {w : Word} (hw : (s.axis a).awaiting = some (q, due))
include hw

/-- A good word without FAULT and with POWER on. -/
theorem statusWordOp_of_good (ht : s.clock ≤ due) (hc : statusCrcOk w = true) (ha : bits 3 1 w.toNat = a) (hq : bits 4 4 w.toNat = q)
    (hp : w.getLsbD 1 = true) (hf : w.getLsbD 2 = false) :
    statusWordOp a w s = refreshEnable a (driverShown a (w.getLsbD 0) true false (answered a s)) := by
  have bit (i : Nat) : bitAt i w.toNat = w.getLsbD i := bitAt_eq_testBit i w.toNat
  have good : (decide (due < s.clock) || !statusCrcOk w || bits 3 1 w.toNat != a || bits 4 4 w.toNat != q) = false := by
    simp [hc, ha, hq, ht]
  unfold statusWordOp
  simp only [hw, good, bit, hp, hf]
  rfl

theorem statusWordOp_of_bad (hb : statusCrcOk w = false ∨ due < s.clock) : statusWordOp a w s = badStatus a s := by
  have bad : (decide (due < s.clock) || !statusCrcOk w || bits 3 1 w.toNat != a || bits 4 4 w.toNat != q) = true := by
    rcases hb with hb | hb <;> simp [hb]
  unfold statusWordOp
  simp only [hw]
  exact if_pos bad

theorem completes_statusWord (h2 : a < 2) (ht : s.clock ≤ due) (hc : statusCrcOk w = true) (ha : bits 3 1 w.toNat = a)
    (hq : bits 4 4 w.toNat = q) (hp : w.getLsbD 1 = true) (hf : w.getLsbD 2 = false) : Completes (.statusWord a w) s (fun t =>
      (t.axis a).awaiting = none ∧ (t.axis a).badRun = 0 ∧
      t.flag (F.MOT_AX_STATUS_DRV_READY a) = w.getLsbD 0 ∧ t.flag (F.MOT_AX_STATUS_DRV_POWER a) = true ∧
      t.flag (F.MOT_AX_STATUS_DRV_FAULT a) = false ∧ (t.safAxis a).wordAt = some s.clock ∧ Frame [.mot, .saf] tableRegs s t) := by
  refine completes_of_wf (statusWordOp a w) rfl (decide_eq_true h2) ?_
  obtain ⟨⟨hawaiting, hrun⟩, hready, hpower, hfault, hinstant, hframe⟩ := refreshEnable_driverShown h2 (w.getLsbD 0) true false s.begin
  have quiet : recorderReg (R.MOT_AX_STATUS a) = false := recorderReg_offset _ _ (by decide)
  rw [statusWordOp_of_good (s := s.begin) hw ht hc ha hq hp hf, axis_settled, safAxis_settled, flag_settled _ _ _ _ quiet,
    flag_settled _ _ _ _ quiet, flag_settled _ _ _ _ quiet]
  exact ⟨hawaiting, hrun, hready, hpower, hfault, hinstant, Frame.settled _ hframe⟩

theorem completes_statusWord_bad (h2 : a < 2) (hb : statusCrcOk w = false ∨ due < s.clock) : Completes (.statusWord a w) s (fun t =>
    t.axis a = { s.axis a with awaiting := none, badRun := (s.axis a).badRun + 1 } ∧
    t.fget (F.MOT_AX_DRV_BAD_COUNT a) = satAdd 32 (s.fget (F.MOT_AX_DRV_BAD_COUNT a)) 1 ∧ Frame [.mot] [R.MOT_AX_DRV_BAD a] s t) := by
  refine completes_of_wf (statusWordOp a w) rfl (decide_eq_true h2) ?_
  rw [statusWordOp_of_bad (s := s.begin) hw hb, axis_settled, fget_settled _ _ _ _ (recorderReg_offset _ _ (by decide))]
  obtain ⟨haxis, hcount, hframe⟩ := badStatus_spec a s.begin
  exact ⟨haxis, hcount, Frame.settled _ hframe⟩

/-- 5 µs have passed since the frame. -/
theorem completes_statusMissing (h2 : a < 2) : Completes (.statusWordMissing a) s (fun t => t.clock = max s.clock due ∧
    t.axis a = { s.axis a with awaiting := none, badRun := (s.axis a).badRun + 1 } ∧
    t.fget (F.MOT_AX_DRV_BAD_COUNT a) = satAdd 32 (s.fget (F.MOT_AX_DRV_BAD_COUNT a)) 1 ∧ Frame [.clock, .mot] [R.MOT_AX_DRV_BAD a] s t) := by
  refine completes_of_wf (statusMissingOp a) rfl (decide_eq_true h2) ?_
  have missing : statusMissingOp a s.begin = badStatus a (s.begin.until due) := by
    simp only [statusMissingOp, State.begin_axis, hw]
  obtain ⟨haxis, hcount, hframe⟩ := badStatus_spec a (s.begin.until due)
  rw [missing, axis_settled, fget_settled _ _ _ _ (recorderReg_offset _ _ (by decide)), settle_clock]
  exact ⟨hframe.1 .clock (by simp), haxis, hcount, Frame.settled _
    ((Frame.until _ _ _ (.head _)).trans (hframe.mono (by simp) (fun _ m => m)))⟩

end

/-! ### DRIVER_LOST (R258) -/

theorem axEvents_apart (a b : Nat) : R.MOT_AX_EVENTS a ≠ R.MOT_AX_STATUS b ∧ R.MOT_AX_EVENTS a ∉ tableRegs := by
  simp only [tableRegs, R.MOT_AX_EVENTS, R.MOT_AX_STATUS, R.MOT_TBL_STATUS, R.MOT_EVENTS, List.mem_cons, List.not_mem_nil, or_false]
  omega

theorem completes_driverLost {s : State} {a : Nat} (ha : a < 2) (h : max 1 (s.fget F.MOT_DRV_CTL_STS_LIMIT) ≤ (s.axis a).badRun) :
    Completes (.driverLost a) s (fun t =>
      t.axisState a = 6 ∧ t.fget (F.MOT_AX_STATUS_FAULT a) = 4 ∧ t.enabled a = false ∧ t.flag (F.MOT_AX_EVENTS_DRIVER a) = true ∧
      Frame [.mot] [R.MOT_AX_STATUS 0, R.MOT_AX_STATUS 1, R.MOT_AX_EVENTS a, R.MOT_TBL_STATUS, R.MOT_EVENTS] s t) := by
  refine completes_of_wf (driverLostOp a) rfl (decide_eq_true ha) ?_
  have lost : driverLostOp a s.begin = (faultAxis a 4 s.begin).raise (F.MOT_AX_EVENTS_DRIVER a) := if_pos h
  obtain ⟨hstate, hcode, hoff⟩ := faultAxis_spec a (code := 4) (by decide) s.begin
  have apart : R.MOT_AX_STATUS a ≠ R.MOT_AX_EVENTS a := axStatus_ne_axEvents a a
  rw [lost, axisState_settled, enabled_settled, fget_settled _ _ _ _ (recorderReg_offset _ _ (by decide)),
    flag_settled _ _ _ _ (recorderReg_offset _ _ (by decide))]
  refine ⟨?_, ?_, ?_, State.flag_raise_self _ _ (by decide : 7 ≤ 32) (by decide : 0 < 1), Frame.settled _ ?_⟩
  · exact (State.fget_fset_other _ (F.MOT_AX_EVENTS_DRIVER a) (F.MOT_AX_STATUS_STATE a) _ (.inl apart)).trans hstate
  · exact (State.fget_fset_other _ (F.MOT_AX_EVENTS_DRIVER a) (F.MOT_AX_STATUS_FAULT a) _ (.inl apart)).trans hcode
  · exact (State.flag_fset_other _ (F.MOT_AX_EVENTS_DRIVER a) (F.MOT_AX_STATUS_ENABLED a) _ (.inl apart)).trans hoff
  · exact ((frame_faultAxis ha 4 s.begin).mono (fun _ m => m) (by simp [tableRegs])).trans
      (Frame.raise _ _ _ (F.MOT_AX_EVENTS_DRIVER a) (by simp [F.MOT_AX_EVENTS_DRIVER]))

/-! ### TBL_LOAD (R266) -/

theorem completes_tblLoad {s : State} (hc : s.coxState = 0) (hr : s.flag F.MOT_TBL_STATUS_RUNNING = false) : Completes .tblLoad s (fun t =>
    t.mot = { s.mot with loading := true } ∧ t.flag F.MOT_TBL_STATUS_LOADED = false ∧ Frame [.mot] [R.MOT_TBL_STATUS] s t) := by
  refine completes_of tblLoadOp rfl ?_
  have begun : tblLoadOp s.begin = { s.begin.clear F.MOT_TBL_STATUS_LOADED with mot := { s.mot with loading := true } } := by
    have idle : ¬ s.begin.flag F.MOT_TBL_STATUS_RUNNING = true := by rw [show s.begin.flag _ = _ from hr]; decide
    exact (if_neg (not_not_intro hc)).trans (if_neg idle)
  rw [begun, settle_mot, flag_settled _ _ _ _ (by decide)]
  exact ⟨rfl, State.flag_clear_self s.begin _ (by decide), Frame.settled _
    ((Frame.clear _ _ _ F.MOT_TBL_STATUS_LOADED (.head _)).trans (frame_setMot _ _ _))⟩

/-! ### TBL_RUN (R266, R268) -/

/-- An axis enters the table: its homing ends, and without a blend its order too. -/
def enterTable (n a : Nat) (s : State) : State :=
  let s1 := setAxisState a 4 (s.setAxis a { s.axis a with homing := none })
  if n = 0 then dropOrder a s1 else s1

theorem frame_enterTable (n a : Nat) (s : State) : Frame [.mot] [R.MOT_AX_STATUS a] s (enterTable n a s) := by
  have entered : Frame [.mot] [R.MOT_AX_STATUS a] s (setAxisState a 4 (s.setAxis a { s.axis a with homing := none })) :=
    (frame_setAxis _ _ _ _).trans (Frame.fset _ _ _ (F.MOT_AX_STATUS_STATE a) 4 (.head _))
  exact Frame.ite _ (fun _ => entered.trans (frame_setAxis _ _ _ _)) (fun _ => entered)

theorem axisState_enterTable (n a : Nat) (s : State) : (enterTable n a s).axisState a = 4 := by
  have entered (u : State) : (setAxisState a 4 u).axisState a = 4 := axisState_setAxisState (by decide) u
  unfold enterTable
  dsimp only
  split
  · rw [dropOrder, State.axisState, State.fget_setAxis]
    exact entered _
  · exact entered _

/-- A table shown as running, from its first point. -/
def runShown (n : Nat) (s : State) : State :=
  ((s.raise F.MOT_TBL_STATUS_RUNNING).fset F.MOT_TBL_STATUS_BLENDING (bitOf (n != 0))).fset F.MOT_TBL_STATUS_POINT 1

theorem runShown_spec (n : Nat) (s : State) : (runShown n s).flag F.MOT_TBL_STATUS_RUNNING = true ∧
    (runShown n s).fget F.MOT_TBL_STATUS_POINT = 1 ∧ Frame [] [R.MOT_TBL_STATUS] s (runShown n s) := by
  have written (f : Fld) (v : Nat) (u : State) (hf : f.addr = R.MOT_TBL_STATUS) : Frame [] [R.MOT_TBL_STATUS] u (u.fset f v) :=
    Frame.fset _ _ u f v (by rw [hf]; exact .head _)
  refine ⟨?_, State.fget_fset_self _ _ _ (by decide), ((written F.MOT_TBL_STATUS_RUNNING _ _ rfl).trans
    (written F.MOT_TBL_STATUS_BLENDING _ _ rfl)).trans (written F.MOT_TBL_STATUS_POINT _ _ rfl)⟩
  exact (State.flag_fset_other _ F.MOT_TBL_STATUS_POINT _ _ (by decide)).trans
    ((State.flag_fset_other _ F.MOT_TBL_STATUS_BLENDING _ _ (by decide)).trans (State.flag_raise_self _ _ (by decide) (by decide)))

/-- Both axes enter the table, whose clock starts. -/
theorem tblRunOp_of_loaded {s : State} (hc : s.coxState = 0) (hr : s.flag F.MOT_TBL_STATUS_RUNNING = false)
    (hl : s.flag F.MOT_TBL_STATUS_LOADED = true) (hx : s.enabled 0 = true) (hy : s.enabled 1 = true) (hs : s.stageStopping = false) :
    let n := s.fget F.MOT_TBL_BLEND_N
    let u := runShown n (enterTable n 1 (enterTable n 0 s))
    tblRunOp s = { u with mot := { u.mot with
      table := some { ticks := 0 }, blend := if n = 0 then none else some { b := 0, n := n, toTable := true } } } := by
  have due : ¬ (!s.flag F.MOT_TBL_STATUS_LOADED || !s.enabled 0 || !s.enabled 1 || s.stageStopping) = true := by simp [hl, hx, hy, hs]
  exact (if_neg (not_not_intro hc)).trans ((if_neg (by simp [hr])).trans (if_neg due))

theorem completes_tblRun {s : State} (hc : s.coxState = 0) (hr : s.flag F.MOT_TBL_STATUS_RUNNING = false)
    (hl : s.flag F.MOT_TBL_STATUS_LOADED = true) (hx : s.enabled 0 = true) (hy : s.enabled 1 = true) (hs : s.stageStopping = false) :
    Completes .tblRun s (fun t => t.flag F.MOT_TBL_STATUS_RUNNING = true ∧ t.axisState 0 = 4 ∧ t.axisState 1 = 4 ∧
      t.mot.table = some { ticks := 0 } ∧ t.fget F.MOT_TBL_STATUS_POINT = 1 ∧
      Frame [.mot] [R.MOT_AX_STATUS 0, R.MOT_AX_STATUS 1, R.MOT_TBL_STATUS] s t) := by
  refine completes_of tblRunOp rfl ?_
  obtain ⟨n, hn⟩ := exists_eq (a' := s.begin.fget F.MOT_TBL_BLEND_N)
  have second := frame_enterTable n 1 (enterTable n 0 s.begin)
  have x4 : (enterTable n 1 (enterTable n 0 s.begin)).axisState 0 = 4 :=
    (second.fget (F.MOT_AX_STATUS_STATE 0) (by decide) (by decide)).trans (axisState_enterTable n 0 _)
  have y4 : (enterTable n 1 (enterTable n 0 s.begin)).axisState 1 = 4 := axisState_enterTable n 1 _
  have entered := ((frame_enterTable n 0 s.begin).mono (fun _ m => m) (by simp)).trans (second.mono
    (vs := [R.MOT_AX_STATUS 0, R.MOT_AX_STATUS 1, R.MOT_TBL_STATUS]) (fun _ m => m) (by simp))
  rw [tblRunOp_of_loaded (s := s.begin) hc hr hl hx hy hs, ← hn, settle_mot, axisState_settled, axisState_settled, flag_settled _ _ _ _ (by decide),
    fget_settled _ _ _ _ (by decide)]
  generalize enterTable n 1 (enterTable n 0 s.begin) = u at x4 y4 entered
  obtain ⟨hrunning, hpoint, hframe⟩ := runShown_spec n u
  refine ⟨hrunning, ?_, ?_, rfl, hpoint, Frame.settled _
    ((entered.trans (hframe.mono (by simp) (by simp))).trans (frame_setMot _ _ _))⟩
  · exact (hframe.fget (F.MOT_AX_STATUS_STATE 0) (by decide) (by decide)).trans x4
  · exact (hframe.fget (F.MOT_AX_STATUS_STATE 1) (by decide) (by decide)).trans y4

/-! ### TBL_LOAD_DONE (R266, R316) -/

/-- The codes of a refusal fit their field. -/
theorem tableCheck_code {s : State} {code : Nat} {ps : List Point} (h : tableCheck s = (some code, ps)) : code < 16 := by
  unfold tableCheck at h
  dsimp only at h
  split at h
  · cases h; decide
  · split at h
    · cases h; decide
    · split at h
      · cases h; decide
      · split at h
        · cases h; decide
        · split at h
          · cases h; decide
          · split at h <;> cases h
            decide

/-- The copy at its end, its segments read (R266, R316). -/
def tableCopied (err : Option Nat) (s : State) : State :=
  let s0 := { s with mot := { s.mot with loading := false } }
  if err = some 1 then s0 else readHbm 13 (s.pair F.MOT_TBL_BASE_LO_ADDR F.MOT_TBL_BASE_HI_ADDR) (32 * s.fget F.MOT_TBL_COUNT_COUNT) s0

theorem tableCopied_spec (err : Option Nat) (s : State) : (tableCopied err s).mot = { s.mot with loading := false } ∧
    BlockFrame [.mot, .hbm, .mem, .arb, .keel] [0x09, 0x0A, 0x14] s (tableCopied err s) := by
  have ended : BlockFrame [.mot, .hbm, .mem, .arb, .keel] [0x09, 0x0A, 0x14] s { s with mot := { s.mot with loading := false } } :=
    (BlockFrame.parts (frame_setMot [] _ _)).mono (by simp) (fun _ m => m)
  unfold tableCopied
  dsimp only
  split
  · exact ⟨rfl, ended⟩
  · have read := blockFrame_readHbm 13 (s.pair F.MOT_TBL_BASE_LO_ADDR F.MOT_TBL_BASE_HI_ADDR) (32 * s.fget F.MOT_TBL_COUNT_COUNT)
      { s with mot := { s.mot with loading := false } }
    exact ⟨read.1 .mot (by decide), ended.trans (read.mono (by simp) (by simp))⟩

/-- A table that passes is stored, and shown loaded (R266). -/
def tableStored (ps : List Point) (s : State) : State :=
  ((freshTable (fun x => decide (segmentAt 0 ≤ x)) { s with mot := { s.mot with store := ps } }).fset F.MOT_TBL_STATUS_ERROR 0).raise
    F.MOT_TBL_STATUS_LOADED

theorem tblLoadDoneOp_of_passed {s : State} {ps : List Point} (hl : s.mot.loading = true) (h : tableCheck s = (none, ps)) :
    tblLoadDoneOp s = tableStored ps (tableCopied none s) := by
  unfold tblLoadDoneOp
  rw [if_neg (by simp [hl]), h]
  rfl

theorem tblLoadDoneOp_of_failed {s : State} {code : Nat} {ps : List Point} (hl : s.mot.loading = true) (h : tableCheck s = (some code, ps)) :
    tblLoadDoneOp s = tableError code (tableCopied (some code) s) := by
  unfold tblLoadDoneOp
  rw [if_neg (by simp [hl]), h]
  rfl

theorem tableStored_spec (ps : List Point) (s : State) : (tableStored ps s).mot = { s.mot with store := ps } ∧
    (tableStored ps s).flag F.MOT_TBL_STATUS_LOADED = true ∧ (tableStored ps s).fget F.MOT_TBL_STATUS_ERROR = 0 ∧
    BlockFrame [.mot, .mem] [0x0A, 0x14] s (tableStored ps s) := by
  have fresh := frame_freshTable (fun x => decide (segmentAt 0 ≤ x)) { s with mot := { s.mot with store := ps } }
  refine ⟨fresh.1 .mot (by decide), State.flag_raise_self _ _ (by decide) (by decide),
    (State.fget_fset_other _ _ _ _ (by decide)).trans (State.fget_fset_self _ F.MOT_TBL_STATUS_ERROR 0 (by decide)), ?_⟩
  have stored : BlockFrame [.mot, .mem] [0x0A, 0x14] s { s with mot := { s.mot with store := ps } } :=
    (BlockFrame.parts (frame_setMot [] _ _)).mono (by simp) (fun _ m => m)
  exact ((stored.trans ((BlockFrame.of_frame fresh (bs := [0x0A]) (by decide)).mono (by simp) (by simp))).trans
    (BlockFrame.fset _ _ _ _ (by decide))).trans (BlockFrame.raise _ _ _ (by decide))

theorem completes_tblLoadDone {s : State} {ps : List Point} (hl : s.mot.loading = true) (h : tableCheck s = (none, ps)) :
    Completes .tblLoadDone s (fun t => t.mot = { s.mot with loading := false, store := ps } ∧ t.flag F.MOT_TBL_STATUS_LOADED = true ∧
      t.fget F.MOT_TBL_STATUS_ERROR = 0 ∧ BlockFrame [.mot, .hbm, .mem, .arb, .keel] [0x09, 0x0A, 0x14] s t) := by
  refine completes_of tblLoadDoneOp rfl ?_
  obtain ⟨hcopied, copied⟩ := tableCopied_spec none s.begin
  obtain ⟨hmot, hloaded, herror, stored⟩ := tableStored_spec ps (tableCopied none s.begin)
  rw [tblLoadDoneOp_of_passed (s := s.begin) hl h, settle_mot, flag_settled _ _ _ _ (by decide), fget_settled _ _ _ _ (by decide)]
  refine ⟨?_, hloaded, herror, BlockFrame.settled _ (copied.trans (stored.mono (by simp) (by simp)))⟩
  rw [hmot, hcopied]
  rfl

theorem completes_tblLoadDone_refused {s : State} {code : Nat} {ps : List Point} (hl : s.mot.loading = true)
    (h : tableCheck s = (some code, ps)) : Completes .tblLoadDone s (fun t => t.mot = { s.mot with loading := false } ∧
      t.fget F.MOT_TBL_STATUS_ERROR = code ∧ t.flag F.MOT_EVENTS_TBL_REFUSED = true) := by
  refine completes_of tblLoadDoneOp rfl ?_
  obtain ⟨hcopied, -⟩ := tableCopied_spec (some code) s.begin
  rw [tblLoadDoneOp_of_failed (s := s.begin) hl h, settle_mot, flag_settled _ _ _ _ (by decide), fget_settled _ _ _ _ (by decide)]
  generalize tableCopied (some code) s.begin = u at hcopied
  refine ⟨hcopied, ?_, State.flag_raise_self _ _ (by decide) (by decide)⟩
  exact (State.fget_fset_other _ _ _ _ (by decide)).trans
    ((State.fget_fset_self u F.MOT_TBL_STATUS_ERROR code (by decide)).trans (Nat.mod_eq_of_lt (tableCheck_code h)))

/-! ### TBL_ABORT (R268) -/

theorem completes_tblAbort {s : State} {r : TableRun} (hc : s.coxState = 0) (ht : s.mot.table = some r)
    (hr : s.flag F.MOT_TBL_STATUS_RUNNING = true) : Completes .tblAbort s (fun t =>
      t.flag F.MOT_TBL_STATUS_RUNNING = false ∧ t.flag F.MOT_EVENTS_TBL_DONE = true ∧ Frame [.mot] tableRegs s t) := by
  refine completes_of tblAbortOp rfl ?_
  have ended : tblAbortOp s.begin = endTable true s.begin := if_neg (not_not_intro hc)
  obtain ⟨hstopped, hdone⟩ := flags_endTable (s := s.begin) ht hr true
  rw [ended, flag_settled _ _ _ _ (by decide), flag_settled _ _ _ _ (by decide)]
  exact ⟨hstopped, hdone, Frame.settled _ (steers_endTable true s.begin).frame⟩

/-- Settles O44: an axis in FAULT and the end of a table are frames of the motion unit's part and of a few of its registers, and a command
writes on top of one of them what the statement reads. -/
theorem driverStatusAndTables : Obligations.DriverStatusAndTables := by
  unfold Obligations.DriverStatusAndTables
  intro s a ha
  refine ⟨fun w q due hw => ⟨completes_statusWord hw ha, completes_statusWord_bad hw ha, completes_statusMissing hw ha⟩,
    completes_driverLost ha, fun hc hr => ⟨completes_tblLoad hc hr, completes_tblRun hc hr⟩,
    fun hl => ⟨fun _ => completes_tblLoadDone hl, fun _ _ => completes_tblLoadDone_refused hl⟩, fun _ => completes_tblAbort⟩

end Sys2Proof.Machine
end

section
/-! PROOF. LIMIT_TRIP of a referenced axis (R270, R391), in a course that a course-abort reset ended, while the lane map bank in service is
neither of the two of R195. -/

namespace Sys2Proof.Machine

/-! ### A read of the lane map that corrects a register (R317, R318) -/

/-- A register outside BAR0's tables, and apart from those that report a correction. -/
structure UntabledReg (r : Nat) : Prop where
  low : r < 0x1000000
  word : r % 4 = 0
  noTable : tableAt r = none
  silent : r ≠ R.SRM_CE_COUNT ∧ r ≠ R.SRM_EVENTS

/-- The lane map in service takes in a register whose check bits name data bit 0 of it, and no other byte awaits a correction. -/
structure FlipInLaneMap (r : Nat) (s : State) : Prop where
  hit : inBank .lanes s.banks.lanes.active r = true
  flips : s.mem.flips = [(r, 19)]
  lap : s.mem.ceLap = []
  sound : s.mem.bad = []

theorem FlipInLaneMap.congr {r : Nat} {s t : State} (h : FlipInLaneMap r s) (hb : t.banks = s.banks) (hm : t.mem = s.mem) : FlipInLaneMap r t :=
  ⟨by rw [hb]; exact h.hit, by rw [hm]; exact h.flips, by rw [hm]; exact h.lap, by rw [hm]; exact h.sound⟩

/-- The read corrects the bit named. -/
theorem readLaneMap_of_flipInLaneMap {r : Nat} (hr : UntabledReg r) {s : State} (h : FlipInLaneMap r s) :
    (readLaneMap s).reg r = s.reg r ^^^ 1#32 := by
  obtain ⟨low, word, noTable, silent, quiet⟩ := hr
  have own : r / 4 * 4 = r := by omega
  have named : byteClass (sparseGet (fun _ => 0) r [(r, 19)]) = .corrected (some 0) := by
    rw [show sparseGet (fun _ => 0) r [(r, 19)] = 19 by simp [sparseGet]]
    decide
  have flipped (u : State) : flipTableBit r 0 u = u.setReg r (u.reg r ^^^ 1#32) := by
    simp only [flipTableBit, if_neg (Nat.not_le_of_lt low), noTable, own, word]
    rfl
  have counted (u : State) : ((u.bump F.SRM_CE_COUNT_COUNT).raise F.SRM_EVENTS_CE).reg r = u.reg r := by
    rw [State.raise, State.reg_fset_ne _ _ _ _ quiet, State.bump, State.add, State.reg_fset_ne _ _ _ _ silent]
  have memories (u : State) (m : MemAux) (a : Nat) : ({ u with mem := m } : State).reg a = u.reg a := rfl
  have read : readLaneMap s = readTableByte r s := by simp [readLaneMap, readTables, h.flips, h.hit]
  rw [read, readTableByte, h.flips, named]
  simp only [flipped, h.lap, counted, memories, List.contains_nil, Bool.false_eq_true, if_false, State.reg_setReg_self]

theorem frame_sendSide_heldJob (f : SideFlight) (s : State) : Frame [.bln] [R.BLN_LANE_INJECT 0] (readLaneMap s) (sendSide f 0 heldJob s) := by
  unfold sendSide
  dsimp only
  split
  · refine ((takeCrc_spec 0 (readLaneMap s)).2.trans ?_).trans (Frame.emit _ _ _ _)
    exact (Frame.setTrain _ _ _ _ (.head _)).trans (Frame.setBln _ _ _ (.head _))
  · exact Frame.setBln _ _ _ (.head _)

/-- The side frame of `heldJob` leaves where no course runs, and the lane map is read for it. -/
theorem releaseSide_of_flipInLaneMap {r : Nat} (hr : UntabledReg r) {s : State} (h : FlipInLaneMap r s) (hs : s.bln.side = some heldJob)
    (hi : s.running = none) (hl : r ≠ R.BLN_LANE_INJECT 0) (hq : recorderReg r = false) : (releaseSide s).reg r = s.reg r ^^^ 1#32 := by
  have slot : s.sideSlot 0 = true := by simp [State.sideSlot, State.laneMapBad, State.badAmong, h.sound, hi]
  rw [← readLaneMap_of_flipInLaneMap hr h, releaseSide, hs]
  dsimp only [heldJob]
  simp only [slot]
  exact (frame_sendSide_heldJob _ s).2 _ (by simpa using hl) hq

/-! ### The end of an aborted course (R197, R231, R302) -/

/-- The registers that the end of a course writes before its lanes have returned to READY. -/
def endedRegs : List Nat := R.INT_EVENTS :: (List.range 136).map R.BLN_LANE_STATUS

/-- Without a journal and without course events, the end of a course is the release of the side frame that waits, none running. -/
theorem abortFinish_of_quiet {s : State} (hq : s.ing.queue = [{ readyEntry with state := .running }])
    (hj : s.govFlag F.INT_CTL_JRNL_EN = false) (he : s.govFlag F.STR_CTL_ENABLE = false) :
    ∃ v, abortFinish s = releaseSide v ∧ v.running = none ∧ v.bln.side = s.bln.side ∧
      Frame [.results, .ras, .bsx, .crw, .bln, .stk, .int, .queue] endedRegs s v := by
  have running : s.running = some { readyEntry with state := .running } := by rw [State.running, hq]; rfl
  have posted := frame_postCourseResult hj 5 { readyEntry with state := .running }
  obtain ⟨p, hp⟩ := exists_eq (a' := postCourseResult 5 { readyEntry with state := .running } s)
  rw [← hp] at posted
  have quiet (n : Nat) : courseEvent 4 n 0 p = p := by
    simp [courseEvent, (State.govFlag_congr (posted.1 .inForce (by decide)) F.STR_CTL_ENABLE).trans he]
  obtain ⟨u, hu⟩ := exists_eq (a' := putAway (p.mapEntry 0 endedEntry))
  have away : Frame [.ras, .bsx, .crw, .bln, .stk, .int, .queue] [] p u := hu ▸ frame_putAway p 0
  have ready := frame_lanesToReady u u.activeLanes (fun l hl => List.mem_range.mp (List.mem_of_mem_filter hl))
  refine ⟨u.activeLanes.foldl (fun t l => setLane l 3 t) u, ?_, ?_, ?_, ?_⟩
  · simp only [abortFinish, running, ← hp, quiet, lanesReady]
    rw [hu]
    rfl
  · have queue : u.ing.queue = [endedEntry { readyEntry with state := .running }] := by
      rw [hu]
      show p.ing.queue.map _ = _
      rw [posted.1 .queue (by decide), hq]
      rfl
    rw [State.running, ready.1 .queue (by decide), queue]
    rfl
  · rw [ready.1 .bln (by decide), hu]
    show p.bln.side = s.bln.side
    exact congrArg Lanes.side (posted.1 .bln (by decide))
  · exact (posted.mono (by simp) (by simp [endedRegs])).trans
      ((away.mono (by simp) (by simp)).trans (ready.mono (by simp) (fun _ m => .tail _ m)))

/-- The registers after a demand in an aborted course that no gate train holds up: those of the course's end, and STAGE_DEMAND. -/
theorem demand_regs_of_aborted {s : State} {c : Nat} {cat2 : Bool} (hc : bitAt c (s.fget F.SAF_CAUSE_CAUSES) = false)
    (ha : s.stk.aborted = true) (ht : s.stk.train = none) (hstage : causeStage c = some cat2) :
    (demand c s).regs = ((abortFinish (beamCut c s)).raise F.SAF_EVENTS_STAGE_DEMAND).regs := by
  have latched : (causeLatched c s).stk = s.stk := (frame_causeLatched c s).1 .stk (by decide)
  obtain ⟨hlow, hkept⟩ := quench_of_no_train (s := (causeLatched c s).raise F.SAF_EVENTS_BEAM_DEMAND)
    ((congrArg Strokes.train latched).trans ht)
    ((causeLatched c s).rtime + ticksPerNs * ((Config.freeWord s.free 1).toNat % (reactTime s + 1) : Nat))
  have strokes : (beamCut c s).stk = (fireLow c s).2.stk := (frame_reacted [] _ _).1 .stk (by decide)
  have train : (beamCut c s).stk.train = none := by rw [strokes]; exact hlow
  have aborted : (beamCut c s).stk.aborted = true := by
    rw [strokes]
    exact hkept.trans ((congrArg Strokes.aborted latched).trans ha)
  have halt (cut : Option (Nat × Nat)) (first : Option Committed) : demandHalt cut first (beamCut c s) = beamCut c s := by
    simp [demandHalt, State.haltable, aborted]
  have ends : afterCut (beamCut c s) = abortFinish (beamCut c s) := by simp [afterCut, aborted, train]
  rw [demand_regs_of_stage hc hstage, halt, ends]

/-! ### LIMIT_TRIP outside homing (R270, R391) -/

/-- A trip shown and counted. -/
def tripShown (a i : Nat) (s : State) : State :=
  (((s.raise (limBit a i)).raise (F.MOT_AX_STATUS_AWAY_ONLY a)).bump (F.MOT_AX_LIM_TRIPS_COUNT a)).raise (F.MOT_AX_EVENTS_LIMIT_TRIP a)

/-- An axis in FAULT 1, which stops under an order. -/
def tripFaulted (a : Nat) (o : AxisOrder) (s : State) : State :=
  (faultAxis a 1 s).setAxis a { s.axis a with order := o, next := none }

theorem tripShown_mot (a i : Nat) (s : State) : (tripShown a i s).mot = s.mot := rfl

/-- The filtered level has changed, and no table runs: the trip is shown, the axis enters FAULT, and with a reference a demand follows. -/
theorem limitTripOp_of_filtered {a i : Nat} {s u : State} (hu : filtered a i true s = some u) (ht : u.mot.table = none)
    (hh : (u.axis a).homing = none) :
    ∃ o, limitTripOp a i s = demandIf (s.ref a) (15 + a) (requestHalt 11 false (tripFaulted a o (tripShown a i u))) := by
  have same : (tripShown a i u).axis a = u.axis a := State.axis_congr (tripShown_mot a i u) a
  have untabled : endTable false (tripShown a i u) = tripShown a i u := by
    rw [endTable_eq, if_pos (by simp [tripShown_mot, ht])]
  have unhomed : ((tripShown a i u).axis a).homing = none := by rw [same, hh]
  refine ⟨s.stopOrder (if s.flag (F.MOT_AX_CTL_STOP_MODE a) then .quick else .stop), ?_⟩
  unfold limitTripOp
  simp only [hu]
  rw [← tripShown, untabled, unhomed]
  simp [tripFaulted, unhomed]

/-- What a trip writes before its halt. -/
def tripRegs (a : Nat) : List Nat := R.MOT_AX_EVENTS a :: R.MOT_AX_LIM_TRIPS a :: tableRegs

theorem frame_tripped {a : Nat} (ha : a < 2) (i : Nat) (o : AxisOrder) (s : State) :
    Frame [.mot] (tripRegs a) s (tripFaulted a o (tripShown a i s)) := by
  have status : R.MOT_AX_STATUS a ∈ tripRegs a := .tail _ (.tail _ (axStatus_mem_tableRegs ha))
  have limit : (limBit a i).addr = R.MOT_AX_STATUS a := by
    unfold limBit
    split <;> rfl
  have shown : Frame [.mot] (tripRegs a) s (tripShown a i s) :=
    (((Frame.raise _ _ s (limBit a i) (limit ▸ status)).trans (Frame.raise _ _ _ (F.MOT_AX_STATUS_AWAY_ONLY a) status)).trans
      (Frame.bump _ _ _ (F.MOT_AX_LIM_TRIPS_COUNT a) (.tail _ (.head _)))).trans
        (Frame.raise _ _ _ (F.MOT_AX_EVENTS_LIMIT_TRIP a) (.head _))
  exact (shown.trans ((frame_faultAxis ha 1 _).mono (fun _ m => m) (fun _ m => .tail _ (.tail _ m)))).trans (frame_setAxis _ _ _ _)

/-- FAULT leaves the axis's events as the trip has shown them. -/
theorem axEvents_tripFaulted {a : Nat} (ha : a < 2) (o : AxisOrder) (s : State) :
    (tripFaulted a o s).reg (R.MOT_AX_EVENTS a) = s.reg (R.MOT_AX_EVENTS a) := by
  rw [tripFaulted, State.reg_setAxis]
  obtain rfl | rfl : a = 0 ∨ a = 1 := by omega
  · exact (frame_faultAxis (by decide) 1 s).2 _ (by decide) (by decide)
  · exact (frame_faultAxis (by decide) 1 s).2 _ (by decide) (by decide)

/-! ### The counterexample -/

/-- An aborted course of a device with bank 152 of the lane map in service, which would take in 0x140000 to 0x1403FF, the first registers of
the motion unit (R195, R451). The check bits of MOT_AX_EVENTS of axis 0 name data bit 0, which is LIMIT_TRIP. Axis 0 has its reference, and
its positive limit has been reached. -/
def tripDue : State :=
  let s := (abortedCourse (R.MOT_AX_EVENTS 0) 19 State.reset.stk).raise (F.MOT_AX_STATUS_REF 0)
  { s with
    banks := { s.banks with lanes := { s.banks.lanes with active := 152 } }
    mot := { s.mot with x := { s.mot.x with limPos := { raw := true, level := false, since := some 0 } } } }

/-- The conditions of LIMIT_TRIP hold of it (R269, R270). -/
theorem tripDue_due : ((tripDue.axis 0).input 0).since = some 0 ∧ ((tripDue.axis 0).input 0).level = false ∧ (tripDue.axis 0).homing = none := by
  decide +kernel

/-- MOT_AX_EVENTS of axis 0 lies in no table, and reports no correction. -/
theorem untabledReg_axEvents : UntabledReg (R.MOT_AX_EVENTS 0) := ⟨by decide, by decide, by decide +kernel, by decide⟩

/-- `tripDue` once the limit's level is taken over, after DEBOUNCE (R269). -/
def tripTaken : State :=
  (tripDue.begin.until (0 + tripDue.fget (F.MOT_AX_DEBOUNCE_US 0) * ticksPerUs)).setAxis 0
    { tripDue.axis 0 with limPos := { raw := true, level := true, since := none } }

theorem frame_tripTaken : Frame [.clock, .mot] [] tripDue tripTaken :=
  ((Frame.begun _ _ _).trans (Frame.until _ _ _ (by decide))).trans ((frame_setAxis _ _ _ _).mono (by simp) (fun _ m => m))

/-- What LIMIT_TRIP of `tripDue` leaves before the demand: but for the axis it is `tripDue`, and LIMIT_TRIP alone is set in its events. -/
theorem limitTripOp_tripDue : ∃ u, limitTripOp 0 0 tripDue.begin = demand 15 u ∧ u.reg (R.MOT_AX_EVENTS 0) = 1#32 ∧
    Frame [.clock, .mot] (tripRegs 0) tripDue u := by
  have level : filtered 0 0 true tripDue.begin = some tripTaken := rfl
  obtain ⟨o, trips⟩ := limitTripOp_of_filtered level rfl rfl
  obtain ⟨u, hu⟩ := exists_eq (a' := tripFaulted 0 o (tripShown 0 0 tripTaken))
  have kept : Frame [.clock, .mot] (tripRegs 0) tripDue u :=
    (frame_tripTaken.mono (fun _ m => m) (by simp)).trans (hu ▸ (frame_tripped (by decide) 0 o _).mono (by simp) (fun _ m => m))
  refine ⟨u, ?_, ?_, kept⟩
  · have still : requestHalt 11 false u = u := by
      have aborted : u.haltable = false := by
        have strokes : u.stk.aborted = true := congrArg Strokes.aborted (kept.1 .stk (by decide))
        simp [State.haltable, strokes]
      simp [requestHalt, aborted]
    have reference : tripDue.begin.ref 0 = true := by decide +kernel
    rw [trips, ← hu, still, reference]
    rfl
  · rw [hu, axEvents_tripFaulted (by decide)]
    decide +kernel

/-- The demand ends the course, its lanes return to READY, and the side frame that leaves reads the lane map: the correction takes the event
back (R197, R302, R318). -/
theorem limitTripOp_tripDue_event : (limitTripOp 0 0 tripDue.begin).flag (F.MOT_AX_EVENTS_LIMIT_TRIP 0) = false := by
  obtain ⟨u, trips, shown, kept⟩ := limitTripOp_tripDue
  have cut := frame_beamCut 15 u
  have same (p : Part) (hp : p ∉ [.clock, .mot]) (hq : p ∉ [.saf, .free, .stk]) : p.same tripDue (beamCut 15 u) :=
    p.same_trans (kept.1 p hp) (cut.1 p hq)
  have marks : FlipInLaneMap (R.MOT_AX_EVENTS 0) tripDue := ⟨by decide +kernel, rfl, rfl, rfl⟩
  have inForce := same .inForce (by decide) (by decide)
  obtain ⟨v, ends, idle, side, ended⟩ := abortFinish_of_quiet (s := beamCut 15 u) (congrArg Ingest.queue (same .queue (by decide) (by decide)))
    ((State.govFlag_congr inForce _).trans (by decide +kernel)) ((State.govFlag_congr inForce _).trans (by decide +kernel))
  have waiting : v.bln.side = some heldJob := side.trans (congrArg Lanes.side (same .bln (by decide) (by decide)))
  have corrected := releaseSide_of_flipInLaneMap untabledReg_axEvents
    (marks.congr ((ended.1 .banks (by decide)).trans (same .banks (by decide) (by decide)))
      ((ended.1 .mem (by decide)).trans (same .mem (by decide) (by decide)))) waiting idle (by decide) (by decide)
  have cause : bitAt 15 (u.fget F.SAF_CAUSE_CAUSES) = false := by
    rw [kept.fget F.SAF_CAUSE_CAUSES (by decide) (by decide)]
    decide +kernel
  have strokes : u.stk = tripDue.stk := kept.1 .stk (by decide)
  have called := demand_regs_of_aborted (s := u) (c := 15) cause (congrArg Strokes.aborted strokes)
    (congrArg Strokes.train strokes) rfl
  have clear : (limitTripOp 0 0 tripDue.begin).reg (R.MOT_AX_EVENTS 0) = 0#32 := by
    calc (limitTripOp 0 0 tripDue.begin).reg (R.MOT_AX_EVENTS 0)
        = ((releaseSide v).raise F.SAF_EVENTS_STAGE_DEMAND).reg (R.MOT_AX_EVENTS 0) := by rw [trips, State.reg, called, ends]; rfl
      _ = (releaseSide v).reg (R.MOT_AX_EVENTS 0) := State.reg_fset_ne _ F.SAF_EVENTS_STAGE_DEMAND _ _ (by decide)
      _ = v.reg (R.MOT_AX_EVENTS 0) ^^^ 1#32 := corrected
      _ = 0#32 := by rw [ended.2 _ (by decide) (by decide), cut.2 _ (by decide) (by decide), shown]; rfl
  show (fieldOf 0 1 ((limitTripOp 0 0 tripDue.begin).reg (R.MOT_AX_EVENTS 0)) != 0) = false
  rw [clear]
  rfl

/-- Refutes O45: nothing in the statement keeps the number of the lane map's bank in service below 2. With bank 152 in service the read of the
lane map that follows the demand of a referenced axis's limit trip corrects MOT_AX_EVENTS, and LIMIT_TRIP reads 0. The model's own commands
bring that number to 0 and 1 alone, so that no run from reset reaches the state. -/
theorem not_limitAndHomeInputs : ¬ Obligations.LimitAndHomeInputs := by
  unfold Obligations.LimitAndHomeInputs
  intro h
  obtain ⟨hsince, hlevel, hhoming⟩ := tripDue_due
  obtain ⟨-, limits, -⟩ := h tripDue 0 (by decide)
  obtain ⟨t, ht, -, -, -, hevent, -⟩ := (limits 0 0 (by decide) hsince).1 hlevel hhoming
  obtain rfl := Host.Outcome.next.inj (ht.symm.trans (done_next (limitTripOp 0 0) tripDue))
  rw [flag_settled _ _ _ _ (by decide), limitTripOp_tripDue_event] at hevent
  exact absurd hevent (by decide)

end Sys2Proof.Machine
end

section
/-! PROOF. The result blocks: RESULT_READ and RESULT_ACK (R300, R401). -/

namespace Sys2Proof.Machine

/-! ### What the two commands do to a block -/

/-- Another result block after one is replaced. -/
theorem State.result_setResult_ne {a c : Nat} (s : State) (b : ResultBlock) (h : c ≠ a) : (s.setResult a b).result c = s.result c :=
  sparseGet_put_ne _ _ _ h _ _

/-- The registers that hold a VALID (R300). -/
def validRegs : List Nat :=
  [R.SLZ_RESULT, R.BLN_SIDE_RESULT, R.INT_RESULT, R.SRM_CHK_RESULT, R.LOG_EXP_RESULT, R.SAF_TEST_RESULT, R.CFG_JOB_RESULT]

theorem mem_validRegs_of_resultBase {a : Nat} (h : resultBase a = some a) : a ∈ validRegs := by
  unfold resultBase at h
  split_ifs at h <;> simp_all [validRegs]

/-- A register that holds VALID is a whole word below the beam map window, with no RC field, and is no low word and no table word. -/
theorem validRegs_plain : ∀ a ∈ validRegs, a % 4 = 0 ∧ a + 4 ≤ 0x800000 ∧ isLowWord a = false ∧ (tableAt a).isNone = true ∧
    (descOf a).all (fun d => d.fields.all (fun f => f.acc != .rc)) = true := by decide +kernel

/-- A register without RC fields, and an offset that holds no register, are left alone by the clearing of a read (R10). -/
theorem clearRc_of_all {a : Nat} (s : State) (h : (descOf a).all (fun d => d.fields.all (fun f => f.acc != .rc)) = true) :
    clearRc a s = s := by
  cases hd : descOf a with
  | none => exact clearRc_of_hole s hd
  | some d => exact clearRc_of_no_rc s hd (by simpa [hd] using h)

/-- The read of a register that holds VALID does nothing but mark the visible result seen (R300). -/
theorem readWord_of_valid {a : Nat} (s : State) (h : resultBase a = some a) : (readWord a s).2 = markSeen a s := by
  obtain ⟨-, -, low, table, fields⟩ := validRegs_plain a (mem_validRegs_of_resultBase h)
  have noTable (x : Nat) : s.readsTable a x = false := by simp [State.readsTable, Option.isNone_iff_eq_none.mp table]
  rw [readWord_of_tables (readTables_of_no_hit _ s noTable), latchHigh_of_not_low s low, clearRc_of_all s fields]

/-- A visible result marked seen (R300). -/
theorem markSeen_of_visible {a : Nat} {s : State} {v : ResultSlot} (h : resultBase a = some a) (hv : (s.result a).vis = some v) :
    markSeen a s = s.setResult a { vis := some { v with seen := true }, beh := (s.result a).beh } := by
  simp [markSeen, h, hv]

/-- The ACK registers are whole words of BAR0. -/
theorem resultAck_wf {a b : Nat} (h : ackBase a = some b) : (Instr.resultAck a).wf = true := by
  unfold ackBase at h
  split_ifs at h <;> subst a <;> rfl

/-- What a RESULT_ACK does: the block after the release, and the first key at SAF_TEST_ACK (R300, R401). -/
theorem ackOp_eq {a b : Nat} (s : State) (h : ackBase a = some b) :
    ackOp a s = (if a = R.SAF_TEST_ACK then unkey s else s).setResult b (ackBlockOf (s.result b)) := by
  simp only [ackOp, h, resultAckOp]
  split <;> rfl

/-- What a RESULT_ACK leaves of each block, of the first key and of the rest (R300, R401). -/
theorem ackOp_spec {a b : Nat} (s : State) (h : ackBase a = some b) :
    (ackOp a s).result b = ackBlockOf (s.result b) ∧ (∀ c, c ≠ b → (ackOp a s).result c = s.result c) ∧
      (ackOp a s).saf = (if a = R.SAF_TEST_ACK then { s.saf with keyed := false } else s.saf) ∧
      Frame [.results, .saf] [] s (ackOp a s) := by
  rw [ackOp_eq s h]
  refine ⟨State.result_setResult_self _ _ _, fun c hc => ?_, ?_, ?_⟩
  · rw [State.result_setResult_ne _ _ hc]
    split <;> rfl
  · rw [State.setResult_saf]
    split <;> rfl
  · refine Frame.trans ?_ ((frame_setResult [] _ b _).mono (by simp) (by simp))
    exact Frame.ite _ (fun _ => (frame_unkey [] s).mono (by simp) (by simp)) (fun _ => Frame.refl _ _ s)

/-! ### The statement -/

/-- RESULT_READ of a visible result (R300). -/
theorem completes_resultRead {s : State} {a : Nat} {v : ResultSlot} (h : resultBase a = some a) (hv : (s.result a).vis = some v) :
    Completes (.resultRead ⟨a, 1⟩) s (fun t =>
      t.result a = { vis := some { v with seen := true }, beh := (s.result a).beh } ∧
      (∀ c, c ≠ a → t.result c = s.result c) ∧ Frame [.results] [] s t) := by
  obtain ⟨aligned, below, -⟩ := validRegs_plain a (mem_validRegs_of_resultBase h)
  refine completes_of_wf _ rfl (readWf_intro aligned (by omega) (by omega) (by omega)) ?_
  rw [readRegOp_one, readWord_of_valid _ h, markSeen_of_visible (s := s.begin) h hv]
  refine ⟨?_, fun c hc => ?_, Frame.settled _ ((frame_setResult _ _ _ _).trans (Frame.answered _ _ _ _))⟩
  · rw [result_settled]
    exact State.result_setResult_self _ _ _
  · rw [result_settled]
    exact State.result_setResult_ne s.begin _ hc

/-- RESULT_ACK, whatever the block holds (R300, R401). -/
theorem completes_resultAck {s : State} {a b : Nat} (h : ackBase a = some b) :
    Completes (.resultAck a) s (fun t => t.result b = ackBlockOf (s.result b) ∧ (∀ c, c ≠ b → t.result c = s.result c) ∧
      t.saf = (if a = R.SAF_TEST_ACK then { s.saf with keyed := false } else s.saf) ∧ Frame [.results, .saf] [] s t) := by
  obtain ⟨released, others, key, rest⟩ := ackOp_spec s.begin h
  exact completes_of_wf _ rfl (resultAck_wf h) ⟨(result_settled _ _ _ _).trans released,
    fun c hc => (result_settled _ _ _ _).trans (others c hc), (settle_saf _ _).trans key, Frame.settled _ rest⟩

/-- Settles O13: a read finds nothing to do but mark the block, and an acknowledgement is one block replaced, at SAF_TEST_ACK with the first
key given up. -/
theorem resultBlocksHoldTwo : Obligations.ResultBlocksHoldTwo := by
  unfold Obligations.ResultBlocksHoldTwo
  intro s a b v
  refine ⟨completes_resultRead, fun h hv => (completes_resultAck h).mono ?_, fun h hv => (completes_resultAck h).mono ?_⟩ <;>
    rintro t ⟨released, others, key, rest⟩
  · exact ⟨by rw [released, ackBlockOf, hv], others, key, rest⟩
  · refine ⟨fun c => ?_, rest⟩
    by_cases hc : c = b
    · rw [hc, released, ackBlockOf, hv]
    · exact others c hc

end Sys2Proof.Machine
end

section
/-! PROOF. Source losses and planted faults: RESEND, RESEND_READ_DONE and the INJECT commands (R289, R291, R303). -/

namespace Sys2Proof.Machine

/-! ### The loss held (R289, R291) -/

/-- RESEND with a loss held (R291). -/
theorem resendOp_of_loss {s : State} {l : Loss} (h : s.int.loss = some l) :
    resendOp s = { s with int := { s.int with rereads := true } } := by
  simp [resendOp, h]

/-- RESEND with no loss held (R291). -/
theorem resendOp_of_none {s : State} (h : s.int.loss = none) : resendOp s = s := by
  simp [resendOp, h]

/-- The held range read again, and the order to read it used up (R291). -/
def rereadRange (l : Loss) (s : State) : State := readHbm 9 l.addr l.len { s with int := { s.int with rereads := false } }

/-- RESEND_READ_DONE of a range that still fails (R291). -/
theorem resendReadDoneOp_of_bad {s : State} {l : Loss} (hl : s.int.loss = some l) (hr : s.int.rereads = true)
    (hb : s.hbmBad 9 l.addr l.len = true) :
    resendReadDoneOp s = resendRecord l 1 ((rereadRange l s).raise F.INT_EVENTS_RESEND_FAIL) := by
  simp [resendReadDoneOp, hl, hr, hb, rereadRange]

/-- RESEND_READ_DONE of a range whose bytes now stand whole (R291). -/
theorem resendReadDoneOp_of_whole {s : State} {l : Loss} {e : Entry} (hl : s.int.loss = some l) (hr : s.int.rereads = true)
    (hb : s.hbmBad 9 l.addr l.len = false) (he : s.entry l.entry = some e) (hw : resendFailure s e l = none) :
    resendReadDoneOp s = checkLate (resendRecord l 0 (clearLoss (rereadRange l s))) := by
  simp [resendReadDoneOp, hl, hr, hb, he, hw, rereadRange]

/-- A read of HBM leaves the loss and the admission as they stand (R314). -/
theorem rereadRange_spec (l : Loss) (s : State) :
    (rereadRange l s).int = { s.int with rereads := false } ∧ (rereadRange l s).ing = s.ing ∧
      BlockFrame [.int, .hbm, .keel, .mem, .arb] [0x09, 0x0A] s (rereadRange l s) := by
  have read := blockFrame_readHbm 9 l.addr l.len { s with int := { s.int with rereads := false } }
  exact ⟨read.1 .int (by decide), read.1 .queue (by decide),
    (BlockFrame.parts ((frame_setInt [] s _).mono (by simp) (by simp))).trans (read.mono (by simp) (by simp))⟩

/-- The journal's record of a resend leaves the loss, the admission and the integrity unit's events (R293). -/
theorem resendRecord_spec (l : Loss) (code : Nat) (s : State) :
    (resendRecord l code s).int = s.int ∧ (resendRecord l code s).ing = s.ing ∧
      (resendRecord l code s).reg R.INT_EVENTS = s.reg R.INT_EVENTS ∧
      BlockFrame [.hbm, .keel, .mem, .banks, .crw] [0x09, 0x0A, 0x0E, 0x0F, 0x15] s (resendRecord l code s) := by
  have kept : BlockFrame [.hbm, .keel, .mem, .banks, .crw] [0x09, 0x0A, 0x0E, 0x0F, 0x15] s (resendRecord l code s) :=
    blockFrame_journal _ _ _ _ _ s
  exact ⟨kept.1 .int (by decide), kept.1 .queue (by decide), journal_intEvents _ _ _ _ _ _, kept⟩

/-- A loss that is over is a change of the loss and of the paused admission alone (R289). -/
theorem frame_clearLoss (rs : List Nat) (s : State) : Frame [.int, .queue] rs s (clearLoss s) :=
  Frame.parts _ _ _ _ rfl (fun p hp => by cases p <;> simp_all [Part.same, clearLoss])

/-- RESEND_READ_DONE of a range that still fails keeps the loss and reports it (R291). -/
theorem resendReadDoneOp_bad_spec {s : State} {l : Loss} (hl : s.int.loss = some l) (hr : s.int.rereads = true)
    (hb : s.hbmBad 9 l.addr l.len = true) :
    (resendReadDoneOp s).int = { s.int with rereads := false } ∧ (resendReadDoneOp s).flag F.INT_EVENTS_RESEND_FAIL = true ∧
      BlockFrame [.int, .hbm, .mem, .arb, .keel, .banks, .crw] [0x09, 0x0A, 0x0E, 0x0F, 0x15] s (resendReadDoneOp s) := by
  obtain ⟨read, -, readFrame⟩ := rereadRange_spec l s
  obtain ⟨held, -, events, recordFrame⟩ := resendRecord_spec l 1 ((rereadRange l s).raise F.INT_EVENTS_RESEND_FAIL)
  rw [resendReadDoneOp_of_bad hl hr hb]
  refine ⟨held.trans ((State.raise_int _ _).trans read), ?_, ?_⟩
  · have raised := State.flag_raise_self (rereadRange l s) F.INT_EVENTS_RESEND_FAIL (by decide) (by decide)
    rw [← raised]
    exact congrArg (fun w => fieldOf _ _ w != 0) events
  · exact ((readFrame.mono (by simp) (by simp)).trans (BlockFrame.raise _ _ _ (by decide))).trans (recordFrame.mono (by simp) (by simp))

/-- RESEND_READ_DONE of a whole range clears the loss, and a paused admission goes on (R289, R291). -/
theorem resendReadDoneOp_whole_spec {s : State} {l : Loss} {e : Entry} (hl : s.int.loss = some l) (hr : s.int.rereads = true)
    (hb : s.hbmBad 9 l.addr l.len = false) (he : s.entry l.entry = some e) (hw : resendFailure s e l = none) :
    (resendReadDoneOp s).int.loss = none ∧ (resendReadDoneOp s).int.rereads = false ∧ (resendReadDoneOp s).ing.queue = s.ing.queue ∧
      (resendReadDoneOp s).ing.adm = s.ing.adm.map (fun a => { a with paused := false }) ∧
      BlockFrame [.int, .queue, .hbm, .mem, .arb, .keel, .banks, .crw] [0x09, 0x0A, 0x0E, 0x0F, 0x15] s (resendReadDoneOp s) := by
  obtain ⟨read, queue, readFrame⟩ := rereadRange_spec l s
  obtain ⟨held, entries, -, recordFrame⟩ := resendRecord_spec l 0 (clearLoss (rereadRange l s))
  have late := frame_checkLate [] [] (resendRecord l 0 (clearLoss (rereadRange l s)))
  rw [resendReadDoneOp_of_whole hl hr hb he hw]
  have int : (checkLate (resendRecord l 0 (clearLoss (rereadRange l s)))).int = { s.int with rereads := false, loss := none } := by
    rw [show (checkLate _).int = _ from late.1 .int (by decide), held, clearLoss, read]
  have ing : (checkLate (resendRecord l 0 (clearLoss (rereadRange l s)))).ing =
      { s.ing with adm := s.ing.adm.map (fun a => { a with paused := false }) } := by
    rw [show (checkLate _).ing = _ from late.1 .queue (by decide), entries, clearLoss, queue]
  rw [int, ing]
  refine ⟨rfl, rfl, rfl, rfl, ?_⟩
  exact (((readFrame.mono (by simp) (by simp)).trans (BlockFrame.parts ((frame_clearLoss [] _).mono (by simp) (by simp)))).trans
    (recordFrame.mono (by simp) (by simp))).trans (BlockFrame.of_frame (late.mono (by simp) (fun _ m => m)) (by decide))

/-! ### Planted faults (R303) -/

/-- The fields of INT_INJECT, packed into its word (R303). -/
theorem fieldOf_faultWord {kind islet track : Nat} (hk : kind < 8) (hi : islet < 128) (ht : track < 8192) :
    let w := BitVec.ofNat 32 (kind + islet * 2 ^ 3 + track * 2 ^ 10)
    fieldOf 0 3 w = kind ∧ fieldOf 3 7 w = islet ∧ fieldOf 10 13 w = track := by
  simp only [fieldOf, BitVec.toNat_ofNat]
  omega

/-- What a planted fault leaves in INT_INJECT (R303). -/
theorem injectFault_spec {kind islet track : Nat} (s : State) (hk : kind < 6) (hi : islet < 128) (ht : track < 8192) :
    let t := injectFault kind islet track s
    t.fget F.INT_INJECT_KIND = kind ∧ t.fget F.INT_INJECT_ISLET = islet ∧ t.fget F.INT_INJECT_TRACK = track ∧
      Frame [] [R.INT_INJECT] s t := by
  obtain ⟨kindRead, isletRead, trackRead⟩ := fieldOf_faultWord (by omega : kind < 8) hi ht
  have stored : injectFault kind islet track s = s.setReg R.INT_INJECT (BitVec.ofNat 32 (kind + islet * 2 ^ 3 + track * 2 ^ 10)) := by
    rw [injectFault, if_neg (by omega), Nat.mod_eq_of_lt (by omega : kind < 8), Nat.mod_eq_of_lt hi, Nat.mod_eq_of_lt ht]
  dsimp only
  rw [stored]
  exact ⟨(State.fget_setReg_self s F.INT_INJECT_KIND _).trans kindRead, (State.fget_setReg_self s F.INT_INJECT_ISLET _).trans isletRead,
    (State.fget_setReg_self s F.INT_INJECT_TRACK _).trans trackRead, Frame.setReg _ _ _ _ _ (by simp)⟩

/-- A command that needs the open lock is reported and counted while the lock is closed (R11, R402). -/
theorem completes_locked_counted {c : Instr} {s : State} (f : State → State) (h : exec c s = done c.wf (locked f) s) (hw : c.wf = true)
    (hc : s.lockOpen = false) :
    Completes c s (fun t => t.flag F.SAF_EVENTS_LOCK_VIOLATION = true ∧
      t.fget F.SAF_LOCK_VIOL_COUNT = satAdd F.SAF_LOCK_VIOL_COUNT.width (s.fget F.SAF_LOCK_VIOL_COUNT) 1 ∧
      Frame [] [R.SAF_LOCK_VIOL, R.SAF_EVENTS] s t) := by
  refine completes_of_wf _ h hw ?_
  rw [locked, show s.begin.lockOpen = false from hc, if_neg Bool.false_ne_true]
  exact ⟨(flag_settled _ _ _ _ rfl).trans (flag_lockViolation _), (fget_settled _ _ _ _ rfl).trans (fget_lockViolation _),
    Frame.settled _ (frame_lockViolation _ _ _)⟩

/-- An INJECT command, with what is claimed of INT_INJECT under the open lock (R303, R402). -/
theorem plantsUnderLock {c : Instr} {s : State} {kind islet track : Nat} {P : State → Prop}
    (h : exec c s = done c.wf (injectFaultOp kind islet track) s) (hw : c.wf = true) (hk : kind < 6) (hi : islet < 128) (ht : track < 8192)
    (hp : ∀ t, t.fget F.INT_INJECT_KIND = kind → t.fget F.INT_INJECT_ISLET = islet → t.fget F.INT_INJECT_TRACK = track →
      Frame [] [R.INT_INJECT] s t → P t) :
    (s.lockOpen = true → Completes c s P) ∧
    (s.lockOpen = false → Completes c s (fun t => t.flag F.SAF_EVENTS_LOCK_VIOLATION = true ∧
      t.fget F.SAF_LOCK_VIOL_COUNT = satAdd F.SAF_LOCK_VIOL_COUNT.width (s.fget F.SAF_LOCK_VIOL_COUNT) 1 ∧
      Frame [] [R.SAF_LOCK_VIOL, R.SAF_EVENTS] s t)) := by
  refine ⟨fun ho => completes_of_wf _ h hw ?_, completes_locked_counted _ h hw⟩
  obtain ⟨kindRead, isletRead, trackRead, rest⟩ := injectFault_spec s.begin hk hi ht
  rw [injectFaultOp, locked, if_pos (show s.begin.lockOpen = true from ho)]
  exact hp _ ((fget_settled _ _ _ _ rfl).trans kindRead) ((fget_settled _ _ _ _ rfl).trans isletRead)
    ((fget_settled _ _ _ _ rfl).trans trackRead) (Frame.settled _ rest)

/-! ### The statement -/

/-- Settles O46: a resend is the range read again, a record, and the loss kept or cleared; a planted fault is one register written. -/
theorem lossesAreResentAndFaultsPlanted : Obligations.LossesAreResentAndFaultsPlanted := by
  unfold Obligations.LossesAreResentAndFaultsPlanted
  intro s
  refine ⟨fun l hl => completes_of _ rfl ?_, fun hn => completes_of _ rfl ?_, fun l hl hr => ⟨fun hb => completes_of _ rfl ?_,
    fun e hb he hw => completes_of _ rfl ?_⟩, fun n hn => ?_, fun n hn => ?_⟩
  · rw [resendOp_of_loss (s := s.begin) hl]
    exact ⟨settle_int _ _, Frame.settled _ (frame_setInt _ _ _)⟩
  · rw [resendOp_of_none (s := s.begin) hn]
    exact ⟨settle_int _ _, Frame.settled _ (Frame.refl _ _ _)⟩
  · obtain ⟨held, failed, rest⟩ := resendReadDoneOp_bad_spec (s := s.begin) hl hr hb
    exact ⟨(settle_int _ _).trans held, (flag_settled _ _ _ _ rfl).trans failed, BlockFrame.settled _ rest⟩
  · obtain ⟨cleared, reread, queue, goesOn, rest⟩ := resendReadDoneOp_whole_spec (s := s.begin) hl hr hb he hw
    have int := settle_int s.begin (resendReadDoneOp s.begin)
    have ing := settle_ing s.begin (resendReadDoneOp s.begin)
    rw [← int] at cleared reread
    rw [← ing] at queue goesOn
    exact ⟨cleared, reread, queue, goesOn, BlockFrame.settled _ rest⟩
  · have wf : decide (n < 128) = true := decide_eq_true hn
    have plants (c : Instr) (kind : Nat) (hk : kind < 6) (hc : c.wf = true) (h : exec c s = done c.wf (injectFaultOp kind n 0) s) :=
      plantsUnderLock (P := fun t => t.fget F.INT_INJECT_KIND = kind ∧ t.fget F.INT_INJECT_ISLET = n ∧ Frame [] [R.INT_INJECT] s t)
        h hc hk hn (by decide) (fun _ k i _ rest => ⟨k, i, rest⟩)
    exact List.forall_mem_cons.mpr ⟨plants (.injectResidue n) 1 (by decide) wf rfl, List.forall_mem_cons.mpr
      ⟨plants (.injectArea n) 2 (by decide) wf rfl, List.forall_mem_singleton.mpr (plants (.injectPlace n) 3 (by decide) wf rfl)⟩⟩
  · have wf : decide (n < 8192) = true := decide_eq_true hn
    have plants (c : Instr) (kind : Nat) (hk : kind < 6) (hc : c.wf = true) (h : exec c s = done c.wf (injectFaultOp kind 0 n) s) :=
      plantsUnderLock (P := fun t => t.fget F.INT_INJECT_KIND = kind ∧ t.fget F.INT_INJECT_TRACK = n ∧ Frame [] [R.INT_INJECT] s t)
        h hc hk (by decide) hn (fun _ k _ tr rest => ⟨k, tr, rest⟩)
    exact List.forall_mem_cons.mpr ⟨plants (.injectWake n) 4 (by decide) wf rfl,
      List.forall_mem_singleton.mpr (plants (.injectSplit n) 5 (by decide) wf rfl)⟩

end Sys2Proof.Machine
end

section
/-! SUPPORT. HBM's bytes in canonical form (R304), and the effects that leave HBM alone: the form holds after one of them exactly where it held
before. The functions stand in the order of the model's files. -/

namespace Sys2Proof.Machine

/-- HBM's bytes stand in canonical form. -/
def State.Canonical (s : State) : Prop := Memory.wf s.hbm.bytes = true

/-- The form depends on HBM alone. -/
theorem State.canonical_congr {s t : State} (h : t.hbm = s.hbm) : t.Canonical ↔ s.Canonical := by
  rw [State.Canonical, State.Canonical, h]

/-- The form written out is folded into its name again. -/
@[simp] theorem State.wf_bytes_iff (s : State) : Memory.wf s.hbm.bytes = true ↔ s.Canonical := Iff.rfl

/-- A state written out field by field: HBM is one of its fields, and the form asks nothing of the others. -/
@[simp] theorem State.canonical_mk (clock rtOfs regs inf latch shape ing slz ras bsx banks crw wak bln stk cox integ hbm str evt msix log mot saf
      mem arb dma moverTurn pwr keel jtag results free out resp pending) :
    (State.mk clock rtOfs regs inf latch shape ing slz ras bsx banks crw wak bln stk cox integ hbm str evt msix log mot saf
      mem arb dma moverTurn pwr keel jtag results free out resp pending).Canonical ↔
      Memory.wf hbm.bytes = true := Iff.rfl

/-- A list of effects that leave HBM alone leaves it alone. -/
theorem foldl_canonical_iff {β : Type} (f : State → β → State) (h : ∀ t b, (f t b).Canonical ↔ t.Canonical) (l : List β) (s : State) :
    (l.foldl f s).Canonical ↔ s.Canonical := by
  induction l generalizing s with
  | nil => exact Iff.rfl
  | cons b t ih => exact (ih _).trans (h s b)

/-- Of two effects the one taken decides. -/
@[simp] theorem ite_canonical_iff (c : Prop) [Decidable c] (s t : State) :
    (if c then s else t).Canonical ↔ if c then s.Canonical else t.Canonical := by
  split <;> exact Iff.rfl

/-! ### The state's operations -/

@[simp] theorem State.setReg_canonical_iff (s : State) (a : Nat) (w : Word) :
    (s.setReg a w).Canonical ↔ s.Canonical := State.canonical_congr (State.setReg_hbm ..)
@[simp] theorem State.fset_canonical_iff (s : State) (f : Fld) (v : Nat) :
    (s.fset f v).Canonical ↔ s.Canonical := State.canonical_congr (State.fset_hbm ..)
@[simp] theorem State.fsetI_canonical_iff (s : State) (f : Fld) (v : Int) :
    (s.fsetI f v).Canonical ↔ s.Canonical := State.canonical_congr (State.fsetI_hbm ..)
@[simp] theorem State.raise_canonical_iff (s : State) (f : Fld) : (s.raise f).Canonical ↔ s.Canonical := State.canonical_congr (State.raise_hbm ..)
@[simp] theorem State.clear_canonical_iff (s : State) (f : Fld) : (s.clear f).Canonical ↔ s.Canonical := State.canonical_congr (State.clear_hbm ..)
@[simp] theorem State.add_canonical_iff (s : State) (f : Fld) (n : Nat) :
    (s.add f n).Canonical ↔ s.Canonical := State.canonical_congr (State.add_hbm ..)
@[simp] theorem State.bump_canonical_iff (s : State) (f : Fld) : (s.bump f).Canonical ↔ s.Canonical := State.canonical_congr (State.bump_hbm ..)
@[simp] theorem State.raiseTo_canonical_iff (s : State) (f : Fld) (v : Nat) :
    (s.raiseTo f v).Canonical ↔ s.Canonical := State.canonical_congr (State.raiseTo_hbm ..)
@[simp] theorem State.setPair_canonical_iff (s : State) (l h : Fld) (v : Nat) :
    (s.setPair l h v).Canonical ↔ s.Canonical := State.canonical_congr (State.setPair_hbm ..)
@[simp] theorem State.setInReg_canonical_iff (s : State) (a : Nat) (w : Word) :
    (s.setInReg a w).Canonical ↔ s.Canonical := State.canonical_congr (State.setInReg_hbm ..)
@[simp] theorem State.emit_canonical_iff (s : State) (o : Output) : (s.emit o).Canonical ↔ s.Canonical := State.canonical_congr (State.emit_hbm ..)
@[simp] theorem State.emits_canonical_iff (s : State) (os : List Output) :
    (s.emits os).Canonical ↔ s.Canonical := State.canonical_congr (State.emits_hbm ..)
@[simp] theorem State.until_canonical_iff (s : State) (t : Int) : (s.until t).Canonical ↔ s.Canonical := State.canonical_congr (State.until_hbm ..)
@[simp] theorem State.after_canonical_iff (s : State) (n : Nat) : (s.after n).Canonical ↔ s.Canonical := State.canonical_congr (State.after_hbm ..)
@[simp] theorem State.setResult_canonical_iff (s : State) (a : Nat) (b : ResultBlock) :
    (s.setResult a b).Canonical ↔ s.Canonical := State.canonical_congr (State.setResult_hbm ..)
@[simp] theorem State.mapEntry_canonical_iff (s : State) (i : Nat) (f : Entry → Entry) :
    (s.mapEntry i f).Canonical ↔ s.Canonical := State.canonical_congr (State.mapEntry_hbm ..)
@[simp] theorem State.begin_canonical_iff (s : State) : (s.begin).Canonical ↔ s.Canonical := State.canonical_congr (State.begin_hbm ..)
@[simp] theorem State.raiseIf_canonical_iff (b : Bool) (g : Fld) (s : State) :
    (State.raiseIf b g s).Canonical ↔ s.Canonical := State.canonical_congr (State.raiseIf_hbm ..)
@[simp] theorem settle_canonical_iff (s0 s1 : State) : (settle s0 s1).Canonical ↔ s1.Canonical := State.canonical_congr (settle_hbm ..)
@[simp] theorem keelWrite_canonical_iff (a : Nat) (bs : List Byte) (s : State) :
    (keelWrite a bs s).Canonical ↔ s.Canonical := State.canonical_congr (keelWrite_hbm ..)
@[simp] theorem saveRepair_canonical_iff (s : State) : (saveRepair s).Canonical ↔ s.Canonical := State.canonical_congr (saveRepair_hbm ..)
@[simp] theorem propose_canonical_iff (kind trigger which : Nat) (addr : Word) (s : State) :
    (propose kind trigger which addr s).Canonical ↔ s.Canonical := State.canonical_congr (propose_hbm ..)
@[simp] theorem proposeHbm_canonical_iff (trigger addr : Nat) (s : State) :
    (proposeHbm trigger addr s).Canonical ↔ s.Canonical := State.canonical_congr (proposeHbm_hbm ..)
@[simp] theorem noteCe_canonical_iff (w : Nat) (s : State) : (noteCe w s).Canonical ↔ s.Canonical := State.canonical_congr (noteCe_hbm ..)
@[simp] theorem noteUe_canonical_iff (scrub : Bool) (port w : Nat) (s : State) :
    (noteUe scrub port w s).Canonical ↔ s.Canonical := State.canonical_congr (noteUe_hbm ..)
@[simp] theorem State.countWord_canonical_iff (s : State) (scrub : Bool) (port w : Nat) :
    (s.countWord scrub port w).Canonical ↔ s.Canonical := State.canonical_congr (State.countWord_hbm ..)
@[simp] theorem countRow_canonical_iff (w : Nat) (s : State) : (countRow w s).Canonical ↔ s.Canonical := State.canonical_congr (countRow_hbm ..)
@[simp] theorem noteRead_canonical_iff (scrub : Bool) (port w : Nat) (s : State) :
    (noteRead scrub port w s).Canonical ↔ s.Canonical := State.canonical_congr (noteRead_hbm ..)
@[simp] theorem markEntry_canonical_iff (i : Nat) (s : State) : (markEntry i s).Canonical ↔ s.Canonical := State.canonical_congr (markEntry_hbm ..)
@[simp] theorem tableIgnored_canonical_iff (y : TableId) (s : State) :
    (tableIgnored y s).Canonical ↔ s.Canonical := State.canonical_congr (tableIgnored_hbm ..)
/-! ### Machine/Ops -/

@[simp] theorem State.fresh_canonical_iff (s : State) : (State.fresh s).2.Canonical ↔ s.Canonical := State.canonical_congr rfl
@[simp] theorem State.postResult_canonical_iff (s : State) (a : Nat) (fields : List (Nat × Word)) :
    (State.postResult s a fields).2.Canonical ↔ s.Canonical := State.canonical_congr rfl

/-! ### Machine/Recorder -/

@[simp] theorem dropRec_canonical_iff (r : QueuedRec) (s : State) : (dropRec r s).Canonical ↔ s.Canonical := State.canonical_congr rfl

@[simp] theorem startWrite_canonical_iff (n : Nat) (s : State) : (startWrite n s).Canonical ↔ s.Canonical := by
  induction n generalizing s with
  | zero => exact State.canonical_congr rfl
  | succ n ih =>
    unfold startWrite
    split
    · split <;> simp [ih, dropRec]
    · exact State.canonical_congr rfl

@[simp] theorem countLoss_canonical_iff (s : State) : (countLoss s).Canonical ↔ s.Canonical := State.canonical_congr rfl

@[simp] theorem queueRec_canonical_iff (r : QueuedRec) (s : State) : (queueRec r s).Canonical ↔ s.Canonical := by
  unfold queueRec
  split
  · rw [startWrite_canonical_iff]
    exact State.canonical_congr rfl
  · simp

@[simp] theorem makeRec_canonical_iff (sev cls source : Nat) (payload : List Byte) (s : State) :
    (makeRec sev cls source payload s).Canonical ↔ s.Canonical := by
  simp [makeRec]
@[simp] theorem lossRecord_canonical_iff (s : State) : (lossRecord s).Canonical ↔ s.Canonical := by
  unfold lossRecord
  split <;> simp

@[simp] theorem recordWritten_canonical_iff (ok : Bool) (s : State) : (recordWritten ok s).Canonical ↔ s.Canonical := by
  unfold recordWritten
  dsimp only [State.fresh]
  (repeat' split) <;> simp [dropRec]

@[simp] theorem wallMark_canonical_iff (s : State) : (wallMark s).Canonical ↔ s.Canonical := by
  simp [wallMark]
@[simp] theorem noteRecord_canonical_iff (s : State) : (noteRecord s).Canonical ↔ s.Canonical := by
  simp [noteRecord]
@[simp] theorem optimeTick_canonical_iff (s : State) : (optimeTick s).Canonical ↔ s.Canonical := State.canonical_congr rfl
@[simp] theorem eraseGo_canonical_iff (s : State) : (eraseGo s).Canonical ↔ s.Canonical := by
  simp [eraseGo]

@[simp] theorem eraseDone_canonical_iff (s : State) : (eraseDone s).Canonical ↔ s.Canonical := by
  unfold eraseDone
  split
  · exact State.canonical_congr rfl
  · rw [State.raise_canonical_iff, startWrite_canonical_iff]
    exact State.canonical_congr rfl

@[simp] theorem auditGo_canonical_iff (s : State) : (auditGo s).Canonical ↔ s.Canonical := State.canonical_congr rfl

@[simp] theorem auditDone_canonical_iff (s : State) : (auditDone s).Canonical ↔ s.Canonical := by
  unfold auditDone
  split
  · exact State.canonical_congr rfl
  · simp [foldl_canonical_iff]

@[simp] theorem exportResult_canonical_iff (code count gaps last : Nat) (s : State) :
    (exportResult code count gaps last s).Canonical ↔ s.Canonical := State.canonical_congr rfl

/-! ### Machine/Settle -/

@[simp] theorem sendMsi_canonical_iff (n : Nat) (s : State) : (sendMsi n s).Canonical ↔ s.Canonical := by
  simp [sendMsi]
@[simp] theorem occur_canonical_iff (e : EventSource) (forced : Bool) (risen : List (Nat × Nat)) (s : State) :
    (occur e forced risen s).Canonical ↔ s.Canonical := by
  simp [occur, foldl_canonical_iff]
@[simp] theorem pendClear_canonical_iff (w : Nat) (v : Word) (s : State) : (pendClear w v s).Canonical ↔ s.Canonical := State.canonical_congr rfl
@[simp] theorem evtForce_canonical_iff (w : Nat) (v : Word) (s : State) : (evtForce w v s).Canonical ↔ s.Canonical := State.canonical_congr rfl
@[simp] theorem msixUnmask_canonical_iff (n : Nat) (s : State) : (msixUnmask n s).Canonical ↔ s.Canonical := by
  simp [msixUnmask]

/-! ### Machine/Store -/

@[simp] theorem proposeRow_canonical_iff (trigger mem addr : Nat) (s : State) : (proposeRow trigger mem addr s).Canonical ↔ s.Canonical := by
  simp [proposeRow]
@[simp] theorem spendMark_canonical_iff (port w : Nat) (s : State) : (spendMark port w s).Canonical ↔ s.Canonical := State.canonical_congr rfl
@[simp] theorem returnReads_canonical_iff (port a n : Nat) (s : State) : (returnReads port a n s).Canonical ↔ s.Canonical := State.canonical_congr rfl

/-! ### Machine/Shadow -/

@[simp] theorem State.setBank_canonical_iff (s : State) (t : TableId) (b : Bank) : (State.setBank s t b).Canonical ↔ s.Canonical := by
  unfold State.setBank
  split <;> simp

/-! ### Machine/Strait -/

@[simp] theorem State.setLink_canonical_iff (s : State) (k : Nat) (l : StraitLink) :
    (State.setLink s k l).Canonical ↔ s.Canonical := State.canonical_congr rfl
@[simp] theorem sendLinkWord_canonical_iff (k : Nat) (vc : Option Nat) (s : State) :
    (sendLinkWord k vc s).Canonical ↔ s.Canonical := State.canonical_congr rfl
@[simp] theorem returnSlot_canonical_iff (owed : Option (Nat × Nat)) (s : State) : (returnSlot owed s).Canonical ↔ s.Canonical := by
  unfold returnSlot
  split <;> simp

@[simp] theorem pumpLink_canonical_iff (k n : Nat) (s : State) : (pumpLink k n s).Canonical ↔ s.Canonical := by
  induction n generalizing s with
  | zero => exact State.canonical_congr rfl
  | succ n ih =>
    simp only [pumpLink]
    split
    · split <;> simp [ih]
    · exact State.canonical_congr rfl

@[simp] theorem sendOn_canonical_iff (k : Nat) (p : Packet) (s : State) : (sendOn k p s).Canonical ↔ s.Canonical := by
  simp [sendOn]
@[simp] theorem sendTree_canonical_iff (p : Packet) (via : Option Nat) (s : State) : (sendTree p via s).Canonical ↔ s.Canonical := by
  simp [sendTree, foldl_canonical_iff]
@[simp] theorem flood_canonical_iff (p : Packet) (via : Option Nat) (s : State) : (flood p via s).Canonical ↔ s.Canonical := by
  simp [flood, foldl_canonical_iff]
@[simp] theorem State.nextSeq_canonical_iff (s : State) (typ : Nat) : (State.nextSeq s typ).2.Canonical ↔ s.Canonical := State.canonical_congr rfl
@[simp] theorem courseEvent_canonical_iff (event stroke cause : Nat) (s : State) : (courseEvent event stroke cause s).Canonical ↔ s.Canonical := by
  simp [courseEvent]
@[simp] theorem stopToken_canonical_iff (stroke cause : Nat) (s : State) : (stopToken stroke cause s).Canonical ↔ s.Canonical := by
  simp [stopToken]

@[simp] theorem arrive_canonical_iff (k : Nat) (ws : List DWord) (s : State) : (arrive k ws s).2.Canonical ↔ s.Canonical := by
  unfold arrive
  split
  · simp
  · dsimp only
    (repeat' split) <;> simp

@[simp] theorem fixResume_canonical_iff (s : State) : (fixResume s).Canonical ↔ s.Canonical := by
  unfold fixResume
  split <;> simp

/-! ### Machine/Halt -/

@[simp] theorem setReasons_canonical_iff (rs : List Nat) (s : State) : (setReasons rs s).Canonical ↔ s.Canonical := by
  unfold setReasons
  split
  · exact State.canonical_congr rfl
  · simp only [State.raise_canonical_iff]
    rw [foldl_canonical_iff]
    · split <;> exact State.canonical_congr rfl
    · exact fun _ _ => State.canonical_congr rfl

@[simp] theorem dropCourseLoss_canonical_iff (s : State) : (dropCourseLoss s).Canonical ↔ s.Canonical := by
  unfold dropCourseLoss
  split <;> simp
@[simp] theorem stopWork_canonical_iff (s : State) : (stopWork s).Canonical ↔ s.Canonical := by
  simp [stopWork]

/-! ### Machine/Queue -/

@[simp] theorem fenceHit_canonical_iff (s : State) : (fenceHit s).Canonical ↔ s.Canonical := State.canonical_congr rfl
@[simp] theorem postOp_canonical_iff (s : State) : (postOp s).Canonical ↔ s.Canonical := by
  simp [postOp]
@[simp] theorem dropAdmitLoss_canonical_iff (s : State) : (dropAdmitLoss s).Canonical ↔ s.Canonical := by
  unfold dropAdmitLoss
  split <;> simp
@[simp] theorem dropAdmission_canonical_iff (s : State) : (dropAdmission s).Canonical ↔ s.Canonical := by
  simp [dropAdmission]
@[simp] theorem flushOp_canonical_iff (s : State) : (flushOp s).Canonical ↔ s.Canonical := by
  simp [flushOp]
@[simp] theorem skipOp_canonical_iff (s : State) : (skipOp s).Canonical ↔ s.Canonical := by
  unfold skipOp
  split <;> simp
@[simp] theorem admissionDoneOp_canonical_iff (s : State) : (admissionDoneOp s).Canonical ↔ s.Canonical := by
  unfold admissionDoneOp
  (repeat' split) <;> simp
@[simp] theorem setTileErr_canonical_iff (e islet : Nat) (byEngine : Bool) (d : TileDecode) (s : State) :
    (setTileErr e islet byEngine d s).Canonical ↔ s.Canonical := State.canonical_congr rfl
@[simp] theorem admitTileLost_canonical_iff (b k : Nat) (s : State) : (admitTileLost b k s).Canonical ↔ s.Canonical := State.canonical_congr rfl

@[simp] theorem admitTileDone_canonical_iff (islet b k : Nat) (d : TileDecode) (s : State) :
    (admitTileDone islet b k d s).Canonical ↔ s.Canonical := by
  unfold admitTileDone
  split <;> simp

/-! ### Machine/Banks -/

@[simp] theorem tableRefused_canonical_iff (t : TableId) (code : Nat) (s : State) : (tableRefused t code s).Canonical ↔ s.Canonical := by
  unfold tableRefused
  split <;> simp
@[simp] theorem bankCloneOp_canonical_iff (t : TableId) (s : State) : (bankCloneOp t s).Canonical ↔ s.Canonical := by
  simp [bankCloneOp]
@[simp] theorem bankCommitOp_canonical_iff (t : TableId) (s : State) : (bankCommitOp t s).Canonical ↔ s.Canonical := by
  simp [bankCommitOp]
@[simp] theorem tableWriteOp_canonical_iff (a : Nat) (v : Word) (s : State) : (tableWriteOp a v s).Canonical ↔ s.Canonical := by
  unfold tableWriteOp
  split <;> simp
@[simp] theorem bankSwap_canonical_iff (t : TableId) (s : State) : (bankSwap t s).Canonical ↔ s.Canonical := by
  simp [bankSwap]
@[simp] theorem mapExchangeStartOp_canonical_iff (s : State) : (mapExchangeStartOp s).Canonical ↔ s.Canonical := by
  simp [mapExchangeStartOp]
@[simp] theorem crwProbeOp_canonical_iff (t seat p : Nat) (s : State) : (crwProbeOp t seat p s).Canonical ↔ s.Canonical := State.canonical_congr rfl

/-! ### Machine/Codec -/

@[simp] theorem slzAbortOp_canonical_iff (s : State) : (slzAbortOp s).Canonical ↔ s.Canonical := State.canonical_congr rfl
@[simp] theorem slzResult_canonical_iff (code entry used : Nat) (s : State) :
    (slzResult code entry used s).Canonical ↔ s.Canonical := State.canonical_congr rfl

/-! ### Machine/Raster -/

@[simp] theorem takeSlot_canonical_iff (i j : Nat) (w : IsletWork) (s : State) :
    (takeSlot i j w s).Canonical ↔ s.Canonical := State.canonical_congr rfl
@[simp] theorem dropSlot_canonical_iff (i j : Nat) (s : State) : (dropSlot i j s).Canonical ↔ s.Canonical := State.canonical_congr rfl
@[simp] theorem checkLate_canonical_iff (s : State) : (checkLate s).Canonical ↔ s.Canonical := by
  simp [checkLate]
@[simp] theorem bandEligibleOp_canonical_iff (s : State) : (bandEligibleOp s).Canonical ↔ s.Canonical := by
  simp [bandEligibleOp]
@[simp] theorem noteDispatched_canonical_iff (k : Nat) (s : State) : (noteDispatched k s).Canonical ↔ s.Canonical := by
  simp [noteDispatched]
theorem abandonAdmission_canonical_iff (ok : Nat → Bool) (s t : State) (h : abandonAdmission ok s = some t) : t.Canonical ↔ s.Canonical := by
  obtain ⟨p, -, rfl⟩ := Option.map_eq_some_iff.mp h
  simp

theorem dispatchRedo_canonical_iff (e : Entry) (s t : State) (h : dispatchRedo e s = some t) : t.Canonical ↔ s.Canonical := by
  obtain ⟨r, -, hr⟩ := List.exists_of_findSome?_eq_some h
  dsimp only at hr
  split at hr
  · cases hr
    rfl
  · exact abandonAdmission_canonical_iff _ _ _ hr

theorem dispatchFirst_canonical_iff (e : Entry) (s t : State) (h : dispatchFirst e s = some t) : t.Canonical ↔ s.Canonical := by
  obtain ⟨p, -, hp⟩ := Option.bind_eq_some_iff.mp h
  dsimp only at hp
  split at hp
  · cases hp
    simp
  · exact abandonAdmission_canonical_iff _ _ _ hp

theorem dispatchAdmission_canonical_iff (others : Bool) (s t : State) (h : dispatchAdmission others s = some t) : t.Canonical ↔ s.Canonical := by
  unfold dispatchAdmission at h
  split at h
  · cases h
  · split at h
    · split at h <;> cases h
      rfl
    · cases h

@[simp] theorem tileDispatchOp_canonical_iff (s : State) : (tileDispatchOp s).Canonical ↔ s.Canonical := by
  unfold tileDispatchOp
  dsimp only
  generalize hd : Option.or _ _ = d
  cases d with
  | none => exact State.canonical_congr rfl
  | some t =>
    rcases Option.or_eq_some_iff.mp hd with hd | ⟨-, hd⟩
    · rcases Option.or_eq_some_iff.mp hd with hd | ⟨-, hd⟩
      · obtain ⟨e, -, he⟩ := Option.bind_eq_some_iff.mp hd
        exact dispatchRedo_canonical_iff e s t he
      · obtain ⟨e, -, he⟩ := Option.bind_eq_some_iff.mp hd
        exact dispatchFirst_canonical_iff e s t he
    · exact dispatchAdmission_canonical_iff _ s t hd

@[simp] theorem clearMask_canonical_iff (b k : Nat) (s : State) : (clearMask b k s).Canonical ↔ s.Canonical := State.canonical_congr rfl
@[simp] theorem State.setNote_canonical_iff (s : State) (n : TileNote) : (State.setNote s n).Canonical ↔ s.Canonical := State.canonical_congr rfl
@[simp] theorem putBack_canonical_iff (b k kind : Nat) (bad : Bool) (s : State) :
    (putBack b k kind bad s).Canonical ↔ s.Canonical := State.canonical_congr rfl
@[simp] theorem queueRedo_canonical_iff (b k : Nat) (avoid : List Nat) (hold : Bool) (s : State) :
    (queueRedo b k avoid hold s).Canonical ↔ s.Canonical := by
  simp [queueRedo]
@[simp] theorem countFault_canonical_iff (i : Nat) (s : State) : (countFault i s).Canonical ↔ s.Canonical := by
  simp [countFault]
@[simp] theorem slowTileOp_canonical_iff (i j : Nat) (s : State) : (slowTileOp i j s).Canonical ↔ s.Canonical := by
  unfold slowTileOp
  split <;> simp
@[simp] theorem rasProbeOp_canonical_iff (b k e : Nat) (s : State) : (rasProbeOp b k e s).Canonical ↔ s.Canonical := State.canonical_congr rfl
@[simp] theorem rasProbeDoneOp_canonical_iff (s : State) : (rasProbeDoneOp s).Canonical ↔ s.Canonical := by
  unfold rasProbeDoneOp
  split <;> simp

/-! ### Machine/Window -/

@[simp] theorem freshTable_canonical_iff (hit : Nat → Bool) (s : State) : (freshTable hit s).Canonical ↔ s.Canonical := by
  unfold freshTable
  split <;> simp
@[simp] theorem freshWindow_canonical_iff (hit : Nat → Bool) (s : State) : (freshWindow hit s).Canonical ↔ s.Canonical := by
  simp [freshWindow]

/-! ### Machine/Protect -/

@[simp] theorem flipTableBit_canonical_iff (a d : Nat) (s : State) : (flipTableBit a d s).Canonical ↔ s.Canonical := by
  unfold flipTableBit
  (repeat' split) <;> simp
@[simp] theorem tableStore_canonical_iff (a : Nat) (v : Word) (s : State) : (tableStore a v s).Canonical ↔ s.Canonical := by
  unfold tableStore
  split <;> simp

/-! ### Machine/Tiles -/

@[simp] theorem writeTile_canonical_iff (b k : Nat) (words : List Nat) (s : State) : (writeTile b k words s).Canonical ↔ s.Canonical := by
  unfold writeTile
  dsimp only
  (repeat' split) <;> simp

@[simp] theorem freeCells_canonical_iff (b k : Nat) (s : State) : (freeCells b k s).Canonical ↔ s.Canonical := by
  simp [freeCells]
@[simp] theorem countTile_canonical_iff (b k dclass : Nat) (shapes : List PlacedShape) (s : State) :
    (countTile b k dclass shapes s).Canonical ↔ s.Canonical := by
  simp [countTile]
@[simp] theorem localFault_canonical_iff (islet row : Nat) (s : State) : (localFault islet row s).Canonical ↔ s.Canonical := by
  simp [localFault]

@[simp] theorem countSaturated_canonical_iff (b k : Nat) (cells : List (Nat × Bool)) (s : State) :
    (countSaturated b k cells s).Canonical ↔ s.Canonical := by
  unfold countSaturated
  dsimp only
  (repeat' split) <;> simp

@[simp] theorem advanceDone_canonical_iff (s : State) : (advanceDone s).Canonical ↔ s.Canonical := State.canonical_congr rfl

@[simp] theorem plantWake_canonical_iff (b : Nat) (s : State) : (plantWake b s).Canonical ↔ s.Canonical := by
  unfold plantWake
  dsimp only
  (repeat' split) <;> simp

@[simp] theorem tileVerdict_canonical_iff (islet : Nat) (check : TileCheck) (sigma z : Int) (tol : Nat) (cells : List (Nat × Bool)) (s : State) :
    (tileVerdict islet check sigma z tol cells s).2.2.Canonical ↔ s.Canonical := by
  unfold tileVerdict
  dsimp only
  split
  · exact State.canonical_congr rfl
  · split <;> exact State.canonical_congr rfl

@[simp] theorem keepSlot_canonical_iff (islet slot : Nat) (w : IsletWork) (s : State) :
    (keepSlot islet slot w s).Canonical ↔ s.Canonical := State.canonical_congr rfl
@[simp] theorem bsxTileStartOp_canonical_iff (s : State) : (bsxTileStartOp s).Canonical ↔ s.Canonical := by
  simp [bsxTileStartOp]
@[simp] theorem resendOp_canonical_iff (s : State) : (resendOp s).Canonical ↔ s.Canonical := by
  simp [resendOp]
@[simp] theorem clearLoss_canonical_iff (s : State) : (clearLoss s).Canonical ↔ s.Canonical := State.canonical_congr rfl

/-! ### Machine/Wake -/

@[simp] theorem countUnwritable_canonical_iff (t y p : Nat) (s : State) : (countUnwritable t y p s).Canonical ↔ s.Canonical := by
  unfold countUnwritable
  split <;> simp

@[simp] theorem evaluatePixels_canonical_iff (n : Nat) (s : State) : (evaluatePixels n s).Canonical ↔ s.Canonical := by
  refine foldl_canonical_iff _ (fun u t => ?_) _ _
  split
  · exact State.canonical_congr rfl
  · exact countUnwritable_canonical_iff _ _ _ _

@[simp] theorem splitWaits_canonical_iff (n : Nat) (s : State) : (splitWaits n s).Canonical ↔ s.Canonical := by
  simp [splitWaits]
@[simp] theorem wakPeekOp_canonical_iff (t : Nat) (s : State) : (wakPeekOp t s).Canonical ↔ s.Canonical := State.canonical_congr rfl
@[simp] theorem wakPeekDoneOp_canonical_iff (s : State) : (wakPeekDoneOp s).Canonical ↔ s.Canonical := by
  unfold wakPeekDoneOp
  split <;> simp

/-! ### Machine/Side -/

@[simp] theorem setLane_canonical_iff (l st : Nat) (s : State) : (setLane l st s).Canonical ↔ s.Canonical := State.canonical_congr rfl
@[simp] theorem State.setTrain_canonical_iff (s : State) (l : Nat) (t : LaneTrain) :
    (State.setTrain s l t).Canonical ↔ s.Canonical := State.canonical_congr rfl
@[simp] theorem sendSeries_canonical_iff (op : ControlOp) (cseq : Nat) (s : State) :
    (sendSeries op cseq s).Canonical ↔ s.Canonical := State.canonical_congr rfl
@[simp] theorem startTrain_canonical_iff (l : Nat) (s : State) : (startTrain l s).Canonical ↔ s.Canonical := State.canonical_congr rfl

@[simp] theorem takeCrc_canonical_iff (l : Nat) (s : State) : (takeCrc l s).2.Canonical ↔ s.Canonical := by
  unfold takeCrc
  dsimp only
  (repeat' split) <;> simp

@[simp] theorem echoCrcError_canonical_iff (k : Nat) (s : State) : (echoCrcError k s).Canonical ↔ s.Canonical := State.canonical_congr rfl
@[simp] theorem framingError_canonical_iff (k : Nat) (s : State) : (framingError k s).Canonical ↔ s.Canonical := State.canonical_congr rfl
@[simp] theorem echoUnitError_canonical_iff (kind k : Nat) (ws : List DWord) (s : State) : (echoUnitError kind k ws s).Canonical ↔ s.Canonical := by
  simp [echoUnitError]
@[simp] theorem thaw_canonical_iff (k : Nat) (s : State) : (thaw k s).Canonical ↔ s.Canonical := State.canonical_congr rfl
@[simp] theorem sideEnd_canonical_iff (code beam addr : Nat) (j : SideJob) (s : State) : (sideEnd code beam addr j s).Canonical ↔ s.Canonical := by
  simp [sideEnd]
@[simp] theorem putAway_canonical_iff (s : State) : (putAway s).Canonical ↔ s.Canonical := State.canonical_congr rfl

/-! ### Machine/Demand -/

@[simp] theorem closeLock_canonical_iff (s : State) : (closeLock s).Canonical ↔ s.Canonical := by
  simp [closeLock]
@[simp] theorem lockViolation_canonical_iff (s : State) : (lockViolation s).Canonical ↔ s.Canonical := State.canonical_congr rfl

@[simp] theorem locked_canonical_iff (f : State → State) (s : State) (h : ∀ t, (f t).Canonical ↔ t.Canonical) :
    (locked f s).Canonical ↔ s.Canonical := by
  unfold locked
  split
  · exact h s
  · exact lockViolation_canonical_iff s

@[simp] theorem driveLines_canonical_iff (a b : Bool) (s : State) : (driveLines a b s).Canonical ↔ s.Canonical := by
  simp [driveLines]
@[simp] theorem assertLines_canonical_iff (s : State) : (assertLines s).Canonical ↔ s.Canonical := by
  simp [assertLines]

@[simp] theorem quench_canonical_iff (now : Int) (s : State) : (quench now s).2.Canonical ↔ s.Canonical := by
  unfold quench
  split
  · exact State.canonical_congr rfl
  · split <;> exact State.canonical_congr rfl

@[simp] theorem flushSafRecs_canonical_iff (amps : Nat) (s : State) : (flushSafRecs amps s).Canonical ↔ s.Canonical := by
  simp [flushSafRecs, foldl_canonical_iff]

/-! ### Machine/Lanes -/

@[simp] theorem substituteOne_canonical_iff (course : Bool) (b : Nat) (s : State) : (substituteOne course b s).Canonical ↔ s.Canonical := by
  unfold substituteOne
  split <;> simp
@[simp] theorem substitute_canonical_iff (s : State) : (substitute s).Canonical ↔ s.Canonical := by
  simp [substitute, foldl_canonical_iff]
@[simp] theorem markLane_canonical_iff (b : Nat) (s : State) : (markLane b s).Canonical ↔ s.Canonical := by
  simp [markLane]
@[simp] theorem markUnacked_canonical_iff (s : State) : (markUnacked s).Canonical ↔ s.Canonical := by
  simp [markUnacked, foldl_canonical_iff]
@[simp] theorem flushHalt_canonical_iff (s : State) : (flushHalt s).Canonical ↔ s.Canonical := State.canonical_congr rfl
@[simp] theorem laneEnableOp_canonical_iff (l : Nat) (on : Bool) (s : State) : (laneEnableOp l on s).Canonical ↔ s.Canonical := by
  simp [laneEnableOp]
@[simp] theorem trainOp_canonical_iff (l : Nat) (s : State) : (trainOp l s).Canonical ↔ s.Canonical := by
  simp [trainOp]
@[simp] theorem enterTest_canonical_iff (l : Nat) (s : State) : (enterTest l s).Canonical ↔ s.Canonical := State.canonical_congr rfl
@[simp] theorem testPattern_canonical_iff (l : Nat) (s : State) : (testPattern l s).Canonical ↔ s.Canonical := by
  simp [testPattern]
@[simp] theorem laneTestOp_canonical_iff (l : Nat) (on : Bool) (s : State) : (laneTestOp l on s).Canonical ↔ s.Canonical := by
  simp [laneTestOp]
@[simp] theorem stageAEndOp_canonical_iff (l : Nat) (s : State) : (stageAEndOp l s).Canonical ↔ s.Canonical := by
  simp [stageAEndOp]
@[simp] theorem rungSwitchOp_canonical_iff (l : Nat) (s : State) : (rungSwitchOp l s).Canonical ↔ s.Canonical := by
  simp [rungSwitchOp]

@[simp] theorem trainingBurstOp_canonical_iff (l : Nat) (s : State) : (trainingBurstOp l s).Canonical ↔ s.Canonical := by
  unfold trainingBurstOp
  dsimp only
  split
  · rw [State.setTrain_canonical_iff, State.after_canonical_iff, State.emit_canonical_iff, State.until_canonical_iff]
  · exact State.canonical_congr rfl

@[simp] theorem injectOp_canonical_iff (l kind nsym : Nat) (periodic : Bool) (period : Nat) (s : State) :
    (injectOp l kind nsym periodic period s).Canonical ↔ s.Canonical := State.canonical_congr rfl
@[simp] theorem injectKind_canonical_iff (l kind : Nat) (periodic : Bool) (period : Nat) (s : State) :
    (injectKind l kind periodic period s).Canonical ↔ s.Canonical := State.canonical_congr rfl
@[simp] theorem injectPeriodOp_canonical_iff (l : Nat) (s : State) : (injectPeriodOp l s).Canonical ↔ s.Canonical := by
  simp [injectPeriodOp]
@[simp] theorem forgetEcho_canonical_iff (k : Nat) (s : State) : (forgetEcho k s).Canonical ↔ s.Canonical := State.canonical_congr rfl

@[simp] theorem ackOne_canonical_iff (a : AckEntry) (s : State) : (ackOne a s).Canonical ↔ s.Canonical := by
  unfold ackOne
  dsimp only
  (repeat' split) <;> simp

@[simp] theorem ackBlockOp_canonical_iff (k : Nat) (ws : List DWord) (s : State) : (ackBlockOp k ws s).Canonical ↔ s.Canonical := by
  unfold ackBlockOp
  (repeat' split) <;> simp [foldl_canonical_iff]
@[simp] theorem remoteLocks_canonical_iff (locks : List Bool) (s : State) : (remoteLocks locks s).Canonical ↔ s.Canonical := by
  simp [remoteLocks, foldl_canonical_iff]
@[simp] theorem tempStaleOp_canonical_iff (s : State) : (tempStaleOp s).Canonical ↔ s.Canonical := by
  simp [tempStaleOp]
@[simp] theorem framingErrorOp_canonical_iff (k : Nat) (s : State) : (framingErrorOp k s).Canonical ↔ s.Canonical := State.canonical_congr rfl

/-! ### Machine/Stroke -/

@[simp] theorem State.untilR_canonical_iff (s : State) (t : Int) : (State.untilR s t).Canonical ↔ s.Canonical := State.canonical_congr rfl
@[simp] theorem State.setLoop_canonical_iff (s : State) (a : Nat) (l : AxisLoop) : (State.setLoop s a l).Canonical ↔ s.Canonical := by
  simp [State.setLoop]
@[simp] theorem State.setAxis_canonical_iff (s : State) (a : Nat) (x : Axis) : (State.setAxis s a x).Canonical ↔ s.Canonical := by
  simp [State.setAxis]
@[simp] theorem State.setSafAxis_canonical_iff (s : State) (a : Nat) (x : SafAxis) : (State.setSafAxis s a x).Canonical ↔ s.Canonical := by
  simp [State.setSafAxis]
@[simp] theorem unlock_canonical_iff (a : Nat) (s : State) : (unlock a s).Canonical ↔ s.Canonical := by
  simp [unlock]
@[simp] theorem updateDerate_canonical_iff (s : State) : (updateDerate s).Canonical ↔ s.Canonical := by
  simp [updateDerate]
@[simp] theorem ackMiss_canonical_iff (n b : Nat) (s : State) : (ackMiss n b s).Canonical ↔ s.Canonical := State.canonical_congr rfl
@[simp] theorem foldSignature_canonical_iff (f : TxFrame) (s : State) : (foldSignature f s).Canonical ↔ s.Canonical := State.canonical_congr rfl

/-! ### Machine/Motion -/

@[simp] theorem setAxisState_canonical_iff (a st : Nat) (s : State) : (setAxisState a st s).Canonical ↔ s.Canonical := State.canonical_congr rfl
@[simp] theorem moveState_canonical_iff (a st : Nat) (s : State) : (moveState a st s).Canonical ↔ s.Canonical := by
  simp [moveState]
@[simp] theorem stopAxis_canonical_iff (a : Nat) (o : AxisOrder) (s : State) : (stopAxis a o s).Canonical ↔ s.Canonical := by
  simp [stopAxis]
@[simp] theorem endTable_canonical_iff (blended : Bool) (s : State) : (endTable blended s).Canonical ↔ s.Canonical := by
  simp [endTable]
@[simp] theorem faultAxis_canonical_iff (a code : Nat) (s : State) : (faultAxis a code s).Canonical ↔ s.Canonical := by
  simp [faultAxis]
@[simp] theorem refreshEnable_canonical_iff (a : Nat) (s : State) : (refreshEnable a s).Canonical ↔ s.Canonical := by
  simp [refreshEnable]
@[simp] theorem loseRef_canonical_iff (a : Nat) (s : State) : (loseRef a s).Canonical ↔ s.Canonical := by
  simp [loseRef]
@[simp] theorem endHoming_canonical_iff (a : Nat) (s : State) : (endHoming a s).Canonical ↔ s.Canonical := by
  simp [endHoming]
@[simp] theorem cmdRefused_canonical_iff (s : State) : (cmdRefused s).Canonical ↔ s.Canonical := State.canonical_congr rfl
@[simp] theorem noteClamp_canonical_iff (a : Nat) (s : State) : (noteClamp a s).Canonical ↔ s.Canonical := by
  simp [noteClamp]
@[simp] theorem hostOrder_canonical_iff (a : Nat) (o : NewOrder) (s : State) : (hostOrder a o s).Canonical ↔ s.Canonical := by
  simp [hostOrder]
@[simp] theorem moveOp_canonical_iff (a : Nat) (s : State) : (moveOp a s).Canonical ↔ s.Canonical := by
  simp [moveOp]
@[simp] theorem velocityOp_canonical_iff (a : Nat) (s : State) : (velocityOp a s).Canonical ↔ s.Canonical := by
  simp [velocityOp]

@[simp] theorem stopOp_canonical_iff (a : Nat) (s : State) : (stopOp a s).Canonical ↔ s.Canonical := by
  unfold stopOp
  dsimp only
  (repeat' split) <;> simp

@[simp] theorem homeOp_canonical_iff (a : Nat) (s : State) : (homeOp a s).Canonical ↔ s.Canonical := by
  simp [homeOp]
@[simp] theorem clearOp_canonical_iff (a : Nat) (s : State) : (clearOp a s).Canonical ↔ s.Canonical := by
  simp [clearOp]
@[simp] theorem axisPowerOp_canonical_iff (a : Nat) (on : Bool) (s : State) : (axisPowerOp a on s).Canonical ↔ s.Canonical := by
  simp [axisPowerOp]
@[simp] theorem adistOp_canonical_iff (a v : Nat) (s : State) : (adistOp a v s).Canonical ↔ s.Canonical := State.canonical_congr rfl
@[simp] theorem servoPeriodOp_canonical_iff (v : Nat) (s : State) : (servoPeriodOp v s).Canonical ↔ s.Canonical := by
  simp [servoPeriodOp]
@[simp] theorem badStatus_canonical_iff (a : Nat) (s : State) : (badStatus a s).Canonical ↔ s.Canonical := by
  simp [badStatus]
@[simp] theorem statusMissingOp_canonical_iff (a : Nat) (s : State) : (statusMissingOp a s).Canonical ↔ s.Canonical := by
  unfold statusMissingOp
  split <;> simp
@[simp] theorem driverLostOp_canonical_iff (a : Nat) (s : State) : (driverLostOp a s).Canonical ↔ s.Canonical := by
  simp [driverLostOp]
@[simp] theorem flipSegment_canonical_iff (off d : Nat) (s : State) : (flipSegment off d s).Canonical ↔ s.Canonical := State.canonical_congr rfl

@[simp] theorem readSegment_canonical_iff (a : Nat) (p : Bool × State) : (readSegment a p).2.Canonical ↔ p.2.Canonical := by
  unfold readSegment
  split
  · exact State.canonical_congr rfl
  · exact State.canonical_congr rfl
  · split <;> exact State.canonical_congr rfl

@[simp] theorem readSegments_canonical_iff (lo hi : Nat) (s : State) : (readSegments lo hi s).2.Canonical ↔ s.Canonical := by
  unfold readSegments
  generalize (s.mem.flips.map Prod.fst).filter _ = l
  suffices key : ∀ p : Bool × State, (l.foldl (fun p a => readSegment a p) p).2.Canonical ↔ p.2.Canonical from key (true, s)
  induction l with
  | nil => exact fun _ => State.canonical_congr rfl
  | cons a l ih => exact fun p => (ih _).trans (readSegment_canonical_iff a p)

@[simp] theorem tableError_canonical_iff (code : Nat) (s : State) : (tableError code s).Canonical ↔ s.Canonical := State.canonical_congr rfl
@[simp] theorem tblLoadOp_canonical_iff (s : State) : (tblLoadOp s).Canonical ↔ s.Canonical := by
  simp [tblLoadOp]
@[simp] theorem dropOrder_canonical_iff (a : Nat) (s : State) : (dropOrder a s).Canonical ↔ s.Canonical := by
  simp [dropOrder]
@[simp] theorem tblRunOp_canonical_iff (s : State) : (tblRunOp s).Canonical ↔ s.Canonical := by
  simp [tblRunOp]
@[simp] theorem tblAbortOp_canonical_iff (s : State) : (tblAbortOp s).Canonical ↔ s.Canonical := by
  simp [tblAbortOp]
@[simp] theorem inputEdgeOp_canonical_iff (a i : Nat) (level : Bool) (s : State) : (inputEdgeOp a i level s).Canonical ↔ s.Canonical := by
  simp [inputEdgeOp]
@[simp] theorem recheckInputs_canonical_iff (a : Nat) (s : State) : (recheckInputs a s).Canonical ↔ s.Canonical := by
  simp [recheckInputs]

theorem filtered_canonical_iff (a i : Nat) (level : Bool) (s t : State) (h : filtered a i level s = some t) : t.Canonical ↔ s.Canonical := by
  simp only [filtered] at h
  split at h
  · split at h
    · cases h
    · cases h
      rw [State.setAxis_canonical_iff, State.until_canonical_iff]
  · cases h

@[simp] theorem setPhase_canonical_iff (a : Nat) (h : Homing) (s : State) : (setPhase a h s).Canonical ↔ s.Canonical := by
  simp [setPhase]

@[simp] theorem limitClearOp_canonical_iff (a i : Nat) (s : State) : (limitClearOp a i s).Canonical ↔ s.Canonical := by
  unfold limitClearOp
  split
  · exact State.canonical_congr rfl
  next h => simp [filtered_canonical_iff _ _ _ _ _ h]

@[simp] theorem homeChangeOp_canonical_iff (a : Nat) (s : State) : (homeChangeOp a s).Canonical ↔ s.Canonical := by
  unfold homeChangeOp
  dsimp only
  split
  · exact State.canonical_congr rfl
  next h => (repeat' split) <;> simp [filtered_canonical_iff _ _ _ _ _ h]

@[simp] theorem indexEdgeOp_canonical_iff (a : Nat) (level : Bool) (s : State) : (indexEdgeOp a level s).Canonical ↔ s.Canonical := by
  unfold indexEdgeOp
  dsimp only
  (repeat' split) <;> simp

/-! ### Machine/Cox -/

@[simp] theorem updatePermit_canonical_iff (s : State) : (updatePermit s).Canonical ↔ s.Canonical := by
  simp [updatePermit]
@[simp] theorem inhibitDelayOp_canonical_iff (s : State) : (inhibitDelayOp s).Canonical ↔ s.Canonical := by
  unfold inhibitDelayOp
  (repeat' split) <;> simp
@[simp] theorem coxOrder_canonical_iff (a : Nat) (o : AxisOrder) (s : State) : (coxOrder a o s).Canonical ↔ s.Canonical := by
  simp [coxOrder]
@[simp] theorem command_canonical_iff (v : Nat) (s : State) : (command v s).Canonical ↔ s.Canonical := by
  simp [command]
@[simp] theorem soften_canonical_iff (s : State) : (soften s).Canonical ↔ s.Canonical := by
  simp [soften]
@[simp] theorem govern_canonical_iff (s : State) : (govern s).Canonical ↔ s.Canonical := by
  simp [govern]
@[simp] theorem setCox_canonical_iff (st : Nat) (s : State) : (setCox st s).Canonical ↔ s.Canonical := State.canonical_congr rfl
@[simp] theorem pauseReach_canonical_iff (ms : Nat) (s : State) : (pauseReach ms s).Canonical ↔ s.Canonical := by
  unfold pauseReach
  split <;> simp
@[simp] theorem pauseWarnOp_canonical_iff (s : State) : (pauseWarnOp s).Canonical ↔ s.Canonical := by
  simp [pauseWarnOp]
@[simp] theorem supplyHoldOp_canonical_iff (s : State) : (supplyHoldOp s).Canonical ↔ s.Canonical := by
  unfold supplyHoldOp
  split <;> simp
@[simp] theorem offerReady_canonical_iff (others : Bool) (s : State) : (offerReady others s).Canonical ↔ s.Canonical := by
  simp [offerReady]
@[simp] theorem beginRunUp_canonical_iff (v : Nat) (s : State) : (beginRunUp v s).Canonical ↔ s.Canonical := by
  simp [beginRunUp]
@[simp] theorem endPause_canonical_iff (s : State) : (endPause s).2.Canonical ↔ s.Canonical := by
  unfold endPause
  split <;> simp
@[simp] theorem checkResume_canonical_iff (n : Nat) (atTarget : Bool) (go : State → State) (s : State) (h : ∀ t, (go t).Canonical ↔ t.Canonical) :
    (checkResume n atTarget go s).Canonical ↔ s.Canonical := by
  simp [checkResume, h]
@[simp] theorem coxStop_canonical_iff (st : Nat) (s : State) : (coxStop st s).Canonical ↔ s.Canonical := by
  simp [coxStop]
@[simp] theorem newPeriod_canonical_iff (s : State) : (newPeriod s).Canonical ↔ s.Canonical := State.canonical_congr rfl
@[simp] theorem applySetPoint_canonical_iff (a : Nat) (s : State) : (applySetPoint a s).Canonical ↔ s.Canonical := by
  simp [applySetPoint]

@[simp] theorem axisAtRest_canonical_iff (a : Nat) (s : State) : (axisAtRest a s).Canonical ↔ s.Canonical := by
  unfold axisAtRest
  dsimp only
  (repeat' split) <;> simp

@[simp] theorem checkIndex_canonical_iff (a : Nat) (s : State) : (checkIndex a s).Canonical ↔ s.Canonical := by
  unfold checkIndex
  split <;> simp

@[simp] theorem takeOrder_canonical_iff (a : Nat) (s : State) : (takeOrder a s).Canonical ↔ s.Canonical := by
  unfold takeOrder
  dsimp only
  (repeat' split) <;> simp

@[simp] theorem leaveDisabled_canonical_iff (a : Nat) (s : State) : (leaveDisabled a s).Canonical ↔ s.Canonical := by
  simp [leaveDisabled]
@[simp] theorem adoptLimits_canonical_iff (a : Nat) (s : State) : (adoptLimits a s).Canonical ↔ s.Canonical := by
  simp [adoptLimits]
@[simp] theorem readTable_canonical_iff (s : State) : (readTable s).Canonical ↔ s.Canonical := by
  unfold readTable
  split <;> simp

@[simp] theorem tableTick_canonical_iff (s : State) : (tableTick s).Canonical ↔ s.Canonical := by
  unfold tableTick
  dsimp only
  (repeat' split) <;> simp

@[simp] theorem sendFrame_canonical_iff (a : Nat) (s : State) : (sendFrame a s).Canonical ↔ s.Canonical := by
  simp [sendFrame]
@[simp] theorem quickAxis_canonical_iff (a : Nat) (s : State) : (quickAxis a s).Canonical ↔ s.Canonical := by
  simp [quickAxis]
@[simp] theorem beginStageStop_canonical_iff (s : State) : (beginStageStop s).Canonical ↔ s.Canonical := by
  unfold beginStageStop
  split <;> simp
@[simp] theorem driveAmp_canonical_iff (a : Nat) (on : Bool) (s : State) : (driveAmp a on s).Canonical ↔ s.Canonical := by
  simp [driveAmp]
@[simp] theorem assertAmps_canonical_iff (s : State) : (assertAmps s).Canonical ↔ s.Canonical := by
  simp [assertAmps]
@[simp] theorem endStageStop_canonical_iff (s : State) : (endStageStop s).Canonical ↔ s.Canonical := by
  unfold endStageStop
  split <;> simp
@[simp] theorem stopCheckOp_canonical_iff (s : State) : (stopCheckOp s).Canonical ↔ s.Canonical := by
  unfold stopCheckOp
  (repeat' split) <;> simp

/-! ### Machine/Regatta -/

@[simp] theorem dropLink_canonical_iff (k state : Nat) (s : State) : (dropLink k state s).Canonical ↔ s.Canonical := by
  simp [dropLink, foldl_canonical_iff]
@[simp] theorem driveStrait_canonical_iff (lane : Nat) (s : State) : (driveStrait lane s).Canonical ↔ s.Canonical := by
  simp [driveStrait]
@[simp] theorem straitsGovern_canonical_iff (was : Bool) (s : State) : (straitsGovern was s).Canonical ↔ s.Canonical := by
  simp [straitsGovern, foldl_canonical_iff]
@[simp] theorem lockStrait_canonical_iff (k : Nat) (upper : Bool) (s : State) : (lockStrait k upper s).Canonical ↔ s.Canonical := by
  simp [lockStrait]
@[simp] theorem resendFrom_canonical_iff (k : Nat) (s : State) : (resendFrom k s).Canonical ↔ s.Canonical := by
  simp [resendFrom]
@[simp] theorem unlockStrait_canonical_iff (k : Nat) (upper : Bool) (state : Nat) (s : State) :
    (unlockStrait k upper state s).Canonical ↔ s.Canonical := by
  simp [unlockStrait]
@[simp] theorem failoverOp_canonical_iff (lane : Nat) (s : State) : (failoverOp lane s).Canonical ↔ s.Canonical := by
  simp [failoverOp]
@[simp] theorem answerTraining_canonical_iff (lane : Nat) (t : TrainingWord) (s : State) : (answerTraining lane t s).Canonical ↔ s.Canonical := by
  simp [answerTraining]

@[simp] theorem straitTraining_canonical_iff (lane : Nat) (w : DWord) (s : State) : (straitTraining lane w s).Canonical ↔ s.Canonical := by
  unfold straitTraining
  dsimp only
  (repeat' split) <;> simp

@[simp] theorem burstOp_canonical_iff (l : Nat) (s : State) : (burstOp l s).Canonical ↔ s.Canonical := by
  unfold burstOp
  dsimp only
  split
  · exact trainingBurstOp_canonical_iff _ _
  · split
    · rw [State.setLink_canonical_iff, State.after_canonical_iff, State.emit_canonical_iff, State.until_canonical_iff]
    · exact State.canonical_congr rfl

@[simp] theorem linkWordOp_canonical_iff (k : Nat) (w : DWord) (s : State) : (linkWordOp k w s).Canonical ↔ s.Canonical := by
  simp [linkWordOp]
@[simp] theorem packetResendOp_canonical_iff (k : Nat) (s : State) : (packetResendOp k s).Canonical ↔ s.Canonical := by
  simp [packetResendOp]
@[simp] theorem vcStallOp_canonical_iff (k vc : Nat) (s : State) : (vcStallOp k vc s).Canonical ↔ s.Canonical := by
  simp [vcStallOp]
@[simp] theorem slewTo_canonical_iff (theta : Int) (s : State) : (slewTo theta s).Canonical ↔ s.Canonical := State.canonical_congr rfl

@[simp] theorem followMaster_canonical_iff (master dist : Nat) (s : State) : (followMaster master dist s).2.Canonical ↔ s.Canonical := by
  unfold followMaster
  dsimp only
  (repeat' split) <;> simp

@[simp] theorem beaconSendOp_canonical_iff (s : State) : (beaconSendOp s).Canonical ↔ s.Canonical := by
  simp [beaconSendOp, foldl_canonical_iff]
@[simp] theorem upstreamSilentOp_canonical_iff (s : State) : (upstreamSilentOp s).Canonical ↔ s.Canonical := by
  unfold upstreamSilentOp
  split <;> simp

@[simp] theorem deliver_canonical_iff (p : Packet) (s : State) : (deliver p s).Canonical ↔ s.Canonical := by
  unfold deliver
  split
  · exact State.canonical_congr rfl
  · simp [foldl_canonical_iff]

@[simp] theorem freeSlots_canonical_iff (v : Nat) (s : State) : (freeSlots v s).Canonical ↔ s.Canonical := State.canonical_congr rfl
@[simp] theorem transit_canonical_iff (k : Nat) (p : Packet) (s : State) : (transit k p s).Canonical ↔ s.Canonical := by
  unfold transit
  split <;> simp
@[simp] theorem takeMessage_canonical_iff (k : Nat) (p : Packet) (s : State) : (takeMessage k p s).Canonical ↔ s.Canonical := by
  simp [takeMessage]
@[simp] theorem clearReadys_canonical_iff (s : State) : (clearReadys s).Canonical ↔ s.Canonical := State.canonical_congr rfl
@[simp] theorem takeReady_canonical_iff (k : Nat) (p : Packet) (s : State) : (takeReady k p s).Canonical ↔ s.Canonical := by
  simp [takeReady]

@[simp] theorem txGo_canonical_iff (s : State) : (txGo s).Canonical ↔ s.Canonical := by
  unfold txGo
  dsimp only
  (repeat' split) <;> simp

@[simp] theorem sendMessageOp_canonical_iff (dest len : Nat) (s : State) : (sendMessageOp dest len s).Canonical ↔ s.Canonical := by
  simp [sendMessageOp]
@[simp] theorem broadcastMessageOp_canonical_iff (dest len : Nat) (s : State) : (broadcastMessageOp dest len s).Canonical ↔ s.Canonical := by
  simp [broadcastMessageOp]

/-! ### Machine/Export -/

@[simp] theorem exportGo_canonical_iff (s : State) : (exportGo s).Canonical ↔ s.Canonical := by
  simp [exportGo]

/-! ### Machine/Guard -/

@[simp] theorem safeStopReleaseOp_canonical_iff (s : State) : (safeStopReleaseOp s).Canonical ↔ s.Canonical := State.canonical_congr rfl

@[simp] theorem safClearOp_canonical_iff (s : State) : (safClearOp s).Canonical ↔ s.Canonical := by
  unfold safClearOp
  dsimp only
  (repeat' split) <;> simp

@[simp] theorem lockKeyOp_canonical_iff (key : Nat) (s : State) : (lockKeyOp key s).Canonical ↔ s.Canonical := by
  simp [lockKeyOp]
@[simp] theorem lockCloseOp_canonical_iff (s : State) : (lockCloseOp s).Canonical ↔ s.Canonical := by
  simp [lockCloseOp]
@[simp] theorem lockTimeoutOp_canonical_iff (s : State) : (lockTimeoutOp s).Canonical ↔ s.Canonical := by
  unfold lockTimeoutOp
  split <;> simp
@[simp] theorem testResult_canonical_iff (code step : Nat) (s : State) : (testResult code step s).Canonical ↔ s.Canonical := State.canonical_congr rfl
@[simp] theorem beginTest_canonical_iff (k : Nat) (f : State → State) (s : State) (h : ∀ t, (f t).Canonical ↔ t.Canonical) :
    (beginTest k f s).Canonical ↔ s.Canonical := by
  simp [beginTest, h]
@[simp] theorem testLinesOp_canonical_iff (s : State) : (testLinesOp s).Canonical ↔ s.Canonical := by
  simp [testLinesOp]
@[simp] theorem testAmpsOp_canonical_iff (s : State) : (testAmpsOp s).Canonical ↔ s.Canonical := by
  simp [testAmpsOp]
@[simp] theorem testDiagOp_canonical_iff (s : State) : (testDiagOp s).Canonical ↔ s.Canonical := by
  simp [testDiagOp]
@[simp] theorem testDoneOp_canonical_iff (ok : Bool) (step : Nat) (s : State) : (testDoneOp ok step s).Canonical ↔ s.Canonical := by
  unfold testDoneOp
  split <;> simp

/-! ### Machine/Memory -/

@[simp] theorem setStack_canonical_iff (k st : Nat) (s : State) : (setStack k st s).Canonical ↔ s.Canonical := State.canonical_congr rfl
@[simp] theorem beginTraining_canonical_iff (s : State) : (beginTraining s).Canonical ↔ s.Canonical := State.canonical_congr rfl

@[simp] theorem hbmTrainDoneOp_canonical_iff (ends : List (Bool × Nat)) (s : State) : (hbmTrainDoneOp ends s).Canonical ↔ s.Canonical := by
  unfold hbmTrainDoneOp
  dsimp only
  split
  · exact State.canonical_congr rfl
  · split <;> simp [foldl_canonical_iff]

@[simp] theorem retrainOp_canonical_iff (s : State) : (retrainOp s).Canonical ↔ s.Canonical := by
  simp [retrainOp]
@[simp] theorem settleUrgent_canonical_iff (s : State) : (settleUrgent s).Canonical ↔ s.Canonical := State.canonical_congr rfl
@[simp] theorem noteDebt_canonical_iff (q : Nat) (s : State) : (noteDebt q s).Canonical ↔ s.Canonical := State.canonical_congr rfl

@[simp] theorem enterUrgent_canonical_iff (q : Nat) (s : State) : (enterUrgent q s).Canonical ↔ s.Canonical := by
  unfold enterUrgent
  dsimp only
  split <;> rfl

@[simp] theorem decideRefresh_canonical_iff (q : Nat) (s : State) : (decideRefresh q s).Canonical ↔ s.Canonical := by
  simp [decideRefresh]

@[simp] theorem refreshOp_canonical_iff (q : Nat) (waiting : Bool) (s : State) : (refreshOp q waiting s).Canonical ↔ s.Canonical := by
  have step (b : Bool) (t u : State) (h : t.Canonical ↔ u.Canonical) : (if b then t else u).Canonical ↔ u.Canonical := by
    cases b
    · exact State.canonical_congr rfl
    · exact h
  exact (step _ _ _ (by simp)).trans (decideRefresh_canonical_iff q s)

@[simp] theorem urgentOp_canonical_iff (q : Nat) (s : State) : (urgentOp q s).Canonical ↔ s.Canonical := by
  simp [urgentOp]
@[simp] theorem stackTempOp_canonical_iff (k : Nat) (temp : Int) (s : State) : (stackTempOp k temp s).Canonical ↔ s.Canonical := by
  simp [stackTempOp, foldl_canonical_iff]
@[simp] theorem neighbourDraw_canonical_iff (q : Nat) (s : State) : (neighbourDraw q s).Canonical ↔ s.Canonical := by
  simp [neighbourDraw]

@[simp] theorem putOffTile_canonical_iff (b k : Nat) (atAdmission : Bool) (s : State) : (putOffTile b k atAdmission s).Canonical ↔ s.Canonical := by
  unfold putOffTile
  dsimp only
  split
  · exact State.canonical_congr rfl
  · simp [foldl_canonical_iff]

@[simp] theorem markWord_canonical_iff (port w : Nat) (s : State) : (markWord port w s).Canonical ↔ s.Canonical := State.canonical_congr rfl
@[simp] theorem clearMarks_canonical_iff (port addr len : Nat) (s : State) :
    (clearMarks port addr len s).Canonical ↔ s.Canonical := State.canonical_congr rfl
@[simp] theorem walkWake_canonical_iff (i : Nat) (s : State) : (walkWake i s).Canonical ↔ s.Canonical := by
  simp [walkWake]
@[simp] theorem sramLap_canonical_iff (s : State) : (sramLap s).Canonical ↔ s.Canonical := State.canonical_congr rfl
@[simp] theorem putTableWord_canonical_iff (a : Nat) (v : Word) (s : State) : (putTableWord a v s).Canonical ↔ s.Canonical := by
  unfold putTableWord
  split <;> simp
@[simp] theorem restoreOp_canonical_iff (s : State) : (restoreOp s).Canonical ↔ s.Canonical := by
  simp [restoreOp]
@[simp] theorem repairSaveOp_canonical_iff (s : State) : (repairSaveOp s).Canonical ↔ s.Canonical := by
  simp [repairSaveOp]
@[simp] theorem repairDiscardOp_canonical_iff (s : State) : (repairDiscardOp s).Canonical ↔ s.Canonical := State.canonical_congr rfl
@[simp] theorem flipOp_canonical_iff (target flip : Nat) (s : State) : (flipOp target flip s).Canonical ↔ s.Canonical := by
  exact locked_canonical_iff _ _ (fun _ => State.canonical_congr rfl)
@[simp] theorem selftestResult_canonical_iff (code failed : Nat) (s : State) :
    (selftestResult code failed s).Canonical ↔ s.Canonical := State.canonical_congr rfl
@[simp] theorem selftestOp_canonical_iff (s : State) : (selftestOp s).Canonical ↔ s.Canonical := by
  simp [selftestOp]
@[simp] theorem selftestDoneOp_canonical_iff (failed : Nat) (s : State) : (selftestDoneOp failed s).Canonical ↔ s.Canonical := by
  simp [selftestDoneOp]
@[simp] theorem hbmInitOp_canonical_iff (s : State) : (hbmInitOp s).Canonical ↔ s.Canonical := by
  simp [hbmInitOp]

/-! ### Machine/HostLink -/

@[simp] theorem aerOp_canonical_iff (uncorr : Bool) (s : State) : (aerOp uncorr s).Canonical ↔ s.Canonical := by
  simp [aerOp]
@[simp] theorem linkUpOp_canonical_iff (speed width : Nat) (flit : Bool) (s : State) :
    (linkUpOp speed width flit s).Canonical ↔ s.Canonical := State.canonical_congr rfl
@[simp] theorem degradedOp_canonical_iff (speed width : Nat) (s : State) :
    (degradedOp speed width s).Canonical ↔ s.Canonical := State.canonical_congr rfl
@[simp] theorem bar2Range_canonical_iff (a : Nat) (s : State) : (bar2Range a s).Canonical ↔ s.Canonical := State.canonical_congr rfl
@[simp] theorem flushPba_canonical_iff (s : State) : (flushPba s).Canonical ↔ s.Canonical := by
  simp [flushPba]

@[simp] theorem configRequestOp_canonical_iff (off : Nat) (control : Option (Bool × Bool)) (s : State) :
    (configRequestOp off control s).Canonical ↔ s.Canonical := by
  unfold configRequestOp
  dsimp only
  (repeat' split) <;> simp

@[simp] theorem State.setChan_canonical_iff (s : State) (c : Nat) (d : DmaChan) :
    (State.setChan s c d).Canonical ↔ s.Canonical := State.canonical_congr rfl
@[simp] theorem setChanState_canonical_iff (c st : Nat) (s : State) : (setChanState c st s).Canonical ↔ s.Canonical := State.canonical_congr rfl
@[simp] theorem pointTo_canonical_iff (c a : Nat) (s : State) : (pointTo c a s).Canonical ↔ s.Canonical := by
  simp [pointTo]
@[simp] theorem pointNext_canonical_iff (c : Nat) (s : State) : (pointNext c s).Canonical ↔ s.Canonical := by
  simp [pointNext]

@[simp] theorem takeMover_canonical_iff (s : State) (c : Nat) : (takeMover s c).Canonical ↔ s.Canonical := by
  unfold takeMover
  dsimp only
  (repeat' split) <;> simp

@[simp] theorem shareMovers_canonical_iff (s : State) : (shareMovers s).Canonical ↔ s.Canonical := by
  simp [shareMovers, foldl_canonical_iff]
@[simp] theorem leaveMover_canonical_iff (c : Nat) (s : State) : (leaveMover c s).Canonical ↔ s.Canonical := by
  simp [leaveMover]
@[simp] theorem nextFetch_canonical_iff (c : Nat) (s : State) : (nextFetch c s).Canonical ↔ s.Canonical := State.canonical_congr rfl
@[simp] theorem dmaRunOp_canonical_iff (c : Nat) (s : State) : (dmaRunOp c s).Canonical ↔ s.Canonical := by
  simp [dmaRunOp]
@[simp] theorem doorbellOp_canonical_iff (c : Nat) (s : State) : (doorbellOp c s).Canonical ↔ s.Canonical := by
  simp [doorbellOp]
@[simp] theorem dmaResumeOp_canonical_iff (c : Nat) (s : State) : (dmaResumeOp c s).Canonical ↔ s.Canonical := by
  simp [dmaResumeOp]
@[simp] theorem dmaRestartOp_canonical_iff (s : State) : (dmaRestartOp s).Canonical ↔ s.Canonical := by
  simp [dmaRestartOp, foldl_canonical_iff]
@[simp] theorem setAge_canonical_iff (q p n : Nat) (s : State) : (setAge q p n s).Canonical ↔ s.Canonical := State.canonical_congr rfl
@[simp] theorem grant_canonical_iff (q : Nat) (r : HbmRequest) (s : State) : (grant q r s).Canonical ↔ s.Canonical := by
  simp [grant]

@[simp] theorem ageLosers_canonical_iff (q : Nat) (losers : List Nat) (s : State) : (ageLosers q losers s).Canonical ↔ s.Canonical := by
  unfold ageLosers
  rw [foldl_canonical_iff]
  exact fun _ _ => State.canonical_congr rfl

@[simp] theorem openRound_canonical_iff (q : Nat) (waiting : List HbmRequest) (withdraw : Bool) (s : State) :
    (openRound q waiting withdraw s).Canonical ↔ s.Canonical := by
  unfold openRound
  dsimp only
  (repeat' split) <;> simp

@[simp] theorem endBurst_canonical_iff (q : Nat) (s : State) : (endBurst q s).Canonical ↔ s.Canonical := State.canonical_congr rfl
@[simp] theorem burstRound_canonical_iff (q : Nat) (waiting : List HbmRequest) (b : Burst) (r : HbmRequest) (s : State) :
    (burstRound q waiting b r s).Canonical ↔ s.Canonical := by
  simp [burstRound]

@[simp] theorem arbiterRoundOp_canonical_iff (q : Nat) (waiting : List HbmRequest) (withdraw : Bool) (s : State) :
    (arbiterRoundOp q waiting withdraw s).Canonical ↔ s.Canonical := by
  unfold arbiterRoundOp
  dsimp only
  (repeat' split) <;> simp

@[simp] theorem tdmSlotOp_canonical_iff (waiting : List (Nat × Nat)) (s : State) : (tdmSlotOp waiting s).Canonical ↔ s.Canonical := by
  simp [tdmSlotOp]

/-! ### Machine/Peek -/

@[simp] theorem latchHigh_canonical_iff (a : Nat) (s : State) : (latchHigh a s).Canonical ↔ s.Canonical := by
  simp [latchHigh]

@[simp] theorem clearRc_canonical_iff (a : Nat) (s : State) : (clearRc a s).Canonical ↔ s.Canonical := by
  unfold clearRc
  split
  · exact State.canonical_congr rfl
  · rw [foldl_canonical_iff]
    exact fun _ _ => State.canonical_congr rfl

@[simp] theorem markSeen_canonical_iff (a : Nat) (s : State) : (markSeen a s).Canonical ↔ s.Canonical := by
  simp [markSeen]

/-! ### Machine/Image -/

@[simp] theorem breakSlot_canonical_iff (slot src : Nat) (s : State) : (breakSlot slot src s).Canonical ↔ s.Canonical := keelWrite_canonical_iff ..

@[simp] theorem jobStopped_canonical_iff (s : State) : (jobStopped s).Canonical ↔ s.Canonical := by
  unfold jobStopped
  split
  · split
    · exact breakSlot_canonical_iff _ _ _
    · exact State.canonical_congr rfl
  · exact State.canonical_congr rfl

@[simp] theorem cfgResult_canonical_iff (code : Nat) (s : State) : (cfgResult code s).Canonical ↔ s.Canonical := State.canonical_congr rfl
@[simp] theorem cfgGo_canonical_iff (checkOnly : Bool) (s : State) : (cfgGo checkOnly s).Canonical ↔ s.Canonical := by
  simp [cfgGo]
@[simp] theorem cfgWriteSlotOp_canonical_iff (slot : Nat) (s : State) : (cfgWriteSlotOp slot s).Canonical ↔ s.Canonical := by
  simp [cfgWriteSlotOp]
@[simp] theorem cfgCheckImageOp_canonical_iff (slot : Nat) (s : State) : (cfgCheckImageOp slot s).Canonical ↔ s.Canonical := by
  simp [cfgCheckImageOp]

/-! ### Machine/Reset -/

@[simp] theorem outputsOff_canonical_iff (s : State) : (outputsOff s).Canonical ↔ s.Canonical := by
  simp [outputsOff]

@[simp] theorem drainLog_canonical_iff (n : Nat) (s : State) : (drainLog n s).Canonical ↔ s.Canonical := by
  induction n generalizing s with
  | zero => exact State.canonical_congr rfl
  | succ n ih =>
    unfold drainLog
    split
    · rw [ih, recordWritten_canonical_iff]
    · exact State.canonical_congr rfl

@[simp] theorem showInputs_canonical_iff (a : Nat) (s : State) : (showInputs a s).Canonical ↔ s.Canonical := State.canonical_congr rfl
@[simp] theorem showLevels_canonical_iff (stopIn : Bool) (s : State) : (showLevels stopIn s).Canonical ↔ s.Canonical := by
  simp [showLevels]
@[simp] theorem releaseCold_canonical_iff (s : State) : (releaseCold s).Canonical ↔ s.Canonical := by
  simp [releaseCold]

@[simp] theorem warmState_canonical_iff (kind : Nat) (s : State) : (warmState kind s).Canonical ↔ s.Canonical := by
  unfold warmState
  rw [showLevels_canonical_iff, foldl_canonical_iff]
  · split <;> exact State.canonical_congr rfl
  · exact fun u k => State.canonical_congr rfl

@[simp] theorem stopBoth_canonical_iff (s : State) : (stopBoth s).Canonical ↔ s.Canonical := by
  simp [stopBoth]
@[simp] theorem admissionDropped_canonical_iff (s : State) : (admissionDropped s).Canonical ↔ s.Canonical := by
  unfold admissionDropped
  split <;> simp
@[simp] theorem dmaReset_canonical_iff (s : State) : (dmaReset s).Canonical ↔ s.Canonical := State.canonical_congr rfl
@[simp] theorem perstDeassertedOp_canonical_iff (s : State) : (perstDeassertedOp s).Canonical ↔ s.Canonical := State.canonical_congr rfl
@[simp] theorem railEnReleaseOp_canonical_iff (s : State) : (railEnReleaseOp s).Canonical ↔ s.Canonical := by
  simp [railEnReleaseOp]
@[simp] theorem railsGoodOp_canonical_iff (s : State) : (railsGoodOp s).Canonical ↔ s.Canonical := by
  simp [railsGoodOp]
@[simp] theorem rstNHighOp_canonical_iff (s : State) : (rstNHighOp s).Canonical ↔ s.Canonical := by
  simp [rstNHighOp]
@[simp] theorem warnEnd_canonical_iff (s : State) : (warnEnd s).Canonical ↔ s.Canonical := State.canonical_congr rfl
@[simp] theorem State.nextMultiple_canonical_iff (s : State) (per : Int) :
    (State.nextMultiple s per).Canonical ↔ s.Canonical := State.canonical_congr rfl

/-! ### Machine/RegAccess -/

@[simp] theorem storeFields_canonical_iff (d : RegDesc) (a : Nat) (v : Word) (s : State) :
    (storeFields d a v s).Canonical ↔ s.Canonical := State.canonical_congr rfl
@[simp] theorem onBit_canonical_iff (i v : Nat) (f : State → State) (s : State) (h : ∀ t, (f t).Canonical ↔ t.Canonical) :
    (onBit i v f s).Canonical ↔ s.Canonical := by
  simp [onBit, h]
@[simp] theorem ingRunOp_canonical_iff (run : Bool) (s : State) : (ingRunOp run s).Canonical ↔ s.Canonical := State.canonical_congr rfl
@[simp] theorem laneControl_canonical_iff (l v : Nat) (s : State) : (laneControl l v s).Canonical ↔ s.Canonical := by
  simp [laneControl]
@[simp] theorem laneStored_canonical_iff (l v : Nat) (s : State) : (laneStored l v s).Canonical ↔ s.Canonical := State.canonical_congr rfl
@[simp] theorem prbsEnd_canonical_iff (k : Nat) (s : State) : (prbsEnd k s).Canonical ↔ s.Canonical := State.canonical_congr rfl

@[simp] theorem axisControl_canonical_iff (a v : Nat) (was : Bool) (s : State) : (axisControl a v was s).Canonical ↔ s.Canonical := by
  unfold axisControl
  dsimp only
  rw [onBit_canonical_iff _ _ _ _ (clearOp_canonical_iff a), refreshEnable_canonical_iff]
  split
  · exact recheckInputs_canonical_iff a s
  · simp

@[simp] theorem axisCommand_canonical_iff (a order : Nat) (s : State) : (axisCommand a order s).Canonical ↔ s.Canonical := by
  unfold axisCommand
  split <;> simp
@[simp] theorem injectFault_canonical_iff (kind islet track : Nat) (s : State) :
    (injectFault kind islet track s).Canonical ↔ s.Canonical := State.canonical_congr rfl

@[simp] theorem checkControl_canonical_iff (v : Nat) (s : State) : (checkControl v s).Canonical ↔ s.Canonical := by
  unfold checkControl
  dsimp only
  split
  · exact flipOp_canonical_iff _ _ _
  · rw [selftestOp_canonical_iff]
    split <;> exact State.canonical_congr rfl
  · refine locked_canonical_iff _ _ (fun u => ?_)
    split <;> exact State.canonical_congr rfl
  · exact locked_canonical_iff _ _ (fun _ => State.canonical_congr rfl)

@[simp] theorem straitControl_canonical_iff (old : Word) (s : State) : (straitControl old s).Canonical ↔ s.Canonical := by
  simp [straitControl]
@[simp] theorem testControl_canonical_iff (v : Nat) (s : State) : (testControl v s).Canonical ↔ s.Canonical := by
  simp [testControl]
@[simp] theorem unkey_canonical_iff (s : State) : (unkey s).Canonical ↔ s.Canonical := State.canonical_congr rfl
@[simp] theorem resultAckOp_canonical_iff (base : Nat) (s : State) : (resultAckOp base s).Canonical ↔ s.Canonical := State.canonical_congr rfl
@[simp] theorem injectFaultOp_canonical_iff (kind islet track : Nat) (s : State) : (injectFaultOp kind islet track s).Canonical ↔ s.Canonical := by
  exact locked_canonical_iff _ _ (injectFault_canonical_iff kind islet track)
@[simp] theorem wallGoOp_canonical_iff (s : State) : (wallGoOp s).Canonical ↔ s.Canonical := by
  simp [wallGoOp]
@[simp] theorem noteGoOp_canonical_iff (s : State) : (noteGoOp s).Canonical ↔ s.Canonical := by
  simp [noteGoOp]
@[simp] theorem eraseOp_canonical_iff (s : State) : (eraseOp s).Canonical ↔ s.Canonical := by
  simp [eraseOp]
@[simp] theorem eqOp_canonical_iff (k : Nat) (on : Bool) (s : State) : (eqOp k on s).Canonical ↔ s.Canonical := State.canonical_congr rfl

/-! ### Machine/Boot -/

@[simp] theorem skipRepair_canonical_iff (s : State) : (skipRepair s).Canonical ↔ s.Canonical := State.canonical_congr rfl
@[simp] theorem repairRow_canonical_iff (q : Nat) (s : State) : (repairRow q s).Canonical ↔ s.Canonical := by
  simp [repairRow]

@[simp] theorem applyRepairs_canonical_iff (cold : Bool) (n i : Nat) (used : List (Nat × Nat)) (s : State) :
    (applyRepairs cold n i used s).Canonical ↔ s.Canonical := by
  induction n generalizing i used s with
  | zero => exact State.canonical_congr rfl
  | succ n ih =>
    unfold applyRepairs
    (repeat' split) <;> simp [ih]

@[simp] theorem bootRefresh_canonical_iff (s : State) : (bootRefresh s).Canonical ↔ s.Canonical := by
  simp [bootRefresh, foldl_canonical_iff]

@[simp] theorem showWords_canonical_iff (a n : Nat) (bs : List Byte) (s : State) : (showWords a n bs s).Canonical ↔ s.Canonical := by
  unfold showWords
  rw [foldl_canonical_iff]
  exact fun _ _ => State.canonical_congr rfl

@[simp] theorem storeWords_canonical_iff (width : Nat → Nat) (ps : List (Nat × Nat)) (s : State) :
    (storeWords width ps s).Canonical ↔ s.Canonical := by
  unfold storeWords
  rw [foldl_canonical_iff]
  exact fun _ _ => State.canonical_congr rfl

@[simp] theorem loadTables_canonical_iff (im : BootImage) (s : State) : (loadTables im s).Canonical ↔ s.Canonical := 
  (storeWords_canonical_iff ..).trans ((storeWords_canonical_iff ..).trans ((storeWords_canonical_iff ..).trans (storeWords_canonical_iff ..)))

@[simp] theorem showImage_canonical_iff (l : BootLoad) (s : State) : (showImage l s).Canonical ↔ s.Canonical := by
  unfold showImage
  split
  · rw [showWords_canonical_iff, showWords_canonical_iff]
    rfl
  · rw [State.fset_canonical_iff, State.raise_canonical_iff, State.raise_canonical_iff, showWords_canonical_iff, showWords_canonical_iff]
    rfl

@[simp] theorem boundStanding_canonical_iff (s : State) : (boundStanding s).Canonical ↔ s.Canonical := State.canonical_congr rfl
@[simp] theorem bootRecord_canonical_iff (sub : Bool) (l : BootLoad) (slot reason ms : Nat) (s : State) :
    (bootRecord sub l slot reason ms s).Canonical ↔ s.Canonical := by
  simp [bootRecord]
@[simp] theorem bootRecords_canonical_iff (l : BootLoad) (ms : Nat) (s : State) : (bootRecords l ms s).Canonical ↔ s.Canonical := by
  simp [bootRecords, foldl_canonical_iff]
@[simp] theorem bootLanes_canonical_iff (s : State) : (bootLanes s).Canonical ↔ s.Canonical := by
  simp [bootLanes, foldl_canonical_iff]

/-! ### Machine/CourseStart -/

@[simp] theorem spillFail_canonical_iff (e : Entry) (s : State) : (spillFail e s).Canonical ↔ s.Canonical := State.canonical_congr rfl
@[simp] theorem showBad_canonical_iff (s : State) : (showBad s).Canonical ↔ s.Canonical := by
  simp [showBad]
@[simp] theorem swapBanks_canonical_iff (s : State) : (swapBanks s).Canonical ↔ s.Canonical := by
  simp [swapBanks]
@[simp] theorem takeSettings_canonical_iff (s : State) : (takeSettings s).Canonical ↔ s.Canonical := by
  simp [takeSettings]
@[simp] theorem mapCounts_canonical_iff (s : State) : (mapCounts s).Canonical ↔ s.Canonical := by
  simp [mapCounts]

@[simp] theorem clearReports_canonical_iff (s : State) : (clearReports s).Canonical ↔ s.Canonical := by
  unfold clearReports
  simp only [State.fset_canonical_iff]
  rw [foldl_canonical_iff, foldl_canonical_iff]
  · exact fun t i => State.setReg_canonical_iff _ _ _
  · intro t i
    split <;> exact State.canonical_congr rfl

@[simp] theorem freshCourse_canonical_iff (e : Entry) (s : State) : (freshCourse e s).Canonical ↔ s.Canonical := State.canonical_congr rfl

@[simp] theorem beginLanes_canonical_iff (cseq : Nat) (s : State) : (beginLanes cseq s).Canonical ↔ s.Canonical := by
  unfold beginLanes
  rw [sendSeries_canonical_iff]
  exact foldl_canonical_iff _ (fun t l => setLane_canonical_iff l 4 t) _ _

/-! ### Machine/CmdRegisters -/

@[simp] theorem ackOp_canonical_iff (addr : Nat) (s : State) : (ackOp addr s).Canonical ↔ s.Canonical := by
  unfold ackOp
  split <;> simp

/-! ### Machine/Jtag -/

@[simp] theorem scanLoad_canonical_iff (code : Nat) (s : State) : (scanLoad code s).Canonical ↔ s.Canonical := State.canonical_congr rfl
@[simp] theorem jtagBypassOp_canonical_iff (s : State) : (jtagBypassOp s).Canonical ↔ s.Canonical := State.canonical_congr rfl
@[simp] theorem jtagIdcodeOp_canonical_iff (s : State) : (jtagIdcodeOp s).Canonical ↔ s.Canonical := State.canonical_congr rfl
@[simp] theorem jtagSampleOp_canonical_iff (lands cells : List Bool) (s : State) :
    (jtagSampleOp lands cells s).Canonical ↔ s.Canonical := State.canonical_congr rfl
@[simp] theorem scanDriven_canonical_iff (s : State) : (scanDriven s).Canonical ↔ s.Canonical := State.canonical_congr rfl
@[simp] theorem jtagExtestOp_canonical_iff (s : State) : (jtagExtestOp s).Canonical ↔ s.Canonical := by
  simp [jtagExtestOp]
@[simp] theorem jtagHighzOp_canonical_iff (s : State) : (jtagHighzOp s).Canonical ↔ s.Canonical := by
  simp [jtagHighzOp]
@[simp] theorem jtagClampOp_canonical_iff (s : State) : (jtagClampOp s).Canonical ↔ s.Canonical := by
  simp [jtagClampOp]

end Sys2Proof.Machine
end

section
/-! SUPPORT. The effects that may write HBM keep the canonical form of its bytes (R304). The functions stand in the order of the model's files;
where one tests what it reads of HBM, the test stands as a variable in the proof, so that nothing evaluates the read. -/

namespace Sys2Proof.Machine

/-- A list of effects that keep the form keeps it. -/
theorem foldl_canonical {β : Type} {f : State → β → State} (h : ∀ t b, t.Canonical → (f t b).Canonical) (l : List β)
    {s : State} (hs : s.Canonical) : (l.foldl f s).Canonical :=
  foldl_keeps State.Canonical f h l s hs

/-- A register bit that starts an effect (R13) keeps the form where the effect does. -/
theorem onBit_canonical (i v : Nat) {f : State → State} {s : State} (hf : ∀ t, t.Canonical → (f t).Canonical)
    (hw : s.Canonical) : (onBit i v f s).Canonical := by
  unfold onBit
  split
  · exact hf s hw
  · exact hw

/-- The line test before a resume keeps the form where the resume does. -/
theorem checkResume_canonical (n : Nat) (atTarget : Bool) {go : State → State} {s : State}
    (hf : ∀ t, t.Canonical → (go t).Canonical) (hw : s.Canonical) :
    (checkResume n atTarget go s).Canonical := by
  unfold checkResume
  dsimp only
  split
  · exact hf _ (by simpa using hw)
  · simpa using hw

theorem ite_canonical {c : Prop} [Decidable c] {s t : State} (hs : s.Canonical) (ht : t.Canonical) : (if c then s else t).Canonical := by
  split
  · exact hs
  · exact ht

/-- A client that puts its range part by part keeps the form where each part does (R125). -/
theorem clientRange_canonical (a n : Nat) {put : Nat → Nat → State → State} {s : State}
    (hp : ∀ x k t, t.Canonical → (put x k t).Canonical) (hs : s.Canonical) : (clientRange a n put s).Canonical :=
  clientRange_wf a n put s hp hs
section
variable {s : State} (hw : s.Canonical)
include hw

@[simp] theorem State.hbmPutWord_canonical (port w : Nat) (bs : List (Nat × Byte)) :
    (s.hbmPutWord port w bs).Canonical := State.hbmPutWord_wf _ _ _ _ hw
@[simp] theorem State.hbmWrite_canonical (port a : Nat) (bs : List Byte) : (s.hbmWrite port a bs).Canonical := State.hbmWrite_wf _ _ _ _ hw
@[simp] theorem State.fillRange_canonical (base len : Nat) (hs : List Haze) : (s.fillRange base len hs).Canonical := State.fillRange_wf _ _ _ _ hw
@[simp] theorem zeroHbm_canonical (base len : Nat) : (zeroHbm base len s).Canonical := zeroHbm_wf _ _ _ hw
@[simp] theorem hazeHbm_canonical (raw : Bool) (base len : Nat) : (hazeHbm raw base len s).Canonical := hazeHbm_wf _ _ _ _ hw
@[simp] theorem clientWrite_canonical (port a : Nat) (bs : List Byte) : (clientWrite port a bs s).Canonical := clientWrite_wf _ _ _ _ hw
@[simp] theorem scramble_canonical (a n : Nat) : (scramble a n s).Canonical := scramble_wf _ _ _ hw

/-! ### Machine/Store -/

@[simp] theorem State.putChk_canonical (w m : Nat) : (State.putChk s w m).Canonical := by
  unfold State.putChk
  split <;> simp [hw]

/-- A word stored puts its bytes one by one, each in its place. -/
@[simp] theorem State.storeWord_canonical (w m : Nat) (bytes : List (Nat × Byte)) : (State.storeWord s w m bytes).Canonical := by
  unfold State.storeWord
  refine State.putChk_canonical ?_ w m
  have put : (sparseWf hbmDefault (sparsePutAll hbmDefault s.hbm.bytes bytes)) = true := sparseWf_putAll hbmDefault bytes _ hw
  exact put

@[simp] theorem State.correctWord_canonical (w : Nat) : (State.correctWord s w).Canonical := by
  unfold State.correctWord
  split <;> simp [hw]
@[simp] theorem readHbmWord_canonical (scrub : Bool) (port w : Nat) : (readHbmWord scrub port w s).Canonical := by
  simp [readHbmWord, hw]
@[simp] theorem readHbm_canonical (port a n : Nat) : (readHbm port a n s).Canonical := by
  simpa [readHbm] using foldl_canonical (fun t w ht => readHbmWord_canonical ht false port w) _ hw

/-! ### Machine/Journal -/

@[simp] theorem journal_canonical (kind : Nat) (ids : Nat × Nat) (q3 q4 : Nat) (injected : Bool) : (journal kind ids q3 q4 injected s).Canonical := by
  simp [journal, hw]
@[simp] theorem journalRun_canonical (kind q3 q4 : Nat) (injected : Bool) : (journalRun kind q3 q4 injected s).Canonical := by
  simp [journalRun, hw]
@[simp] theorem postCourseResult_canonical (o : Nat) (e : Entry) : (postCourseResult o e s).Canonical := by
  simp [postCourseResult, hw]

/-! ### Machine/Halt -/

@[simp] theorem setHaltAll_canonical (m : Nat) (cs : List Nat) (start : Int) (injected : Bool) : (setHaltAll m cs start injected s).Canonical := by
  have raised (t : State) : (cs.foldl (fun u c => u.raise (causeBit c)) t).Canonical ↔ t.Canonical :=
    foldl_canonical_iff _ (fun _ _ => State.raise_canonical_iff ..) _ _
  unfold setHaltAll
  dsimp only
  split
  · rw [raised]
    split <;> simp [hw]
  · split <;> simp [raised, hw]

@[simp] theorem setHalt_canonical (m c : Nat) (start : Int) (injected : Bool) : (setHalt m c start injected s).Canonical := by
  simp [setHalt, hw]
@[simp] theorem requestHalt_canonical (c : Nat) (injected : Bool) : (requestHalt c injected s).Canonical := by
  simp [requestHalt, hw]
@[simp] theorem coxRequest_canonical (r : Nat) : (coxRequest r s).Canonical := by
  simp [coxRequest, hw]
@[simp] theorem tryFinish_canonical : (tryFinish s).Canonical := by
  unfold tryFinish
  split <;> simp [hw]
@[simp] theorem endEarly_canonical (o : Nat) (fail : Option AdmitFail) : (endEarly o fail s).Canonical := by
  simp [endEarly, hw]

/-! ### Machine/Queue -/

@[simp] theorem holdLoss_canonical (l : Loss) (e : Entry) : (holdLoss l e s).Canonical := by
  simp [holdLoss, hw]
@[simp] theorem foundLoss_canonical (e : Entry) (b k : Nat) (r : Nat × Nat × Bool) (atAdmission : Bool) :
    (foundLoss e b k r atAdmission s).Canonical := by
  simp [foundLoss, hw]

/-- The verdict on the header stands as a variable. -/
@[simp] theorem admissionStartOp_canonical : (admissionStartOp s).Canonical := by
  obtain ⟨verdict, hverdict⟩ := exists_eq (a' := admitHead)
  unfold admissionStartOp
  rw [← hverdict]
  split
  · exact hw
  · dsimp only
    split <;> simp [hw]

/-! ### Machine/Banks -/

@[simp] theorem fencedWrite_canonical (port a : Nat) (bs : List Byte) : (fencedWrite port a bs s).Canonical := by
  have writes (rs : List (Nat × List Byte)) : (rs.foldl (fun t r => clientWrite port r.1 r.2 t) s).Canonical :=
    foldl_canonical (fun t r ht => clientWrite_canonical ht port r.1 r.2) _ hw
  unfold fencedWrite
  dsimp only
  split
  · simpa using writes _
  · exact clientWrite_canonical hw port a bs

@[simp] theorem bankOpenOp_canonical (t : TableId) : (bankOpenOp t s).Canonical := by
  simp [bankOpenOp, hw]
@[simp] theorem shadowBaseWrite_canonical (high : Bool) (v : Word) : (shadowBaseWrite high v s).Canonical := by
  simp [shadowBaseWrite, hw]

@[simp] theorem cloneDoneOp_canonical (t : TableId) : (cloneDoneOp t s).Canonical := by
  unfold cloneDoneOp
  dsimp only
  split
  · exact hw
  · split
    · simp [hw]
    · rw [State.setBank_canonical_iff, foldl_canonical_iff _ (fun _ _ => State.setReg_canonical_iff ..)]
      exact hw

@[simp] theorem bankControl_canonical (t : TableId) (w : Nat) : (bankControl t w s).Canonical := by
  simp [bankControl, hw]
@[simp] theorem mapExchangedOp_canonical : (mapExchangedOp s).Canonical := by
  simp [mapExchangedOp, hw]

/-! ### Machine/Codec -/

@[simp] theorem slzGoOp_canonical (decompress : Bool) : (slzGoOp decompress s).Canonical := by
  simp [slzGoOp, hw]
@[simp] theorem scrambleJob_canonical : (scrambleJob s).Canonical := by
  unfold scrambleJob
  split <;> simp [hw]

omit hw in
/-- An output written under the fence or not. -/
theorem jobPut_canonical (j : SlzJob) (r : JobRun) (bs : List Byte) (hr : r.st.Canonical) : (jobPut j r bs).st.Canonical := by
  unfold jobPut
  dsimp only
  split
  · exact fencedWrite_canonical hr ..
  · exact clientWrite_canonical hr ..

omit hw in
/-- An entry of a job reads its source and writes at most one output. -/
theorem jobStep_canonical (j : SlzJob) (r : JobRun) (i : Nat) (hr : r.st.Canonical) : (jobStep j r i).st.Canonical := by
  obtain h | ⟨a, n, h | ⟨bs, h⟩⟩ := jobStep_st j r i
  · rwa [h]
  · rw [h]
    exact readHbm_canonical hr ..
  · rw [h]
    exact jobPut_canonical _ _ _ (readHbm_canonical hr ..)

/-- A job runs entry by entry, then writes its result rows. -/
@[simp] theorem slzJobEndOp_canonical : (slzJobEndOp s).Canonical := by
  unfold slzJobEndOp
  split
  · exact hw
  next j _ =>
    split
    · simp [hw]
    · split
      · simp [hw]
      · dsimp only
        have run : ((List.range j.count).foldl (jobStep j) { st := s, tail := 0, rows := [], codec := none, stop := none }).st.Canonical :=
          foldl_keeps (fun r : JobRun => r.st.Canonical) _ (fun r i hr => jobStep_canonical j r i hr) _ _ hw
        generalize (List.range j.count).foldl (jobStep j) { st := s, tail := 0, rows := [], codec := none, stop := none } = r at run ⊢
        split
        · simp [hw]
        · simp [run]
        · split
          · simp [run]
          · have written : (((List.range j.count).zip r.rows).foldl (fun t p =>
                clientWrite 12 (j.table + 32 * p.1 + 16) (leBytes 8 p.2.1 ++ leBytes 8 p.2.2) t) r.st).Canonical :=
              foldl_canonical (fun t p ht => clientWrite_canonical ht ..) _ run
            split <;> simp [written]

/-! ### Machine/Window -/

@[simp] theorem readTileSource_canonical (port : Nat) (e : Entry) (h : StreamHead) (b k : Nat) : (readTileSource port e h b k s).Canonical := by
  simp [readTileSource, hw]
@[simp] theorem layoutAbort_canonical (e : Entry) (h : StreamHead) (f : FailedTile) : (layoutAbort e h f s).Canonical := by
  simp [layoutAbort, hw]
@[simp] theorem scrambleArea_canonical : (scrambleArea s).Canonical := by
  unfold scrambleArea
  split <;> simp [hw]
@[simp] theorem writeDensity_canonical (e : Entry) (ys : List Int) : (writeDensity e ys s).Canonical :=
  foldl_canonical (fun _ _ ht => clientWrite_canonical ht 8 _ _) _ hw
@[simp] theorem writeFactors_canonical (e : Entry) (ys : List Int) : (writeFactors e ys s).Canonical :=
  foldl_canonical (fun _ _ ht => by simp [ht]) _ hw
@[simp] theorem writeRows_canonical (e : Entry) (p p' : Nat) : (writeRows e p p' s).Canonical := by
  simp [writeRows, hw]

omit hw in
/-- Tiles decoded again: a tile read, and a loss or an abort noted. -/
theorem decodeAgainBy_canonical (loss : State → Nat → Entry → StreamHead → Nat → Nat → Option (Nat × Nat × Bool)) (e : Entry)
    (h : StreamHead) (tiles acc : List (Nat × Nat)) {s : State} (hw : s.Canonical) : (decodeAgainBy loss e h tiles acc s).2.Canonical := by
  induction tiles generalizing acc s with
  | nil => exact hw
  | cons p rest ih =>
    rw [decodeAgainBy]
    dsimp only
    split
    · simp [hw]
    · split
      · simp [hw]
      · exact ih _ (readTileSource_canonical hw ..)

/-- The tiles decoded again stand as a variable, so that nothing evaluates the read of HBM in them. -/
@[simp] theorem rebuildRows_canonical (e : Entry) (h : StreamHead) (ys : List Int) : (rebuildRows e h ys s).Canonical := by
  obtain ⟨again, hagain⟩ := exists_eq (a' := decodeAgain)
  have decoded (tiles acc : List (Nat × Nat)) : (again e h tiles acc s).2.Canonical := by
    rw [hagain, ← decodeAgainBy_lossOf]
    exact decodeAgainBy_canonical lossOf e h tiles acc hw
  unfold rebuildRows
  rw [← hagain]
  split
  · exact hw
  · dsimp only
    split
    next s1 heq => exact (heq ▸ decoded _ _ :)
    next parts s1 heq =>
      have first : s1.Canonical := (heq ▸ decoded _ _ :)
      exact writeFactors_canonical (writeDensity_canonical (by simpa using first) _ _) _ _

/-! ### Machine/Protect -/

@[simp] theorem rebuildWindow_canonical (a : Nat) : (rebuildWindow a s).Canonical := by
  unfold rebuildWindow
  (repeat' split) <;> simp [hw]
@[simp] theorem markBad_canonical (a : Nat) : (markBad a s).Canonical := by
  unfold markBad
  (repeat' split) <;> simp [hw]
@[simp] theorem readTableByte_canonical (a : Nat) : (readTableByte a s).Canonical := by
  unfold readTableByte
  (repeat' split) <;> simp [hw]
@[simp] theorem readTables_canonical (hit : Nat → Bool) : (readTables hit s).Canonical :=
  foldl_canonical (fun _ a ht => readTableByte_canonical ht a) _ hw
@[simp] theorem cloneDone_canonical (t : TableId) : (cloneDone t s).Canonical := by
  simp [cloneDone, hw]
@[simp] theorem mapExchanged_canonical : (mapExchanged s).Canonical := by
  simp [mapExchanged, hw]

/-! ### Machine/Tiles -/

@[simp] theorem reportFault_canonical (ids : Nat × Nat) (islet b k code : Nat) (delta : Int) (injected : Bool) :
    (reportFault ids islet b k code delta injected s).Canonical := by
  simp [reportFault, hw]

@[simp] theorem tileFault_canonical (islet b k code : Nat) (delta : Int) (injected : Bool) :
    (tileFault islet b k code delta injected s).Canonical := by
  have redo (n : TileNote) : (queueRedo b k [islet] false (reportFault s.courseIds islet b k code delta injected (s.setNote n))).Canonical := by
    simp [hw]
  unfold tileFault
  dsimp only
  split
  · exact endEarly_canonical (requestHalt_canonical (by simpa using redo _) ..) ..
  · exact redo _

@[simp] theorem releaseTile_canonical (islet kind b k : Nat) (cells : List (Nat × Bool)) (sigma : Int) :
    (releaseTile islet kind b k cells sigma s).Canonical := by
  simp [releaseTile, hw]

@[simp] theorem offerTile_canonical (islet kind b k : Nat) (cells : List (Nat × Bool)) (sigma : Int) :
    (offerTile islet kind b k cells sigma s).Canonical := by
  unfold offerTile
  dsimp only
  (repeat' split) <;> simp [hw]

@[simp] theorem spillThrough_canonical (islet slot : Nat) (e : Entry) (te : TileEntry) : (spillThrough islet slot e te s).2.Canonical := by
  unfold spillThrough
  split <;> simp [hw]

@[simp] theorem computeTile_canonical (islet kind b k : Nat) (check : TileCheck) (e : Entry) (h : StreamHead) (d : TileDecode) :
    (computeTile islet kind b k check e h d s).Canonical := by
  unfold computeTile
  dsimp only
  (repeat' split) <;> simp [hw]

@[simp] theorem readFactors_canonical (e : Entry) (h : StreamHead) (b k : Nat) : (readFactors e h b k s).Canonical := by
  unfold readFactors
  split
  · exact rebuildRows_canonical (foldl_canonical (fun t r ht => readHbm_canonical ht 8 r.1 r.2) _ hw) ..
  · exact hw

@[simp] theorem finishTile_canonical (islet slot : Nat) (w : IsletWork) (check : TileCheck) (e : Entry) (h : StreamHead) (d : TileDecode) :
    (finishTile islet slot w check e h d s).Canonical := by
  simp [finishTile, hw]

/-- The test of a source loss stands as a variable. -/
@[simp] theorem tileComputeDoneOp_canonical (islet slot : Nat) (check : TileCheck) : (tileComputeDoneOp islet slot check s).Canonical := by
  obtain ⟨loss, hloss⟩ := exists_eq (a' := lossOf)
  unfold tileComputeDoneOp
  rw [← hloss]
  split
  · exact hw
  next w _ =>
    dsimp only
    split
    · simp [hw]
    next e _ =>
      split
      · simp [hw]
      next h _ =>
        generalize (if w.kind = 3 then 14 else islet / 16) = port
        have read : (readTileSource port e h w.band w.tile (dropSlot islet slot s)).Canonical := by
          simp [hw]
        have spilt := spillThrough_canonical read islet slot e (s.tileEntry e h w.band w.tile)
        split
        · split <;> simp [read]
        · generalize spillThrough islet slot e _ _ = p at spilt ⊢
          obtain ⟨lost, s3⟩ := p
          (repeat' split) <;> simp_all

/-- The test of a source loss stands as a variable. -/
@[simp] theorem bsxTileDoneOp_canonical : (bsxTileDoneOp s).Canonical := by
  obtain ⟨loss, hloss⟩ := exists_eq (a' := lossOf)
  unfold bsxTileDoneOp
  rw [← hloss]
  split
  next e _ _ =>
    split
    · exact hw
    next h _ =>
      dsimp only
      split
      · simp [hw]
      · split
        · simp [hw]
        · split <;> simp [hw]
  · exact hw

@[simp] theorem resendRecord_canonical (l : Loss) (code : Nat) : (resendRecord l code s).Canonical := by
  simp [resendRecord, hw]

@[simp] theorem resendReadDoneOp_canonical : (resendReadDoneOp s).Canonical := by
  unfold resendReadDoneOp
  split
  next l _ _ =>
    have read : (readHbm 9 l.addr l.len { s with int := { s.int with rereads := false } }).Canonical := by simp [hw]
    split
    · simp [read]
    · split
      · simp [read]
      · split
        · simp [read]
        · dsimp only
          split
          · split <;> simp [read]
          · exact endEarly_canonical (requestHalt_canonical (by split <;> simp [read]) ..) ..
  · exact hw

/-! ### Machine/Wake -/

@[simp] theorem wakeFault_canonical (n : Nat) (f : WakeFault) : (wakeFault n f s).Canonical := by
  unfold wakeFault
  dsimp only
  split
  · refine endEarly_canonical ?_ ..
    split <;> simp [hw]
  · split <;> simp [hw]

@[simp] theorem splitFault_canonical (injected : Bool) : (splitFault injected s).Canonical := by
  simp [splitFault, hw]

@[simp] theorem strokeSplitOp_canonical (check : Option SplitCheck) : (strokeSplitOp check s).Canonical := by
  unfold strokeSplitOp
  split
  · dsimp only
    split
    · simp [hw]
    · refine foldl_canonical (fun u f hu => wakeFault_canonical hu _ f) _ ?_
      have read : (readTables (inBank .map 0) (s.clear F.WAK_STATUS_STALLED)).Canonical := by simp [hw]
      (repeat' split) <;> simp [read]
  · exact hw

/-! ### Machine/Side -/

@[simp] theorem readLaneMap_canonical : (readLaneMap s).Canonical := by
  simp [readLaneMap, hw]
@[simp] theorem sendSide_canonical (f : SideFlight) (l : Nat) (j : SideJob) : (sendSide f l j s).Canonical := by
  simp [sendSide, hw]
@[simp] theorem releaseSide_canonical : (releaseSide s).Canonical := by
  unfold releaseSide
  (repeat' split) <;> simp [hw]

@[simp] theorem sideNext_canonical (j : SideJob) : (sideNext j s).Canonical := by
  unfold sideNext
  dsimp only
  (repeat' split) <;> simp [hw]

@[simp] theorem startWaveLoad_canonical : (startWaveLoad s).Canonical := by
  simp [startWaveLoad, hw]
@[simp] theorem sideGoOp_canonical : (sideGoOp s).Canonical := by
  simp [sideGoOp, hw]
@[simp] theorem sideAbortOp_canonical : (sideAbortOp s).Canonical := by
  unfold sideAbortOp
  split <;> simp [hw]
@[simp] theorem sideAgain_canonical (code : Nat) (f : SideFlight) (j : SideJob) : (sideAgain code f j s).Canonical := by
  unfold sideAgain
  (repeat' split) <;> simp [hw]

@[simp] theorem sideResponseOp_canonical (k : Nat) (ws : List DWord) : (sideResponseOp k ws s).Canonical := by
  unfold sideResponseOp
  dsimp only
  (repeat' split) <;> simp [hw]

@[simp] theorem sideTimeoutOp_canonical : (sideTimeoutOp s).Canonical := by
  unfold sideTimeoutOp
  (repeat' split) <;> simp [hw]
@[simp] theorem sideMoved_canonical : (sideMoved s).Canonical := by
  unfold sideMoved
  (repeat' split) <;> simp [hw]
@[simp] theorem lanesReady_canonical : (lanesReady s).Canonical :=
  releaseSide_canonical ((foldl_canonical_iff _ (fun _ _ => setLane_canonical_iff ..) _ _).2 hw)
@[simp] theorem abortFinish_canonical : (abortFinish s).Canonical := by
  unfold abortFinish
  split <;> simp [hw]

/-! ### Machine/Demand -/

@[simp] theorem moveHalt_canonical (m : Nat) (t : Int) : (moveHalt m t s).Canonical := by
  simp [moveHalt, hw]
@[simp] theorem demandHalt_canonical (cut : Option (Nat × Nat)) (low : Option Committed) : (demandHalt cut low s).Canonical := by
  unfold demandHalt
  (repeat' split) <;> simp [hw]
@[simp] theorem afterCut_canonical : (afterCut s).Canonical := by
  simp [afterCut, hw]

@[simp] theorem demand_canonical (c : Nat) : (demand c s).Canonical := by
  unfold demand
  dsimp only
  (repeat' split) <;> simp [hw]

@[simp] theorem demandIf_canonical (b : Bool) (c : Nat) : (demandIf b c s).Canonical := by
  simp [demandIf, hw]
@[simp] theorem diagFail_canonical (bit : Nat) : (diagFail bit s).Canonical := by
  simp [diagFail, hw]

/-! ### Machine/Lanes -/

@[simp] theorem completeHalt_canonical : (completeHalt s).Canonical := by
  simp [completeHalt, hw]
@[simp] theorem laneReady_canonical : (laneReady s).Canonical := by
  simp [laneReady, hw]
@[simp] theorem trainEnd_canonical (l st : Nat) (ok : Bool) : (trainEnd l st ok s).Canonical := by
  simp [trainEnd, hw]

@[simp] theorem rungPassOp_canonical (l : Nat) : (rungPassOp l s).Canonical := by
  unfold rungPassOp
  dsimp only
  (repeat' split) <;> simp [hw]

@[simp] theorem rungTimeoutOp_canonical (l : Nat) : (rungTimeoutOp l s).Canonical := by
  simp [rungTimeoutOp, hw]

@[simp] theorem frameSendOp_canonical (l : Nat) : (frameSendOp l s).Canonical := by
  unfold frameSendOp
  dsimp only
  (repeat' split) <;> simp [hw]

@[simp] theorem checkEcho_canonical : (checkEcho s).Canonical := by
  simp [checkEcho, hw]
@[simp] theorem countEcho_canonical (k : Nat) : (countEcho k s).Canonical := by
  simp [countEcho, hw]
@[simp] theorem echoTraining_canonical (k : Nat) (w : DWord) (inverted : Bool) : (echoTraining k w inverted s).Canonical := by
  unfold echoTraining
  split <;> simp [hw]
@[simp] theorem echoLockedOp_canonical (k : Nat) : (echoLockedOp k s).Canonical := by
  simp [echoLockedOp, hw]
@[simp] theorem echoLockLostOp_canonical (k : Nat) : (echoLockLostOp k s).Canonical := by
  simp [echoLockLostOp, hw]
@[simp] theorem judgeHalt_canonical : (judgeHalt s).Canonical := by
  unfold judgeHalt
  split <;> simp [hw]

@[simp] theorem statusMessageOp_canonical (k : Nat) (ws : List DWord) : (statusMessageOp k ws s).Canonical := by
  unfold statusMessageOp
  dsimp only
  split
  · simp [hw]
  · split
    · simp [hw]
    · refine demandIf_canonical ?_ ..
      split
      · exact requestHalt_canonical (judgeHalt_canonical (by simp [hw])) ..
      · exact judgeHalt_canonical (by simp [hw])

/-! ### Machine/Stroke -/

@[simp] theorem predict_canonical (lost : Bool) : (predict lost s).Canonical := by
  unfold predict
  split <;> simp [hw]
@[simp] theorem safetySample_canonical (a : Nat) (z ts : Int) : (safetySample a z ts s).Canonical := by
  simp [safetySample, hw]
@[simp] theorem positionSampleOp_canonical (a : Nat) (w : DWord) (tf : Int) : (positionSampleOp a w tf s).Canonical := by
  simp [positionSampleOp, hw]
@[simp] theorem lockedOp_canonical (a : Nat) : (lockedOp a s).Canonical := by
  simp [lockedOp, hw]
@[simp] theorem unlockedOp_canonical (a : Nat) : (unlockedOp a s).Canonical := by
  simp [unlockedOp, hw]

/-- A stroke's commit goes through its stages: the reasons, the late frames, the trim, the period, and a halt where it does not fire. -/
@[simp] theorem strokeCommitOp_canonical : (strokeCommitOp s).Canonical := by
  have ackMissed (n : Nat) (bs : List Nat) (u : State) : (bs.foldl (fun u b => ackMiss n b u) u).Canonical ↔ u.Canonical :=
    foldl_canonical_iff _ (fun _ _ => ackMiss_canonical_iff ..) _ _
  have reasoned (rs : List Nat) (u : State) : (rs.foldl (fun u r => u.raise (reasonEvent r)) u).Canonical ↔ u.Canonical :=
    foldl_canonical_iff _ (fun _ _ => State.raise_canonical_iff ..) _ _
  unfold strokeCommitOp
  split
  · extract_lets n st s0 s1 reasons s2 ovr tc trimBad
    split
    · exact hw
    · have h2 : s2.Canonical := by simp [s2, s1, s0, reasoned, hw]
      split
      extract_lets causes fire s3 s4 s5
      have h5 : s5.Canonical := by
        have h4 : s4.Canonical := by simp [s4, s3, ackMissed, h2]
        simp only [s5]
        split <;> simp [h4]
      split
      extract_lets s6 period s7 fired stk s8 s9
      have h8 : s8.Canonical := by
        have h7 : s7.Canonical := by
          simp only [s7]
          cases period <;> simp [s6, h5]
        simp [s8, fired, h7]
      split
      · exact h8
      · simp [s9, h8]
  · exact hw

@[simp] theorem catchStrobeOp_canonical : (catchStrobeOp s).Canonical := by
  unfold catchStrobeOp
  split <;> simp [hw]
@[simp] theorem signOff_canonical (e : Entry) : (signOff e s).Canonical := by
  simp [signOff, hw]

@[simp] theorem strokeFiredOp_canonical : (strokeFiredOp s).Canonical := by
  have folded (x : Int) (fs : List TxFrame) : (fs.foldl (fun u f => foldSignature f u) (s.untilR x)).Canonical := by
    simp [foldl_canonical_iff, hw]
  unfold strokeFiredOp
  split
  · dsimp only
    (repeat' split) <;> simp [folded]
  · exact hw

/-! ### Machine/Motion -/

@[simp] theorem posLostOp_canonical (a : Nat) : (posLostOp a s).Canonical := by
  simp [posLostOp, hw]

@[simp] theorem statusWordOp_canonical (a : Nat) (w : Word) : (statusWordOp a w s).Canonical := by
  unfold statusWordOp
  dsimp only
  (repeat' split) <;> simp [hw]

@[simp] theorem tblLoadDoneOp_canonical : (tblLoadDoneOp s).Canonical := by
  unfold tblLoadDoneOp
  (repeat' split) <;> simp [hw]

@[simp] theorem limitTripOp_canonical (a i : Nat) : (limitTripOp a i s).Canonical := by
  unfold limitTripOp
  split
  · exact hw
  next s0 h =>
    have hs : s0.Canonical := (filtered_canonical_iff _ _ _ _ _ h).2 hw
    dsimp only
    refine demandIf_canonical (requestHalt_canonical ?_ ..) ..
    split
    · split <;> simp [hs]
    · simp [hs]

/-! ### Machine/Cox -/

@[simp] theorem lineTestOp_canonical (ok : Bool) : (lineTestOp ok s).Canonical := by
  unfold lineTestOp
  split <;> simp [hw]
@[simp] theorem abandon_canonical (r : Nat) : (abandon r s).Canonical := by
  simp [abandon, hw]
@[simp] theorem coxHaltOp_canonical : (coxHaltOp s).Canonical := by
  simp [coxHaltOp, hw]

@[simp] theorem pauseLimitOp_canonical : (pauseLimitOp s).Canonical := by
  unfold pauseLimitOp
  dsimp only
  (repeat' split) <;> simp [hw]

@[simp] theorem supplyHalt_canonical : (supplyHalt s).Canonical := by
  simp [supplyHalt, hw]
@[simp] theorem coxIdle_canonical : (coxIdle s).Canonical := by
  simp [coxIdle, hw]

/-- The search for the point to resume from stands as a variable. -/
@[simp] theorem leaveStopping_canonical (e : Entry) : (leaveStopping e s).Canonical := by
  obtain ⟨leave, hleave⟩ := exists_eq (a' := leaveStopping)
  obtain ⟨find, hfind⟩ := exists_eq (a' := resumePoint)
  rw [← hleave]
  delta leaveStopping at hleave
  rw [← hfind] at hleave
  subst hleave
  dsimp only
  split <;> simp [hw]

@[simp] theorem resume_canonical : (resume s).Canonical := by
  simp [resume, hw]
@[simp] theorem coxRunOut_canonical (rest : Bool) : (coxRunOut rest s).Canonical := by
  unfold coxRunOut
  split <;> simp [hw]
@[simp] theorem splitAgain_canonical : (splitAgain s).Canonical := by
  simp [splitAgain, hw]

@[simp] theorem coxMachine_canonical : (coxMachine s).Canonical := by
  unfold coxMachine
  dsimp only
  have start : (if s.coxState = 3 ∧ s.running.isSome = true then soften s else s.clear F.COX_STATUS_SOFT).Canonical := by
    split <;> simp [hw]
  generalize (if s.coxState = 3 ∧ s.running.isSome = true then soften s else s.clear F.COX_STATUS_SOFT) = t at start ⊢
  split
  · simp [start]
  · split
    · (repeat' split) <;> simp [start]
    · split
      · simp [start]
      · split
        · refine checkResume_canonical _ _ (fun u hu => ?_) ?_
          · simp [hu]
          · (repeat' split) <;> simp [start]
        · (repeat' split) <;> simp [start]
        · split <;> simp [start]
        · split <;> simp [start]
        · split
          · exact checkResume_canonical _ _ (fun u hu => by simp [hu]) (by simp [start])
          · split <;> simp [start]
        · exact checkResume_canonical _ _ (fun u hu => by simp [hu]) (by simp [start])
        · exact start

@[simp] theorem coxWatch_canonical : (coxWatch s).Canonical := by
  simp [coxWatch, hw]
@[simp] theorem softStop_canonical (a : Nat) : (softStop a s).Canonical := by
  simp [softStop, hw]
@[simp] theorem planProfile_canonical (a : Nat) : (planProfile a s).Canonical := by
  simp [planProfile, hw]
@[simp] theorem planSetPoint_canonical (a : Nat) : (planSetPoint a s).Canonical := by
  simp [planSetPoint, hw]
@[simp] theorem planAxis_canonical (a : Nat) : (planAxis a s).Canonical := by
  simp [planAxis, hw]

@[simp] theorem servoBoundaryOp_canonical : (servoBoundaryOp s).Canonical := by
  have machine : (coxMachine (coxWatch (beginStageStop (endStageStop (axisAtRest 1 (axisAtRest 0 (applySetPoint 1 (applySetPoint 0
      { s.untilR (boundaryFrom s (s.rtime + 1)) with
        mot := { (s.untilR (boundaryFrom s (s.rtime + 1))).mot with
          period := (s.untilR (boundaryFrom s (s.rtime + 1))).fget F.MOT_SERVO_PERIOD } })))))))).Canonical :=
    coxMachine_canonical (coxWatch_canonical (by simp [hw]))
  have plan := planAxis_canonical (planAxis_canonical (s := readTable (newPeriod (coxMachine _))) (by simpa using machine) 0) 1
  simpa [servoBoundaryOp] using plan

/-! ### Machine/Regatta -/

@[simp] theorem trainingWordOp_canonical (src : LinkEnd) (w : DWord) (inverted : Bool) : (trainingWordOp src w inverted s).Canonical := by
  unfold trainingWordOp
  split <;> simp [hw]
@[simp] theorem loseLock_canonical : (loseLock s).Canonical := by
  simp [loseLock, hw]
@[simp] theorem thetaHalt_canonical (theta : Int) : (thetaHalt theta s).Canonical := by
  simp [thetaHalt, hw]
@[simp] theorem applyTheta_canonical (theta : Int) : (applyTheta theta s).Canonical := by
  simp [applyTheta, hw]
@[simp] theorem measure_canonical (k : Nat) (p : Packet) (rx : Int) : (measure k p rx s).Canonical := by
  simp [measure, hw]

@[simp] theorem takeBeacon_canonical (k : Nat) (p : Packet) : (takeBeacon k p s).Canonical := by
  unfold takeBeacon
  dsimp only
  (repeat' split) <;> simp [hw]

@[simp] theorem holdoverTimeoutOp_canonical : (holdoverTimeoutOp s).Canonical := by
  unfold holdoverTimeoutOp
  split <;> simp [hw]
@[simp] theorem takeToken_canonical (k : Nat) (p : Packet) : (takeToken k p s).Canonical := by
  simp [takeToken, hw]
@[simp] theorem takePacket_canonical (k : Nat) (p : Packet) : (takePacket k p s).Canonical := by
  unfold takePacket
  split <;> simp [hw]

@[simp] theorem packetArrives_canonical (k : Nat) (ws : List DWord) : (packetArrives k ws s).Canonical := by
  have arrived := (arrive_canonical_iff k ws s).2 hw
  unfold packetArrives
  generalize arrive k ws s = p at arrived ⊢
  obtain ⟨_ | m, s1⟩ := p
  · split
    · exact arrived
    · exact hw
  · split
    · exact takePacket_canonical arrived ..
    · exact hw

/-! ### Machine/Export -/

@[simp] theorem exportDone_canonical : (exportDone s).Canonical := by
  unfold exportDone
  split <;> simp [hw]

/-! ### Machine/Guard -/

@[simp] theorem safeStopOp_canonical : (safeStopOp s).Canonical := by
  simp [safeStopOp, hw]
@[simp] theorem hostStopOp_canonical : (hostStopOp s).Canonical := by
  simp [hostStopOp, hw]
@[simp] theorem echoSilentOp_canonical : (echoSilentOp s).Canonical := by
  simp [echoSilentOp, hw]
@[simp] theorem clockOp_canonical : (clockOp s).Canonical := by
  simp [clockOp, hw]
@[simp] theorem diagOp_canonical (bit : Nat) (failed : Bool) : (diagOp bit failed s).Canonical := by
  simp [diagOp, hw]
@[simp] theorem followOp_canonical (a : Nat) : (followOp a s).Canonical := by
  unfold followOp
  split <;> simp [hw]
@[simp] theorem driverOp_canonical (a : Nat) : (driverOp a s).Canonical := by
  simp [driverOp, hw]

/-! ### Machine/Memory -/

/-- A read that found a loss notes it and puts its tile off. -/
theorem streamLost_canonical (port addr len : Nat) {t : State} (h : streamLost port addr len s = some t) : t.Canonical := by
  unfold streamLost at h
  simp only [Option.bind_eq_some_iff, Option.map_eq_some_iff] at h
  obtain ⟨e, -, _, -, hit, -, rfl⟩ := h
  split <;> simp [hw]

@[simp] theorem readLost_canonical (port addr len : Nat) : (readLost port addr len s).Canonical := by
  unfold readLost
  split
  · exact rebuildRows_canonical hw ..
  · cases h : streamLost port addr len s with
    | none => exact hw
    | some t => exact streamLost_canonical hw port addr len h

@[simp] theorem spoiledRead_canonical (port addr len : Nat) : (spoiledRead port addr len s).Canonical := by
  have marked : (markWord port (addr / 8) s).Canonical := by simp [hw]
  unfold spoiledRead
  dsimp only
  split
  · exact hw
  · split
    · simp [marked]
    · split
      next t h => simpa using streamLost_canonical marked port addr len h
      · exact marked

@[simp] theorem stackReport_canonical (port w stack : Nat) : (stackReport port w stack s).Canonical := by
  unfold stackReport
  split <;> simp [hw]

@[simp] theorem hbmReadDoneOp_canonical (port addr len stack : Nat) : (hbmReadDoneOp port addr len stack s).Canonical := by
  have read (ws : List Nat) : (returnReads port addr len (ws.foldl (fun t w => readHbmWord (port == 15) port w t)
      (stackReport port (addr / 8) stack s))).Canonical := by
    rw [returnReads_canonical_iff]
    exact foldl_canonical (fun t w ht => readHbmWord_canonical ht ..) _ (stackReport_canonical hw ..)
  unfold hbmReadDoneOp
  dsimp only
  split
  · exact spoiledRead_canonical (read _) ..
  · split
    · exact readLost_canonical (read _) ..
    · exact read _

@[simp] theorem fifoParityOp_canonical (site : FifoSite) : (fifoParityOp site s).Canonical := by
  have counted : ((s.bump F.SRM_PAR_COUNT_COUNT).raise F.SRM_EVENTS_FIFO_PARITY).Canonical := by simp [hw]
  unfold fifoParityOp
  dsimp only
  split
  · (repeat' split) <;> simp [hw]
  · simp [hw]
  · split
    · refine clientRange_canonical _ _ (fun x n u hu => ?_) counted
      split <;> simp [hu]
    · exact counted
  · exact spoiledRead_canonical (by simp [hw]) ..

@[simp] theorem hbmScrubOp_canonical (late : Bool) : (hbmScrubOp late s).Canonical := by
  simp [hbmScrubOp, hw]

@[simp] theorem sramScrubOp_canonical (late : Bool) : (sramScrubOp late s).Canonical := by
  have word (a : Nat) (l : List Nat) (u : State) (hu : u.Canonical) : (l.foldl (fun u i => readTableByte (a + i) u) u).Canonical :=
    foldl_canonical (fun t i ht => readTableByte_canonical ht _) _ hu
  unfold sramScrubOp
  split
  · exact hw
  · extract_lets rate s0 s1 p
    have h1 : s1.Canonical := by simp [s1, s0, hw]
    split
    next a _ =>
      have h2 := word a (List.range 4) s1 h1
      dsimp only
      split <;> simp [h2]
    · split
      · simp [h1]
      · dsimp only
        split <;> simp [h1]

@[simp] theorem initDoneOp_canonical : (initDoneOp s).Canonical := by
  unfold initDoneOp
  split
  · exact hw
  · simpa using clientRange_canonical _ _ (fun x k t ht => zeroHbm_canonical ht x k) hw

/-! ### Machine/HostLink -/

@[simp] theorem bar2ReadOp_canonical (a n : Nat) : (bar2ReadOp a n s).Canonical := by
  simp [bar2ReadOp, hw]
@[simp] theorem bar2WriteOp_canonical (a : Nat) (bs : List Byte) (poisoned : Bool) : (bar2WriteOp a bs poisoned s).Canonical := by
  simp [bar2WriteOp, hw]
@[simp] theorem writeBack_canonical (c a status bytes : Nat) : (writeBack c a status bytes s).Canonical := by
  simp [writeBack, hw]
@[simp] theorem stopChan_canonical (c status bytes : Nat) : (stopChan c status bytes s).Canonical := by
  simp [stopChan, hw]
@[simp] theorem descriptorFetchOp_canonical (c : Nat) (host : List DWord) : (descriptorFetchOp c host s).Canonical := by
  simp [descriptorFetchOp, hw]

@[simp] theorem dmaWrite_canonical (d : DmaDesc) (bs : List Byte) : (dmaWrite d bs s).Canonical := by
  have put (a : Nat) (l : List Byte) (u : State) (hu : u.Canonical) :
      (if d.dstHbm then fencedWrite 10 a l u else u.emit (.hostWrite a l)).Canonical := by
    split <;> simp [hu]
  unfold dmaWrite
  dsimp only
  split
  · exact hw
  · split
    · exact foldl_canonical (fun u l hu => put d.dst l u hu) _ hw
    · exact put _ _ _ hw

@[simp] theorem descriptorDoneOp_canonical (c : Nat) (host : List Byte) (failed : Bool) : (descriptorDoneOp c host failed s).Canonical := by
  unfold descriptorDoneOp
  split
  · exact hw
  next ws _ =>
    split
    · exact hw
    · extract_lets d s0
      have read : s0.Canonical := by
        simp only [s0]
        split <;> simp [hw]
      split
      next bs bad _ =>
      have written := dmaWrite_canonical read d (swapBytes d.swap bs)
      dsimp only
      cases bad
      · simp [written]
      · simp [written]

@[simp] theorem moveSome_canonical (c : Nat) : (moveSome c s).2.Canonical := by
  unfold moveSome
  dsimp only
  (repeat' split) <;> simp [hw]

@[simp] theorem dmaResetOp_canonical (c : Nat) : (dmaResetOp c s).Canonical := by
  simp [dmaResetOp, hw]
@[simp] theorem abortAllOp_canonical : (abortAllOp s).Canonical := foldl_canonical (fun _ _ hu => dmaResetOp_canonical hu _) _ hw
@[simp] theorem moveParts_canonical : (moveParts s).Canonical := foldl_canonical (fun _ _ hu => moveSome_canonical hu _) _ hw

@[simp] theorem dmaTimeoutOp_canonical : (dmaTimeoutOp s).Canonical := by
  have stopped (c : Nat) (u : State) (hu : u.Canonical) : (if u.chanState c = 0 then u
      else ((setChanState c 4 u).fset (F.DMA_CH_STATUS_LAST c) 6).setChan c
        { ((setChanState c 4 u).fset (F.DMA_CH_STATUS_LAST c) 6).chan c with fetch := false, served := false }).Canonical := by
    split <;> simp [hu]
  have all := foldl_canonical (fun u c hu => stopped c u hu) (List.range 32) (moveParts_canonical hw)
  simpa [dmaTimeoutOp] using all

/-! ### Machine/Peek -/

theorem readWord_canonical (a : Nat) : (readWord a s).2.Canonical := by
  simp [readWord, hw]

omit hw in
theorem readWords_canonical : ∀ (n a : Nat) (s : State), s.Canonical → (readWords n a s).2.Canonical
  | 0, _, _, hw => hw
  | n + 1, a, _, hw => readWords_canonical n (a + 4) _ (readWord_canonical hw a)

@[simp] theorem readRegOp_canonical (a n : Nat) : (readRegOp a n s).Canonical := by
  unfold readRegOp
  split
  · simp [hw]
  · simpa using readWords_canonical n a s hw

/-! ### Machine/Image -/

@[simp] theorem cfgJobDoneOp_canonical (ok : Bool) : (cfgJobDoneOp ok s).Canonical := by
  unfold cfgJobDoneOp
  split <;> simp [hw]

/-! ### Machine/Reset -/

/-- A cold reset leaves no byte, or the bytes of the map's shadow alone. -/
@[simp] theorem coldState_canonical (kind : Nat) : (coldState kind s).Canonical := by
  have cold (keep : Bool) : Memory.wf (hbmAfterCold keep s).bytes = true := by
    cases keep with
    | true => exact sparseWfFrom_filter hbmDefault none _ _ hw
    | false => rfl
  simp [coldState, cold]

@[simp] theorem coldReset_canonical (kind : Nat) : (coldReset kind s).Canonical := by
  simp [coldReset, hw]

@[simp] theorem leaveUndefined_canonical : (leaveUndefined s).Canonical := by
  have moved : (scrambleArea (scrambleJob (moveParts s))).Canonical := scrambleArea_canonical (scrambleJob_canonical (moveParts_canonical hw))
  unfold leaveUndefined
  dsimp only
  split
  · exact clientRange_canonical _ _ (fun x k t ht => hazeHbm_canonical ht true x k) moved
  · exact moved

@[simp] theorem warmReset_canonical (kind : Nat) : (warmReset kind s).Canonical := by
  simp [warmReset, hw]
@[simp] theorem abortCourse_canonical : (abortCourse s).Canonical := by
  simp [abortCourse, hw]
@[simp] theorem courseAbort_canonical : (courseAbort s).Canonical := by
  simp [courseAbort, hw]
@[simp] theorem pcieReset_canonical : (pcieReset s).Canonical := by
  simp [pcieReset, hw]
@[simp] theorem hotResetOp_canonical : (hotResetOp s).Canonical := by
  simp [hotResetOp, hw]
@[simp] theorem dataLinkDownOp_canonical : (dataLinkDownOp s).Canonical := by
  simp [dataLinkDownOp, hw]
@[simp] theorem flrOp_canonical : (flrOp s).Canonical := by
  simp [flrOp, hw]
@[simp] theorem perstAssertedOp_canonical : (perstAssertedOp s).Canonical := by
  simp [perstAssertedOp, hw]
@[simp] theorem pwrReset_canonical (key : Nat) (warm cold abort : Bool) : (pwrReset key warm cold abort s).Canonical := by
  simp [pwrReset, hw]
@[simp] theorem powerOnOp_canonical : (powerOnOp s).Canonical := by
  simp [powerOnOp, hw]
@[simp] theorem rstNOp_canonical : (rstNOp s).Canonical := by
  simp [rstNOp, hw]
@[simp] theorem powerLostOp_canonical : (powerLostOp s).Canonical := by
  simp [powerLostOp, hw]
@[simp] theorem warnStart_canonical : (warnStart s).Canonical := by
  simp [warnStart, hw]
@[simp] theorem warnUpdate_canonical : (warnUpdate s).Canonical := by
  simp [warnUpdate, hw]

@[simp] theorem supplySampleOp_canonical (rails : List Nat) : (supplySampleOp rails s).Canonical := by
  unfold supplySampleOp
  split
  · exact hw
  · extract_lets t mv low deep clr bits core pwr s1 s2 s3 dip saf s4 s5
    have h3 : s3.Canonical := by simp [s3, s2, s1, t, hw]
    have h4 : s4.Canonical := warnUpdate_canonical (by simp [h3])
    have h5 : s5.Canonical := by
      simp only [s5]
      split <;> simp [h4]
    split
    · simp [h5]
    · exact h5

@[simp] theorem tjReadOp_canonical (temp : Int) : (tjReadOp temp s).Canonical := by
  simp [tjReadOp, hw]
@[simp] theorem standbyOp_canonical (key : Nat) (go wakeN : Bool) : (standbyOp key go wakeN s).Canonical := by
  simp [standbyOp, hw]
@[simp] theorem wakeOp_canonical : (wakeOp s).Canonical := by
  simp [wakeOp, hw]

/-! ### Machine/RegAccess -/

@[simp] theorem echoControl_canonical (k : Nat) : (echoControl k s).Canonical := by
  simp [echoControl, hw]

@[simp] theorem chanControl_canonical (c v : Nat) : (chanControl c v s).Canonical := by
  have ran : (if bitAt 0 v then dmaRunOp c s else s.clear (F.DMA_CH_CTL_RUN c)).Canonical := by split <;> simp [hw]
  unfold chanControl
  rw [shareMovers_canonical_iff]
  refine onBit_canonical 3 v (fun u hu => dmaResetOp_canonical hu c) (onBit_canonical 2 v (fun u hu => ?_) (onBit_canonical 1 v (fun u hu => ?_) ran))
  · simp [hu]
  · simp [hu]

@[simp] theorem standbyWrite_canonical (v : Nat) : (standbyWrite v s).Canonical := by
  simp [standbyWrite, hw]

@[simp] theorem actLow_canonical (a : Nat) (v : Nat) : (actLow a v s).Canonical := by
  unfold actLow
  (repeat' split) <;> try exact hw
  · exact onBit_canonical _ _ (fun u hu => by simp [hu]) hw
  · simp [hw]
  · simp [hw]
  · rw [updatePermit_canonical_iff]
    exact onBit_canonical _ _ (fun u hu => by simp [hu]) (onBit_canonical _ _ (fun u hu => by simp [hu]) hw)
  · simp [hw]
  · refine onBit_canonical _ _ (fun u hu => by split <;> simp [hu]) ?_
    exact onBit_canonical _ _ (fun u hu => by simp [hu]) (onBit_canonical _ _ (fun u hu => by simp [hu]) (by simp [hw]))
  · exact onBit_canonical _ _ (fun u hu => by simp [hu]) hw
  · exact onBit_canonical _ _ (fun u hu => by simp [hu]) hw
  · exact onBit_canonical _ _ (fun u hu => by simp [hu]) (onBit_canonical _ _ (fun u hu => by simp [hu]) hw)
  · exact onBit_canonical _ _ (fun u hu => by simp [hu]) hw
  · exact onBit_canonical _ _ (fun u hu => by simp [hu]) hw

@[simp] theorem actHigh_canonical (a : Nat) (v : Nat) : (actHigh a v s).Canonical := by
  have one (i : Nat) {f : State → State} (hf : ∀ u, u.Canonical → (f u).Canonical) : (onBit i v f s).Canonical := onBit_canonical i v hf hw
  unfold actHigh
  iterate 5 refine ite_canonical (by simp [hw]) ?_
  refine ite_canonical (one _ fun u hu => by simp [hu]) ?_
  iterate 7 refine ite_canonical (by simp [hw]) ?_
  refine ite_canonical (onBit_canonical _ _ (fun u hu => by simp [hu]) (one _ fun u hu => by simp [hu])) ?_
  refine ite_canonical (by simp [hw]) ?_
  refine ite_canonical (one _ fun u hu => by simp [hu]) ?_
  refine ite_canonical (ite_canonical (by simp [hw]) (by simp [hw])) ?_
  iterate 2 refine ite_canonical (by simp [hw]) ?_
  split
  · simp [hw]
  · split
    · simp [hw]
    · split <;> simp [hw]

@[simp] theorem act_canonical (a v : Nat) : (act a v s).Canonical := by
  simp [act, hw]
@[simp] theorem writePlain_canonical (d : RegDesc) (a : Nat) (v : Word) : (writePlain d a v s).Canonical := by
  unfold writePlain
  (repeat' split) <;> simp [hw]

/-- A register with an action of its own. -/
theorem writeSpecial_canonical (a v : Nat) {t : State} (h : writeSpecial a v s = some t) : t.Canonical := by
  unfold writeSpecial at h
  (repeat' split at h) <;> cases h <;> simp [hw]

@[simp] theorem writeReg_canonical (a : Nat) (v : Word) : (writeReg a v s).Canonical := by
  unfold writeReg
  split
  · simp [hw]
  · split
    · exact hw
    · dsimp only
      cases h : writeSpecial a v.toNat _ with
      | some t =>
        refine writeSpecial_canonical ?_ _ _ h
        split <;> simp [hw]
      | none => 
        refine writePlain_canonical ?_ _ _ _
        split <;> simp [hw]

omit hw in
theorem writeLanes_canonical : ∀ (a : Nat) (ls : List WriteLane) (s : State), s.Canonical → (writeLanes a ls s).Canonical
  | _, [], _, hw => hw
  | a, l :: t, s, hw => by
    refine writeLanes_canonical (a + 4) t _ ?_
    split <;> simp [hw]

@[simp] theorem registerWriteOp_canonical (a : Nat) (ls : List WriteLane) : (registerWriteOp a ls s).Canonical := by
  unfold registerWriteOp
  split
  · simp [hw]
  · exact writeLanes_canonical a ls s hw

/-! ### Machine/Boot -/

@[simp] theorem bootHbm_canonical (ends : List (Bool × Nat)) : (bootHbm ends s).Canonical := by
  simp [bootHbm, hw]
@[simp] theorem bootConfig_canonical (l : BootLoad) : (bootConfig l s).Canonical :=
  foldl_canonical (fun t p ht => writeReg_canonical ht ..) _ (by simp [hw])
@[simp] theorem bootSafety_canonical (testOk : Bool) : (bootSafety testOk s).Canonical := by
  simp [bootSafety, hw]
@[simp] theorem bootFinish_canonical (testOk : Bool) (ms : Nat) : (bootFinish testOk ms s).Canonical := by
  simp [bootFinish, hw]
@[simp] theorem coldBootOp_canonical (testOk : Bool) (ends : List (Bool × Nat)) (ms : Nat) : (coldBootOp testOk ends ms s).Canonical := by
  simp [coldBootOp, hw]
@[simp] theorem warmBootOp_canonical (testOk : Bool) (ms : Nat) : (warmBootOp testOk ms s).Canonical := by
  simp [warmBootOp, hw]

/-! ### Machine/CourseStart -/

@[simp] theorem spareStart_canonical : (spareStart s).Canonical := by
  unfold spareStart
  split
  · exact sideMoved_canonical ((foldl_canonical_iff _ (fun _ _ => substituteOne_canonical_iff ..) _ _).2 hw)
  · exact hw

/-- The search for the run-up's start stands as a variable. -/
@[simp] theorem approach_canonical (e : Entry) : (approach e s).Canonical := by
  obtain ⟨go, hgo⟩ := exists_eq (a' := approach)
  obtain ⟨find, hfind⟩ := exists_eq (a' := runPoint)
  rw [← hgo]
  delta approach at hgo
  rw [← hfind] at hgo
  subst hgo
  dsimp only
  split
  · split
    · rw [coxOrder_canonical_iff, coxOrder_canonical_iff, State.canonical_mk]
      exact (State.fset_canonical_iff ..).2 ((setCox_canonical_iff ..).2 hw)
    · simp [hw]
  · simp [hw]

@[simp] theorem startCourse_canonical (e : Entry) : (startCourse e s).Canonical := by
  unfold startCourse
  extract_lets s1 s2 s3 s4 s5 s6
  have h3 : s3.Canonical := by simp [s3, s2, s1, hw]
  have h6 : s6.Canonical := by simp [s6, s5, s4, h3]
  split <;> simp [h6]

@[simp] theorem startReady_canonical (e : Entry) : (startReady e s).Canonical := by
  have read : (readLaneMap (swapBanks s)).Canonical := by simp [hw]
  unfold startReady
  extract_lets s1 s2
  have h2 : s2.Canonical := by simp [s2, s1, hw]
  (repeat' split) <;> simp [s1, h2, read]

@[simp] theorem courseStartOp_canonical : (courseStartOp s).Canonical := by
  unfold courseStartOp
  split <;> simp [hw]

/-! ### Machine/CmdResets -/

@[simp] theorem resetWriteOp_canonical (value : Word) : (resetWriteOp value s).Canonical := by
  simp [resetWriteOp, hw]

end

end Sys2Proof.Machine
end

section
/-! PROOF. Every step keeps HBM's bytes in canonical form (R304). -/

namespace Sys2Proof.Machine

/-- A command whose effect keeps the form keeps it: what settles after the effect leaves HBM alone. -/
theorem done_canonical {b : Bool} {f : State → State} {s t : State} (hf : ∀ u, u.Canonical → (f u).Canonical)
    (h : done b f s = .next t) (hs : s.Canonical) : t.Canonical := by
  cases b with
  | false => cases h
  | true =>
    have settled : (settle s.begin (f s.begin)).Canonical := (settle_canonical_iff ..).2 (hf _ ((State.begin_canonical_iff s).2 hs))
    cases h
    exact (State.canonical_congr rfl).1 settled

/-- Each command runs one of the effects above. -/
theorem exec_canonical {c : Instr} {s t : State} (h : exec c s = .next t) (hs : s.Canonical) : t.Canonical := by
  cases c
  all_goals
    simp only [exec] at h
    exact done_canonical (fun u hu => by simp [hu]) h hs

/-- A tick without a command moves the clock alone. -/
theorem idle_canonical {s : State} (hs : s.Canonical) : (idle s).Canonical := by
  simp [idle, hs]

/-- Settles O6: no effect of a command spoils the form, and neither does what settles after it. -/
theorem memoryStaysCanonical : Obligations.MemoryStaysCanonical := by
  unfold Obligations.MemoryStaysCanonical
  intro s t hs h
  change s.Canonical at hs
  change t.Canonical
  unfold step at h
  split at h
  · cases h
    exact idle_canonical hs
  · exact exec_canonical h ((State.canonical_congr rfl).2 hs)

end Sys2Proof.Machine
end

section
/-! SUPPORT. The stacks of HBM: their training (R307), their temperatures (R309), and the refresh of their pseudo-channels (R310, R311). -/

namespace Sys2Proof.Machine

/-! ### Stacks trained (R307) -/

/-- What a training leaves of stack k: FAILED or READY, and the lanes it repaired. -/
def trainedStack (ends : List (Bool × Nat)) (u : State) (k : Nat) : State :=
  (setStack k (if (ends.getD k (false, 0)).1 then 3 else 2) u).fset (F.HBM_STK_STATUS_LANE_REPAIRS k) (min 15 (ends.getD k (false, 0)).2)

theorem hbmTrainDoneOp_of_training {ends : List (Bool × Nat)} {s : State} (h : s.mem.training = true) (h4 : ends.length = 4) :
    hbmTrainDoneOp ends s =
      if ends.any Prod.fst then ((List.range 4).foldl (trainedStack ends) { s with mem := { s.mem with training := false } }).raise
        F.HBM_EVENTS_TRAIN_FAIL
      else ((List.range 4).foldl (trainedStack ends) { s with mem := { s.mem with training := false } }).raise F.HBM_STATUS_READY := by
  rw [hbmTrainDoneOp, h, List.take_of_length_le h4.le]
  rfl

/-- Each stack's own registers. -/
theorem stkStatus_ne {j k : Nat} (h : j ≠ k) : R.HBM_STK_STATUS j ≠ R.HBM_STK_STATUS k := by
  simp only [R.HBM_STK_STATUS]
  omega

theorem fget_trainedStack_self (ends : List (Bool × Nat)) (u : State) (k : Nat) :
    (trainedStack ends u k).fget (F.HBM_STK_STATUS_STATE k) = (if (ends.getD k (false, 0)).1 then 3 else 2) ∧
    (trainedStack ends u k).fget (F.HBM_STK_STATUS_LANE_REPAIRS k) = min 15 (ends.getD k (false, 0)).2 := by
  constructor
  · rw [trainedStack, State.fget_fset_other _ _ _ _ (.inr (.inl (by simp [F.HBM_STK_STATUS_STATE, F.HBM_STK_STATUS_LANE_REPAIRS]))), setStack,
      State.fget_fset_self _ _ _ (by simp [F.HBM_STK_STATUS_STATE])]
    split <;> rfl
  · rw [trainedStack, State.fget_fset_self _ _ _ (by simp [F.HBM_STK_STATUS_LANE_REPAIRS])]
    exact Nat.mod_eq_of_lt (by simp [F.HBM_STK_STATUS_LANE_REPAIRS])

theorem frame_trainedStack (ends : List (Bool × Nat)) (u : State) (k : Nat) :
    Frame [] [R.HBM_STK_STATUS k] u (trainedStack ends u k) :=
  (Frame.fset _ _ _ _ _ (by simp [F.HBM_STK_STATUS_STATE])).trans (Frame.fset _ _ _ _ _ (by simp [F.HBM_STK_STATUS_LANE_REPAIRS]))

/-- A stack keeps what its training left while others are written. -/
theorem fget_foldl_stacks {f : State → Nat → State} (hf : ∀ u k, Frame [] [R.HBM_STK_STATUS k] u (f u k)) {g : Fld} {k v : Nat}
    (hg : g.addr = R.HBM_STK_STATUS k) (hk4 : k < 4) (hv : ∀ u, (f u k).fget g = v) {l : List Nat} (hl : l.Nodup) (hk : k ∈ l) (s : State) :
    (l.foldl f s).fget g = v := by
  have own : recorderReg g.addr = false := by
    rw [hg]
    interval_cases k <;> decide
  have others (l : List Nat) (hk : k ∉ l) (u : State) : (l.foldl f u).fget g = u.fget g := by
    induction l generalizing u with
    | nil => rfl
    | cons j l ih =>
      obtain ⟨hj, hl⟩ : k ≠ j ∧ k ∉ l := by simpa using hk
      rw [List.foldl_cons, ih hl]
      exact (hf u j).fget g (by simpa [hg] using stkStatus_ne hj) own
  induction l generalizing s with
  | nil => cases hk
  | cons j l ih =>
    obtain ⟨hj, hl⟩ := List.nodup_cons.mp hl
    rw [List.foldl_cons]
    by_cases h : k = j
    · subst h
      rw [others l hj, hv]
    · exact ih hl (by simpa [h] using hk) _

theorem frame_foldl_stacks {f : State → Nat → State} (hf : ∀ u k, Frame [] [R.HBM_STK_STATUS k] u (f u k)) (s : State) :
    Frame [] [R.HBM_STK_STATUS 0, R.HBM_STK_STATUS 1, R.HBM_STK_STATUS 2, R.HBM_STK_STATUS 3] s ((List.range 4).foldl f s) := by
  refine Frame.foldl _ _ (fun u k hk => (hf u k).mono (fun _ h => h) ?_) s
  have hk : k < 4 := List.mem_range.mp hk
  interval_cases k <;> simp

theorem stackTrained_spec {ends : List (Bool × Nat)} {s : State} (hw : (Instr.hbmTrainDone ends).wf = true) (h : s.mem.training = true) :
    ∃ u, hbmTrainDoneOp ends s = (if ends.any Prod.fst then u.raise F.HBM_EVENTS_TRAIN_FAIL else u.raise F.HBM_STATUS_READY) ∧
      u.mem = { s.mem with training := false } ∧
      (∀ k < 4, u.fget (F.HBM_STK_STATUS_STATE k) = (if (ends.getD k (false, 0)).1 then 3 else 2) ∧
        u.fget (F.HBM_STK_STATUS_LANE_REPAIRS k) = (ends.getD k (false, 0)).2) ∧
      Frame [.mem] [R.HBM_STK_STATUS 0, R.HBM_STK_STATUS 1, R.HBM_STK_STATUS 2, R.HBM_STK_STATUS 3] s u := by
  obtain ⟨h4, h16⟩ : ends.length = 4 ∧ ∀ p ∈ ends, p.2 < 16 := by
    simpa [Instr.wf, trainEndsWf] using hw
  have four := frame_foldl_stacks (frame_trainedStack ends) { s with mem := { s.mem with training := false } }
  refine ⟨_, hbmTrainDoneOp_of_training h h4, four.1 .mem (by simp), fun k hk => ⟨?_, ?_⟩,
    ((frame_setMem _ s _).mono (by simp) (fun _ h => h)).trans (four.mono (by simp) (fun _ h => h))⟩
  · exact fget_foldl_stacks (frame_trainedStack ends) rfl hk (fun u => (fget_trainedStack_self ends u k).1) List.nodup_range
      (List.mem_range.mpr hk) _
  · rw [fget_foldl_stacks (frame_trainedStack ends) rfl hk (fun u => (fget_trainedStack_self ends u k).2) List.nodup_range
      (List.mem_range.mpr hk)]
    have repairs : (ends.getD k (false, 0)).2 < 16 := by
      rw [List.getD_eq_getElem _ _ (by omega)]
      exact h16 _ (List.getElem_mem _)
    omega

theorem beginTraining_spec (s : State) : (beginTraining s).mem = { s.mem with training := true } ∧
    (beginTraining s).flag F.HBM_STATUS_READY = false ∧ (∀ k < 4, (beginTraining s).fget (F.HBM_STK_STATUS_STATE k) = 1) ∧
    Frame [.mem] [R.HBM_STATUS, R.HBM_STK_STATUS 0, R.HBM_STK_STATUS 1, R.HBM_STK_STATUS 2, R.HBM_STK_STATUS 3] s (beginTraining s) := by
  have one (u : State) (k : Nat) : Frame [] [R.HBM_STK_STATUS k] u (setStack k 1 u) := Frame.fset _ _ u _ _ (by simp [F.HBM_STK_STATUS_STATE])
  have four := frame_foldl_stacks one (s.clear F.HBM_STATUS_READY)
  have written (u : State) (k : Nat) : (setStack k 1 u).fget (F.HBM_STK_STATUS_STATE k) = 1 := by
    rw [setStack, State.fget_fset_self _ _ _ (by simp [F.HBM_STK_STATUS_STATE])]
    rfl
  have state (k : Nat) (hk : k < 4) : ((List.range 4).foldl (fun u k => setStack k 1 u) (s.clear F.HBM_STATUS_READY)).fget
      (F.HBM_STK_STATUS_STATE k) = 1 := fget_foldl_stacks one rfl hk (fun u => written u k) List.nodup_range (List.mem_range.mpr hk) _
  rw [beginTraining]
  generalize (List.range 4).foldl (fun u k => setStack k 1 u) (s.clear F.HBM_STATUS_READY) = u at four state ⊢
  have mem : u.mem = s.mem := four.1 .mem (by simp)
  have ready : u.flag F.HBM_STATUS_READY = false :=
    (four.flag F.HBM_STATUS_READY (by decide) (by decide)).trans (State.flag_clear_self _ _ (by decide))
  have rest : Frame [.mem] [R.HBM_STATUS, R.HBM_STK_STATUS 0, R.HBM_STK_STATUS 1, R.HBM_STK_STATUS 2, R.HBM_STK_STATUS 3] s u :=
    (Frame.clear _ _ _ _ (by simp [F.HBM_STATUS_READY])).trans (four.mono (by simp) (by simp +contextual))
  have trains : Frame [.mem] [] u { u with mem := { u.mem with training := true } } := frame_setMem [] u _
  refine ⟨by simp only [mem], (trains.flag _ (by simp) (by decide)).trans ready, fun k hk => ?_, rest.trans (frame_setMem _ _ _)⟩
  exact (trains.fget _ (by simp) (by interval_cases k <;> decide)).trans (state k hk)

/-! ### Temperatures (R309) -/

/-- A number in a field's range reads back as it was written. -/
theorem signedOf_unsignedOf_byte {v : Int} (h : -128 ≤ v) (h' : v < 128) : signedOf 8 (unsignedOf 8 v % 2 ^ 8) = v := by
  unfold signedOf unsignedOf
  split <;> omega

theorem signedOf_byte_range {n : Nat} (h : n < 2 ^ 8) : -128 ≤ signedOf 8 n ∧ signedOf 8 n < 128 := by
  unfold signedOf
  split <;> omega

theorem State.sget_fsetI_byte (s : State) (a lo : Nat) {v : Int} (hl : lo + 8 ≤ 32) (h : -128 ≤ v) (h' : v < 128) :
    (s.fsetI ⟨a, lo, 8⟩ v).sget ⟨a, lo, 8⟩ = v := by
  rw [State.sget, State.fsetI, State.fget_fset_self _ _ _ hl]
  exact signedOf_unsignedOf_byte h h'

theorem State.sget_byte_range (s : State) (a lo : Nat) : -128 ≤ s.sget ⟨a, lo, 8⟩ ∧ s.sget ⟨a, lo, 8⟩ < 128 :=
  signedOf_byte_range (Nat.mod_lt _ (Nat.two_pow_pos 8))

/-! ### Refresh (R310, R311) -/

theorem mem_insertKey_iff (k a : Nat) (l : List Nat) : a ∈ insertKey k l ↔ a = k ∨ a ∈ l := by
  induction l with
  | nil => simp [insertKey]
  | cons h t ih =>
    unfold insertKey
    split
    · simp
    · split
      · simp_all
      · simp [ih, or_left_comm]

/-- The state that R310 gives a pseudo-channel. -/
theorem refState_cases (s : State) (q : Nat) :
    (refState s q = 3 ∧ (s.mem.urgent.contains q = true ∨ 8 * refInterval s q ≤ refDebt s q)) ∨
    (refState s q ≠ 3 ∧ s.mem.urgent.contains q = false ∧ refDebt s q < 8 * refInterval s q) := by
  unfold refState
  dsimp only
  by_cases h : (s.mem.urgent.contains q || decide (8 * refInterval s q ≤ refDebt s q)) = true
  · rw [if_pos h]
    exact .inl ⟨rfl, by simpa using h⟩
  · rw [if_neg h]
    simp only [Bool.or_eq_true, decide_eq_true_eq, not_or, Bool.not_eq_true, not_le] at h
    refine .inr ⟨?_, h⟩
    split
    · decide
    · split <;> decide

/-- The registers that URGENT and its end write (R311). -/
def urgentRegs : List Nat := [R.HBM_REF_URGENT_COUNT, R.HBM_REF_DEBT_MAX, R.HBM_REF_SPLITS, R.HBM_EVENTS, R.HBM_STATUS]

/-- A pseudo-channel noted as URGENT, before the burst reserved for it is looked at (R311). -/
def noteUrgent (q : Nat) (s : State) : State :=
  (((noteDebt q { s with mem := { s.mem with urgent := insertKey q s.mem.urgent } }).bump F.HBM_REF_URGENT_COUNT_COUNT).raise
    F.HBM_EVENTS_URGENT).raise F.HBM_STATUS_URGENT

@[simp] theorem noteDebt_mem (q : Nat) (s : State) : (noteDebt q s).mem = s.mem := by simp [noteDebt]

@[simp] theorem noteDebt_arb (q : Nat) (s : State) : (noteDebt q s).arb = s.arb := by simp [noteDebt]

theorem frame_noteDebt (q : Nat) (s : State) : Frame [] [R.HBM_REF_DEBT_MAX] s (noteDebt q s) :=
  Frame.fset _ _ s _ _ (by simp [F.HBM_REF_DEBT_MAX_NS])

theorem noteUrgent_burstOn (q : Nat) (s : State) : (noteUrgent q s).burstOn q = s.burstOn q := by
  rw [State.burstOn, noteUrgent, State.raise_arb, State.raise_arb, State.bump_arb, noteDebt_arb]
  rfl

theorem enterUrgent_eq (q : Nat) (s : State) : enterUrgent q s =
    if s.burstOn q then ((noteUrgent q s).bump F.HBM_REF_SPLITS_COUNT).raise F.HBM_EVENTS_SPLIT else noteUrgent q s := by
  rw [← noteUrgent_burstOn]
  unfold enterUrgent noteUrgent
  rfl

theorem noteUrgent_spec (q : Nat) (s : State) : (noteUrgent q s).mem = { s.mem with urgent := insertKey q s.mem.urgent } ∧
    (noteUrgent q s).flag F.HBM_STATUS_URGENT = true ∧ (noteUrgent q s).flag F.HBM_EVENTS_URGENT = true ∧
    (noteUrgent q s).fget F.HBM_REF_URGENT_COUNT_COUNT = satAdd 32 (s.fget F.HBM_REF_URGENT_COUNT_COUNT) 1 ∧
    (noteUrgent q s).flag F.HBM_EVENTS_HOT = s.flag F.HBM_EVENTS_HOT ∧
    Frame [.mem] [R.HBM_REF_URGENT_COUNT, R.HBM_REF_DEBT_MAX, R.HBM_EVENTS, R.HBM_STATUS] s (noteUrgent q s) := by
  have noted : Frame [.mem] [R.HBM_REF_DEBT_MAX] s (noteDebt q { s with mem := { s.mem with urgent := insertKey q s.mem.urgent } }) :=
    (frame_setMem _ s _).trans ((frame_noteDebt q _).mono (by simp) (fun _ h => h))
  refine ⟨by rw [noteUrgent, State.raise_mem, State.raise_mem, State.bump_mem, noteDebt_mem], State.flag_raise_self _ _ (by decide) (by decide), ?_, ?_, ?_, ?_⟩
  · rw [noteUrgent, State.flag_raise_ne _ (by decide)]
    exact State.flag_raise_self _ _ (by decide) (by decide)
  · rw [noteUrgent, State.raise, State.fget_fset_other _ _ _ _ (by decide), State.raise, State.fget_fset_other _ _ _ _ (by decide),
      State.fget_bump_self _ _ (by decide), noted.fget _ (by decide) (by decide)]
    rfl
  · rw [noteUrgent, State.flag_raise_ne _ (by decide), State.raise, State.flag_fset_other _ _ _ _ (by decide), State.bump, State.add,
      State.flag_fset_other _ _ _ _ (by decide), noted.flag _ (by decide) (by decide)]
  · exact (((noted.mono (fun _ h => h) (by simp)).trans (Frame.bump _ _ _ _ (by decide))).trans (Frame.raise _ _ _ _ (by decide))).trans
      (Frame.raise _ _ _ _ (by decide))

/-- A pseudo-channel comes to URGENT (R311): it is listed and counted, and a burst reserved for it is split. -/
theorem enterUrgent_spec (q : Nat) (s : State) : (enterUrgent q s).mem = { s.mem with urgent := insertKey q s.mem.urgent } ∧
    (enterUrgent q s).flag F.HBM_STATUS_URGENT = true ∧ (enterUrgent q s).flag F.HBM_EVENTS_URGENT = true ∧
    (enterUrgent q s).fget F.HBM_REF_URGENT_COUNT_COUNT = satAdd 32 (s.fget F.HBM_REF_URGENT_COUNT_COUNT) 1 ∧
    (s.burstOn q = true → (enterUrgent q s).flag F.HBM_EVENTS_SPLIT = true ∧
      (enterUrgent q s).fget F.HBM_REF_SPLITS_COUNT = satAdd 32 (s.fget F.HBM_REF_SPLITS_COUNT) 1) ∧
    (s.burstOn q = false → (enterUrgent q s).reg R.HBM_REF_SPLITS = s.reg R.HBM_REF_SPLITS) ∧
    (enterUrgent q s).flag F.HBM_EVENTS_HOT = s.flag F.HBM_EVENTS_HOT ∧ Frame [.mem] urgentRegs s (enterUrgent q s) := by
  obtain ⟨mem, status, event, count, hot, rest⟩ := noteUrgent_spec q s
  have splits : (noteUrgent q s).reg R.HBM_REF_SPLITS = s.reg R.HBM_REF_SPLITS := rest.2 _ (by decide) (by decide)
  have all : Frame [.mem] urgentRegs s (noteUrgent q s) := rest.mono (fun _ h => h) (by decide)
  rw [enterUrgent_eq]
  cases hb : s.burstOn q with
  | false =>
    rw [if_neg Bool.false_ne_true]
    exact ⟨mem, status, event, count, by simp, fun _ => splits, hot, all⟩
  | true =>
    rw [if_pos rfl]
    refine ⟨by rw [State.raise_mem, State.bump_mem, mem], ?_, ?_, ?_, fun _ => ⟨State.flag_raise_self _ _ (by decide) (by decide), ?_⟩, by simp, ?_, ?_⟩
    · rw [State.flag_raise_ne _ (by decide), State.bump, State.add, State.flag_fset_other _ _ _ _ (by decide), status]
    · rw [State.raise, State.flag_fset_other _ _ _ _ (by decide), State.bump, State.add, State.flag_fset_other _ _ _ _ (by decide), event]
    · rw [State.raise, State.fget_fset_other _ _ _ _ (by decide), State.bump, State.add, State.fget_fset_other _ _ _ _ (by decide), count]
    · rw [State.raise, State.fget_fset_other _ _ _ _ (by decide), State.fget_bump_self _ _ (by decide),
        rest.fget _ (by decide) (by decide)]
      rfl
    · rw [State.raise, State.flag_fset_other _ _ _ _ (by decide), State.bump, State.add, State.flag_fset_other _ _ _ _ (by decide), hot]
    · exact (all.trans (Frame.bump _ _ _ _ (by decide))).trans (Frame.raise _ _ _ _ (by decide))

/-- R310's decision: URGENT is entered at the postponement limit, and else nothing changes. -/
theorem decideRefresh_cases (q : Nat) (s : State) :
    (decideRefresh q s = s ∧ (s.mem.urgent.contains q = true ∨ refDebt s q < 8 * refInterval s q)) ∨
    (decideRefresh q s = enterUrgent q s ∧ s.mem.urgent.contains q = false ∧ 8 * refInterval s q ≤ refDebt s q) := by
  unfold decideRefresh
  obtain ⟨h3, limit⟩ | ⟨h3, -, below⟩ := refState_cases s q
  · cases hu : s.mem.urgent.contains q with
    | true => exact .inl ⟨by simp, .inl rfl⟩
    | false => exact .inr ⟨by simp [h3], rfl, limit.resolve_left (by simpa using hu)⟩
  · exact .inl ⟨by simp [h3], .inr below⟩

theorem frame_decideRefresh (q : Nat) (s : State) : Frame [.mem] urgentRegs s (decideRefresh q s) := by
  obtain ⟨-, -, -, -, -, -, -, rest⟩ := enterUrgent_spec q s
  obtain ⟨h, -⟩ | ⟨h, -⟩ := decideRefresh_cases q s
  · rw [h]
    exact Frame.refl _ _ s
  · rw [h]
    exact rest

theorem flag_hot_decideRefresh (q : Nat) (s : State) : (decideRefresh q s).flag F.HBM_EVENTS_HOT = s.flag F.HBM_EVENTS_HOT := by
  obtain ⟨-, -, -, -, -, -, hot, -⟩ := enterUrgent_spec q s
  obtain ⟨h, -⟩ | ⟨h, -⟩ := decideRefresh_cases q s
  · rw [h]
  · rw [h, hot]

theorem frame_settleUrgent (s : State) : Frame [.mem] [R.HBM_STATUS] s (settleUrgent s) :=
  (frame_setMem _ s _).trans (Frame.fset _ _ _ _ _ (by decide))

/-- A reading noted with its maximum, before the stack turns HOT or normal (R309). -/
def noteTemp (k : Nat) (temp : Int) (s : State) : State :=
  (s.fsetI (F.HBM_STK_STATUS_TEMP k) temp).fsetI (F.HBM_STK_STATUS_TEMP_MAX k)
    (max temp ((s.fsetI (F.HBM_STK_STATUS_TEMP k) temp).sget (F.HBM_STK_STATUS_TEMP_MAX k)))

theorem stackTempOp_eq (k : Nat) (temp : Int) (s : State) : stackTempOp k temp s =
    if 85 < temp ∧ !s.flag (F.HBM_STK_STATUS_HOT k) then
      (List.range 32).foldl (fun u i => decideRefresh (32 * k + i) u)
        (((noteTemp k temp s).raise (F.HBM_STK_STATUS_HOT k)).raise F.HBM_EVENTS_HOT)
    else if temp ≤ 83 ∧ s.flag (F.HBM_STK_STATUS_HOT k) then
      settleUrgent (((noteTemp k temp s).clear (F.HBM_STK_STATUS_HOT k)).raise F.HBM_EVENTS_COOL)
    else noteTemp k temp s := rfl

theorem noteTemp_spec (k : Nat) {temp : Int} (s : State) (h : -128 ≤ temp) (h' : temp < 128) :
    (noteTemp k temp s).sget (F.HBM_STK_STATUS_TEMP k) = temp ∧
    (noteTemp k temp s).sget (F.HBM_STK_STATUS_TEMP_MAX k) = max temp (s.sget (F.HBM_STK_STATUS_TEMP_MAX k)) ∧
    (noteTemp k temp s).flag (F.HBM_STK_STATUS_HOT k) = s.flag (F.HBM_STK_STATUS_HOT k) ∧
    Frame [] [R.HBM_STK_STATUS k] s (noteTemp k temp s) := by
  have range := s.sget_byte_range (R.HBM_STK_STATUS k) 16
  have before : (s.fsetI (F.HBM_STK_STATUS_TEMP k) temp).sget (F.HBM_STK_STATUS_TEMP_MAX k) = s.sget (F.HBM_STK_STATUS_TEMP_MAX k) := by
    rw [State.sget, State.sget, State.fsetI, State.fget_fset_other _ (F.HBM_STK_STATUS_TEMP k) (F.HBM_STK_STATUS_TEMP_MAX k) _
      (.inr (.inr (Nat.le_refl 16)))]
  refine ⟨?_, ?_, ?_, ?_⟩
  · rw [noteTemp, State.sget, State.fsetI, State.fget_fset_other _ (F.HBM_STK_STATUS_TEMP_MAX k) (F.HBM_STK_STATUS_TEMP k) _
      (.inr (.inl (Nat.le_refl 16)))]
    exact State.sget_fsetI_byte s _ 8 (by decide) h h'
  · rw [noteTemp, before]
    exact State.sget_fsetI_byte _ _ 16 (by decide) (h.trans (le_max_left _ _)) (max_lt h' range.2)
  · rw [noteTemp, State.fsetI, State.flag_fset_other _ _ _ _ (.inr (.inl (by decide : 3 + 1 ≤ 16))), State.fsetI,
      State.flag_fset_other _ _ _ _ (.inr (.inl (by decide : 3 + 1 ≤ 8)))]
  · exact (Frame.fset _ _ s _ _ (by simp [F.HBM_STK_STATUS_TEMP])).trans (Frame.fset _ _ _ _ _ (by simp [F.HBM_STK_STATUS_TEMP_MAX]))

/-- The temperatures outlast the stack's turn to HOT or normal. -/
theorem turned_spec {k : Nat} (hk : k < 4) (b : Nat) (hb : b < 2) {u t : State} {e : Fld} (he : e.addr = R.HBM_EVENTS)
    (h : Frame [.mem] urgentRegs ((u.fset (F.HBM_STK_STATUS_HOT k) b).raise e) t) :
    t.sget (F.HBM_STK_STATUS_TEMP k) = u.sget (F.HBM_STK_STATUS_TEMP k) ∧
    t.sget (F.HBM_STK_STATUS_TEMP_MAX k) = u.sget (F.HBM_STK_STATUS_TEMP_MAX k) ∧
    t.fget (F.HBM_STK_STATUS_HOT k) = b ∧ Frame [.mem] (R.HBM_STK_STATUS k :: urgentRegs) u t := by
  have apart : R.HBM_STK_STATUS k ≠ R.HBM_EVENTS ∧ R.HBM_STK_STATUS k ∉ urgentRegs ∧ recorderReg (R.HBM_STK_STATUS k) = false := by
    interval_cases k <;> decide
  obtain ⟨events, listed, recorded⟩ := apart
  have field (g : Fld) (hg : g.addr = R.HBM_STK_STATUS k) : t.fget g = (u.fset (F.HBM_STK_STATUS_HOT k) b).fget g := by
    rw [h.fget g (hg ▸ listed) (hg ▸ recorded), State.raise, State.fget_fset_other _ _ _ _ (.inl (by rw [hg, he]; exact events))]
  refine ⟨?_, ?_, ?_, ?_⟩
  · rw [State.sget, State.sget, field _ rfl, State.fget_fset_other _ _ _ _ (.inr (.inr (by decide : 3 + 1 ≤ 8)))]
  · rw [State.sget, State.sget, field _ rfl, State.fget_fset_other _ _ _ _ (.inr (.inr (by decide : 3 + 1 ≤ 16)))]
  · rw [field _ rfl, State.fget_fset_self _ _ _ (by simp [F.HBM_STK_STATUS_HOT])]
    exact Nat.mod_eq_of_lt hb
  · refine ((Frame.fset _ _ _ _ _ (by simp [F.HBM_STK_STATUS_HOT])).trans (Frame.raise _ _ _ _ ?_)).trans
      (h.mono (fun _ h => h) (fun _ h => List.mem_cons_of_mem _ h))
    rw [he]
    simp [urgentRegs]

theorem stackTempOp_spec {k : Nat} {temp : Int} (s : State) (hk : k < 4) (h : -128 ≤ temp) (h' : temp < 128) :
    (stackTempOp k temp s).sget (F.HBM_STK_STATUS_TEMP k) = temp ∧
    (stackTempOp k temp s).sget (F.HBM_STK_STATUS_TEMP_MAX k) = max temp (s.sget (F.HBM_STK_STATUS_TEMP_MAX k)) ∧
    (stackTempOp k temp s).flag (F.HBM_STK_STATUS_HOT k) =
      (if 85 < temp then true else if temp ≤ 83 then false else s.flag (F.HBM_STK_STATUS_HOT k)) ∧
    (85 < temp → s.flag (F.HBM_STK_STATUS_HOT k) = false → (stackTempOp k temp s).flag F.HBM_EVENTS_HOT = true) ∧
    (temp ≤ 83 → s.flag (F.HBM_STK_STATUS_HOT k) = true → (stackTempOp k temp s).flag F.HBM_EVENTS_COOL = true) ∧
    Frame [.mem] (R.HBM_STK_STATUS k :: urgentRegs) s (stackTempOp k temp s) := by
  obtain ⟨tempRead, maxRead, hotRead, rest⟩ := noteTemp_spec k s h h'
  have noted : Frame [.mem] (R.HBM_STK_STATUS k :: urgentRegs) s (noteTemp k temp s) := rest.mono (by simp) (by simp)
  rw [stackTempOp_eq]
  by_cases hot : 85 < temp ∧ !s.flag (F.HBM_STK_STATUS_HOT k)
  · obtain ⟨ht, hf⟩ := hot
    have decided (u : State) : Frame [.mem] urgentRegs u ((List.range 32).foldl (fun u i => decideRefresh (32 * k + i) u) u) :=
      Frame.foldl _ _ (fun u i _ => frame_decideRefresh _ u) u
    have event (l : List Nat) (u : State) :
        (l.foldl (fun u i => decideRefresh (32 * k + i) u) u).flag F.HBM_EVENTS_HOT = u.flag F.HBM_EVENTS_HOT := by
      induction l generalizing u with
      | nil => rfl
      | cons i l ih => rw [List.foldl_cons, ih, flag_hot_decideRefresh]
    obtain ⟨tempKept, maxKept, turned, all⟩ := turned_spec (e := F.HBM_EVENTS_HOT) hk 1 (by decide) rfl (decided _)
    rw [if_pos ⟨ht, hf⟩]
    refine ⟨tempKept.trans tempRead, maxKept.trans maxRead, ?_, fun _ _ => ?_, fun hc => by omega, noted.trans all⟩
    · rw [if_pos ht]
      exact congrArg (fun n => n != 0) turned
    · rw [event]
      exact State.flag_raise_self _ _ (by decide) (by decide)
  · rw [if_neg hot]
    by_cases cool : temp ≤ 83 ∧ s.flag (F.HBM_STK_STATUS_HOT k)
    · obtain ⟨ht, hf⟩ := cool
      have settled := frame_settleUrgent (((noteTemp k temp s).clear (F.HBM_STK_STATUS_HOT k)).raise F.HBM_EVENTS_COOL)
      obtain ⟨tempKept, maxKept, turned, all⟩ := turned_spec hk 0 (by decide) rfl (settled.mono (fun _ h => h) (by decide))
      rw [if_pos ⟨ht, hf⟩]
      refine ⟨tempKept.trans tempRead, maxKept.trans maxRead, ?_, fun hh => by omega, fun _ _ => ?_, noted.trans all⟩
      · rw [if_neg (by omega), if_pos ht]
        exact congrArg (fun n => n != 0) turned
      · rw [settled.flag _ (by decide) (by decide)]
        exact State.flag_raise_self _ _ (by decide) (by decide)
    · rw [if_neg cool]
      refine ⟨tempRead, maxRead, ?_, fun ht hf => absurd ⟨ht, by simp [hf]⟩ hot, fun ht hf => absurd ⟨ht, hf⟩ cool, noted⟩
      rw [hotRead]
      cases hf : s.flag (F.HBM_STK_STATUS_HOT k) <;> simp_all

/-! ### REFRESH_ISSUE (R310) -/

/-- Whether R310 lets a refresh of pseudo-channel q be issued. -/
def mayRefresh (q : Nat) (waiting : Bool) (s : State) : Bool :=
  match refState s q with
  | 0 => false
  | 1 => !waiting && !s.burstOn q
  | 2 => !s.burstOn q
  | _ => true

/-- A refresh issued: the debt falls by the interval in force, and URGENT ends at half the limit (R310, R311). -/
def issueRefresh (q : Nat) (s : State) : State :=
  settleUrgent { noteDebt q s with mem := { (noteDebt q s).mem with
    debtFrom := (noteDebt q s).mem.debtFrom.set q ((noteDebt q s).mem.debtFrom.getD q (noteDebt q s).clock + refInterval s q * ticksPerNs) } }

theorem refreshOp_eq (q : Nat) (waiting : Bool) (s : State) : refreshOp q waiting s =
    if mayRefresh q waiting (decideRefresh q s) then issueRefresh q (decideRefresh q s) else decideRefresh q s := by
  unfold refreshOp mayRefresh issueRefresh
  rfl

theorem mayRefresh_eq_false {q : Nat} {waiting : Bool} {s : State} (hu : s.mem.urgent.contains q = false)
    (h8 : refDebt s q < 8 * refInterval s q)
    (h : refDebt s q < refInterval s q ∨ (refDebt s q < max 1 (s.fget F.HBM_CTL_REF_PRESS) * refInterval s q ∧ waiting = true) ∨
      s.burstOn q = true) : mayRefresh q waiting s = false := by
  have below : ¬ (s.mem.urgent.contains q || decide (8 * refInterval s q ≤ refDebt s q)) = true := by simp_all
  unfold mayRefresh refState
  dsimp only
  rw [if_neg below]
  by_cases h1 : refDebt s q < refInterval s q
  · rw [if_pos h1]
    rfl
  · rw [if_neg h1]
    by_cases hp : refDebt s q < max 1 (s.fget F.HBM_CTL_REF_PRESS) * refInterval s q
    · rw [if_pos hp]
      obtain h | ⟨-, h⟩ | h := h
      · exact absurd h h1
      · simp [h]
      · simp [h]
    · rw [if_neg hp]
      obtain h | ⟨h, -⟩ | h := h
      · exact absurd h h1
      · exact absurd h hp
      · simp [h]

theorem mayRefresh_of_urgent {q : Nat} (waiting : Bool) {s : State} (h : s.mem.urgent.contains q = true) : mayRefresh q waiting s = true := by
  unfold mayRefresh refState
  rw [h]
  rfl

theorem mayRefresh_of_due {q : Nat} {waiting : Bool} {s : State} (h1 : refInterval s q ≤ refDebt s q)
    (hp : refDebt s q < max 1 (s.fget F.HBM_CTL_REF_PRESS) * refInterval s q → waiting = false) (hb : s.burstOn q = false) :
    mayRefresh q waiting s = true := by
  unfold mayRefresh refState
  dsimp only
  by_cases h3 : (s.mem.urgent.contains q || decide (8 * refInterval s q ≤ refDebt s q)) = true
  · rw [if_pos h3]
    rfl
  · rw [if_neg h3, if_neg (Nat.not_lt.mpr h1)]
    by_cases h : refDebt s q < max 1 (s.fget F.HBM_CTL_REF_PRESS) * refInterval s q
    · rw [if_pos h]
      simp [hp h, hb]
    · rw [if_neg h]
      simp [hb]

/-- The interval in force depends on the stack's HOT bit alone. -/
theorem refInterval_of_frame {ps : List Part} {rs : List Nat} {s t : State} {q : Nat} (hq : q < 128) (h : Frame ps rs s t)
    (hs : ∀ k < 4, R.HBM_STK_STATUS k ∉ rs) : refInterval t q = refInterval s q := by
  have hk : q / 32 < 4 := by omega
  have own : recorderReg (R.HBM_STK_STATUS (q / 32)) = false := by
    generalize q / 32 = k at hk
    interval_cases k <;> decide
  rw [refInterval, refInterval, h.flag (F.HBM_STK_STATUS_HOT (q / 32)) (hs _ hk) own]

/-- A debt depends on the clock and on what it is counted from. -/
theorem refDebt_congr {s t : State} (q : Nat) (hc : t.clock = s.clock) (hm : t.mem.debtFrom = s.mem.debtFrom) : refDebt t q = refDebt s q := by
  rw [refDebt, refDebt, hc, hm]

theorem settleUrgent_mem (s : State) : (settleUrgent s).mem =
    { s.mem with urgent := s.mem.urgent.filter (fun q => decide (4 * refInterval s q < refDebt s q)) } := by
  unfold settleUrgent
  dsimp only
  rw [State.fset_mem]

theorem stkStatus_not_urgentRegs : ∀ k < 4, R.HBM_STK_STATUS k ∉ urgentRegs := by decide

theorem issueRefresh_spec {q : Nat} {s : State} (hq : q < 128) (hl : q < s.mem.debtFrom.length) :
    (issueRefresh q s).mem.debtFrom.getD q 0 = s.mem.debtFrom.getD q 0 + refInterval s q * ticksPerNs ∧
    (∀ r, r ≠ q → (issueRefresh q s).mem.debtFrom.getD r 0 = s.mem.debtFrom.getD r 0) ∧
    (q ∈ (issueRefresh q s).mem.urgent ↔ q ∈ s.mem.urgent ∧ 4 * refInterval s q < refDebt (issueRefresh q s) q) ∧
    Frame [.mem] [R.HBM_STATUS, R.HBM_REF_DEBT_MAX] s (issueRefresh q s) := by
  have noted := frame_noteDebt q s
  have mem := noteDebt_mem q s
  unfold issueRefresh
  generalize noteDebt q s = u at noted mem ⊢
  set paid : State := { u with mem := { u.mem with
    debtFrom := u.mem.debtFrom.set q (u.mem.debtFrom.getD q u.clock + refInterval s q * ticksPerNs) } } with hpaid
  have pays : Frame [.mem] [R.HBM_REF_DEBT_MAX] s paid := (noted.mono (by simp) (fun _ h => h)).trans (frame_setMem _ u _)
  have settled := frame_settleUrgent paid
  have from' : (settleUrgent paid).mem.debtFrom = s.mem.debtFrom.set q (s.mem.debtFrom.getD q u.clock + refInterval s q * ticksPerNs) := by
    rw [settleUrgent_mem, hpaid, mem]
  refine ⟨?_, fun r hr => ?_, ?_, (pays.mono (fun _ h => h) (by simp)).trans (settled.mono (fun _ h => h) (by simp))⟩
  · rw [from']
    simp [List.getD_eq_getElem?_getD, hl]
  · rw [from']
    simp [List.getD_eq_getElem?_getD, List.getElem?_set_ne hr.symm]
  · have debt : refDebt (settleUrgent paid) q = refDebt paid q :=
      refDebt_congr q (settled.1 .clock (by simp)) (by rw [settleUrgent_mem])
    have interval : refInterval paid q = refInterval s q := refInterval_of_frame hq pays (by decide)
    have urgent : paid.mem.urgent = s.mem.urgent := by rw [hpaid, mem]
    rw [debt, settleUrgent_mem, List.mem_filter, urgent, interval, decide_eq_true_iff]

theorem refreshOp_idle {q : Nat} {waiting : Bool} {s : State} (hu : s.mem.urgent.contains q = false)
    (h8 : refDebt s q < 8 * refInterval s q)
    (h : refDebt s q < refInterval s q ∨ (refDebt s q < max 1 (s.fget F.HBM_CTL_REF_PRESS) * refInterval s q ∧ waiting = true) ∨
      s.burstOn q = true) : refreshOp q waiting s = s := by
  have same : decideRefresh q s = s := by
    obtain ⟨h, -⟩ | ⟨-, -, h⟩ := decideRefresh_cases q s
    · exact h
    · omega
  rw [refreshOp_eq, same, mayRefresh_eq_false hu h8 h]
  rfl

/-- What the decision leaves for a refresh that is due: the debts, the interval, and q among the URGENT ones at the limit. -/
theorem decideRefresh_spec {q : Nat} (s : State) (hq : q < 128) :
    (decideRefresh q s).mem.debtFrom = s.mem.debtFrom ∧ refInterval (decideRefresh q s) q = refInterval s q ∧
    (q ∈ (decideRefresh q s).mem.urgent ↔ q ∈ s.mem.urgent ∨ 8 * refInterval s q ≤ refDebt s q) := by
  refine ⟨?_, refInterval_of_frame hq (frame_decideRefresh q s) stkStatus_not_urgentRegs, ?_⟩
  · obtain ⟨h, -⟩ | ⟨h, -⟩ := decideRefresh_cases q s
    · rw [h]
    · rw [h, (enterUrgent_spec q s).1]
  · obtain ⟨h, k⟩ | ⟨h, -, k⟩ := decideRefresh_cases q s
    · rw [h]
      constructor
      · exact .inl
      · rintro (hu | hl)
        · exact hu
        · exact k.elim (fun hu => by simpa using hu) (fun hl' => by omega)
    · rw [h, (enterUrgent_spec q s).1, mem_insertKey_iff]
      simp [k]

theorem refreshOp_due {q : Nat} {waiting : Bool} {s : State} (hq : q < 128)
    (h : s.mem.urgent.contains q = true ∨ 8 * refInterval s q ≤ refDebt s q ∨ (refInterval s q ≤ refDebt s q ∧
      (refDebt s q < max 1 (s.fget F.HBM_CTL_REF_PRESS) * refInterval s q → waiting = false) ∧ s.burstOn q = false)) :
    refreshOp q waiting s = issueRefresh q (decideRefresh q s) := by
  have goes : mayRefresh q waiting (decideRefresh q s) = true := by
    obtain ⟨-, -, urgent⟩ := decideRefresh_spec s hq
    by_cases hu : q ∈ s.mem.urgent ∨ 8 * refInterval s q ≤ refDebt s q
    · exact mayRefresh_of_urgent waiting (by simpa using urgent.mpr hu)
    · obtain ⟨hu, h8⟩ := not_or.mp hu
      obtain ⟨same, -⟩ | ⟨-, -, k⟩ := decideRefresh_cases q s
      · obtain h | h | ⟨h1, hp, hb⟩ := h
        · exact absurd (by simpa using h) hu
        · exact absurd h h8
        · rw [same]
          exact mayRefresh_of_due h1 hp hb
      · exact absurd k h8
  rw [refreshOp_eq, goes]
  rfl

theorem refreshOp_due_spec {q : Nat} {waiting : Bool} {s : State} (hq : q < 128) (hl : q < s.mem.debtFrom.length)
    (h : s.mem.urgent.contains q = true ∨ 8 * refInterval s q ≤ refDebt s q ∨ (refInterval s q ≤ refDebt s q ∧
      (refDebt s q < max 1 (s.fget F.HBM_CTL_REF_PRESS) * refInterval s q → waiting = false) ∧ s.burstOn q = false)) :
    (refreshOp q waiting s).mem.debtFrom.getD q 0 = s.mem.debtFrom.getD q 0 + refInterval s q * ticksPerNs ∧
    (∀ r, r ≠ q → (refreshOp q waiting s).mem.debtFrom.getD r 0 = s.mem.debtFrom.getD r 0) ∧
    (q ∈ (refreshOp q waiting s).mem.urgent ↔ (q ∈ s.mem.urgent ∨ 8 * refInterval s q ≤ refDebt s q) ∧
      4 * refInterval s q < refDebt (refreshOp q waiting s) q) ∧
    (s.mem.urgent.contains q = true ∨ refDebt s q < 8 * refInterval s q →
      Frame [.mem] [R.HBM_STATUS, R.HBM_REF_DEBT_MAX] s (refreshOp q waiting s)) ∧
    (s.mem.urgent.contains q = false → 8 * refInterval s q ≤ refDebt s q → (refreshOp q waiting s).flag F.HBM_EVENTS_URGENT = true ∧
      (refreshOp q waiting s).fget F.HBM_REF_URGENT_COUNT_COUNT = satAdd 32 (s.fget F.HBM_REF_URGENT_COUNT_COUNT) 1 ∧
      Frame [.mem] [R.HBM_STATUS, R.HBM_EVENTS, R.HBM_REF_DEBT_MAX, R.HBM_REF_URGENT_COUNT, R.HBM_REF_SPLITS] s (refreshOp q waiting s)) := by
  obtain ⟨debts, interval, urgent⟩ := decideRefresh_spec s hq
  obtain ⟨paid, others, stays, rest⟩ := issueRefresh_spec (s := decideRefresh q s) hq (by rw [debts]; exact hl)
  rw [debts, interval] at paid
  rw [debts] at others
  rw [urgent, interval] at stays
  rw [refreshOp_due hq h]
  refine ⟨paid, others, stays, fun hu => ?_, fun hu h8 => ?_⟩
  · obtain ⟨same, -⟩ | ⟨-, no, h8⟩ := decideRefresh_cases q s
    · rwa [same] at rest ⊢
    · exact hu.elim (fun hu => by simp_all) (fun hu => by omega)
  · obtain ⟨-, k⟩ | ⟨enters, -⟩ := decideRefresh_cases q s
    · exact k.elim (fun hu' => by simp_all) (fun hu' => by omega)
    · obtain ⟨-, -, event, count, -, -, -, entered⟩ := enterUrgent_spec q s
      rw [enters] at rest ⊢
      refine ⟨(rest.flag _ (by decide) (by decide)).trans event, (rest.fget _ (by decide) (by decide)).trans count, ?_⟩
      exact (entered.mono (fun _ h => h) (by decide)).trans (rest.mono (fun _ h => h) (by decide))

/-! ### URGENT (R311) -/

theorem urgentOp_of_not_urgent {q : Nat} {s : State} (h : s.mem.urgent.contains q = false) :
    urgentOp q s = enterUrgent q (s.until (s.mem.debtFrom.getD q s.clock + 8 * refInterval s q * ticksPerNs)) := by
  rw [urgentOp, h]
  rfl

end Sys2Proof.Machine
end

section
/-! PROOF. HBM_TRAIN_DONE, RETRAIN, STACK_TEMP_READ, REFRESH_ISSUE and URGENT (R307, R309 to R311). -/

namespace Sys2Proof.Machine

/-- Settles O47: a training, a reading, a refresh and an URGENT entry each write the stacks' own registers and the debts, and nothing else. -/
theorem stacksTrainAndRefresh : Obligations.StacksTrainAndRefresh := by
  unfold Obligations.StacksTrainAndRefresh
  intro s
  refine ⟨fun ends hw ht => completes_of_wf _ rfl hw ?_, fun hq => completes_of _ rfl ?_, fun hq => completes_of _ rfl ?_,
    fun k temp hk h h' => completes_of_wf _ rfl (decide_eq_true ⟨hk, h, h'⟩) ?_, fun q waiting hq hl => ?_⟩
  · obtain ⟨u, eq, mem, trained, rest⟩ := stackTrained_spec (s := s.begin) hw ht
    have state (e : Fld) (he : e.addr = R.HBM_STATUS ∨ e.addr = R.HBM_EVENTS) (k : Nat) (hk : k < 4) :
        (u.raise e).fget (F.HBM_STK_STATUS_STATE k) = (if (ends.getD k (false, 0)).1 then 3 else 2) ∧
        (u.raise e).fget (F.HBM_STK_STATUS_LANE_REPAIRS k) = (ends.getD k (false, 0)).2 := by
      have apart : R.HBM_STK_STATUS k ≠ e.addr := by
        obtain he | he := he <;> rw [he] <;> interval_cases k <;> decide
      rw [State.raise, State.fget_fset_other _ _ _ _ (.inl apart), State.fget_fset_other _ _ _ _ (.inl apart)]
      exact trained k hk
    have own (k : Nat) (hk : k < 4) : recorderReg (R.HBM_STK_STATUS k) = false := by interval_cases k <;> rfl
    have all (e : Fld) (he : e.addr = R.HBM_STATUS ∨ e.addr = R.HBM_EVENTS) : Frame [.mem] [R.HBM_STATUS, R.HBM_EVENTS, R.HBM_STK_STATUS 0,
        R.HBM_STK_STATUS 1, R.HBM_STK_STATUS 2, R.HBM_STK_STATUS 3] s.begin (u.raise e) :=
      (rest.mono (fun _ h => h) (by simp +contextual)).trans (Frame.raise _ _ _ _ (by obtain he | he := he <;> simp [he]))
    rw [eq]
    cases hf : ends.any Prod.fst with
    | true =>
      rw [if_pos rfl]
      refine ⟨(settle_mem _ _).trans ((State.raise_mem u _).trans mem),
        fun k hk => ⟨(fget_settled _ _ _ _ (own k hk)).trans (state _ (.inr rfl) k hk).1,
          (fget_settled _ _ _ _ (own k hk)).trans (state _ (.inr rfl) k hk).2⟩, by simp, fun _ => ⟨?_, ?_⟩, Frame.settled _ (all _ (.inr rfl))⟩
      · exact (flag_settled _ _ _ _ rfl).trans (State.flag_raise_self _ _ (by decide) (by decide))
      · exact (flag_settled _ _ _ _ rfl).trans ((State.flag_raise_ne _ (by decide)).trans (rest.flag _ (by decide) (by decide)))
    | false =>
      rw [if_neg Bool.false_ne_true]
      exact ⟨(settle_mem _ _).trans ((State.raise_mem u _).trans mem),
        fun k hk => ⟨(fget_settled _ _ _ _ (own k hk)).trans (state _ (.inl rfl) k hk).1,
          (fget_settled _ _ _ _ (own k hk)).trans (state _ (.inl rfl) k hk).2⟩,
        fun _ => (flag_settled _ _ _ _ rfl).trans (State.flag_raise_self _ _ (by decide) (by decide)), by simp,
        Frame.settled _ (all _ (.inl rfl))⟩
  · rw [retrainOp, show s.begin.ing.queue = [] from hq]
    obtain ⟨mem, ready, state, rest⟩ := beginTraining_spec s.begin
    exact ⟨(settle_mem _ _).trans mem, (flag_settled _ _ _ _ rfl).trans ready,
      fun k hk => (fget_settled _ _ _ _ (by interval_cases k <;> rfl)).trans (state k hk), Frame.settled _ rest⟩
  · have some : s.begin.ing.queue.isEmpty = false := by simpa using hq
    rw [retrainOp, some]
    exact Frame.settled _ (Frame.refl _ _ _)
  · obtain ⟨temp, maxi, hot, hotEvent, cool, rest⟩ := stackTempOp_spec s.begin hk h h'
    have own : recorderReg (R.HBM_STK_STATUS k) = false := by interval_cases k <;> rfl
    refine ⟨(congrArg _ (fget_settled _ _ _ _ own)).trans temp, (congrArg _ (fget_settled _ _ _ _ own)).trans maxi,
      (flag_settled _ _ _ _ own).trans hot, fun a b => (flag_settled _ _ _ _ rfl).trans (hotEvent a b),
      fun a b => (flag_settled _ _ _ _ rfl).trans (cool a b), Frame.settled _ (rest.mono (fun _ h => h) ?_)⟩
    simp [urgentRegs]
  · refine ⟨fun hu h8 h => completes_of_wf _ rfl (decide_eq_true hq) ?_, fun h => completes_of_wf _ rfl (decide_eq_true hq) ?_,
      fun hu => completes_of_wf _ rfl (decide_eq_true hq) ?_⟩
    · rw [refreshOp_idle (s := s.begin) hu h8 h]
      exact Frame.settled _ (Frame.refl _ _ _)
    · obtain ⟨paid, others, stays, quiet, enters⟩ := refreshOp_due_spec (s := s.begin) hq hl h
      have mem := settle_mem s.begin (refreshOp q waiting s.begin)
      have debt : refDebt { settle s.begin (refreshOp q waiting s.begin) with pending := s.pending } q = refDebt (refreshOp q waiting s.begin) q :=
        refDebt_congr q (settle_clock _ _) (congrArg MemAux.debtFrom mem)
      rw [← mem] at paid others
      rw [← mem, ← debt] at stays
      exact ⟨paid, others, stays, fun hu => Frame.settled _ (quiet hu), fun hu h8 =>
        ⟨(flag_settled _ _ _ _ rfl).trans (enters hu h8).1, (fget_settled _ _ _ _ rfl).trans (enters hu h8).2.1,
          Frame.settled _ (enters hu h8).2.2⟩⟩
    · rw [urgentOp_of_not_urgent (s := s.begin) hu]
      have waits := frame_until [] s.begin (s.mem.debtFrom.getD q s.clock + 8 * refInterval s q * ticksPerNs)
      obtain ⟨mem, status, event, count, split, whole, -, rest⟩ :=
        enterUrgent_spec q (s.begin.until (s.mem.debtFrom.getD q s.clock + 8 * refInterval s q * ticksPerNs))
      have mem' := (settle_mem s.begin _).trans mem
      have listed := congrArg MemAux.urgent mem'
      have debts := congrArg MemAux.debtFrom mem'
      refine ⟨?_, debts, (settle_clock _ _).trans (rest.1 .clock (by simp)), (flag_settled _ _ _ _ rfl).trans status,
        (flag_settled _ _ _ _ rfl).trans event, (fget_settled _ _ _ _ rfl).trans count,
        fun hb => ⟨(flag_settled _ _ _ _ rfl).trans (split hb).1, (fget_settled _ _ _ _ rfl).trans (split hb).2⟩,
        fun hb => (reg_settled _ _ _ _ rfl).trans (whole hb), Frame.settled _ ?_⟩
      · exact listed.symm ▸ mem_insertKey_self q _
      · exact (waits.mono (by simp) (by simp)).trans (rest.mono (by simp) (by simp [urgentRegs]))

end Sys2Proof.Machine
end

section
/-! SUPPORT. The checks of the memories (R327), the repairs saved to the keel store (R326), and HBM zeroed by an initialisation (R329). -/

namespace Sys2Proof.Machine

/-! ### FLIP and SELFTEST (R327, R402) -/

/-- FLIP's fields: the mode, the target, the mask (R327). -/
def armFlip (target flip : Nat) (s : State) : State :=
  ((s.fset F.SRM_CHK_CTL_MODE 1).fset F.SRM_CHK_CTL_TARGET target).fset F.SRM_CHK_CTL_FLIP flip

theorem armFlip_spec {target flip : Nat} (s : State) (ht : target < 4) (hf : flip < 256) :
    (armFlip target flip s).fget F.SRM_CHK_CTL_MODE = 1 ∧ (armFlip target flip s).fget F.SRM_CHK_CTL_TARGET = target ∧
    (armFlip target flip s).fget F.SRM_CHK_CTL_FLIP = flip ∧ Frame [] [R.SRM_CHK_CTL] s (armFlip target flip s) := by
  refine ⟨?_, ?_, ?_, ?_⟩
  · rw [armFlip, State.fget_fset_other _ _ _ _ (by decide), State.fget_fset_other _ _ _ _ (by decide), State.fget_fset_self _ _ _ (by decide)]
    rfl
  · rw [armFlip, State.fget_fset_other _ _ _ _ (by decide), State.fget_fset_self _ _ _ (by decide)]
    exact Nat.mod_eq_of_lt ht
  · rw [armFlip, State.fget_fset_self _ _ _ (by decide)]
    exact Nat.mod_eq_of_lt hf
  · exact ((Frame.fset _ _ s _ _ (by decide)).trans (Frame.fset _ _ _ _ _ (by decide))).trans (Frame.fset _ _ _ _ _ (by decide))

/-- The self-test begun: its mode, BUSY, and the engine at work (R327). -/
def beginSelftest (s : State) : State :=
  { (s.fset F.SRM_CHK_CTL_MODE 2).raise F.SRM_STATUS_SELFTEST_BUSY with
    mem := { ((s.fset F.SRM_CHK_CTL_MODE 2).raise F.SRM_STATUS_SELFTEST_BUSY).mem with selftest := some true } }

/-- What SELFTEST does under the open lock: it begins, or posts REFUSED (R327). -/
def trySelftest (s : State) : State :=
  if s.coxState ≠ 0 ∨ s.running.isSome ∨ s.mem.selftest.isSome then selftestResult 2 0 s else beginSelftest s

theorem selftestOp_eq (s : State) : selftestOp s = locked trySelftest s := rfl

theorem beginSelftest_spec (s : State) : (beginSelftest s).mem = { s.mem with selftest := some true } ∧
    (beginSelftest s).fget F.SRM_CHK_CTL_MODE = 2 ∧ (beginSelftest s).flag F.SRM_STATUS_SELFTEST_BUSY = true ∧
    Frame [.mem] [R.SRM_CHK_CTL, R.SRM_STATUS] s (beginSelftest s) := by
  unfold beginSelftest
  have begun := frame_setMem [] ((s.fset F.SRM_CHK_CTL_MODE 2).raise F.SRM_STATUS_SELFTEST_BUSY)
    { ((s.fset F.SRM_CHK_CTL_MODE 2).raise F.SRM_STATUS_SELFTEST_BUSY).mem with selftest := some true }
  refine ⟨by rw [State.raise_mem, State.fset_mem], ?_, ?_, ?_⟩
  · rw [begun.fget _ (by simp) (by decide), State.raise, State.fget_fset_other _ _ _ _ (by decide), State.fget_fset_self _ _ _ (by decide)]
    rfl
  · rw [begun.flag _ (by simp) (by decide)]
    exact State.flag_raise_self _ _ (by decide) (by decide)
  · exact ((Frame.fset _ _ s _ _ (by decide)).trans (Frame.raise _ _ _ _ (by decide))).trans (begun.mono (by simp) (by simp))

/-- The word of a self-test's result (R300). -/
def selftestWord (code failed : Nat) : Word := BitVec.ofNat 32 (code * 2 ^ 4 + failed % 65536 * 2 ^ 8)

theorem selftestResult_eq (code failed : Nat) (s : State) : selftestResult code failed s =
    (s.setResult R.SRM_CHK_RESULT (postBlock (s.result R.SRM_CHK_RESULT) [(R.SRM_CHK_RESULT, selftestWord code failed)]).2).raise
      F.SRM_EVENTS_SELFTEST_DONE := rfl

/-- A result posted while none is shown is shown (R300). -/
theorem postBlock_of_none {b : ResultBlock} (h : b.vis = none) (fields : List (Nat × Word)) :
    (postBlock b fields).2.vis = some { fields := fields, seen := false, overrun := false } := by
  obtain ⟨vis, beh⟩ := b
  subst h
  rfl

theorem selftestResult_spec (code failed : Nat) {s : State} (h : (s.result R.SRM_CHK_RESULT).vis = none) :
    ((selftestResult code failed s).result R.SRM_CHK_RESULT).vis =
      some { fields := [(R.SRM_CHK_RESULT, selftestWord code failed)], seen := false, overrun := false } ∧
    (selftestResult code failed s).flag F.SRM_EVENTS_SELFTEST_DONE = true ∧
    Frame [.results] [R.SRM_EVENTS] s (selftestResult code failed s) := by
  rw [selftestResult_eq]
  refine ⟨?_, State.flag_raise_self _ _ (by decide) (by decide), ?_⟩
  · rw [State.result_congr (State.raise_results _ _), State.result_setResult_self]
    exact postBlock_of_none h _
  · exact (frame_setResult _ s _ _).trans (Frame.raise _ _ _ _ (by decide))

/-- The self-test's mode and BUSY cleared (R327). -/
def clearSelftest (s : State) : State := (s.fset F.SRM_CHK_CTL_MODE 0).clear F.SRM_STATUS_SELFTEST_BUSY

theorem clearSelftest_spec (s : State) : (clearSelftest s).fget F.SRM_CHK_CTL_MODE = 0 ∧
    (clearSelftest s).flag F.SRM_STATUS_SELFTEST_BUSY = false ∧ Frame [] [R.SRM_CHK_CTL, R.SRM_STATUS] s (clearSelftest s) := by
  refine ⟨?_, State.flag_clear_self _ _ (by decide), (Frame.fset _ _ s _ _ (by decide)).trans (Frame.clear _ _ _ _ (by decide))⟩
  rw [clearSelftest, State.clear, State.fget_fset_other _ _ _ _ (by decide), State.fget_fset_self _ _ _ (by decide)]
  rfl

theorem selftestDoneOp_of_running {failed : Nat} {s : State} (h : s.mem.selftest.isSome = true) : selftestDoneOp failed s =
    selftestResult (if failed = 0 then 0 else 1) failed { clearSelftest s with mem := { (clearSelftest s).mem with selftest := none } } := by
  have running : s.mem.selftest.isNone = false := by
    cases hs : s.mem.selftest <;> simp_all
  rw [selftestDoneOp, running]
  rfl

/-- The self-test's end (R327). -/
theorem selftestDoneOp_spec {failed : Nat} {s : State} (h : s.mem.selftest.isSome = true) (hr : (s.result R.SRM_CHK_RESULT).vis = none) :
    (selftestDoneOp failed s).mem = { s.mem with selftest := none } ∧ (selftestDoneOp failed s).fget F.SRM_CHK_CTL_MODE = 0 ∧
    (selftestDoneOp failed s).flag F.SRM_STATUS_SELFTEST_BUSY = false ∧ (selftestDoneOp failed s).flag F.SRM_EVENTS_SELFTEST_DONE = true ∧
    ((selftestDoneOp failed s).result R.SRM_CHK_RESULT).vis =
      some { fields := [(R.SRM_CHK_RESULT, selftestWord (if failed = 0 then 0 else 1) failed)], seen := false, overrun := false } ∧
    Frame [.mem, .results] [R.SRM_CHK_CTL, R.SRM_STATUS, R.SRM_EVENTS] s (selftestDoneOp failed s) := by
  obtain ⟨mode, busy, idle⟩ := clearSelftest_spec s
  have mem : (clearSelftest s).mem = s.mem := idle.1 .mem (by simp)
  have results : (clearSelftest s).results = s.results := idle.1 .results (by simp)
  rw [selftestDoneOp_of_running h]
  generalize clearSelftest s = u at mode busy idle mem results ⊢
  have ended := frame_setMem [] u { u.mem with selftest := none }
  have unseen : (State.result { u with mem := { u.mem with selftest := none } } R.SRM_CHK_RESULT).vis = none :=
    (congrArg ResultBlock.vis (State.result_congr ((ended.1 .results (by simp)).trans results) _)).trans hr
  obtain ⟨shown, event, rest⟩ := selftestResult_spec (if failed = 0 then 0 else 1) failed unseen
  refine ⟨?_, ?_, ?_, event, shown, ?_⟩
  · refine (rest.1 .mem (by simp)).trans ?_
    rw [mem]
  · rw [rest.fget _ (by decide) (by decide), ended.fget _ (by simp) (by decide), mode]
  · rw [rest.flag _ (by decide) (by decide), ended.flag _ (by simp) (by decide), busy]
  · exact ((idle.mono (by simp) (by simp +contextual)).trans (ended.mono (by simp) (by simp))).trans (rest.mono (by simp) (by simp))

/-! ### Repairs (R326) -/

/-- Keys put one after another from a first one, each with its value. -/
theorem sparseGet_putAll_from {α : Type} [DecidableEq α] (d f : Nat → α) (m : List (Nat × α)) (a n c : Nat) :
    sparseGet d c (sparsePutAll d m ((List.range n).map (fun j => (a + j, f j)))) =
      if a ≤ c ∧ c < a + n then f (c - a) else sparseGet d c m := by
  induction n with
  | zero =>
    rw [if_neg (by omega)]
    rfl
  | succ n ih =>
    rw [List.range_succ, List.map_append, sparsePutAll_append]
    refine (sparseGet_put d (a + n) c (f n) _).trans ?_
    rw [ih]
    by_cases h : c = a + n
    · simp [h]
    · simp [h, show c < a + (n + 1) ↔ c < a + n by omega]

/-- A write to the keel store reads back. -/
theorem keelBytes_keelWrite_self (a : Nat) (bs : List Byte) (s : State) : (keelWrite a bs s).keelBytes a bs.length = bs := by
  have puts : ((List.range bs.length).zip bs).map (fun p => (a + p.1, p.2)) = (List.range bs.length).map (fun j => (a + j, bs.getD j 0#8)) := by
    refine List.ext_getElem (by simp) (fun i h h' => ?_)
    have hi : i < bs.length := by simpa using h'
    simp [hi]
  refine List.ext_getElem (by simp [State.keelBytes]) (fun i h hb => ?_)
  simp only [State.keelBytes, State.keelByte, keelWrite, puts, List.getElem_map, List.getElem_range, sparseGet_putAll_from]
  rw [if_pos (by omega)]
  simp [hb]

/-- What REPAIR_SAVE writes of the proposal before its CRC (R326). -/
def repairBody (s : State) : List Byte :=
  leBytes 1 (s.fget F.SRM_REPAIR_CAND_KIND) ++ leBytes 1 (s.fget F.SRM_REPAIR_CAND_TRIGGER) ++
    leBytes 2 (s.fget F.SRM_REPAIR_CAND_MACRO_MACRO) ++ leBytes 4 (s.fget F.SRM_REPAIR_CAND_ADDR_ADDR) ++ leBytes 3 s.log.cycle ++ [0#8]

@[simp] theorem length_leBytes (n v : Nat) : (leBytes n v).length = n := by
  induction n generalizing v with
  | zero => rfl
  | succ n ih => simp [leBytes, ih]

theorem saveRepair_eq {s : State} (h : s.flag F.SRM_REPAIR_CAND_VALID = true) : saveRepair s =
    match (List.range 512).find? (fun i => s.repairFree i) with
    | none => (s.setReg R.SRM_REPAIR_CAND 0#32).raise F.SRM_EVENTS_REPAIR_FULL
    | some i => (keelWrite (repairList + 16 * i) (repairBody s ++ leBytes 4 (crc32c (repairBody s)).toNat)
        (s.setReg R.SRM_REPAIR_CAND 0#32)).raise F.SRM_EVENTS_REPAIR_SAVED := by
  rw [saveRepair, h, if_neg (by simp)]
  dsimp only
  generalize (List.range 512).find? (fun i => s.repairFree i) = found
  cases found <;> rfl

theorem flag_dropped (s : State) : (s.setReg R.SRM_REPAIR_CAND 0#32).flag F.SRM_REPAIR_CAND_VALID = false := by
  have read := State.fget_setReg_self s F.SRM_REPAIR_CAND_VALID 0#32
  rw [State.flag]
  exact congrArg (fun n => n != 0) read

theorem saveRepair_first {s : State} {i : Nat} (h : s.flag F.SRM_REPAIR_CAND_VALID = true) (hi : i < 512) (hf : s.repairFree i = true)
    (hj : ∀ j < i, s.repairFree j = false) :
    (saveRepair s).keelBytes (0x1C01000 + 16 * i) 16 = repairBody s ++ leBytes 4 (crc32c (repairBody s)).toNat ∧
    (∀ a, a < 0x1C01000 + 16 * i ∨ 0x1C01010 + 16 * i ≤ a → (saveRepair s).keelByte a = s.keelByte a) ∧
    (saveRepair s).flag F.SRM_REPAIR_CAND_VALID = false ∧ (saveRepair s).flag F.SRM_EVENTS_REPAIR_SAVED = true ∧
    Frame [.keel] [R.SRM_REPAIR_CAND, R.SRM_EVENTS] s (saveRepair s) := by
  have found : (List.range 512).find? (fun i => s.repairFree i) = some i := by
    rw [List.find?_range_eq_some]
    exact ⟨hf, List.mem_range.mpr hi, fun j h => by simp [hj j h]⟩
  have length : (repairBody s ++ leBytes 4 (crc32c (repairBody s)).toNat).length = 16 := by simp [repairBody]
  rw [saveRepair_eq h, found]
  dsimp only
  generalize repairBody s ++ leBytes 4 (crc32c (repairBody s)).toNat = bs at length ⊢
  have drops : Frame [] [R.SRM_REPAIR_CAND] s (s.setReg R.SRM_REPAIR_CAND 0#32) := Frame.setReg _ _ s _ _ (by simp)
  have writes := frame_keelWrite [] (repairList + 16 * i) bs (s.setReg R.SRM_REPAIR_CAND 0#32)
  refine ⟨?_, fun a ha => ?_, ?_, State.flag_raise_self _ _ (by decide) (by decide), ?_⟩
  · have read := keelBytes_keelWrite_self (repairList + 16 * i) bs (s.setReg R.SRM_REPAIR_CAND 0#32)
    rw [length] at read
    exact read
  · refine (keelWrite_byte_ne (repairList + 16 * i) a bs (s.setReg R.SRM_REPAIR_CAND 0#32) ?_).trans rfl
    rw [length, repairList]
    omega
  · rw [State.flag_raise_ne _ (by decide), writes.flag _ (by simp) (by decide)]
    exact flag_dropped s
  · exact ((drops.mono (by simp) (by simp)).trans (writes.mono (by simp) (by simp))).trans (Frame.raise _ _ _ _ (by decide))

theorem saveRepair_full {s : State} (h : s.flag F.SRM_REPAIR_CAND_VALID = true) (hf : ∀ i < 512, s.repairFree i = false) :
    saveRepair s = (s.setReg R.SRM_REPAIR_CAND 0#32).raise F.SRM_EVENTS_REPAIR_FULL := by
  have none : (List.range 512).find? (fun i => s.repairFree i) = none := by
    rw [List.find?_eq_none]
    exact fun i hi => by simp [hf i (List.mem_range.mp hi)]
  rw [saveRepair_eq h, none]

/-! ### Sparse storage cut by keys -/

theorem sparseGet_of_not_mem {α : Type} (d : Nat → α) {c : Nat} {m : List (Nat × α)} (h : ∀ p ∈ m, p.1 ≠ c) : sparseGet d c m = d c := by
  induction m with
  | nil => rfl
  | cons p t ih =>
    obtain ⟨b, v⟩ := p
    have hb : ¬ c = b := fun e => h (b, v) (by simp) e.symm
    rw [sparseGet, if_neg hb, ih (fun q hq => h q (by simp [hq])), ite_self]

/-- Nothing is listed at or below the bound of a canonical list. -/
theorem sparseGet_of_le_bound {α : Type} [DecidableEq α] (d : Nat → α) {b c : Nat} {m : List (Nat × α)} (w : sparseWfFrom d (some b) m = true)
    (h : c ≤ b) : sparseGet d c m = d c := by
  cases m with
  | nil => rfl
  | cons p t =>
    obtain ⟨k, v⟩ := p
    have hk : b < k := by
      simp only [sparseWfFrom, Bool.and_eq_true, decide_eq_true_eq] at w
      exact w.1.1
    rw [sparseGet, if_pos (by omega)]

/-- A key that a cut keeps reads as before. -/
theorem sparseGet_filter {α : Type} [DecidableEq α] (d : Nat → α) {c : Nat} (q : Nat × α → Bool) (hq : ∀ v, q (c, v) = true)
    {lo : Option Nat} {m : List (Nat × α)} (w : sparseWfFrom d lo m = true) : sparseGet d c (m.filter q) = sparseGet d c m := by
  induction m generalizing lo with
  | nil => rfl
  | cons p t ih =>
    obtain ⟨b, v⟩ := p
    have tail : sparseWfFrom d (some b) t = true := by
      simp only [sparseWfFrom, Bool.and_eq_true] at w
      exact w.2
    cases hb : q (b, v) with
    | true => rw [List.filter_cons_of_pos hb, sparseGet, sparseGet, ih tail]
    | false =>
      have ne : ¬ c = b := by
        rintro rfl
        simp [hq v] at hb
      rw [List.filter_cons_of_neg (by simp [hb]), ih tail, sparseGet, if_neg ne]
      split
      next h => exact sparseGet_of_le_bound d tail h.le
      · rfl

/-! ### HBM_INIT (R329) -/

/-- A stretch cut around an interval holds none of its addresses. -/
theorem carve_find_inside {lo hi x : Nat} (h : lo ≤ x ∧ x < hi) (hs : List Haze) : (carve lo hi hs).find? (fun h => h.holds x) = none := by
  rw [List.find?_eq_none]
  intro z hz
  unfold carve at hz
  obtain ⟨k, -, hz⟩ := List.mem_flatMap.mp hz
  split at hz
  · obtain rfl : z = k := by simpa using hz
    simp [Haze.holds]
    omega
  · obtain hz | hz := List.mem_append.mp hz
    · split at hz
      · obtain rfl : z = { k with len := lo - k.base } := by simpa using hz
        simp [Haze.holds]
        omega
      · cases hz
    · split at hz
      · obtain rfl : z = { k with base := hi, len := k.base + k.len - hi } := by simpa using hz
        simp [Haze.holds]
        omega
      · cases hz

/-- HBM with a range zeroed (R329). -/
def zeroed (base len : Nat) (h : Hbm) : Hbm where
  bytes := h.bytes.filter (fun p => decide (p.1 < base ∨ base + len ≤ p.1))
  chk := h.chk.filter (fun p => decide (8 * p.1 < base ∨ base + len ≤ 8 * p.1))
  hazes := carve base (base + len) h.hazes

theorem zeroHbm_of_unarmed {base len : Nat} {s : State} (hr : s.hbmReady = true) (hm : s.fget F.SRM_CHK_CTL_MODE ≠ 1) :
    zeroHbm base len s = { s with hbm := zeroed base len s.hbm } := by
  have unarmed (u : State) (target : Nat) (hit : Nat → Bool) (hu : u.fget F.SRM_CHK_CTL_MODE ≠ 1) : u.armedFlip target hit = none := by
    unfold State.armedFlip
    dsimp only
    rw [if_neg (fun h => hu h.1)]
  unfold zeroHbm State.fillRange
  rw [hr, if_neg (by simp)]
  dsimp only
  rw [unarmed _ _ _ (((frame_setHbm [] s _).fget _ (by simp) (by decide)).trans_ne hm), List.append_nil]
  rfl

theorem zeroed_byte_inside {base len a : Nat} {s : State} (h : base ≤ a ∧ a < base + len) :
    State.hbmByte { s with hbm := zeroed base len s.hbm } a = 0#8 := by
  unfold State.hbmByte State.hazeAt zeroed
  dsimp only
  rw [carve_find_inside h]
  refine sparseGet_of_not_mem hbmDefault (fun p hp => ?_)
  have hp := (List.mem_filter.mp hp).2
  simp only [decide_eq_true_eq] at hp
  omega

theorem zeroed_chk_inside {base len w : Nat} {s : State} (h : base ≤ 8 * w ∧ 8 * w < base + len) :
    State.hbmChk { s with hbm := zeroed base len s.hbm } w = 0 := by
  unfold State.hbmChk State.hazeAt zeroed
  dsimp only
  rw [carve_find_inside h]
  refine sparseGet_of_not_mem (fun _ => 0) (fun p hp => ?_)
  have hp := (List.mem_filter.mp hp).2
  simp only [decide_eq_true_eq] at hp
  omega

theorem zeroed_byte_outside {base len a : Nat} {s : State} (hw : Memory.wf s.hbm.bytes = true) (h : a < base ∨ base + len ≤ a) :
    State.hbmByte { s with hbm := zeroed base len s.hbm } a = s.hbmByte a := by
  refine State.hbmByte_congr _ _ a ?_ ?_
  · exact carve_find base (base + len) a (by omega) h _
  · exact sparseGet_filter hbmDefault _ (fun _ => decide_eq_true h) (lo := none) hw

theorem initDoneOp_eq {base len : Nat} {s : State} (hi : s.mem.init = some (base, len)) (hr : s.hbmReady = true)
    (hs : shadowTouched s base len = []) (hm : s.fget F.SRM_CHK_CTL_MODE ≠ 1) : initDoneOp s =
      { (State.clear { s with hbm := zeroed base len s.hbm } F.HBM_STATUS_INIT_BUSY).raise F.HBM_EVENTS_INIT_DONE with
        mem := { s.mem with init := none } } := by
  have range : clientRange base len zeroHbm s = { s with hbm := zeroed base len s.hbm } := by
    unfold clientRange
    rw [hs]
    exact zeroHbm_of_unarmed hr hm
  unfold initDoneOp
  rw [hi]
  dsimp only
  rw [range, State.raise_mem, State.clear_mem]

theorem hbmChk_of_hbm {s t : State} (w : Nat) (h : t.hbm = s.hbm) : t.hbmChk w = s.hbmChk w := by
  simp only [State.hbmChk, State.hazeAt, h]

/-- The end of an initialisation (R329). -/
theorem initDoneOp_spec {base len : Nat} {s : State} (hi : s.mem.init = some (base, len)) (hr : s.hbmReady = true)
    (hw : Memory.wf s.hbm.bytes = true) (hs : shadowTouched s base len = []) (hm : s.fget F.SRM_CHK_CTL_MODE ≠ 1) :
    (∀ a, base ≤ a → a < base + len → (initDoneOp s).hbmByte a = 0#8) ∧
    (∀ w, base ≤ 8 * w → 8 * w < base + len → (initDoneOp s).hbmChk w = 0) ∧
    (∀ a, a < base ∨ base + len ≤ a → (initDoneOp s).hbmByte a = s.hbmByte a) ∧
    (initDoneOp s).mem = { s.mem with init := none } ∧ (initDoneOp s).flag F.HBM_STATUS_INIT_BUSY = false ∧
    (initDoneOp s).flag F.HBM_EVENTS_INIT_DONE = true ∧ Frame [.hbm, .mem] [R.HBM_STATUS, R.HBM_EVENTS] s (initDoneOp s) := by
  have zeroes := frame_setHbm [] s (zeroed base len s.hbm)
  have clears := Frame.clear [] [R.HBM_STATUS] { s with hbm := zeroed base len s.hbm } F.HBM_STATUS_INIT_BUSY (by decide)
  have cleared : (State.clear { s with hbm := zeroed base len s.hbm } F.HBM_STATUS_INIT_BUSY).flag F.HBM_STATUS_INIT_BUSY = false :=
    State.flag_clear_self _ _ (by decide)
  have hbm : (State.clear { s with hbm := zeroed base len s.hbm } F.HBM_STATUS_INIT_BUSY).hbm = zeroed base len s.hbm :=
    clears.1 .hbm (by simp)
  rw [initDoneOp_eq hi hr hs hm]
  generalize State.clear { s with hbm := zeroed base len s.hbm } F.HBM_STATUS_INIT_BUSY = u at clears cleared hbm ⊢
  have raises := Frame.raise [] [R.HBM_EVENTS] u F.HBM_EVENTS_INIT_DONE (by decide)
  have forgets := frame_setMem [] (u.raise F.HBM_EVENTS_INIT_DONE) { s.mem with init := none }
  have done : (u.raise F.HBM_EVENTS_INIT_DONE).flag F.HBM_EVENTS_INIT_DONE = true := State.flag_raise_self _ _ (by decide) (by decide)
  have same : (u.raise F.HBM_EVENTS_INIT_DONE).hbm = zeroed base len s.hbm := (State.raise_hbm _ _).trans hbm
  generalize u.raise F.HBM_EVENTS_INIT_DONE = v at raises forgets done same ⊢
  have byte (a : Nat) := State.hbmByte_of_hbm { s with hbm := zeroed base len s.hbm } { v with mem := { s.mem with init := none } } a same
  have chk (w : Nat) := hbmChk_of_hbm (s := { s with hbm := zeroed base len s.hbm }) (t := { v with mem := { s.mem with init := none } }) w same
  refine ⟨fun a h h' => (byte a).trans (zeroed_byte_inside ⟨h, h'⟩), fun w h h' => (chk w).trans (zeroed_chk_inside ⟨h, h'⟩),
    fun a h => (byte a).trans (zeroed_byte_outside hw h), rfl, ?_, (forgets.flag _ (by simp) (by decide)).trans done, ?_⟩
  · rw [forgets.flag _ (by simp) (by decide), raises.flag _ (by decide) (by decide), cleared]
  · exact (((zeroes.mono (by simp) (by simp)).trans (clears.mono (by simp) (by simp))).trans (raises.mono (by simp) (by simp))).trans
      (forgets.mono (by simp) (by simp))

/-- Whether HBM_INIT_GO refuses its range (R329). -/
def badInit (s : State) : Prop :=
  s.pair F.HBM_INIT_BASE_LO_ADDR F.HBM_INIT_BASE_HI_ADDR % 4096 ≠ 0 ∨ s.pair F.HBM_INIT_LEN_LO_LEN F.HBM_INIT_LEN_HI_LEN % 4096 ≠ 0 ∨
  s.pair F.HBM_INIT_LEN_LO_LEN F.HBM_INIT_LEN_HI_LEN = 0 ∨
  hbmSize < s.pair F.HBM_INIT_BASE_LO_ADDR F.HBM_INIT_BASE_HI_ADDR + s.pair F.HBM_INIT_LEN_LO_LEN F.HBM_INIT_LEN_HI_LEN ∨
  s.fencedRange (s.pair F.HBM_INIT_BASE_LO_ADDR F.HBM_INIT_BASE_HI_ADDR) (s.pair F.HBM_INIT_LEN_LO_LEN F.HBM_INIT_LEN_HI_LEN) = true ∨
  s.flag F.HBM_STATUS_INIT_BUSY = true

theorem hbmInitOp_of_bad {s : State} (h : badInit s) : hbmInitOp s = s.raise F.HBM_EVENTS_INIT_REFUSED := if_pos h

theorem hbmInitOp_of_good {s : State} (h : ¬ badInit s) : hbmInitOp s = { s.raise F.HBM_STATUS_INIT_BUSY with
    mem := { s.mem with init := some (s.pair F.HBM_INIT_BASE_LO_ADDR F.HBM_INIT_BASE_HI_ADDR,
      s.pair F.HBM_INIT_LEN_LO_LEN F.HBM_INIT_LEN_HI_LEN) } } := if_neg h

end Sys2Proof.Machine
end

section
/-! PROOF. FLIP, SELFTEST, SELFTEST_DONE, REPAIR_SAVE, REPAIR_DISCARD, HBM_INIT_GO and INIT_DONE (R326, R327, R329). -/

namespace Sys2Proof.Machine

/-- Settles O49: each check, repair and initialisation is the registers it writes and the one part it changes. -/
theorem checksRepairsAndInitialisation : Obligations.ChecksRepairsAndInitialisation := by
  unfold Obligations.ChecksRepairsAndInitialisation
  intro s
  refine ⟨fun target mask ht hm => ⟨fun ho => completes_of_wf _ rfl (decide_eq_true ⟨ht, hm⟩) ?_, fun hc c hcm => ?_⟩,
    fun ho hn => ⟨fun hx hr => completes_of _ rfl ?_, fun hx hv => completes_of _ rfl ?_⟩,
    fun failed hf hs hv => completes_of_wf _ rfl (decide_eq_true hf) ?_,
    fun hv => ⟨fun i hi hfree hj => completes_of _ rfl ?_, fun hfull => completes_of _ rfl ?_, completes_of _ rfl ?_⟩,
    ⟨fun hb hl h0 hsz hfe hbusy => completes_of _ rfl ?_, fun hbad => completes_of _ rfl ?_⟩,
    fun base len hi hr hw hs hm => completes_of _ rfl ?_⟩
  · obtain ⟨mode, tgt, flip, rest⟩ := armFlip_spec s.begin ht hm
    rw [show flipOp target mask s.begin = armFlip target mask s.begin from if_pos ho]
    exact ⟨(fget_settled _ _ _ _ rfl).trans mode, (fget_settled _ _ _ _ rfl).trans tgt, (fget_settled _ _ _ _ rfl).trans flip,
      Frame.settled _ rest⟩
  · have locks {c : Instr} (f : State → State) (h : exec c s = done c.wf (locked f) s) (hw : c.wf = true) : Completes c s (fun t =>
        t.flag F.SAF_EVENTS_LOCK_VIOLATION = true ∧ Frame [] [R.SAF_LOCK_VIOL, R.SAF_EVENTS] s t) := by
      obtain ⟨t, next, pending, event, -, rest⟩ := completes_locked_counted f h hw hc
      exact ⟨t, next, pending, event, rest⟩
    obtain rfl | hcm := List.mem_cons.mp hcm
    · exact locks (armFlip target mask) rfl (decide_eq_true ⟨ht, hm⟩)
    · obtain rfl := List.mem_singleton.mp hcm
      exact locks trySelftest rfl rfl
  · obtain ⟨mem, mode, busy, rest⟩ := beginSelftest_spec s.begin
    have begins : selftestOp s.begin = beginSelftest s.begin := by
      rw [selftestOp_eq, locked, if_pos (show s.begin.lockOpen = true from ho), trySelftest, if_neg]
      rintro (h | h | h)
      · exact h hx
      · rw [show s.begin.running = none from hr] at h
        cases h
      · rw [show s.begin.mem.selftest = none from hn] at h
        cases h
    rw [begins]
    exact ⟨(settle_mem _ _).trans mem, (fget_settled _ _ _ _ rfl).trans mode, (flag_settled _ _ _ _ rfl).trans busy, Frame.settled _ rest⟩
  · obtain ⟨shown, event, rest⟩ := selftestResult_spec 2 0 (s := s.begin) hv
    have refuses : selftestOp s.begin = selftestResult 2 0 s.begin := by
      rw [selftestOp_eq, locked, if_pos (show s.begin.lockOpen = true from ho), trySelftest, if_pos]
      exact hx.elim .inl (fun h => .inr (.inl h))
    rw [refuses]
    exact ⟨(congrArg ResultBlock.vis (result_settled _ _ _ _)).trans shown, (flag_settled _ _ _ _ rfl).trans event, Frame.settled _ rest⟩
  · obtain ⟨mem, mode, busy, event, shown, rest⟩ := selftestDoneOp_spec (failed := failed) (s := s.begin) hs hv
    have word : selftestWord (if failed = 0 then 0 else 1) failed = BitVec.ofNat 32 ((if failed = 0 then 0 else 16) + failed * 256) := by
      rw [selftestWord, Nat.mod_eq_of_lt hf]
      split <;> rfl
    rw [word] at shown
    exact ⟨(settle_mem _ _).trans mem, (fget_settled _ _ _ _ rfl).trans mode, (flag_settled _ _ _ _ rfl).trans busy,
      (flag_settled _ _ _ _ rfl).trans event, (congrArg ResultBlock.vis (result_settled _ _ _ _)).trans shown, Frame.settled _ rest⟩
  · obtain ⟨written, others, dropped, event, rest⟩ := saveRepair_first (s := s.begin) hv hi hfree hj
    have keel := settle_keel s.begin (saveRepair s.begin)
    have byte (a : Nat) : State.keelByte { settle s.begin (saveRepair s.begin) with pending := s.pending } a = (saveRepair s.begin).keelByte a :=
      congrArg (fun k : Keel => sparseGet (fun _ => 0xFF#8) a k.bytes) keel
    exact ⟨(List.map_congr_left (fun i _ => byte _)).trans written, fun a ha => (byte a).trans (others a ha),
      (flag_settled _ _ _ _ rfl).trans dropped, (flag_settled _ _ _ _ rfl).trans event, Frame.settled _ rest⟩
  · rw [repairSaveOp, saveRepair_full (s := s.begin) hv hfull]
    refine ⟨(flag_settled _ _ _ _ rfl).trans ((State.flag_raise_ne _ (by decide)).trans (flag_dropped _)),
      (flag_settled _ _ _ _ rfl).trans (State.flag_raise_self _ _ (by decide) (by decide)), Frame.settled _ ?_⟩
    exact (Frame.setReg _ _ _ _ _ (by simp)).trans (Frame.raise _ _ _ _ (by decide))
  · exact ⟨(flag_settled _ _ _ _ rfl).trans (flag_dropped _), Frame.settled _ (Frame.setReg _ _ _ _ _ (by simp))⟩
  · have good : ¬ badInit s.begin := by
      rintro (h | h | h | h | h | h)
      · exact h hb
      · exact h hl
      · exact h0.ne' h
      · exact absurd h hsz.not_gt
      · exact absurd (hfe.symm.trans h) Bool.false_ne_true
      · exact absurd (hbusy.symm.trans h) Bool.false_ne_true
    rw [hbmInitOp_of_good good]
    have takes := frame_setMem [] (s.begin.raise F.HBM_STATUS_INIT_BUSY) { s.begin.mem with
      init := some (s.begin.pair F.HBM_INIT_BASE_LO_ADDR F.HBM_INIT_BASE_HI_ADDR, s.begin.pair F.HBM_INIT_LEN_LO_LEN F.HBM_INIT_LEN_HI_LEN) }
    refine ⟨settle_mem _ _, (flag_settled _ _ _ _ rfl).trans ((takes.flag _ (by simp) (by decide)).trans
      (State.flag_raise_self _ _ (by decide) (by decide))), Frame.settled _ ?_⟩
    exact (Frame.raise _ _ _ _ (by decide)).trans (takes.mono (by simp) (by simp))
  · rw [hbmInitOp_of_bad (s := s.begin) hbad]
    exact ⟨(flag_settled _ _ _ _ rfl).trans (State.flag_raise_self _ _ (by decide) (by decide)), Frame.settled _ (Frame.raise _ _ _ _ (by decide))⟩
  · obtain ⟨inside, checks, outside, mem, busy, event, rest⟩ := initDoneOp_spec (s := s.begin) hi hr hw hs hm
    have hbm := settle_hbm s.begin (initDoneOp s.begin)
    have byte (a : Nat) := State.hbmByte_of_hbm (initDoneOp s.begin) { settle s.begin (initDoneOp s.begin) with pending := s.pending } a hbm
    exact ⟨fun a h h' => (byte a).trans (inside a h h'), fun w h h' => (hbmChk_of_hbm w hbm).trans (checks w h h'),
      fun a h => (byte a).trans (outside a h), (settle_mem _ _).trans mem, (flag_settled _ _ _ _ rfl).trans busy,
      (flag_settled _ _ _ _ rfl).trans event, Frame.settled _ rest⟩

end Sys2Proof.Machine
end

section
/-! SUPPORT. Words of HBM read, corrected and reported (R305, R314, R315), the two scrub walks (R321, R323), table words found BAD (R318, R319)
and written afresh (R320). -/

namespace Sys2Proof.Machine

/-! ### Registers of two words -/

theorem State.pair_setPair_self (s : State) {a b v : Nat} (hab : a ≠ b) (hv : v < 2 ^ 64) :
    (s.setPair ⟨a, 0, 32⟩ ⟨b, 0, 32⟩ v).pair ⟨a, 0, 32⟩ ⟨b, 0, 32⟩ = v := by
  rw [State.pair, State.setPair, State.fget_fset_other _ _ _ _ (.inl hab), State.fget_fset_self _ ⟨a, 0, 32⟩ _ (Nat.le_refl 32),
    State.fget_fset_self _ ⟨b, 0, 32⟩ _ (Nat.le_refl 32)]
  dsimp only
  omega

theorem BlockFrame.flag {ps : List Part} {bs : List Nat} {s t : State} (h : BlockFrame ps bs s t) (f : Fld) (hb : f.addr / 65536 ∉ bs)
    (hr : recorderReg f.addr = false) : t.flag f = s.flag f := by
  simp only [State.flag, h.fget f hb hr]

/-! ### What counting and proposing leave alone (R314, R326) -/

/-- The registers that a repair proposal writes, whether or not it is saved at once (R326). -/
def proposalRegs : List Nat := [R.SRM_REPAIR_CAND, R.SRM_REPAIR_CAND_MACRO, R.SRM_REPAIR_CAND_ADDR, R.SRM_EVENTS]

theorem frame_saveRepair (s : State) : Frame [.keel] proposalRegs s (saveRepair s) := by
  cases hv : s.flag F.SRM_REPAIR_CAND_VALID with
  | false =>
    rw [saveRepair, hv, if_pos (by rfl)]
    exact Frame.refl _ _ s
  | true =>
    have drops : Frame [.keel] proposalRegs s (s.setReg R.SRM_REPAIR_CAND 0#32) := Frame.setReg _ _ s _ _ (by decide)
    rw [saveRepair_eq hv]
    split
    · exact drops.trans (Frame.raise _ _ _ _ (by decide))
    · exact (drops.trans (frame_keelWrite _ _ _ _)).trans (Frame.raise _ _ _ _ (by decide))

/-- A proposal taken up, before it is saved. -/
def heldProposal (kind trigger which : Nat) (addr : Word) (s : State) : State :=
  (((((s.fset F.SRM_REPAIR_CAND_KIND kind).fset F.SRM_REPAIR_CAND_TRIGGER trigger).fset F.SRM_REPAIR_CAND_VALID 1).fset
    F.SRM_REPAIR_CAND_MACRO_MACRO which).fset F.SRM_REPAIR_CAND_ADDR_ADDR addr.toNat).raise F.SRM_EVENTS_REPAIR_CAND

theorem propose_eq (kind trigger which : Nat) (addr : Word) (s : State) : propose kind trigger which addr s =
    if s.flag F.SRM_REPAIR_CAND_VALID then s
    else if s.flag F.SRM_CTL_AUTO_SAVE then saveRepair (heldProposal kind trigger which addr s)
    else heldProposal kind trigger which addr s := rfl

theorem frame_heldProposal (kind trigger which : Nat) (addr : Word) (s : State) :
    Frame [.keel] proposalRegs s (heldProposal kind trigger which addr s) :=
  (((((Frame.fset _ _ s _ _ (by decide)).trans (Frame.fset _ _ _ _ _ (by decide))).trans (Frame.fset _ _ _ _ _ (by decide))).trans
    (Frame.fset _ _ _ _ _ (by decide))).trans (Frame.fset _ _ _ _ _ (by decide))).trans (Frame.raise _ _ _ _ (by decide))

theorem frame_propose (kind trigger which : Nat) (addr : Word) (s : State) : Frame [.keel] proposalRegs s (propose kind trigger which addr s) := by
  rw [propose_eq]
  split
  · exact Frame.refl _ _ s
  · split
    · exact (frame_heldProposal ..).trans (frame_saveRepair _)
    · exact frame_heldProposal ..

theorem frame_proposeHbm (trigger addr : Nat) (s : State) : Frame [.keel] proposalRegs s (proposeHbm trigger addr s) := frame_propose ..

theorem frame_countRow (w : Nat) (s : State) : Frame [.keel, .mem] proposalRegs s (countRow w s) := by
  have counted (m : MemAux) : Frame [.keel, .mem] proposalRegs s { s with mem := m } := (frame_setMem [] s m).mono (by simp) (by simp)
  unfold countRow
  dsimp only
  split
  · exact (counted _).trans ((frame_proposeHbm _ _ _).mono (by simp) (fun _ h => h))
  · exact counted _

/-! ### A word read by its class (R314) -/

theorem State.wordClass_congr {s t : State} (w : Nat) (hh : t.hbm = s.hbm) (hr : t.reg R.HBM_STATUS = s.reg R.HBM_STATUS) :
    t.wordClass w = s.wordClass w := by
  have ready : t.hbmReady = s.hbmReady := congrArg (fun r => fieldOf F.HBM_STATUS_READY.lo F.HBM_STATUS_READY.width r != 0) hr
  rw [State.wordClass, State.wordClass, ready, hbmChk_of_hbm w hh]

theorem State.readByte_congr {s t : State} (a : Nat) (hh : t.hbm = s.hbm) (hr : t.reg R.HBM_STATUS = s.reg R.HBM_STATUS) :
    t.readByte a = s.readByte a := by
  rw [State.readByte, State.readByte, State.wordClass_congr _ hh hr, State.hbmByte_of_hbm s t a hh]

/-- A write-back merges all eight bytes of its word as they read. -/
theorem State.mergeBytes_nil (s : State) (w : Nat) : s.mergeBytes w [] = (List.range 8).map (fun i => (8 * w + i, s.readByte (8 * w + i))) := by
  rw [State.mergeBytes, List.filterMap_map]
  exact congrFun List.filterMap_eq_map' _

theorem State.mergeBytes_nil_congr {s t : State} (w : Nat) (hh : t.hbm = s.hbm) (hr : t.reg R.HBM_STATUS = s.reg R.HBM_STATUS) :
    t.mergeBytes w [] = s.mergeBytes w [] := by
  rw [State.mergeBytes_nil, State.mergeBytes_nil]
  exact List.map_congr_left (fun i _ => by rw [State.readByte_congr _ hh hr])

/-- A word that carries no mark spends none. -/
theorem spendMark_of_unmarked {port w : Nat} {s : State} (h : s.mem.marked.contains (port, w) = false) : spendMark port w s = s := by
  have kept : s.mem.marked.filter (fun p => p != (port, w)) = s.mem.marked := by
    rw [List.filter_eq_self]
    intro p hp
    rw [bne_iff_ne]
    rintro rfl
    simp [hp] at h
  rw [spendMark, kept]

theorem frame_spendMark (rs : List Nat) (port w : Nat) (s : State) : Frame [.mem] rs s (spendMark port w s) := frame_setMem _ _ _

/-- A whole word read leaves everything (R314). -/
theorem readHbmWord_of_clean (scrub : Bool) {port w : Nat} {s : State} (hc : s.wordClass w = .clean)
    (hm : s.mem.marked.contains (port, w) = false) : readHbmWord scrub port w s = s := by
  have noted : noteRead scrub port w s = s := by simp only [noteRead, State.countWord, hc]
  have stays : s.correctWord w = s := by simp only [State.correctWord, hc]
  rw [readHbmWord, noted, stays, spendMark_of_unmarked hm]

theorem frame_noteCe (w : Nat) (s : State) :
    Frame [] [R.HBM_CE_COUNT, R.HBM_STK_CE (8 * w / 256 % 128 / 32), R.HBM_EVENTS] s (noteCe w s) :=
  ((Frame.bump _ _ s _ (by simp [F.HBM_CE_COUNT_COUNT])).trans (Frame.bump _ _ _ _ (by simp [F.HBM_STK_CE_COUNT]))).trans
    (Frame.raise _ _ _ _ (by simp [F.HBM_EVENTS_CE]))

/-- A corrected word as it is counted, before it is written back (R314, R326). -/
def countedCe (w : Nat) (s : State) : State := countRow w (noteCe w s)

theorem countedCe_spec (w : Nat) (s : State) : (countedCe w s).hbm = s.hbm ∧ (countedCe w s).flag F.HBM_EVENTS_CE = true ∧
    (countedCe w s).fget F.HBM_CE_COUNT_COUNT = satAdd 32 (s.fget F.HBM_CE_COUNT_COUNT) 1 ∧
    (countedCe w s).reg R.HBM_STATUS = s.reg R.HBM_STATUS ∧
    (countedCe w s).fget F.SRM_CHK_CTL_MODE = s.fget F.SRM_CHK_CTL_MODE ∧
    BlockFrame [.keel, .mem] [0x09, 0x0A] s (countedCe w s) := by
  have row := frame_countRow w (noteCe w s)
  have count := frame_noteCe w s
  have stk : R.HBM_STK_CE (8 * w / 256 % 128 / 32) ≠ R.HBM_STATUS ∧ R.HBM_STK_CE (8 * w / 256 % 128 / 32) ≠ R.SRM_CHK_CTL ∧
      R.HBM_STK_CE (8 * w / 256 % 128 / 32) ≠ R.HBM_CE_COUNT := by
    simp only [R.HBM_STK_CE, R.HBM_STATUS, R.SRM_CHK_CTL, R.HBM_CE_COUNT]
    omega
  obtain ⟨status, ctl, total⟩ := stk
  refine ⟨by simp [countedCe], ?_, ?_, ?_, ?_, ?_⟩
  · rw [countedCe, row.flag _ (by decide) (by decide)]
    exact State.flag_raise_self _ _ (by decide) (by decide)
  · rw [countedCe, row.fget _ (by decide) (by decide), noteCe, State.raise, State.fget_fset_other _ _ _ _ (by decide), State.bump, State.add,
      State.fget_fset_other _ _ _ _ (.inl total.symm), State.fget_bump_self _ _ (by decide)]
    rfl
  · rw [countedCe, row.2 _ (by decide) (by decide)]
    exact count.2 _ (by simp [status.symm]; decide) (by decide)
  · rw [countedCe, row.fget _ (by decide) (by decide)]
    exact count.fget _ (by simp [F.SRM_CHK_CTL_MODE, ctl.symm]; decide) (by decide)
  · exact (blockFrame_noteCe _ w s).trans (blockFrame_countRow w _)

/-! ### A word stored (R305, R306) -/

theorem State.armedFlip_of_unarmed {s : State} (target : Nat) (hit : Nat → Bool) (h : s.fget F.SRM_CHK_CTL_MODE ≠ 1) :
    s.armedFlip target hit = none := by
  unfold State.armedFlip
  dsimp only
  rw [if_neg (fun k => h k.1)]

/-- HBM with a word stored and its check bits put (R304). -/
def Hbm.withWord (h : Hbm) (w m : Nat) (bytes : List (Nat × Byte)) : Hbm where
  bytes := sparsePutAll hbmDefault h.bytes bytes
  chk := sparsePut (fun _ => 0) w m h.chk
  hazes := carve (8 * w) (8 * w + 8) h.hazes

theorem State.storeWord_of_unarmed {s : State} (w m : Nat) (bytes : List (Nat × Byte)) (h : s.fget F.SRM_CHK_CTL_MODE ≠ 1) :
    s.storeWord w m bytes = { s with hbm := s.hbm.withWord w m bytes } := by
  rw [State.storeWord, State.putChk, State.armedFlip_of_unarmed _ _ (((frame_setHbm [] s _).fget _ (by simp) (by decide)).trans_ne h)]
  rfl

theorem hbmChk_withWord {t : State} {h : Hbm} {w m : Nat} {bytes : List (Nat × Byte)} (ht : t.hbm = h.withWord w m bytes) : t.hbmChk w = m := by
  rw [State.hbmChk, State.hazeAt, ht, Hbm.withWord, carve_find_inside (by omega)]
  dsimp only
  rw [sparseGet_put, if_pos rfl]

theorem hbmByte_withWord_self {t : State} {h : Hbm} {w m i : Nat} {f : Nat → Byte} (hi : i < 8)
    (ht : t.hbm = h.withWord w m ((List.range 8).map (fun i => (8 * w + i, f (8 * w + i))))) : t.hbmByte (8 * w + i) = f (8 * w + i) := by
  rw [State.hbmByte, State.hazeAt, ht, Hbm.withWord, carve_find_inside (by omega)]
  dsimp only
  rw [sparseGet_putAll_from hbmDefault (fun i => f (8 * w + i)), if_pos (by omega)]
  congr 1
  omega

theorem hbmByte_withWord_outside {s t : State} {w m a : Nat} {f : Nat → Byte} (ha : a < 8 * w ∨ 8 * w + 8 ≤ a)
    (ht : t.hbm = s.hbm.withWord w m ((List.range 8).map (fun i => (8 * w + i, f (8 * w + i))))) : t.hbmByte a = s.hbmByte a := by
  refine State.hbmByte_congr _ _ a ?_ ?_
  · rw [State.hazeAt, ht]
    exact carve_find _ _ a (by omega) ha _
  · rw [ht, Hbm.withWord]
    dsimp only
    rw [sparseGet_putAll_from hbmDefault (fun i => f (8 * w + i)), if_neg (by omega)]

/-! ### One word returned to its port (R305, R314, R315) -/

theorem wordsOf_eight {a : Nat} (h : a % 8 = 0) : wordsOf a 8 = [a / 8] := by
  have one : (a + 8 - 1) / 8 + 1 - a / 8 = 1 := by omega
  rw [wordsOf, if_neg (by decide), one]
  rfl

theorem stridesOf_eight {a : Nat} (h : a % 8 = 0) : stridesOf a 8 = 1 := by
  rw [stridesOf, if_neg (by decide)]
  omega

theorem hbmReadDoneOp_eight {addr : Nat} (h : addr % 8 = 0) (port stack : Nat) (s : State) : hbmReadDoneOp port addr 8 stack s =
    if stack = 2 && s.wordClass (addr / 8) != .uncorrectable then
      spoiledRead port addr 8 (returnReads port addr 8 (stackReport port (addr / 8) stack s))
    else if s.wordBad port (addr / 8) then readLost port addr 8 (returnReads port addr 8 (stackReport port (addr / 8) stack s))
    else returnReads port addr 8 (stackReport port (addr / 8) stack s) := by
  rw [hbmReadDoneOp, State.hbmBad, wordsOf_eight h, List.any_cons, List.any_nil, Bool.or_false]
  rfl

/-- With no entry running, no job's port loses by a word (R316). -/
theorem areaRead_of_idle {s : State} (h : s.running = none) (port addr len : Nat) : areaRead s port addr len = none := by
  rw [areaRead, h]
  split <;> rfl

theorem streamLost_of_idle {s : State} {port : Nat} (h : s.running = none) (hp : port ≠ 14) (addr len : Nat) :
    streamLost port addr len s = none := by
  rw [streamLost, if_neg hp, h, ite_self]
  rfl

theorem readLost_of_idle {s : State} {port : Nat} (h : s.running = none) (hp : port ≠ 14) (addr len : Nat) : readLost port addr len s = s := by
  rw [readLost, areaRead_of_idle h, streamLost_of_idle h hp]
  rfl

theorem spoiledRead_of_idle {s : State} {port : Nat} (h : s.running = none) (hp : port ≠ 14) (addr len : Nat) :
    spoiledRead port addr len s = if port = 15 then s else markWord port (addr / 8) s := by
  have still : (markWord port (addr / 8) s).running = none := h
  rw [spoiledRead, areaRead_of_idle still, streamLost_of_idle still hp]

theorem State.running_congr {s t : State} (h : t.ing = s.ing) : t.running = s.running := by rw [State.running, State.running, h]

theorem frame_returnReads (rs : List Nat) (port a n : Nat) (s : State) : Frame [.arb] rs s (returnReads port a n s) := frame_setArb _ _ _

/-! #### A word read whole -/

theorem hbmReadDoneOp_of_clean {port addr : Nat} {s : State} (h8 : addr % 8 = 0) (hc : s.wordClass (addr / 8) = .clean)
    (hm : s.mem.marked.contains (port, addr / 8) = false) : hbmReadDoneOp port addr 8 0 s = returnReads port addr 8 s := by
  have report : stackReport port (addr / 8) 0 s = s := by
    rw [stackReport.eq_def, hc]
    exact readHbmWord_of_clean _ hc hm
  rw [hbmReadDoneOp_eight h8, report, State.wordBad, hc, hm]
  rfl

/-! #### A word corrected -/

/-- A word counted as corrected and written back (R314). -/
def writtenBack (port w : Nat) (s : State) : State := spendMark port w ((countedCe w s).storeWord w 0 (s.mergeBytes w []))

theorem readHbmWord_of_corrected (scrub : Bool) {port w : Nat} {b : Option Nat} {s : State} (hc : s.wordClass w = .corrected b) :
    readHbmWord scrub port w s = writtenBack port w s := by
  obtain ⟨hbm, -, -, status, -, -⟩ := countedCe_spec w s
  have noted : noteRead scrub port w s = countedCe w s := by simp only [noteRead, State.countWord, hc, countedCe]
  have stored : (countedCe w s).correctWord w = (countedCe w s).storeWord w 0 (s.mergeBytes w []) := by
    simp only [State.correctWord, State.wordClass_congr w hbm status, hc, State.mergeBytes_nil_congr w hbm status]
  rw [readHbmWord, noted, stored, writtenBack]

theorem hbmReadDoneOp_of_correctable {port addr stack : Nat} {s : State} (h8 : addr % 8 = 0) (h2 : stack < 2)
    (hm : s.mem.marked.contains (port, addr / 8) = false)
    (hc : (∃ b, s.wordClass (addr / 8) = .corrected b) ∨ (s.wordClass (addr / 8) = .clean ∧ stack = 1)) :
    hbmReadDoneOp port addr 8 stack s = returnReads port addr 8 (writtenBack port (addr / 8) s) := by
  have report : stackReport port (addr / 8) stack s = writtenBack port (addr / 8) s := by
    obtain ⟨b, hc⟩ | ⟨hc, rfl⟩ := hc
    · rw [stackReport.eq_def, hc, ← readHbmWord_of_corrected (port == 15) hc]
      interval_cases stack <;> rfl
    · rw [stackReport.eq_def, hc]
      rfl
  have whole : s.wordBad port (addr / 8) = false := by
    rw [State.wordBad, hm, Bool.or_false]
    obtain ⟨b, hc⟩ | ⟨hc, -⟩ := hc
    · rw [hc]
      rfl
    · rw [hc]
      rfl
  have quiet : (decide (stack = 2) && s.wordClass (addr / 8) != .uncorrectable) = false := by
    rw [decide_eq_false h2.ne, Bool.false_and]
  rw [hbmReadDoneOp_eight h8, report, whole, quiet, if_neg Bool.false_ne_true, if_neg Bool.false_ne_true]

theorem writtenBack_spec (port w : Nat) {s : State} (h : s.fget F.SRM_CHK_CTL_MODE ≠ 1) :
    (writtenBack port w s).hbm = s.hbm.withWord w 0 ((List.range 8).map (fun i => (8 * w + i, s.readByte (8 * w + i)))) ∧
    (writtenBack port w s).flag F.HBM_EVENTS_CE = true ∧
    (writtenBack port w s).fget F.HBM_CE_COUNT_COUNT = satAdd 32 (s.fget F.HBM_CE_COUNT_COUNT) 1 ∧
    BlockFrame [.hbm, .mem, .keel] [0x09, 0x0A] s (writtenBack port w s) := by
  obtain ⟨hbm, event, count, -, mode, rest⟩ := countedCe_spec w s
  rw [writtenBack, State.mergeBytes_nil]
  generalize countedCe w s = u at hbm event count mode rest ⊢
  rw [State.storeWord_of_unarmed _ _ _ (mode.trans_ne h), hbm]
  generalize s.hbm.withWord w 0 _ = x
  have stores := frame_setHbm [] u x
  have spends := frame_spendMark [] port w { u with hbm := x }
  refine ⟨spends.1 .hbm (by decide), ?_, ?_, ?_⟩
  · rw [spends.flag _ (by simp) (by decide), stores.flag _ (by simp) (by decide), event]
  · rw [spends.fget _ (by simp) (by decide), stores.fget _ (by simp) (by decide), count]
  · exact ((rest.mono (by decide) (fun _ h => h)).trans ((BlockFrame.parts stores).mono (by decide) (fun _ h => h))).trans
      ((BlockFrame.parts spends).mono (by decide) (fun _ h => h))

/-! #### A word that cannot be corrected -/

/-- The report of an uncorrectable word w that a port read (R314): its count, and its port and who found it. -/
structure UeReported (scrub stack : Bool) (port w : Nat) (s t : State) : Prop where
  event : t.flag F.HBM_EVENTS_UE = true
  count : t.fget F.HBM_UE_COUNT_COUNT = satAdd 32 (s.fget F.HBM_UE_COUNT_COUNT) 1
  addr : t.pair F.HBM_ERR_ADDR_LO_ADDR F.HBM_ERR_ADDR_HI_ADDR = 8 * w
  port : t.fget F.HBM_ERR_INFO_PORT = port
  valid : t.flag F.HBM_ERR_INFO_VALID = true
  scrub : t.flag F.HBM_ERR_INFO_SCRUB = scrub
  stack : t.flag F.HBM_ERR_INFO_STACK = stack
  rest : BlockFrame [.mem, .arb, .keel] [0x09, 0x0A] s t

/-- The word of HBM_ERR_INFO for a port and the scrub. -/
theorem errInfo_fields {port : Nat} (scrub : Bool) (h : port < 16) (s : State) :
    let t := s.setReg R.HBM_ERR_INFO (BitVec.ofNat 32 (port % 16 + bitOf scrub * 2 ^ 4 + 2 ^ 31))
    t.fget F.HBM_ERR_INFO_PORT = port ∧ t.flag F.HBM_ERR_INFO_VALID = true ∧ t.flag F.HBM_ERR_INFO_SCRUB = scrub ∧
      t.flag F.HBM_ERR_INFO_STACK = false := by
  intro t
  have word (lo width : Nat) : t.fget ⟨R.HBM_ERR_INFO, lo, width⟩ =
      fieldOf lo width (BitVec.ofNat 32 (port % 16 + bitOf scrub * 2 ^ 4 + 2 ^ 31)) :=
    State.fget_setReg_self s ⟨R.HBM_ERR_INFO, lo, width⟩ _
  have all : ∀ port < 16, ∀ scrub : Bool, fieldOf 0 4 (BitVec.ofNat 32 (port % 16 + bitOf scrub * 2 ^ 4 + 2 ^ 31)) = port ∧
      fieldOf 31 1 (BitVec.ofNat 32 (port % 16 + bitOf scrub * 2 ^ 4 + 2 ^ 31)) = 1 ∧
      fieldOf 4 1 (BitVec.ofNat 32 (port % 16 + bitOf scrub * 2 ^ 4 + 2 ^ 31)) = bitOf scrub ∧
      fieldOf 5 1 (BitVec.ofNat 32 (port % 16 + bitOf scrub * 2 ^ 4 + 2 ^ 31)) = 0 := by decide
  obtain ⟨number, valid, found, stack⟩ := all port h scrub
  refine ⟨(word 0 4).trans number, ?_, ?_, ?_⟩
  · exact congrArg (· != 0) ((word 31 1).trans valid)
  · refine (congrArg (· != 0) ((word 4 1).trans found)).trans ?_
    cases scrub <;> rfl
  · exact congrArg (· != 0) ((word 5 1).trans stack)

theorem noteUe_reported (scrub : Bool) {port w : Nat} (s : State) (hp : port < 16) (hw : 8 * w < 2 ^ 64) :
    UeReported scrub false port w s (noteUe scrub port w s) := by
  let u := ((s.bump F.HBM_UE_COUNT_COUNT).raise F.HBM_EVENTS_UE).setPair F.HBM_ERR_ADDR_LO_ADDR F.HBM_ERR_ADDR_HI_ADDR (8 * w)
  have info : Frame [] [R.HBM_ERR_INFO] u (noteUe scrub port w s) := Frame.setReg _ _ u _ _ (by simp)
  have place : Frame [] [R.HBM_ERR_ADDR_LO, R.HBM_ERR_ADDR_HI] ((s.bump F.HBM_UE_COUNT_COUNT).raise F.HBM_EVENTS_UE) u :=
    (Frame.fset _ _ _ _ _ (by decide)).trans (Frame.fset _ _ _ _ _ (by decide))
  obtain ⟨number, valid, found, stack⟩ := errInfo_fields scrub hp u
  refine ⟨?_, ?_, ?_, number, valid, found, stack, blockFrame_noteUe _ scrub port w s⟩
  · rw [info.flag _ (by decide) (by decide), place.flag _ (by decide) (by decide)]
    exact State.flag_raise_self _ _ (by decide) (by decide)
  · rw [info.fget _ (by decide) (by decide), place.fget _ (by decide) (by decide), State.raise, State.fget_fset_other _ _ _ _ (by decide),
      State.fget_bump_self _ _ (by decide)]
    rfl
  · rw [State.pair, info.fget _ (by decide) (by decide), info.fget _ (by decide) (by decide)]
    exact State.pair_setPair_self _ (by decide) hw

/-- The stack's own report noted beside it (R305). -/
theorem UeReported.raiseStack {scrub b : Bool} {port w : Nat} {s t : State} (h : UeReported scrub b port w s t) :
    UeReported scrub true port w s (t.raise F.HBM_ERR_INFO_STACK) := by
  have other : Frame [] [R.HBM_ERR_INFO] t (t.raise F.HBM_ERR_INFO_STACK) := Frame.raise _ _ t _ (by decide)
  obtain ⟨event, count, addr, port, valid, found, -, rest⟩ := h
  refine ⟨?_, ?_, ?_, ?_, ?_, ?_, State.flag_raise_self _ _ (by decide) (by decide), rest.trans (BlockFrame.raise _ _ _ (by decide))⟩
  · rw [other.flag _ (by decide) (by decide), event]
  · rw [other.fget _ (by decide) (by decide), count]
  · rw [State.pair, other.fget _ (by decide) (by decide), other.fget _ (by decide) (by decide)]
    exact addr
  · rw [State.raise, State.fget_fset_other _ _ _ _ (by decide), port]
  · rw [State.raise, State.flag_fset_other _ _ _ _ (by decide), valid]
  · rw [State.raise, State.flag_fset_other _ _ _ _ (by decide), found]

/-- The report outlasts what writes no register of the HBM block. -/
theorem UeReported.trans {scrub b : Bool} {port w : Nat} {s t u : State} (h : UeReported scrub b port w s t)
    (k : BlockFrame [.mem, .arb, .keel] [0x0A] t u) : UeReported scrub b port w s u := by
  obtain ⟨event, count, addr, port, valid, found, stack, rest⟩ := h
  refine ⟨?_, ?_, ?_, ?_, ?_, ?_, ?_, rest.trans (k.mono (fun _ h => h) (by decide))⟩
  · rw [k.flag _ (by decide) (by decide), event]
  · rw [k.fget _ (by decide) (by decide), count]
  · rw [State.pair, k.fget _ (by decide) (by decide), k.fget _ (by decide) (by decide)]
    exact addr
  · rw [k.fget _ (by decide) (by decide), port]
  · rw [k.flag _ (by decide) (by decide), valid]
  · rw [k.flag _ (by decide) (by decide), found]
  · rw [k.flag _ (by decide) (by decide), stack]

theorem UeReported.proposed {scrub b : Bool} {port w : Nat} {s t : State} (h : UeReported scrub b port w s t) (trigger addr : Nat) :
    UeReported scrub b port w s (proposeHbm trigger addr t) := h.trans ((blockFrame_propose ..).mono (by decide) (fun _ h => h))

theorem UeReported.memAux {scrub b : Bool} {port w : Nat} {s t : State} (h : UeReported scrub b port w s t) (m : MemAux) :
    UeReported scrub b port w s { t with mem := m } := h.trans ((BlockFrame.parts (frame_setMem [] t m)).mono (by decide) (fun _ h => h))

theorem UeReported.returned {scrub b : Bool} {port w : Nat} {s t : State} (h : UeReported scrub b port w s t) (p a n : Nat) :
    UeReported scrub b port w s (returnReads p a n t) :=
  h.trans ((BlockFrame.parts (frame_returnReads [] p a n t)).mono (by decide) (fun _ h => h))

theorem UeReported.idle {scrub b : Bool} {port w : Nat} {s t : State} (h : UeReported scrub b port w s t) (hr : s.running = none) :
    t.running = none := (State.running_congr (h.rest.1 .queue (by decide))).trans hr

theorem readHbmWord_of_uncorrectable (scrub : Bool) {port w : Nat} {s : State} (hc : s.wordClass w = .uncorrectable) (hp : port < 16)
    (hw : 8 * w < 2 ^ 64) : UeReported scrub false port w s (readHbmWord scrub port w s) := by
  have noted : UeReported scrub false port w s (noteRead scrub port w s) := by
    simp only [noteRead, State.countWord, hc]
    split
    · exact noteUe_reported scrub s hp hw
    · exact (noteUe_reported scrub s hp hw).proposed _ _
  have status : (noteRead scrub port w s).reg R.HBM_STATUS = s.reg R.HBM_STATUS := by
    have told : Frame [] [R.HBM_UE_COUNT, R.HBM_EVENTS, R.HBM_ERR_ADDR_LO, R.HBM_ERR_ADDR_HI, R.HBM_ERR_INFO] s (noteUe scrub port w s) :=
      ((((Frame.bump _ _ s _ (by decide)).trans (Frame.raise _ _ _ _ (by decide))).trans (Frame.fset _ _ _ _ _ (by decide))).trans
        (Frame.fset _ _ _ _ _ (by decide))).trans (Frame.setReg _ _ _ _ _ (by decide))
    simp only [noteRead, State.countWord, hc]
    split
    · exact told.2 _ (by decide) (by decide)
    · exact ((frame_proposeHbm _ _ _).2 _ (by decide) (by decide)).trans (told.2 _ (by decide) (by decide))
  have kept : (noteRead scrub port w s).correctWord w = noteRead scrub port w s := by
    simp only [State.correctWord, State.wordClass_congr w (noteRead_hbm scrub port w s) status, hc]
  rw [readHbmWord, kept]
  exact noted.memAux _

theorem hbmReadDoneOp_of_uncorrectable {port addr stack : Nat} {s : State} (h8 : addr % 8 = 0) (hs : stack < 3) (hp : port < 16)
    (hp14 : port ≠ 14) (ha : addr < 2 ^ 64) (hr : s.running = none) (hc : s.wordClass (addr / 8) = .uncorrectable) :
    UeReported (port == 15) (stack == 2) port (addr / 8) s (hbmReadDoneOp port addr 8 stack s) := by
  have read := readHbmWord_of_uncorrectable (port == 15) hc hp (by omega)
  have report : UeReported (port == 15) (stack == 2) port (addr / 8) s (stackReport port (addr / 8) stack s) := by
    rw [stackReport.eq_def, hc]
    interval_cases stack
    · exact read
    · exact read
    · exact read.raiseStack
  have lost : s.wordBad port (addr / 8) = true := by
    rw [State.wordBad, hc]
    rfl
  have quiet : (decide (stack = 2) && s.wordClass (addr / 8) != .uncorrectable) = false := by
    rw [hc]
    exact Bool.and_false _
  have back := report.returned port addr 8
  rw [hbmReadDoneOp_eight h8, quiet, lost, if_neg Bool.false_ne_true, if_pos rfl, readLost_of_idle (back.idle hr) hp14]
  exact back

theorem hbmReadDoneOp_of_spoiled {port addr : Nat} {s : State} (h8 : addr % 8 = 0) (hp : port < 16) (hp14 : port ≠ 14) (ha : addr < 2 ^ 64)
    (hr : s.running = none) (hc : s.wordClass (addr / 8) ≠ .uncorrectable) :
    UeReported (port == 15) true port (addr / 8) s (hbmReadDoneOp port addr 8 2 s) ∧
      (port ≠ 15 → (port, addr / 8) ∈ (hbmReadDoneOp port addr 8 2 s).mem.marked) := by
  have report : stackReport port (addr / 8) 2 s =
      proposeHbm 5 (8 * (addr / 8)) ((noteUe (port == 15) port (addr / 8) s).raise F.HBM_ERR_INFO_STACK) := by
    rw [stackReport.eq_def]
    cases h : s.wordClass (addr / 8) with
    | uncorrectable => exact absurd h hc
    | clean => rfl
    | corrected b => rfl
  have loud : (decide (2 = 2) && s.wordClass (addr / 8) != .uncorrectable) = true := by simpa using hc
  have back := (((noteUe_reported (port == 15) (w := addr / 8) s hp (by omega)).raiseStack).proposed 5 (8 * (addr / 8))).returned port addr 8
  rw [hbmReadDoneOp_eight h8, loud, if_pos rfl, report, spoiledRead_of_idle (back.idle hr) hp14]
  generalize returnReads port addr 8 _ = u at back ⊢
  by_cases h15 : port = 15
  · rw [if_pos h15]
    exact ⟨back, fun h => absurd h15 h⟩
  · rw [if_neg h15]
    exact ⟨back.memAux _, fun _ => List.mem_cons_self⟩

/-! ### The scrub walks (R321, R323) -/

theorem frame_after (rs : List Nat) (s : State) (n : Nat) : Frame [.clock] rs s (s.after n) :=
  Frame.parts _ _ _ _ rfl (fun p hp => by cases p <;> simp_all [Part.same])

/-- A walk's step in time, and whether it is late (R321). -/
def paced (late : Bool) (status event : Fld) (n : Nat) (s : State) : State :=
  State.raiseIf late event ((s.after n).fset status (bitOf late))

theorem paced_spec (late : Bool) {status event : Fld} (n : Nat) (s : State) (hs : status.width = 1 ∧ status.lo + 1 ≤ 32)
    (he : event.width = 1 ∧ event.lo + 1 ≤ 32) (h : status.addr ≠ event.addr) :
    (paced late status event n s).clock = s.clock + n ∧ (paced late status event n s).flag status = late ∧
    (late = true → (paced late status event n s).flag event = true) ∧
    Frame [.clock] [status.addr, event.addr] s (paced late status event n s) := by
  obtain ⟨sw, sb⟩ := hs
  obtain ⟨ew, eb⟩ := he
  have shown : ((s.after n).fset status (bitOf late)).flag status = late := by
    rw [State.flag, State.fget_fset_self _ _ _ (by omega), sw]
    cases late <;> rfl
  have timed : Frame [.clock] [status.addr, event.addr] s ((s.after n).fset status (bitOf late)) :=
    (frame_after _ s n).trans (Frame.fset _ _ _ _ _ (by simp))
  cases late with
  | false => exact ⟨rfl, shown, by simp, timed⟩
  | true =>
    exact ⟨rfl, (State.flag_raise_ne _ h).trans shown, fun _ => State.flag_raise_self _ _ (by omega) (by omega),
      timed.trans (Frame.raise _ _ _ _ (by simp))⟩

/-! #### HBM -/

/-- The time that the walk of HBM takes for a word (R321). -/
def hbmPace (s : State) : Nat := 8 * 64000000000 / (max 1 (s.fget F.HBM_SCRUB_CTL_RATE) * 1048576)

/-- The end of a lap of HBM, with what it corrected and what it could not (R323). -/
def endHbmLap (ce ue : Nat) (s : State) : State :=
  let ms := ((s.clock - s.mem.hbmLapAt) / ticksPerMs).toNat
  let s3 := (s.bump F.HBM_SCRUB_LAPS_COUNT).fset F.HBM_SCRUB_LAP_TIME_MS (min ms (2 ^ 32 - 1))
  let s4 := s3.setReg R.HBM_SCRUB_LAP_ERRS (BitVec.ofNat 32 (min ce 65535 + min ue 65535 * 65536))
  ({ s4.raise F.HBM_EVENTS_SCRUB_LAP with mem := { s4.mem with hbmCe := 0, hbmUe := 0, hbmLapAt := s4.clock } }).setPair
    F.HBM_SCRUB_POS_LO_ADDR F.HBM_SCRUB_POS_HI_ADDR 0

theorem hbmScrubOp_of_clean {late : Bool} {s : State} (he : s.flag F.HBM_SCRUB_CTL_EN = true)
    (hc : s.wordClass (s.pair F.HBM_SCRUB_POS_LO_ADDR F.HBM_SCRUB_POS_HI_ADDR / 8) = .clean)
    (hm : s.mem.marked.contains (15, s.pair F.HBM_SCRUB_POS_LO_ADDR F.HBM_SCRUB_POS_HI_ADDR / 8) = false) :
    hbmScrubOp late s =
      if s.pair F.HBM_SCRUB_POS_LO_ADDR F.HBM_SCRUB_POS_HI_ADDR + 8 < hbmSize then
        (paced late F.HBM_STATUS_SCRUB_LATE F.HBM_EVENTS_SCRUB_LATE (hbmPace s) s).setPair F.HBM_SCRUB_POS_LO_ADDR F.HBM_SCRUB_POS_HI_ADDR
          (s.pair F.HBM_SCRUB_POS_LO_ADDR F.HBM_SCRUB_POS_HI_ADDR + 8)
      else endHbmLap s.mem.hbmCe s.mem.hbmUe (paced late F.HBM_STATUS_SCRUB_LATE F.HBM_EVENTS_SCRUB_LATE (hbmPace s) s) := by
  have class' : (s.after (hbmPace s)).wordClass (s.pair F.HBM_SCRUB_POS_LO_ADDR F.HBM_SCRUB_POS_HI_ADDR / 8) = .clean := hc
  have read : readHbmWord true 15 (s.pair F.HBM_SCRUB_POS_LO_ADDR F.HBM_SCRUB_POS_HI_ADDR / 8) (s.after (hbmPace s)) = s.after (hbmPace s) :=
    readHbmWord_of_clean true class' hm
  rw [hbmPace] at class' read
  rw [hbmScrubOp, he, if_neg (by simp)]
  dsimp only
  rw [class', read, if_neg (show ¬ WordClass.clean = WordClass.uncorrectable from nofun)]
  dsimp only
  rw [← hbmPace, ← paced, State.after_mem, Nat.add_zero, Nat.add_zero]
  have mem : (paced late F.HBM_STATUS_SCRUB_LATE F.HBM_EVENTS_SCRUB_LATE (hbmPace s) s).mem = s.mem := State.raiseIf_mem _ _ _
  generalize paced late F.HBM_STATUS_SCRUB_LATE F.HBM_EVENTS_SCRUB_LATE (hbmPace s) s = u at mem ⊢
  split
  · rw [← mem]
    rfl
  · rfl

theorem endHbmLap_spec (ce ue : Nat) (s : State) :
    (endHbmLap ce ue s).pair F.HBM_SCRUB_POS_LO_ADDR F.HBM_SCRUB_POS_HI_ADDR = 0 ∧ (endHbmLap ce ue s).flag F.HBM_EVENTS_SCRUB_LAP = true ∧
    (endHbmLap ce ue s).fget F.HBM_SCRUB_LAPS_COUNT = satAdd 32 (s.fget F.HBM_SCRUB_LAPS_COUNT) 1 ∧
    (endHbmLap ce ue s).fget F.HBM_SCRUB_LAP_ERRS_CE = min ce 65535 ∧ (endHbmLap ce ue s).fget F.HBM_SCRUB_LAP_ERRS_UE = min ue 65535 ∧
    (endHbmLap ce ue s).mem = { s.mem with hbmCe := 0, hbmUe := 0, hbmLapAt := s.clock } ∧
    Frame [.mem] [R.HBM_SCRUB_POS_LO, R.HBM_SCRUB_POS_HI, R.HBM_SCRUB_LAPS, R.HBM_SCRUB_LAP_TIME, R.HBM_SCRUB_LAP_ERRS, R.HBM_EVENTS]
      s (endHbmLap ce ue s) := by
  let timed := (s.bump F.HBM_SCRUB_LAPS_COUNT).fset F.HBM_SCRUB_LAP_TIME_MS
    (min ((s.clock - s.mem.hbmLapAt) / ticksPerMs).toNat (2 ^ 32 - 1))
  let word := BitVec.ofNat 32 (min ce 65535 + min ue 65535 * 65536)
  have laps : timed.fget F.HBM_SCRUB_LAPS_COUNT = satAdd 32 (s.fget F.HBM_SCRUB_LAPS_COUNT) 1 := by
    rw [State.fget_fset_other _ _ _ _ (by decide), State.fget_bump_self _ _ (by decide)]
    rfl
  have times : Frame [] [R.HBM_SCRUB_LAPS, R.HBM_SCRUB_LAP_TIME] s timed :=
    (Frame.bump _ _ s _ (by decide)).trans (Frame.fset _ _ _ _ _ (by decide))
  have totals : Frame [] [R.HBM_SCRUB_LAP_ERRS] timed (timed.setReg R.HBM_SCRUB_LAP_ERRS word) := Frame.setReg _ _ _ _ _ (by decide)
  have ends : endHbmLap ce ue s = State.setPair { (timed.setReg R.HBM_SCRUB_LAP_ERRS word).raise F.HBM_EVENTS_SCRUB_LAP with
      mem := { s.mem with hbmCe := 0, hbmUe := 0, hbmLapAt := s.clock } } F.HBM_SCRUB_POS_LO_ADDR F.HBM_SCRUB_POS_HI_ADDR 0 := rfl
  have corrected : fieldOf 0 16 word = min ce 65535 := by
    simp only [fieldOf, word, BitVec.toNat_ofNat]
    omega
  have lost : fieldOf 16 16 word = min ue 65535 := by
    simp only [fieldOf, word, BitVec.toNat_ofNat]
    omega
  clear_value timed word
  have ces : (timed.setReg R.HBM_SCRUB_LAP_ERRS word).fget F.HBM_SCRUB_LAP_ERRS_CE = min ce 65535 :=
    (State.fget_setReg_self timed F.HBM_SCRUB_LAP_ERRS_CE word).trans corrected
  have ues : (timed.setReg R.HBM_SCRUB_LAP_ERRS word).fget F.HBM_SCRUB_LAP_ERRS_UE = min ue 65535 :=
    (State.fget_setReg_self timed F.HBM_SCRUB_LAP_ERRS_UE word).trans lost
  generalize timed.setReg R.HBM_SCRUB_LAP_ERRS word = told at totals ends ces ues
  have raises : Frame [] [R.HBM_EVENTS] told (told.raise F.HBM_EVENTS_SCRUB_LAP) := Frame.raise _ _ _ _ (by decide)
  have event : (told.raise F.HBM_EVENTS_SCRUB_LAP).flag F.HBM_EVENTS_SCRUB_LAP = true := State.flag_raise_self _ _ (by decide) (by decide)
  generalize told.raise F.HBM_EVENTS_SCRUB_LAP = raised at raises event ends
  have keeps := frame_setMem [] raised { s.mem with hbmCe := 0, hbmUe := 0, hbmLapAt := s.clock }
  generalize hm : ({ s.mem with hbmCe := 0, hbmUe := 0, hbmLapAt := s.clock } : MemAux) = m at keeps ends ⊢
  have moves : Frame [] [R.HBM_SCRUB_POS_LO, R.HBM_SCRUB_POS_HI] { raised with mem := m } (endHbmLap ce ue s) := by
    rw [ends]
    exact (Frame.fset _ _ _ _ _ (by decide)).trans (Frame.fset _ _ _ _ _ (by decide))
  have position : (endHbmLap ce ue s).pair F.HBM_SCRUB_POS_LO_ADDR F.HBM_SCRUB_POS_HI_ADDR = 0 := by
    rw [ends]
    exact State.pair_setPair_self _ (by decide) (by decide)
  refine ⟨position, ?_, ?_, ?_, ?_, moves.1 .mem (by decide), ?_⟩
  · rw [moves.flag _ (by decide) (by decide), keeps.flag _ (by simp) (by decide), event]
  · rw [moves.fget _ (by decide) (by decide), keeps.fget _ (by simp) (by decide), raises.fget _ (by decide) (by decide),
      totals.fget _ (by decide) (by decide), laps]
  · rw [moves.fget _ (by decide) (by decide), keeps.fget _ (by simp) (by decide), raises.fget _ (by decide) (by decide), ces]
  · rw [moves.fget _ (by decide) (by decide), keeps.fget _ (by simp) (by decide), raises.fget _ (by decide) (by decide), ues]
  · exact ((((times.mono (by simp) (by simp)).trans (totals.mono (by simp) (by simp))).trans (raises.mono (by simp) (by simp))).trans
      (keeps.mono (by simp) (by simp))).trans (moves.mono (by simp) (by simp))

/-! #### The tables -/

/-- The time that the walk of the SRAM takes for a word (R321). -/
def sramPace (s : State) : Nat := 4 * 64000000000 / (max 1 (s.fget F.SRM_CTL_RATE) * 1048576)

/-- The walk reads a table word and goes on to the next one (R321). -/
theorem sramScrubOp_of_word {late : Bool} {a : Nat} {s u : State} (he : s.flag F.SRM_CTL_SCRUB_EN = true)
    (ha : walkTable s.mem.sramPos = some a) (hn : s.mem.sramPos + 1 < walkTables)
    (hu : (List.range 4).foldl (fun u i => readTableByte (a + i) u) (paced late F.SRM_STATUS_SCRUB_LATE F.SRM_EVENTS_SCRUB_LATE (sramPace s) s) = u) :
    sramScrubOp late s = { u with mem := { u.mem with sramPos := s.mem.sramPos + 1 } } := by
  have mem : (paced late F.SRM_STATUS_SCRUB_LATE F.SRM_EVENTS_SCRUB_LATE (sramPace s) s).mem = s.mem := State.raiseIf_mem _ _ _
  rw [sramScrubOp, he, if_neg (by simp)]
  dsimp only
  rw [← sramPace, ← paced, mem, ha]
  dsimp only
  rw [hu, decide_eq_true hn, Bool.true_or, if_pos rfl]

theorem readTableByte_of_clean {a : Nat} {s : State} (h : sparseGet (fun _ => 0) a s.mem.flips = 0) : readTableByte a s = s := by
  rw [readTableByte, h]
  rfl

/-- A word found BAD outside the window, as it is noted and proposed (R319, R326). -/
def notedBad (a : Nat) (s : State) : State :=
  proposeRow 2 0 a (({ s with mem := { s.mem with bad := insertKey a s.mem.bad } }).raise F.SRM_EVENTS_BAD)

theorem flag_bad_saveRepair (s : State) : (saveRepair s).flag F.SRM_EVENTS_BAD = s.flag F.SRM_EVENTS_BAD := by
  cases hv : s.flag F.SRM_REPAIR_CAND_VALID with
  | false => rw [saveRepair, hv, if_pos (by rfl)]
  | true =>
    have drops : Frame [] [R.SRM_REPAIR_CAND] s (s.setReg R.SRM_REPAIR_CAND 0#32) := Frame.setReg _ _ s _ _ (by decide)
    rw [saveRepair_eq hv]
    split
    · rw [State.raise, State.flag_fset_other _ _ _ _ (by decide), drops.flag _ (by decide) (by decide)]
    · rw [State.raise, State.flag_fset_other _ _ _ _ (by decide), (frame_keelWrite [] _ _ _).flag _ (by simp) (by decide),
        drops.flag _ (by decide) (by decide)]

theorem flag_bad_propose (kind trigger which : Nat) (addr : Word) (s : State) :
    (propose kind trigger which addr s).flag F.SRM_EVENTS_BAD = s.flag F.SRM_EVENTS_BAD := by
  have held : (heldProposal kind trigger which addr s).flag F.SRM_EVENTS_BAD = s.flag F.SRM_EVENTS_BAD := by
    rw [heldProposal, State.raise, State.flag_fset_other _ _ _ _ (by decide), State.flag_fset_other _ _ _ _ (by decide),
      State.flag_fset_other _ _ _ _ (by decide), State.flag_fset_other _ _ _ _ (by decide), State.flag_fset_other _ _ _ _ (by decide),
      State.flag_fset_other _ _ _ _ (by decide)]
  rw [propose_eq]
  split
  · rfl
  · split
    · rw [flag_bad_saveRepair, held]
    · exact held

theorem notedBad_spec (a : Nat) (s : State) : (notedBad a s).mem = { s.mem with bad := insertKey a s.mem.bad } ∧
    (notedBad a s).flag F.SRM_EVENTS_BAD = true ∧ BlockFrame [.mem, .keel] [0x0A] s (notedBad a s) := by
  have lists := frame_setMem [] s { s.mem with bad := insertKey a s.mem.bad }
  have raises : Frame [] [R.SRM_EVENTS] _ (State.raise { s with mem := { s.mem with bad := insertKey a s.mem.bad } } F.SRM_EVENTS_BAD) :=
    Frame.raise _ _ _ _ (by decide)
  have raised := State.flag_raise_self { s with mem := { s.mem with bad := insertKey a s.mem.bad } } F.SRM_EVENTS_BAD (by decide) (by decide)
  rw [notedBad]
  generalize State.raise { s with mem := { s.mem with bad := insertKey a s.mem.bad } } F.SRM_EVENTS_BAD = u at raises raised ⊢
  have proposes : BlockFrame [.keel] [0x0A] u (proposeRow 2 0 a u) := blockFrame_propose ..
  refine ⟨(proposes.1 .mem (by decide)).trans (raises.1 .mem (by decide)), (flag_bad_propose ..).trans raised, ?_⟩
  exact (((BlockFrame.parts (bs := [0x0A]) lists).mono (by decide) (fun _ h => h)).trans
    ((BlockFrame.of_frame (bs := [0x0A]) raises (by decide)).mono (by simp) (fun _ h => h))).trans
    (proposes.mono (by decide) (fun _ h => h))

theorem markBad_of_idle {a : Nat} {s : State} (ha : a < 0x1000000) (hb : a ∉ s.mem.bad) (hr : s.running = none) :
    (markBad a s).mem = { s.mem with bad := insertKey a s.mem.bad } ∧ (markBad a s).flag F.SRM_EVENTS_BAD = true ∧
    BlockFrame [.mem, .keel, .banks] [0x0A] s (markBad a s) := by
  obtain ⟨mem, event, rest⟩ := notedBad_spec a s
  have noted : BlockFrame [.mem, .keel, .banks] [0x0A] s (notedBad a s) := rest.mono (by decide) (fun _ h => h)
  have eq : ∃ k : Option (TableId × Bank), markBad a s = match k with
      | some (t, b) => (notedBad a s).setBank t b
      | none => notedBad a s := by
    rw [markBad, if_neg (Nat.not_le.mpr ha), List.contains_eq_mem, decide_eq_false hb, if_neg Bool.false_ne_true]
    dsimp only
    rw [← notedBad, hr]
    generalize notedBad a s = u
    split
    · exact ⟨none, rfl⟩
    · split
      next t b _ _ => exact ⟨some (t, _), rfl⟩
      next => exact ⟨none, rfl⟩
  obtain ⟨k, eq⟩ := eq
  rw [eq]
  split
  next t b =>
    have sets := frame_setBank [] (notedBad a s) t b
    exact ⟨(sets.1 .mem (by decide)).trans mem, (sets.flag _ (by simp) (by decide)).trans event,
      noted.trans ((BlockFrame.parts sets).mono (by decide) (fun _ h => h))⟩
  next => exact ⟨mem, event, noted⟩

/-- One byte of a table word that cannot be corrected makes the word BAD (R318, R319). -/
theorem readTableWord_of_bad {a : Nat} {s : State} (h4 : a % 4 = 0) (hu : byteClass (sparseGet (fun _ => 0) a s.mem.flips) = .uncorrectable)
    (hc : ∀ i, 0 < i → i < 4 → sparseGet (fun _ => 0) (a + i) s.mem.flips = 0) (ha : a < 0x1000000) (hb : a ∉ s.mem.bad)
    (hr : s.running = none) : (List.range 4).foldl (fun u i => readTableByte (a + i) u) s = markBad a s := by
  obtain ⟨mem, -, -⟩ := markBad_of_idle ha hb hr
  have first : readTableByte (a + 0) s = markBad a s := by
    rw [readTableByte, Nat.add_zero, hu]
    dsimp only
    rw [Nat.div_mul_cancel (Nat.dvd_of_mod_eq_zero h4)]
  have others (i : Nat) (hi : 0 < i) (h : i < 4) : readTableByte (a + i) (markBad a s) = markBad a s :=
    readTableByte_of_clean (by rw [mem]; exact hc i hi h)
  rw [show List.range 4 = [0, 1, 2, 3] from rfl, List.foldl_cons, first, List.foldl_cons, others 1 (by decide) (by decide), List.foldl_cons,
    others 2 (by decide) (by decide), List.foldl_cons, others 3 (by decide) (by decide), List.foldl_nil]

theorem readTableWord_of_clean {a : Nat} {s : State} (h : ∀ i < 4, sparseGet (fun _ => 0) (a + i) s.mem.flips = 0) :
    (List.range 4).foldl (fun u i => readTableByte (a + i) u) s = s := by
  rw [show List.range 4 = [0, 1, 2, 3] from rfl, List.foldl_cons, readTableByte_of_clean (h 0 (by decide)), List.foldl_cons,
    readTableByte_of_clean (h 1 (by decide)), List.foldl_cons, readTableByte_of_clean (h 2 (by decide)), List.foldl_cons,
    readTableByte_of_clean (h 3 (by decide)), List.foldl_nil]

/-! ### RESTORE (R320) -/

theorem frame_putTableWord (a : Nat) (v : Word) (s : State) : Frame [.crw] [a] s (putTableWord a v s) := by
  unfold putTableWord
  split
  · exact frame_setCrw _ _ _
  · exact Frame.setReg _ _ _ _ _ (by simp)

/-- A tap word is written through its field's mask. -/
theorem putTableWord_kernelTap {b g m : Nat} (hb : b < 2) (hg : g < 3) (hm : m < 151) (v : Word) (s : State) :
    putTableWord (R.DOS_KRN_TAP b g m) v s = s.setReg (R.DOS_KRN_TAP b g m) (v &&& 0xFFFF#32) := by
  obtain ⟨off, place⟩ := tableAt_kernelTap hb hg hm
  rw [putTableWord, place, descOf_kernelTap hb hg hm]
  rfl

theorem kernelTap_apart {b g m : Nat} (hb : b < 2) (hg : g < 3) (hm : m < 151) : R.DOS_KRN_TAP b g m ∉ [R.SRM_EVENTS, R.SRM_CHK_CTL] ∧
    recorderReg (R.DOS_KRN_TAP b g m) = false := by
  have all : ∀ b < 2, ∀ g < 3, ∀ m < 151, recorderReg (R.DOS_KRN_TAP b g m) = false := by decide +kernel
  refine ⟨?_, all b hb g hg m hm⟩
  simp only [R.DOS_KRN_TAP, R.SRM_EVENTS, R.SRM_CHK_CTL, List.mem_cons, List.not_mem_nil, or_false]
  omega

/-- Fresh check bits for a table word leave the list of BAD words (R317, R327). -/
theorem freshTable_bad (hit : Nat → Bool) (s : State) : (freshTable hit s).mem.bad = s.mem.bad := by
  unfold freshTable
  dsimp only
  split
  · rfl
  · rw [State.fset_mem]

/-- The word of a RESTORE written afresh with its check bits. -/
def restoredWord (a : Nat) (s : State) : State :=
  freshTable (fun x => decide (a ≤ x ∧ x < a + 4)) (putTableWord a (s.reg R.SRM_RESTORE_DATA) s)

theorem frame_restoredWord (a : Nat) (s : State) : Frame [.crw, .mem] [a, R.SRM_CHK_CTL] s (restoredWord a s) :=
  ((frame_putTableWord a _ s).mono (by simp) (by simp)).trans ((frame_freshTable _ _).mono (by simp) (by simp))

theorem restoredWord_bad (a : Nat) (s : State) : (restoredWord a s).mem.bad = s.mem.bad :=
  (freshTable_bad _ _).trans (congrArg MemAux.bad ((frame_putTableWord a _ s).1 .mem (by decide)))

theorem restoredWord_kernelTap {b g m : Nat} (hb : b < 2) (hg : g < 3) (hm : m < 151) (s : State) :
    (restoredWord (R.DOS_KRN_TAP b g m) s).reg (R.DOS_KRN_TAP b g m) = s.reg R.SRM_RESTORE_DATA &&& 0xFFFF#32 ∧
    (restoredWord (R.DOS_KRN_TAP b g m) s).crw = s.crw := by
  obtain ⟨apart, recorded⟩ := kernelTap_apart hb hg hm
  rw [restoredWord, putTableWord_kernelTap hb hg hm]
  have fresh := frame_freshTable (fun x => decide (R.DOS_KRN_TAP b g m ≤ x ∧ x < R.DOS_KRN_TAP b g m + 4))
    (s.setReg (R.DOS_KRN_TAP b g m) (s.reg R.SRM_RESTORE_DATA &&& 0xFFFF#32))
  exact ⟨(fresh.2 _ (fun h => apart (List.mem_cons_of_mem _ h)) recorded).trans (State.reg_setReg_self _ _ _), fresh.1 .crw (by decide)⟩

theorem restoreOp_of_bad {s : State} (h : s.fget F.SRM_RESTORE_ADDR_OFFSET ∈ s.mem.bad) : restoreOp s =
    { (restoredWord (s.fget F.SRM_RESTORE_ADDR_OFFSET) s).raise F.SRM_EVENTS_RESTORED with
      mem := { (restoredWord (s.fget F.SRM_RESTORE_ADDR_OFFSET) s).mem with
        bad := (restoredWord (s.fget F.SRM_RESTORE_ADDR_OFFSET) s).mem.bad.filter (fun x => x != s.fget F.SRM_RESTORE_ADDR_OFFSET) } } := by
  rw [restoreOp, List.contains_eq_mem, decide_eq_true h, if_pos rfl]
  rfl

theorem restoreOp_of_good {s : State} (h : s.fget F.SRM_RESTORE_ADDR_OFFSET ∉ s.mem.bad) :
    restoreOp s = s.raise F.SRM_EVENTS_RESTORE_REFUSED := by
  rw [restoreOp, List.contains_eq_mem, decide_eq_false h, if_neg Bool.false_ne_true]

theorem restoreOp_spec {a : Nat} {s : State} (ha : s.fget F.SRM_RESTORE_ADDR_OFFSET = a) (h : a ∈ s.mem.bad) :
    (∀ b, b ∈ (restoreOp s).mem.bad ↔ b ∈ s.mem.bad ∧ b ≠ a) ∧ (restoreOp s).flag F.SRM_EVENTS_RESTORED = true ∧
    (∀ b g m, b < 2 → g < 3 → m < 151 → a = R.DOS_KRN_TAP b g m →
      (restoreOp s).reg a = s.reg R.SRM_RESTORE_DATA &&& 0xFFFF#32 ∧ (restoreOp s).crw = s.crw) ∧
    Frame [.crw, .mem] [a, R.SRM_EVENTS, R.SRM_CHK_CTL] s (restoreOp s) := by
  have writes := frame_restoredWord a s
  have bad := restoredWord_bad a s
  have taps {b g m : Nat} (hb : b < 2) (hg : g < 3) (hm : m < 151) (e : a = R.DOS_KRN_TAP b g m) :
      (restoredWord a s).reg a = s.reg R.SRM_RESTORE_DATA &&& 0xFFFF#32 ∧ (restoredWord a s).crw = s.crw :=
    e ▸ restoredWord_kernelTap hb hg hm s
  rw [restoreOp_of_bad (ha ▸ h), ha]
  generalize restoredWord a s = u at writes bad taps ⊢
  have raises : Frame [] [R.SRM_EVENTS] u (u.raise F.SRM_EVENTS_RESTORED) := Frame.raise _ _ _ _ (by decide)
  have event : (u.raise F.SRM_EVENTS_RESTORED).flag F.SRM_EVENTS_RESTORED = true := State.flag_raise_self _ _ (by decide) (by decide)
  generalize u.raise F.SRM_EVENTS_RESTORED = v at raises event ⊢
  have lists := frame_setMem [] v { u.mem with bad := u.mem.bad.filter (fun x => x != a) }
  refine ⟨fun b => ?_, (lists.flag _ (by simp) (by decide)).trans event, fun b g m hb hg hm e => ?_, ?_⟩
  · rw [List.mem_filter, bad, bne_iff_ne]
  · obtain ⟨tap, crw⟩ := taps hb hg hm e
    obtain ⟨apart, recorded⟩ := kernelTap_apart hb hg hm
    rw [← e] at apart recorded
    refine ⟨(lists.2 a (by simp) recorded).trans ((raises.2 a (fun h => apart ?_) recorded).trans tap), (raises.1 .crw (by simp)).trans crw⟩
    exact List.mem_cons.mpr (.inl (List.mem_singleton.mp h))
  · exact ((writes.mono (fun _ h => h) (by simp)).trans (raises.mono (by simp) (by simp))).trans (lists.mono (by simp) (by simp))

/-! ### Settled -/

theorem pair_settled (s u : State) (q : List Instr) (lo hi : Fld) (hl : recorderReg lo.addr = false) (hh : recorderReg hi.addr = false) :
    State.pair { settle s.begin u with pending := q } lo hi = u.pair lo hi := by
  rw [State.pair, State.pair, fget_settled _ _ _ _ hl, fget_settled _ _ _ _ hh]

/-- What HBM_READ_DONE leaves of an uncorrectable word (R314). -/
theorem UeReported.settled {scrub b : Bool} {port addr : Nat} {s u : State} (h8 : addr % 8 = 0)
    (h : UeReported scrub b port (addr / 8) s.begin u) :
    let t : State := { settle s.begin u with pending := s.pending }
    t.hbm = s.hbm ∧ t.flag F.HBM_EVENTS_UE = true ∧ t.fget F.HBM_UE_COUNT_COUNT = satAdd 32 (s.fget F.HBM_UE_COUNT_COUNT) 1 ∧
      t.pair F.HBM_ERR_ADDR_LO_ADDR F.HBM_ERR_ADDR_HI_ADDR = addr ∧ t.fget F.HBM_ERR_INFO_PORT = port ∧
      t.flag F.HBM_ERR_INFO_VALID = true ∧ t.flag F.HBM_ERR_INFO_SCRUB = scrub ∧ t.flag F.HBM_ERR_INFO_STACK = b ∧
      BlockFrame [.mem, .arb, .keel] [0x09, 0x0A] s t := by
  intro t
  obtain ⟨event, count, place, number, valid, found, stack, rest⟩ := h
  refine ⟨(settle_hbm _ _).trans (rest.1 .hbm (by decide)), (flag_settled _ _ _ _ rfl).trans event, (fget_settled _ _ _ _ rfl).trans count,
    (pair_settled _ _ _ _ _ rfl rfl).trans (place.trans ?_), (fget_settled _ _ _ _ rfl).trans number, (flag_settled _ _ _ _ rfl).trans valid,
    (flag_settled _ _ _ _ rfl).trans found, (flag_settled _ _ _ _ rfl).trans stack, BlockFrame.settled _ rest⟩
  exact Nat.mul_div_cancel' (Nat.dvd_of_mod_eq_zero h8)

end Sys2Proof.Machine
end

section
/-! PROOF. HBM_READ_DONE, HBM_SCRUB_STEP, SRAM_SCRUB_STEP and RESTORE (R305, R314, R318 to R323). -/

namespace Sys2Proof.Machine

/-! ### HBM_READ_DONE -/

section
variable {s : State} {port addr : Nat} (hp : port < 16) (ha : addr + 8 ≤ 96 * 2 ^ 30) (h8 : addr % 8 = 0)

include hp ha in
theorem readDone_wf {stack : Nat} (hs : stack < 3) : (Instr.hbmReadDone port addr ⟨8, stack⟩).wf = true :=
  decide_eq_true ⟨hp, Nat.zero_lt_succ 7, ha, hs⟩

include hp ha h8 in
theorem completes_readDone_clean (hm : s.mem.marked.contains (port, addr / 8) = false) (hc : s.wordClass (addr / 8) = .clean) :
    Completes (.hbmReadDone port addr ⟨8, 0⟩) s (fun t =>
      t.arb = { s.arb with reads := s.arb.reads.set port (s.arb.reads.getD port 0 - 1) } ∧ Frame [.arb] [] s t) := by
  refine completes_of_wf _ rfl (readDone_wf hp ha (by decide)) ?_
  have back : hbmReadDoneOp port addr 8 0 s.begin = returnReads port addr 8 s.begin := hbmReadDoneOp_of_clean h8 hc hm
  dsimp only
  rw [back]
  refine ⟨(settle_arb _ _).trans ?_, Frame.settled _ (frame_returnReads _ _ _ _ _)⟩
  rw [returnReads, stridesOf_eight h8]
  rfl

include hp ha h8 in
theorem completes_readDone_corrected {stack : Nat} (hs : stack < 2) (hm : s.mem.marked.contains (port, addr / 8) = false)
    (hf : s.fget F.SRM_CHK_CTL_MODE ≠ 1)
    (hc : (∃ b, s.wordClass (addr / 8) = .corrected b) ∨ (s.wordClass (addr / 8) = .clean ∧ stack = 1)) :
    Completes (.hbmReadDone port addr ⟨8, stack⟩) s (fun t =>
      t.hbmChk (addr / 8) = 0 ∧ (∀ i < 8, t.hbmByte (addr + i) = s.readByte (addr + i)) ∧
      (∀ a, a < addr ∨ addr + 8 ≤ a → t.hbmByte a = s.hbmByte a) ∧ t.flag F.HBM_EVENTS_CE = true ∧
      t.fget F.HBM_CE_COUNT_COUNT = satAdd 32 (s.fget F.HBM_CE_COUNT_COUNT) 1 ∧
      BlockFrame [.hbm, .mem, .arb, .keel] [0x09, 0x0A] s t) := by
  refine completes_of_wf _ rfl (readDone_wf hp ha (by omega)) ?_
  have back : hbmReadDoneOp port addr 8 stack s.begin = returnReads port addr 8 (writtenBack port (addr / 8) s.begin) :=
    hbmReadDoneOp_of_correctable h8 hs hm hc
  obtain ⟨hbm, event, count, rest⟩ := writtenBack_spec port (addr / 8) (s := s.begin) hf
  dsimp only
  rw [back]
  generalize writtenBack port (addr / 8) s.begin = u at hbm event count rest
  have returns := frame_returnReads [] port addr 8 u
  have stored := ((settle_hbm s.begin (returnReads port addr 8 u)).trans (returns.1 .hbm (by decide))).trans hbm
  have place : 8 * (addr / 8) = addr := Nat.mul_div_cancel' (Nat.dvd_of_mod_eq_zero h8)
  refine ⟨hbmChk_withWord stored, fun i hi => ?_, fun a h => ?_, ?_, ?_, BlockFrame.settled _ ?_⟩
  · have read := hbmByte_withWord_self (f := s.begin.readByte) (t := { settle s.begin (returnReads port addr 8 u) with pending := s.pending }) hi stored
    rw [place] at read
    exact read
  · exact hbmByte_withWord_outside (s := s.begin) (f := s.begin.readByte) (by rw [place]; exact h) stored
  · exact (flag_settled _ _ _ _ rfl).trans ((returns.flag _ (by simp) (by decide)).trans event)
  · exact (fget_settled _ _ _ _ rfl).trans ((returns.fget _ (by simp) (by decide)).trans count)
  · exact (rest.mono (by decide) (fun _ h => h)).trans ((BlockFrame.parts returns).mono (by decide) (fun _ h => h))

include hp ha h8 in
theorem completes_readDone_lost {stack : Nat} (hs : stack < 3) (hr : s.running = none) (h14 : port ≠ 14)
    (hc : s.wordClass (addr / 8) = .uncorrectable ∨ stack = 2) :
    Completes (.hbmReadDone port addr ⟨8, stack⟩) s (fun t => t.hbm = s.hbm ∧
      t.flag F.HBM_EVENTS_UE = true ∧ t.fget F.HBM_UE_COUNT_COUNT = satAdd 32 (s.fget F.HBM_UE_COUNT_COUNT) 1 ∧
      t.pair F.HBM_ERR_ADDR_LO_ADDR F.HBM_ERR_ADDR_HI_ADDR = addr ∧ t.fget F.HBM_ERR_INFO_PORT = port ∧
      t.flag F.HBM_ERR_INFO_VALID = true ∧ t.flag F.HBM_ERR_INFO_SCRUB = (port == 15) ∧ t.flag F.HBM_ERR_INFO_STACK = (stack == 2) ∧
      (s.wordClass (addr / 8) ≠ .uncorrectable → port ≠ 15 → (port, addr / 8) ∈ t.mem.marked) ∧
      BlockFrame [.mem, .arb, .keel] [0x09, 0x0A] s t) := by
  refine completes_of_wf _ rfl (readDone_wf hp ha hs) ?_
  have small : addr < 2 ^ 64 := by omega
  have reported : UeReported (port == 15) (stack == 2) port (addr / 8) s.begin (hbmReadDoneOp port addr 8 stack s.begin) ∧
      (s.wordClass (addr / 8) ≠ .uncorrectable → port ≠ 15 → (port, addr / 8) ∈ (hbmReadDoneOp port addr 8 stack s.begin).mem.marked) := by
    by_cases hu : s.wordClass (addr / 8) = .uncorrectable
    · exact ⟨hbmReadDoneOp_of_uncorrectable (s := s.begin) h8 hs hp h14 small hr hu, fun h => absurd hu h⟩
    · obtain rfl := hc.resolve_left hu
      obtain ⟨report, marks⟩ := hbmReadDoneOp_of_spoiled (s := s.begin) h8 hp h14 small hr hu
      exact ⟨report, fun _ => marks⟩
  dsimp only
  generalize hbmReadDoneOp port addr 8 stack s.begin = u at reported
  obtain ⟨report, marks⟩ := reported
  obtain ⟨hbm, event, count, place, number, valid, found, stk, rest⟩ := report.settled h8
  refine ⟨hbm, event, count, place, number, valid, found, stk, fun h h15 => ?_, rest⟩
  rw [show State.mem { settle s.begin u with pending := s.pending } = u.mem from settle_mem _ _]
  exact marks h h15

end

/-! ### The walks -/

theorem completes_hbmScrub (late : Bool) {s : State} (he : s.flag F.HBM_SCRUB_CTL_EN = true)
    (hc : s.wordClass (s.pair F.HBM_SCRUB_POS_LO_ADDR F.HBM_SCRUB_POS_HI_ADDR / 8) = .clean)
    (hm : s.mem.marked.contains (15, s.pair F.HBM_SCRUB_POS_LO_ADDR F.HBM_SCRUB_POS_HI_ADDR / 8) = false)
    (hn : s.pair F.HBM_SCRUB_POS_LO_ADDR F.HBM_SCRUB_POS_HI_ADDR + 8 < hbmSize) :
    Completes (.hbmScrubStep late) s (fun t => t.clock = s.clock + hbmPace s ∧
      t.pair F.HBM_SCRUB_POS_LO_ADDR F.HBM_SCRUB_POS_HI_ADDR = s.pair F.HBM_SCRUB_POS_LO_ADDR F.HBM_SCRUB_POS_HI_ADDR + 8 ∧
      t.flag F.HBM_STATUS_SCRUB_LATE = late ∧ (late = true → t.flag F.HBM_EVENTS_SCRUB_LATE = true) ∧
      Frame [.clock] [R.HBM_SCRUB_POS_LO, R.HBM_SCRUB_POS_HI, R.HBM_STATUS, R.HBM_EVENTS] s t) := by
  refine completes_of _ rfl ?_
  have steps := (hbmScrubOp_of_clean (late := late) (s := s.begin) he hc hm).trans (if_pos hn)
  obtain ⟨clock, shown, event, rest⟩ := paced_spec late (status := F.HBM_STATUS_SCRUB_LATE) (event := F.HBM_EVENTS_SCRUB_LATE)
    (hbmPace s.begin) s.begin (by decide) (by decide) (by decide)
  rw [steps]
  generalize paced late F.HBM_STATUS_SCRUB_LATE F.HBM_EVENTS_SCRUB_LATE (hbmPace s.begin) s.begin = u at clock shown event rest ⊢
  have moves : Frame [] [R.HBM_SCRUB_POS_LO, R.HBM_SCRUB_POS_HI] u (u.setPair F.HBM_SCRUB_POS_LO_ADDR F.HBM_SCRUB_POS_HI_ADDR
      (s.begin.pair F.HBM_SCRUB_POS_LO_ADDR F.HBM_SCRUB_POS_HI_ADDR + 8)) :=
    (Frame.fset _ _ _ _ _ (by decide)).trans (Frame.fset _ _ _ _ _ (by decide))
  have small : s.begin.pair F.HBM_SCRUB_POS_LO_ADDR F.HBM_SCRUB_POS_HI_ADDR + 8 < 2 ^ 64 := hn.trans (by decide)
  refine ⟨(settle_clock _ _).trans ((moves.1 .clock (by decide)).trans clock), (pair_settled _ _ _ _ _ rfl rfl).trans
    (State.pair_setPair_self _ (by decide) small), (flag_settled _ _ _ _ rfl).trans ((moves.flag _ (by decide) (by decide)).trans shown),
    fun h => (flag_settled _ _ _ _ rfl).trans ((moves.flag _ (by decide) (by decide)).trans (event h)), Frame.settled _ ?_⟩
  exact (rest.mono (fun _ h => h) (by decide)).trans (moves.mono (by simp) (by simp))

theorem completes_hbmLap (late : Bool) {s : State} (he : s.flag F.HBM_SCRUB_CTL_EN = true)
    (hc : s.wordClass (s.pair F.HBM_SCRUB_POS_LO_ADDR F.HBM_SCRUB_POS_HI_ADDR / 8) = .clean)
    (hm : s.mem.marked.contains (15, s.pair F.HBM_SCRUB_POS_LO_ADDR F.HBM_SCRUB_POS_HI_ADDR / 8) = false)
    (hn : hbmSize ≤ s.pair F.HBM_SCRUB_POS_LO_ADDR F.HBM_SCRUB_POS_HI_ADDR + 8) :
    Completes (.hbmScrubStep late) s (fun t => t.clock = s.clock + hbmPace s ∧
      t.pair F.HBM_SCRUB_POS_LO_ADDR F.HBM_SCRUB_POS_HI_ADDR = 0 ∧ t.flag F.HBM_EVENTS_SCRUB_LAP = true ∧
      t.fget F.HBM_SCRUB_LAPS_COUNT = satAdd 32 (s.fget F.HBM_SCRUB_LAPS_COUNT) 1 ∧
      t.fget F.HBM_SCRUB_LAP_ERRS_CE = min s.mem.hbmCe 65535 ∧ t.fget F.HBM_SCRUB_LAP_ERRS_UE = min s.mem.hbmUe 65535 ∧
      t.mem = { s.mem with hbmCe := 0, hbmUe := 0, hbmLapAt := t.clock } ∧
      Frame [.clock, .mem] [R.HBM_SCRUB_POS_LO, R.HBM_SCRUB_POS_HI, R.HBM_SCRUB_LAPS, R.HBM_SCRUB_LAP_TIME, R.HBM_SCRUB_LAP_ERRS,
        R.HBM_STATUS, R.HBM_EVENTS] s t) := by
  refine completes_of _ rfl ?_
  have steps := (hbmScrubOp_of_clean (late := late) (s := s.begin) he hc hm).trans (if_neg hn.not_gt)
  obtain ⟨clock, -, -, rest⟩ := paced_spec late (status := F.HBM_STATUS_SCRUB_LATE) (event := F.HBM_EVENTS_SCRUB_LATE)
    (hbmPace s.begin) s.begin (by decide) (by decide) (by decide)
  rw [steps]
  generalize paced late F.HBM_STATUS_SCRUB_LATE F.HBM_EVENTS_SCRUB_LATE (hbmPace s.begin) s.begin = u at clock rest ⊢
  obtain ⟨position, event, laps, ces, ues, mem, ends⟩ := endHbmLap_spec s.begin.mem.hbmCe s.begin.mem.hbmUe u
  have clock' := (settle_clock s.begin _).trans (ends.1 .clock (by decide))
  refine ⟨clock'.trans clock, (pair_settled _ _ _ _ _ rfl rfl).trans position, (flag_settled _ _ _ _ rfl).trans event,
    (fget_settled _ _ _ _ rfl).trans (laps.trans ?_), (fget_settled _ _ _ _ rfl).trans ces, (fget_settled _ _ _ _ rfl).trans ues,
    (settle_mem _ _).trans (mem.trans ?_), Frame.settled _ ?_⟩
  · rw [rest.fget _ (by decide) (by decide)]
    rfl
  · rw [show u.mem = s.mem from rest.1 .mem (by decide)]
    exact congrArg (fun c => ({ s.mem with hbmCe := 0, hbmUe := 0, hbmLapAt := c } : MemAux)) clock'.symm
  · exact (rest.mono (by decide) (by decide)).trans (ends.mono (by decide) (by decide))

section
variable (late : Bool) {a : Nat} {s : State} (he : s.flag F.SRM_CTL_SCRUB_EN = true) (hw : walkTable s.mem.sramPos = some a)
  (hn : s.mem.sramPos + 1 < walkTables)

include he hw hn in
theorem completes_sramScrub_clean (hc : ∀ i < 4, sparseGet (fun _ => 0) (a + i) s.mem.flips = 0) :
    Completes (.sramScrubStep late) s (fun t => t.clock = s.clock + sramPace s ∧
      t.mem = { s.mem with sramPos := s.mem.sramPos + 1 } ∧ t.flag F.SRM_STATUS_SCRUB_LATE = late ∧
      (late = true → t.flag F.SRM_EVENTS_SCRUB_LATE = true) ∧ Frame [.clock, .mem] [R.SRM_STATUS, R.SRM_EVENTS] s t) := by
  refine completes_of _ rfl ?_
  obtain ⟨clock, shown, event, rest⟩ := paced_spec late (status := F.SRM_STATUS_SCRUB_LATE) (event := F.SRM_EVENTS_SCRUB_LATE)
    (sramPace s.begin) s.begin (by decide) (by decide) (by decide)
  have mem : (paced late F.SRM_STATUS_SCRUB_LATE F.SRM_EVENTS_SCRUB_LATE (sramPace s.begin) s.begin).mem = s.mem := rest.1 .mem (by decide)
  have steps := sramScrubOp_of_word (late := late) (s := s.begin) he hw hn (readTableWord_of_clean (by rw [mem]; exact hc))
  rw [steps, mem]
  generalize paced late F.SRM_STATUS_SCRUB_LATE F.SRM_EVENTS_SCRUB_LATE (sramPace s.begin) s.begin = u at clock shown event rest
  have moves := frame_setMem [] u { s.mem with sramPos := s.begin.mem.sramPos + 1 }
  exact ⟨(settle_clock _ _).trans clock, settle_mem _ _, (flag_settled _ _ _ _ rfl).trans ((moves.flag _ (by simp) (by decide)).trans shown),
    fun h => (flag_settled _ _ _ _ rfl).trans ((moves.flag _ (by simp) (by decide)).trans (event h)),
    Frame.settled _ ((rest.mono (by decide) (by decide)).trans (moves.mono (by decide) (by simp)))⟩

include he hw hn in
theorem completes_sramScrub_bad (h4 : a % 4 = 0) (hu : byteClass (sparseGet (fun _ => 0) a s.mem.flips) = .uncorrectable)
    (hc : ∀ i, 0 < i → i < 4 → sparseGet (fun _ => 0) (a + i) s.mem.flips = 0) (hb : a ∉ s.mem.bad) (ha : a < 0x1000000)
    (hr : s.running = none) : Completes (.sramScrubStep late) s (fun t =>
      a ∈ t.mem.bad ∧ t.flag F.SRM_EVENTS_BAD = true ∧ t.mem.sramPos = s.mem.sramPos + 1 ∧
      BlockFrame [.clock, .mem, .keel, .banks] [0x0A] s t) := by
  refine completes_of _ rfl ?_
  obtain ⟨-, -, -, rest⟩ := paced_spec late (status := F.SRM_STATUS_SCRUB_LATE) (event := F.SRM_EVENTS_SCRUB_LATE)
    (sramPace s.begin) s.begin (by decide) (by decide) (by decide)
  have steps (v : State) := sramScrubOp_of_word (late := late) (s := s.begin) (u := v) he hw hn
  generalize paced late F.SRM_STATUS_SCRUB_LATE F.SRM_EVENTS_SCRUB_LATE (sramPace s.begin) s.begin = u at rest steps
  have mem : u.mem = s.mem := rest.1 .mem (by decide)
  have idle : u.running = none := (State.running_congr (rest.1 .queue (by decide))).trans hr
  have word := readTableWord_of_bad h4 (by rw [mem]; exact hu) (by rw [mem]; exact hc) ha (by rw [mem]; exact hb) idle
  obtain ⟨listed, event, marks⟩ := markBad_of_idle ha (by rw [mem]; exact hb) idle
  rw [steps _ word]
  generalize markBad a u = v at listed event marks
  have moves := frame_setMem [] v { v.mem with sramPos := s.begin.mem.sramPos + 1 }
  have mem' := settle_mem s.begin { v with mem := { v.mem with sramPos := s.begin.mem.sramPos + 1 } }
  refine ⟨?_, (flag_settled _ _ _ _ rfl).trans ((moves.flag _ (by simp) (by decide)).trans event), congrArg MemAux.sramPos mem',
    BlockFrame.settled _ ?_⟩
  · have there : a ∈ v.mem.bad := by
      rw [listed]
      exact mem_insertKey_self _ _
    exact (congrArg MemAux.bad mem').symm ▸ there
  · exact (((BlockFrame.of_frame (bs := [0x0A]) rest (by decide)).mono (by decide) (fun _ h => h)).trans (marks.mono (by decide) (fun _ h => h))).trans
      ((BlockFrame.parts moves).mono (by decide) (fun _ h => h))

end

theorem completes_restore {s : State} (h : s.fget F.SRM_RESTORE_ADDR_OFFSET ∈ s.mem.bad) : Completes .restore s (fun t =>
    s.fget F.SRM_RESTORE_ADDR_OFFSET ∉ t.mem.bad ∧
    (∀ b, b ≠ s.fget F.SRM_RESTORE_ADDR_OFFSET → (b ∈ t.mem.bad ↔ b ∈ s.mem.bad)) ∧ t.flag F.SRM_EVENTS_RESTORED = true ∧
    (∀ b g m, b < 2 → g < 3 → m < 151 → s.fget F.SRM_RESTORE_ADDR_OFFSET = R.DOS_KRN_TAP b g m →
      t.reg (s.fget F.SRM_RESTORE_ADDR_OFFSET) = s.reg R.SRM_RESTORE_DATA &&& 0xFFFF#32 ∧ t.crw = s.crw) ∧
    Frame [.crw, .mem] [s.fget F.SRM_RESTORE_ADDR_OFFSET, R.SRM_EVENTS, R.SRM_CHK_CTL] s t) := by
  refine completes_of _ rfl ?_
  obtain ⟨bad, event, taps, rest⟩ := restoreOp_spec (s := s.begin) rfl h
  generalize restoreOp s.begin = u at bad event taps rest
  have bad' (b : Nat) : b ∈ (State.mem { settle s.begin u with pending := s.pending }).bad ↔
      b ∈ s.mem.bad ∧ b ≠ s.fget F.SRM_RESTORE_ADDR_OFFSET := by
    rw [show State.mem { settle s.begin u with pending := s.pending } = u.mem from settle_mem _ _]
    exact bad b
  refine ⟨fun m => ((bad' _).mp m).2 rfl, fun b hb => (bad' b).trans (and_iff_left hb), (flag_settled _ _ _ _ rfl).trans event,
    fun b g m hb hg hm e => ?_, Frame.settled _ rest⟩
  obtain ⟨tap, crw⟩ := taps b g m hb hg hm e
  obtain ⟨-, recorded⟩ := kernelTap_apart hb hg hm
  exact ⟨(settle_reg _ _ _ (by rw [e]; exact recorded)).trans tap, (settle_crw _ _).trans crw⟩

/-- Settles O48: a read, a scrub step and a RESTORE by the class of their word and its place in the walk. -/
theorem readsScrubAndRestore : Obligations.ReadsScrubAndRestore := by
  unfold Obligations.ReadsScrubAndRestore
  intro s
  refine ⟨fun port addr stack hp hs ha h8 hr h14 hm hf => ⟨fun hc h0 => ?_, fun h2 hc => ?_, fun hc => ?_⟩,
    fun late he => ?_, fun late a he hw h4 hn => ⟨fun hc => ?_, fun hu hc hb ha hr => ?_⟩, fun hb => ?_, fun hb => completes_restore hb⟩
  · subst h0
    exact completes_readDone_clean hp ha h8 hm hc
  · exact completes_readDone_corrected hp ha h8 h2 hm hf hc
  · exact completes_readDone_lost hp ha h8 hs hr h14 hc
  · exact fun hc hm => ⟨completes_hbmScrub late he hc hm, completes_hbmLap late he hc hm⟩
  · exact completes_sramScrub_clean late he hw hn hc
  · exact completes_sramScrub_bad late he hw hn h4 hu hc hb ha hr
  · refine completes_of _ rfl ?_
    rw [restoreOp_of_good (s := s.begin) hb]
    exact ⟨(flag_settled _ _ _ _ rfl).trans (State.flag_raise_self _ _ (by decide) (by decide)), Frame.settled _ (Frame.raise _ _ _ _ (by decide))⟩

end Sys2Proof.Machine
end
